-- ==== Sys2Proof/Word.lean ====
section
/-! DEFINITION. The plain words the model is written in: bytes, machine words and the two sparse shapes
in which the State keeps keyed data. Nothing here has behaviour of the hardware. -/

namespace Sys2Proof

/-- One byte. -/
abbrev Byte := BitVec 8

/-- A 64-bit machine word: a scalar register, a control-page register, an atomic operand. -/
abbrev Word := BitVec 64

/-- An FP32 word: a vector lane, a cell accumulator. -/
abbrev Word32 := BitVec 32

/-- Sparse words by a Nat key: strictly rising keys, no entry equal to zero, zero where nothing is listed. -/
abbrev Sparse (w : Nat) := List (Nat × BitVec w)

/-- Objects by number: strictly rising keys; an object the list does not name does not exist
(or holds its default, where the field's docstring says so). -/
abbrev Table (α : Type) := List (Nat × α)

end Sys2Proof
end

