-- ==== Sys2Proof/Operand.lean ====
section
/-! DEFINITION. The operands of the commands: mailbox commands, frames as they arrive, instruction words, and the
inputs the environment gives with an event. They are data about what comes from outside; they have no behaviour. -/

namespace Sys2Proof

/-- The path, and the mailbox on it, by which a command comes (R72): a HOST pair, an entry of the FABRIC management
queue, or the BOARD window. -/
inductive Path where
  | host (pair : Fin 8)
  | fabric (entry : Fin 16)
  | board
  deriving DecidableEq, Repr

/-- A mailbox command without its opcode, which the command's row fixes: the path, the other fields of the 32-byte
header (R80) and the inline payload that follows it (with `INDIRECT`, the 16-byte reference of R82). -/
structure Cmd where
  /-- Path and mailbox (R72). -/
  path : Path
  /-- `flags` (R80). -/
  flags : BitVec 16 := 0
  /-- `sequence` (R80). -/
  sequence : BitVec 32 := 0
  /-- `payload_length` (R80). -/
  payloadLength : BitVec 32 := 0
  /-- `stage_set` (R80). -/
  stageSet : BitVec 16 := 0xFFFF
  /-- The reserved field at offset 14 (R80). -/
  reserved : BitVec 16 := 0
  /-- `deadline` (R80). -/
  deadline : BitVec 64 := 0
  /-- `tag` (R80). -/
  tag : BitVec 64 := 0
  /-- Payload bytes after the header. -/
  payload : List Byte := []
  deriving DecidableEq, Repr

/-- A transport frame as it is decoded after FEC (R309, R311), without its opcode, which the command's row fixes. -/
structure Frame where
  /-- FCS and, with IPv6/UDP, the checksum are right (R310, R319). -/
  checksumOk : Bool := true
  /-- `version` (R311). -/
  version : Byte := 1
  /-- `flags` (R311). -/
  flags : BitVec 16 := 0
  /-- `dst_device` (R311). -/
  dst : BitVec 32 := 0
  /-- `src_device` (R311). -/
  src : BitVec 32 := 0
  /-- `conn` (R311). -/
  conn : BitVec 32 := 0
  /-- `gen` (R311). -/
  gen : BitVec 16 := 0
  /-- `payload_length` (R311). -/
  payloadLength : BitVec 16 := 0
  /-- `psn` (R311). -/
  psn : BitVec 32 := 0
  /-- `ack_psn` (R311). -/
  ackPsn : BitVec 32 := 0
  /-- `map_version` (R311). -/
  mapVersion : BitVec 32 := 0
  /-- `send_stamp` (R311). -/
  sendStamp : BitVec 64 := 0
  /-- `fold` (R311). -/
  fold : BitVec 16 := 0
  /-- `class` (R311). -/
  cls : Byte := 3
  /-- The reserved byte at offset 43 (R311). -/
  reserved : Byte := 0
  /-- `resp_psn` (R311). -/
  respPsn : BitVec 32 := 0
  /-- Extension header bytes (R312). -/
  ext : List Byte := []
  /-- Payload bytes. -/
  payload : List Byte := []
  /-- The frame carries an ECN congestion mark (R312, R325). -/
  ce : Bool := false
  deriving DecidableEq, Repr

/-- A thread of a block (R62): the agent a sequencer instruction issues from. -/
structure ThreadId where
  /-- Block 0 to 1,023. -/
  block : Fin 1024
  /-- Thread 0 to 15. -/
  thread : Fin 16
  deriving DecidableEq, Repr

/-- A sequencer instruction word without its opcode bits [63:56], which the command's row fixes (R136). -/
structure IWord where
  /-- Field a, bits [55:51]. -/
  a : BitVec 5 := 0
  /-- Field b, bits [50:46]. -/
  b : BitVec 5 := 0
  /-- Field c, bits [45:41]. -/
  c : BitVec 5 := 0
  /-- Class fields, bits [40:0]. -/
  k : BitVec 41 := 0
  deriving DecidableEq, Repr

/-- A ring descriptor's 64 bytes without its type byte, which the command's row fixes, and the ring it stands in. -/
structure Desc where
  /-- Ring 0 to 16,383 (R326). -/
  ring : Fin 16384
  /-- Bytes 1 to 63 of the descriptor at the ring's head (R328). -/
  bytes : List Byte := List.replicate 63 0
  deriving DecidableEq, Repr

/-- One measurement of R475 and R527: package power, group currents (0.1 A), and the junction readings of the 32 dies
in units of 1/4 degree, die d of `POWER_STATUS` order. -/
structure PowerReading where
  /-- P in mW. -/
  powerMw : Nat := 0
  /-- Rail-group currents 0 to 7 in 0.1 A; none for a group whose AVSBus transaction failed twice (R497). -/
  groups : List (Option Nat) := []
  /-- Junction readings of dies 0 to 31. -/
  tj : List Int := []
  deriving DecidableEq, Repr

/-- A DIMM as its SPD describes it (R510): an RDIMM of 6,400 MT/s or an MRDIMM of 8,800 MT/s. -/
structure Dimm where
  /-- An MRDIMM. -/
  mrdimm : Bool := false
  /-- Capacity in GiB. -/
  gib : Nat := 256
  /-- An x80 ECC module of its type's speed with two 40-bit subchannels. -/
  x80 : Bool := true
  deriving DecidableEq, Repr

/-- One DDR5 channel at step 10 of a boot (R510, R511). -/
structure TierChannel where
  /-- Slot 0, the nearer one. -/
  slot0 : Option Dimm := none
  /-- Slot 1. -/
  slot1 : Option Dimm := none
  /-- The channel trains. -/
  trains : Bool := true
  deriving DecidableEq, Repr

/-- What the flash, fuses and straps make of a boot (R448, R450): for each slot the outcome of the checks that rest on
cryptography or on the flash's contents are computed by the model; the environment gives the straps and the DIMMs. -/
structure BootInputs where
  /-- OWN_PRIO pins (R506). -/
  ownPrio : BitVec 2 := 0
  /-- BOOT_SEL pins (R506). -/
  bootSel : BitVec 2 := 0
  /-- The sixteen DDR5 channels with their DIMMs (R510, R511). -/
  dimms : List TierChannel := List.replicate 16 { slot0 := some {}, slot1 := some {} }
  /-- Port links that trained (bit 2 × port + link), R486 step 12. -/
  linksUp : BitVec 64 := 0
  /-- Host die started in SAFE (R451). -/
  hostInSafe : Bool := false
  deriving DecidableEq, Repr

/-- Who accesses a control page (R514, R521): a host core, the fabric manager, or the board management controller. -/
inductive PageAgent where
  | host (core : Fin 48)
  | fabric
  | board
  deriving DecidableEq, Repr

/-- A load or store of a host core to device memory (R174, R442): a naturally aligned access of 1, 2, 4 or 8 bytes, or
one of a cache line of 64. -/
structure HostAccess where
  /-- Store (true) or load. -/
  store : Bool
  /-- Local address (R24). -/
  address : BitVec 64
  /-- Bytes of a load; a store has as many as `data`. -/
  size : Nat := 8
  /-- Bytes stored. -/
  data : List Byte := []
  /-- The core's mapping is cacheable (R27). -/
  cached : Bool := false
  deriving DecidableEq, Repr

/-- An error a unit detects and retries once (R422, R426): what its record says; `level` is that of its code (R426). -/
structure ErrorReport where
  /-- Source number of the reader. -/
  source : BitVec 40 := 0
  /-- Paddock affected; 0xFF for none. -/
  paddock : Byte := 0xFF
  /-- `code`. -/
  code : BitVec 16 := 2
  /-- `sub`. -/
  sub : BitVec 16 := 0
  /-- `aux`. -/
  aux : BitVec 32 := 0
  /-- `where`. -/
  addr : BitVec 64 := 0
  /-- For a memory error, the bits of the 80-bit word that are in error (R419, R420). -/
  flips : BitVec 80 := 7
  /-- Ticks from the first detection to the return of the retry (R422). -/
  retryTicks : BitVec 32 := 0
  /-- Connection whose context was read, for a reader that is a context cache (R423). -/
  conn : BitVec 20 := 0
  deriving DecidableEq, Repr

end Sys2Proof
end

