-- ==== Sys2Proof/Syntax.lean ====
section
/-! DEFINITION. The commands of the block, one constructor for each row of spec/opcode_table.json in the table's
order. A mailbox command carries its envelope, a ring descriptor its 64 bytes, a sequencer instruction the thread that
issues it and its word, a frame the port link it arrives on and its contents; an event carries what the environment
decides about it. -/

namespace Sys2Proof

/-- Everything the device can be commanded to do (R106 and the rows of the opcode table). -/
inductive Instr where
  /-- IDENTIFY (R94): Command that returns the part, stepping, device id, serial, device state and firmware digest. -/
  | identify (c : Cmd)
  /-- MBX_NEXT (R79): Command that fetches the next part of a long response on the same mailbox. -/
  | mbxNext (c : Cmd)
  /-- DEVICE_ID_SET (R95): Staged command that commits the device id at the commit instant. -/
  | deviceIdSet (c : Cmd)
  /-- OWN_CLAIM (R88): Command that claims ownership; it opens or joins a claim window, or renews or conflicts with a live lease. -/
  | ownClaim (c : Cmd)
  /-- OWN_RENEW (R90): Command that renews the owner's lease. -/
  | ownRenew (c : Cmd)
  /-- OWN_RELEASE (R93): Command by which the owner gives up the device; its open and checked stage sets are aborted. -/
  | ownRelease (c : Cmd)
  /-- OWN_HANDOVER (R92): Command that opens a handover offer to a named master with an acceptance deadline. -/
  | ownHandover (c : Cmd)
  /-- OWN_ACCEPT (R92): Command by which the target of an open offer takes ownership. -/
  | ownAccept (c : Cmd)
  /-- OWN_STATUS (R91): Command that returns the owner, the lease, the claim and offer timers and the stage-set counts. -/
  | ownStatus (c : Cmd)
  /-- OWN_FABRIC_BIND (R459): Staged command that binds or unbinds the fabric manager, after checking a signed proof. -/
  | ownFabricBind (c : Cmd)
  /-- STAGE_OPEN (R99): Command that opens a new stage set and returns its id. -/
  | stageOpen (c : Cmd)
  /-- STAGE_CHECK (R101): Command that checks a set against the projected configuration and makes it CHECKED or returns CONFLICT. -/
  | stageCheck (c : Cmd)
  /-- STAGE_COMMIT (R101): Command that checks the lead of an instant T and the projection at T, and commits a CHECKED set. -/
  | stageCommit (c : Cmd)
  /-- STAGE_ABORT (R102): Command that discards an open or checked set, or a committed set early enough before its instant. -/
  | stageAbort (c : Cmd)
  /-- STAGE_STATUS (R98): Command that reports the state, owner, size and instant of a kept stage set. -/
  | stageStatus (c : Cmd)
  /-- PADDOCK_CREATE (R366): Staged command that creates a paddock from its descriptor. -/
  | paddockCreate (c : Cmd)
  /-- PADDOCK_DESTROY (R373): Staged command that removes a paddock and releases its windows, hurdles and network bells. -/
  | paddockDestroy (c : Cmd)
  /-- PADDOCK_MODIFY (R372): Staged command that replaces a paddock's descriptor. -/
  | paddockModify (c : Cmd)
  /-- PADDOCK_WINDOW_SET (R370): Staged command that replaces a paddock's whole set of memory windows. -/
  | paddockWindowSet (c : Cmd)
  /-- PADDOCK_PREEMPT (R390): Command that preempts a paddock in BOUNDARY or IMMEDIATE mode and holds it. -/
  | paddockPreempt (c : Cmd)
  /-- PADDOCK_RESUME (R391): Command that releases a HELD paddock to SAVED, WAITING or VACANT and ranks it again. -/
  | paddockResume (c : Cmd)
  /-- PADDOCK_STATUS (R392): Command that returns a snapshot of a paddock's state and its preemption counters. -/
  | paddockStatus (c : Cmd)
  /-- IMAGE_REGISTER (R178): Command that reads, checks and registers a schedule image and reserves its claims. -/
  | imageRegister (c : Cmd)
  /-- IMAGE_INFO (R180): Command that returns a registered image's header, state and window gaps. -/
  | imageInfo (c : Cmd)
  /-- IMAGE_RETIRE (R180): Command that releases an image's claims and handle unless it is loading or resident. -/
  | imageRetire (c : Cmd)
  /-- FOLD_JOIN (R291): Staged command that joins a paddock to a fold. -/
  | foldJoin (c : Cmd)
  /-- FOLD_LEAVE (R291): Staged command that removes a paddock from a fold, with a drain window. -/
  | foldLeave (c : Cmd)
  /-- FOLD_MAP_SET (R292): Staged command that installs a new version of a fold map. -/
  | foldMapSet (c : Cmd)
  /-- FOLD_STATUS (R305): Command that returns a fold's map versions, drain end, counts, policy and members. -/
  | foldStatus (c : Cmd)
  /-- FOLD_METER (R304): Command that returns the resident and active ticks and drove counters of a fold and its paddocks. -/
  | foldMeter (c : Cmd)
  /-- QUEUE_CREATE (R326): Staged command that creates a queue ring with its completion ring. -/
  | queueCreate (c : Cmd)
  /-- QUEUE_DESTROY (R326): Staged command that stops a ring from taking descriptors and frees it once they drain. -/
  | queueDestroy (c : Cmd)
  /-- QUEUE_STATUS (R326): Command that returns a ring's state, counters and stall address. -/
  | queueStatus (c : Cmd)
  /-- CONN_OPEN (R313): Staged command that opens one end of a connection. -/
  | connOpen (c : Cmd)
  /-- CONN_CLOSE (R315): Staged command that moves a connection to CLOSING, or to IDLE from ERROR. -/
  | connClose (c : Cmd)
  /-- CONN_STATUS (R315): Command that returns a connection's state, window, delays, PSNs and counters. -/
  | connStatus (c : Cmd)
  /-- EXPOSE_CREATE (R330): Staged command that creates an exposure of paddock memory under a key. -/
  | exposeCreate (c : Cmd)
  /-- EXPOSE_REVOKE (R331): Staged command that revokes an exposure, with a grace time. -/
  | exposeRevoke (c : Cmd)
  /-- EXPOSE_STATUS (R331): Command that returns an exposure's state, times and counters. -/
  | exposeStatus (c : Cmd)
  /-- PORT_CONFIG (R307): Staged command that sets a port's mode, encapsulation, maps and medium. -/
  | portConfig (c : Cmd)
  /-- PORT_STATUS (R308): Command that returns the state and counters of a port's links. -/
  | portStatus (c : Cmd)
  /-- TRAFFIC_CLASS_SET (R361): Staged command that sets the W-class weights of a port or of a window arbiter. -/
  | trafficClassSet (c : Cmd)
  /-- TRAFFIC_POLICER_SET (R355): Staged command that sets a ring's two-rate three-colour policer. -/
  | trafficPolicerSet (c : Cmd)
  /-- TRAFFIC_SHAPER_SET (R357): Staged command that sets a class's credit-based shaper on a port. -/
  | trafficShaperSet (c : Cmd)
  /-- TRAFFIC_GATE_LIST (R359): Staged command that sets a port's gate control list. -/
  | trafficGateList (c : Cmd)
  /-- TRAFFIC_OVERHEAD_SET (R352): Staged command that sets a port's per-frame byte overhead for scheduling. -/
  | trafficOverheadSet (c : Cmd)
  /-- TRAFFIC_STATUS (R365): Command that returns port, ring or window-arbiter scheduling counters. -/
  | trafficStatus (c : Cmd)
  /-- DROVE_CONFIG (R302): Staged command that sets a paddock's default pull deadline and free-set stacks. -/
  | droveConfig (c : Cmd)
  /-- DROVE_STATUS (R303): Command that returns a paddock's drove counts and free-set counts. -/
  | droveStatus (c : Cmd)
  /-- PREFIX_CONFIG (R296): Staged command that sets a paddock's prefix-tree table and owner array. -/
  | prefixConfig (c : Cmd)
  /-- PREFIX_STATUS (R303): Command that returns a paddock's prefix-tree node counts. -/
  | prefixStatus (c : Cmd)
  /-- BALE_CODEBOOK_LOAD (R247): Command that writes a codebook record into a codebook slot. -/
  | baleCodebookLoad (c : Cmd)
  /-- BALE_CODEBOOK_BUILD (R248): Command that starts building a codebook from raw sample blocks and makes the slot BUILDING. -/
  | baleCodebookBuild (c : Cmd)
  /-- BALE_CODEBOOK_STATUS (R250): Command that returns codebook slot states and, on request, their records. -/
  | baleCodebookStatus (c : Cmd)
  /-- BALE_TENSOR_SET (R251): Staged command that sets paddock-wide tensor bindings. -/
  | baleTensorSet (c : Cmd)
  /-- SERVE_CONFIG (R394): Staged command that sets a paddock's serving configuration and key-value layout. -/
  | serveConfig (c : Cmd)
  /-- SERVE_MASK_LOAD (R407): Command that checks and loads a grammar automaton. -/
  | serveMaskLoad (c : Cmd)
  /-- SERVE_MASK_RETIRE (R407): Command that retires a grammar unless a step in flight uses it. -/
  | serveMaskRetire (c : Cmd)
  /-- SERVE_STATUS (R418): Command that returns a paddock's serving phase and counters. -/
  | serveStatus (c : Cmd)
  /-- BELL_READ (R203): Command that returns snapshots of a range of bells. -/
  | bellRead (c : Cmd)
  /-- HURDLE_READ (R203): Command that returns snapshots of a range of hurdles. -/
  | hurdleRead (c : Cmd)
  /-- FAULT_RING_SET (R430): Staged command that sets the memory mirror of the fault ring. -/
  | faultRingSet (c : Cmd)
  /-- FAULT_READ (R431): Command that returns fault-ring records and counters. -/
  | faultRead (c : Cmd)
  /-- FAULT_CLEAR (R438): Command that clears and reloads a FAULTED paddock, or clears ended chip flags. -/
  | faultClear (c : Cmd)
  /-- FAULT_INJECT (R440): Command that arms one injected fault for test. -/
  | faultInject (c : Cmd)
  /-- ATTEST_REPORT (R463): Command that returns a signed attestation report. -/
  | attestReport (c : Cmd)
  /-- ATTEST_CERTS (R464): Command that returns the chosen certificates. -/
  | attestCerts (c : Cmd)
  /-- WORLD_SET (R443): Staged command that sets the worlds of host cores, mailbox pairs and the FABRIC path. -/
  | worldSet (c : Cmd)
  /-- WORLD_STATUS (R444): Command that returns the world settings in force and their origin. -/
  | worldStatus (c : Cmd)
  /-- POWER_STATE_SET (R483): Command that enters STANDBY, returns to READY, or schedules a WARM or RESTART reset. -/
  | powerStateSet (c : Cmd)
  /-- POWER_LIMIT_SET (R477): Staged command that sets the power limit, the rail-group current limit and the THERM_N threshold. -/
  | powerLimitSet (c : Cmd)
  /-- POWER_STATUS (R488): Command that returns a power, temperature and throttling snapshot. -/
  | powerStatus (c : Cmd)
  /-- CLOCK_REGION_SET (R470): Staged command that sets a region's CCLK, its sleep time and its deep-sleep permission. -/
  | clockRegionSet (c : Cmd)
  /-- CLOCK_STATUS (R489): Command that returns clock sources and per-region clock state. -/
  | clockStatus (c : Cmd)
  /-- CLOCK_TALLY_CONFIG (R60): Staged command that sets the device's role and parents in the Tally tree. -/
  | clockTallyConfig (c : Cmd)
  /-- CLOCK_TALLY_STATUS (R61): Command that returns the Tally state, offset, delay and holdover. -/
  | clockTallyStatus (c : Cmd)
  /-- FW_INFO (R453): Command that returns the boot record and the state of both firmware slots. -/
  | fwInfo (c : Cmd)
  /-- FW_WRITE (R454): Command that writes data into a firmware slot of the boot flash. -/
  | fwWrite (c : Cmd)
  /-- FW_ACTIVATE (R455): Command that puts a slot on trial or confirms the running slot and blows fuses. -/
  | fwActivate (c : Cmd)
  /-- TRACE_CONFIG (R523): Staged command that sets the trace filters. -/
  | traceConfig (c : Cmd)
  /-- TRACE_READ (R525): Command that returns trace entries. -/
  | traceRead (c : Cmd)
  /-- NOP_DESCRIPTOR (R328): Ring descriptor that does nothing and completes. -/
  | nopDescriptor (d : Desc)
  /-- WRITE_DESCRIPTOR (R329): Ring descriptor that writes local data to a peer's memory over a connection. -/
  | writeDescriptor (d : Desc)
  /-- READ_DESCRIPTOR (R329): Ring descriptor that reads a peer's memory into a local buffer. -/
  | readDescriptor (d : Desc)
  /-- ATOMIC_DESCRIPTOR (R329): Ring descriptor that performs a remote atomic on a peer's word. -/
  | atomicDescriptor (d : Desc)
  /-- SEND_DESCRIPTOR (R329): Ring descriptor that sends a message to a peer's posted receive buffer. -/
  | sendDescriptor (d : Desc)
  /-- RECV (R329): Ring descriptor that posts a receive buffer for arriving SEND messages. -/
  | recv (d : Desc)
  /-- WAIT (R329): Ring descriptor that waits for a ring's completion count or consumes a network bell. -/
  | wait (d : Desc)
  /-- IMAGE_LOAD (R181): Ring descriptor that writes an image's code and tables into the paddock's blocks for a switch. -/
  | imageLoad (d : Desc)
  /-- DROVE_CREATE (R283): Ring descriptor that writes a request-state record OWNED at epoch 1. -/
  | droveCreate (d : Desc)
  /-- DROVE_OFFER (R284): Ring descriptor that offers an owned record under a plan and makes it HANDING with deadline D. -/
  | droveOffer (d : Desc)
  /-- DROVE_PULL (R285): Ring descriptor that pulls a record or pages from a source, or copies pages. -/
  | drovePull (d : Desc)
  /-- DROVE_RELEASE (R286): Ring descriptor that ends an owned record and frees its pages, locally and at the holders. -/
  | droveRelease (d : Desc)
  /-- PREFIX_LOOKUP (R298): Ring descriptor that walks the prefix tree and writes the matched sets as a page table. -/
  | prefixLookup (d : Desc)
  /-- PREFIX_INSERT (R299): Ring descriptor that adds missing chunks to the prefix tree. -/
  | prefixInsert (d : Desc)
  /-- PREFIX_UNPIN (R300): Ring descriptor that removes one pin from a prefix node. -/
  | prefixUnpin (d : Desc)
  /-- PREFIX_EVICT (R300): Ring descriptor that evicts unpinned leaf nodes with the oldest last use. -/
  | prefixEvict (d : Desc)
  /-- TIER_MOVE (R301): Ring descriptor that moves bales or raw blocks between the tier and HBM. -/
  | tierMove (d : Desc)
  /-- PAGE_SELECT (R233): Ring descriptor that selects the most relevant page sets with a top-k unit. -/
  | pageSelect (d : Desc)
  /-- STEP (R396): Ring descriptor that is checked and queued as one serving step over a batch of slots. -/
  | step (d : Desc)
  /-- STEP_START (R402): START phase: it classifies the lanes, adds page sets, writes the step area and rings start_bell. -/
  | stepStart (paddock : Fin 64)
  /-- STEP_MASK (R408): MASK phase, started by the draft bell: the automata walk the drafts and write rows and mask references. -/
  | stepMask (paddock : Fin 64)
  /-- STEP_SAMPLE (R412): SAMPLE phase, started by the sample bell: it samples and verifies tokens, updates records and writes completions. -/
  | stepSample (paddock : Fin 64)
  /-- STEP_DEADLINE (R397): A step's deadline passes before START begins, and the step completes TIMED_OUT. -/
  | stepDeadline (paddock : Fin 64)
  /-- NOP (R136): Instruction that does nothing. -/
  | nop (t : ThreadId) (w : IWord)
  /-- HALT (R131): Instruction that makes the thread IDLE. -/
  | halt (t : ThreadId) (w : IWord)
  /-- JUMP (R137): Instruction that jumps relative to the PC. -/
  | jump (t : ThreadId) (w : IWord)
  /-- BEQ (R137): Instruction that branches when two registers are equal. -/
  | beq (t : ThreadId) (w : IWord)
  /-- BNE (R137): Instruction that branches when two registers differ. -/
  | bne (t : ThreadId) (w : IWord)
  /-- BLT (R137): Instruction that branches on signed less-than. -/
  | blt (t : ThreadId) (w : IWord)
  /-- BGE (R137): Instruction that branches on signed greater-or-equal. -/
  | bge (t : ThreadId) (w : IWord)
  /-- BLTU (R137): Instruction that branches on unsigned less-than. -/
  | bltu (t : ThreadId) (w : IWord)
  /-- BGEU (R137): Instruction that branches on unsigned greater-or-equal. -/
  | bgeu (t : ThreadId) (w : IWord)
  /-- CALL (R137): Instruction that saves the return PC and jumps. -/
  | call (t : ThreadId) (w : IWord)
  /-- JUMPR (R137): Instruction that saves the return PC and jumps to a register. -/
  | jumpr (t : ThreadId) (w : IWord)
  /-- YIELD (R131): Instruction that puts the thread WAITING for one CCLK. -/
  | yield (t : ThreadId) (w : IWord)
  /-- SLOTWAIT (R137): Instruction that waits until the block slot counter next equals a value. -/
  | slotwait (t : ThreadId) (w : IWord)
  /-- SLOT_COUNTER_MATCH (R137): The block slot counter reaches the value that a SLOTWAIT awaits, and the thread becomes READY. -/
  | slotCounterMatch (t : ThreadId)
  /-- TSTART (R137): Instruction that starts an IDLE thread at a PC. -/
  | tstart (t : ThreadId) (w : IWord)
  /-- ADD (R138): Scalar add instruction. -/
  | add (t : ThreadId) (w : IWord)
  /-- SUB (R138): Scalar subtract instruction. -/
  | sub (t : ThreadId) (w : IWord)
  /-- AND (R138): Scalar AND instruction. -/
  | and (t : ThreadId) (w : IWord)
  /-- OR (R138): Scalar OR instruction. -/
  | or (t : ThreadId) (w : IWord)
  /-- XOR (R138): Scalar XOR instruction. -/
  | xor (t : ThreadId) (w : IWord)
  /-- SLL (R138): Scalar shift-left instruction. -/
  | sll (t : ThreadId) (w : IWord)
  /-- SRL (R138): Scalar logical shift-right instruction. -/
  | srl (t : ThreadId) (w : IWord)
  /-- SRA (R138): Scalar arithmetic shift-right instruction. -/
  | sra (t : ThreadId) (w : IWord)
  /-- MUL (R138): Instruction that returns the low 64 bits of a product. -/
  | mul (t : ThreadId) (w : IWord)
  /-- MULHU (R138): Instruction that returns the high 64 bits of an unsigned product. -/
  | mulhu (t : ThreadId) (w : IWord)
  /-- MIN (R138): Signed scalar minimum instruction. -/
  | min (t : ThreadId) (w : IWord)
  /-- MAX (R138): Signed scalar maximum instruction. -/
  | max (t : ThreadId) (w : IWord)
  /-- SLT (R138): Signed set-less-than instruction. -/
  | slt (t : ThreadId) (w : IWord)
  /-- SLTU (R138): Unsigned set-less-than instruction. -/
  | sltu (t : ThreadId) (w : IWord)
  /-- ADDI (R138): Add-immediate instruction. -/
  | addi (t : ThreadId) (w : IWord)
  /-- ANDI (R138): AND-immediate instruction. -/
  | andi (t : ThreadId) (w : IWord)
  /-- ORI (R138): OR-immediate instruction. -/
  | ori (t : ThreadId) (w : IWord)
  /-- XORI (R138): XOR-immediate instruction. -/
  | xori (t : ThreadId) (w : IWord)
  /-- SLLI (R138): Shift-left-immediate instruction. -/
  | slli (t : ThreadId) (w : IWord)
  /-- SRLI (R138): Logical shift-right-immediate instruction. -/
  | srli (t : ThreadId) (w : IWord)
  /-- SRAI (R138): Arithmetic shift-right-immediate instruction. -/
  | srai (t : ThreadId) (w : IWord)
  /-- LIH (R138): Instruction that loads an immediate into the high half of a register. -/
  | lih (t : ThreadId) (w : IWord)
  /-- LD (R139): Instruction that loads 8 bytes from the block buffer. -/
  | ld (t : ThreadId) (w : IWord)
  /-- ST (R139): Instruction that stores 8 bytes to the block buffer. -/
  | st (t : ThreadId) (w : IWord)
  /-- MLOADW (R140): Instruction that loads every cell's scratch from the buffer. -/
  | mloadw (t : ThreadId) (w : IWord)
  /-- MMAC (R141): Instruction that runs matrix multiply-accumulate rounds into an accumulator. -/
  | mmac (t : ThreadId) (w : IWord)
  /-- MDRAIN (R143): Instruction that drains an accumulator's column sums to the buffer. -/
  | mdrain (t : ThreadId) (w : IWord)
  /-- MZERO (R133): Instruction that zeroes one accumulator or all of them. -/
  | mzero (t : ThreadId) (w : IWord)
  /-- VLD (R144): Instruction that loads a vector register from the buffer. -/
  | vld (t : ThreadId) (w : IWord)
  /-- VST (R144): Instruction that stores a vector register to the buffer. -/
  | vst (t : ThreadId) (w : IWord)
  /-- VADD (R144): Vector add instruction. -/
  | vadd (t : ThreadId) (w : IWord)
  /-- VSUB (R144): Vector subtract instruction. -/
  | vsub (t : ThreadId) (w : IWord)
  /-- VMUL (R144): Vector multiply instruction. -/
  | vmul (t : ThreadId) (w : IWord)
  /-- VFMA (R144): Vector fused multiply-add instruction. -/
  | vfma (t : ThreadId) (w : IWord)
  /-- VMAX (R144): Vector maximum instruction. -/
  | vmax (t : ThreadId) (w : IWord)
  /-- VMIN (R144): Vector minimum instruction. -/
  | vmin (t : ThreadId) (w : IWord)
  /-- VEXP2 (R125): Vector exp2 instruction. -/
  | vexp2 (t : ThreadId) (w : IWord)
  /-- VRCP (R125): Vector reciprocal instruction. -/
  | vrcp (t : ThreadId) (w : IWord)
  /-- VRSQRT (R125): Vector reciprocal square root instruction. -/
  | vrsqrt (t : ThreadId) (w : IWord)
  /-- VLOG2 (R125): Vector log2 instruction. -/
  | vlog2 (t : ThreadId) (w : IWord)
  /-- VBCAST (R144): Instruction that broadcasts a scalar FP32 value to every lane. -/
  | vbcast (t : ThreadId) (w : IWord)
  /-- VREDMAX (R144): Instruction that reduces a vector to its maximum. -/
  | vredmax (t : ThreadId) (w : IWord)
  /-- VREDSUM (R144): Instruction that reduces a vector to a tree sum. -/
  | vredsum (t : ThreadId) (w : IWord)
  /-- VMOVS (R144): Instruction that moves one lane to a scalar register. -/
  | vmovs (t : ThreadId) (w : IWord)
  /-- VCVT (R144): Instruction that converts 64 lanes to a format and packs them in the buffer. -/
  | vcvt (t : ThreadId) (w : IWord)
  /-- VQMX (R117): Instruction that quantises lanes to two MX groups. -/
  | vqmx (t : ThreadId) (w : IWord)
  /-- VUNPK (R144): Instruction that widens 64 packed elements into a vector register. -/
  | vunpk (t : ThreadId) (w : IWord)
  /-- BSETX (R240): Instruction that sets the thread's bale context. -/
  | bsetx (t : ThreadId) (w : IWord)
  /-- BLOAD (R257): Instruction that starts an unexpanded bale transfer from memory to the buffer. -/
  | bload (t : ThreadId) (w : IWord)
  /-- BSTORE (R252): Instruction that starts baling raw blocks from the buffer to memory. -/
  | bstore (t : ThreadId) (w : IWord)
  /-- BEXPAND (R259): Instruction that starts expanding bales into raw blocks in the buffer. -/
  | bexpand (t : ThreadId) (w : IWord)
  /-- BCOPY (R145): Instruction that starts copying raw 4 KiB blocks between buffer and memory. -/
  | bcopy (t : ThreadId) (w : IWord)
  /-- BALE_TRANSFER_DONE (R146): An asynchronous bale transfer completes, and its bell rings when one is named. -/
  | baleTransferDone (block : Fin 1024) (index : Fin 16)
  /-- AMAX (R148): Instruction that updates a running maximum and writes the rescale factor. -/
  | amax (t : ThreadId) (w : IWord)
  /-- AEXP (R148): Instruction that computes exp2 of a score minus a maximum. -/
  | aexp (t : ThreadId) (w : IWord)
  /-- ARESC (R147): Instruction that rescales and adds with one rounding. -/
  | aresc (t : ThreadId) (w : IWord)
  /-- AMERGE (R147): Instruction that merges two partials' m and l and writes their factors. -/
  | amerge (t : ThreadId) (w : IWord)
  /-- ABIAS (R149): Instruction that adds the bucketed distance bias. -/
  | abias (t : ThreadId) (w : IWord)
  /-- RLOAD (R338): Instruction that loads 8 bytes from a global address. -/
  | rload (t : ThreadId) (w : IWord)
  /-- RSTORE (R338): Instruction that stores 8 bytes to a global address. -/
  | rstore (t : ThreadId) (w : IWord)
  /-- RFLAG (R341): Instruction that makes a flag store which rings a bell at the target. -/
  | rflag (t : ThreadId) (w : IWord)
  /-- RATOM (R338): Instruction that performs a remote atomic. -/
  | ratom (t : ThreadId) (w : IWord)
  /-- RPUT (R338): Instruction that writes buffer data to a global address. -/
  | rput (t : ThreadId) (w : IWord)
  /-- RGET (R338): Instruction that reads global data into the buffer. -/
  | rget (t : ThreadId) (w : IWord)
  /-- REMOTE_LOAD_BOUND (R345): The load bound of an RLOAD, RATOM or RGET expires, and the access ends with all-ones or no bell. -/
  | remoteLoadBound
  /-- BRING (R189): Instruction that rings a block or network bell. -/
  | bring (t : ThreadId) (w : IWord)
  /-- BWAIT (R152): Instruction that waits on a bell threshold, with a timeout. -/
  | bwait (t : ThreadId) (w : IWord)
  /-- BELL_WAIT_TIMEOUT (R194): A BWAIT's timeout passes, and the waiter leaves with s[a] set to 1. -/
  | bellWaitTimeout (t : ThreadId)
  /-- BTRY (R193): Instruction that tries to consume a bell without waiting. -/
  | btry (t : ThreadId) (w : IWord)
  /-- BREAD (R184): Instruction that reads a bell's value. -/
  | bread (t : ThreadId) (w : IWord)
  /-- HARRIVE (R199): Instruction that sends an arrival to a hurdle. -/
  | harrive (t : ThreadId) (w : IWord)
  /-- HWAIT (R200): Instruction that waits for a hurdle round to complete. -/
  | hwait (t : ThreadId) (w : IWord)
  /-- HPASS (R200): Instruction that arrives at a hurdle and waits for that round. -/
  | hpass (t : ThreadId) (w : IWord)
  /-- HURDLE_ARRIVAL (R199): An arrival reaches its hurdle and is applied, which may complete a round and release its waiters. -/
  | hurdleArrival
  /-- WWAIT (R153): Instruction that waits until an edge window next opens. -/
  | wwait (t : ThreadId) (w : IWord)
  /-- WLEFT (R165): Instruction that reads the slots remaining in an open window. -/
  | wleft (t : ThreadId) (w : IWord)
  /-- RDSTAT (R122): Instruction that reads FSTAT. -/
  | rdstat (t : ThreadId) (w : IWord)
  /-- CLRSTAT (R122): Instruction that clears chosen FSTAT bits. -/
  | clrstat (t : ThreadId) (w : IWord)
  /-- VSEED (R154): Instruction that seeds the block's stochastic-rounding generators. -/
  | vseed (t : ThreadId) (w : IWord)
  /-- RDTALLY (R45): Instruction that reads the region's Tally replica. -/
  | rdtally (t : ThreadId) (w : IWord)
  /-- RDID (R62): Instruction that reads the thread's source number. -/
  | rdid (t : ThreadId) (w : IWord)
  /-- RDSLOT (R160): Instruction that reads the block slot counter. -/
  | rdslot (t : ThreadId) (w : IWord)
  /-- BLOCK_FRAME_START (R160): A block frame begins at its Tally multiple, and the slot counter is set to zero. -/
  | blockFrameStart (block : Fin 1024)
  /-- EDGE_WINDOW_OPEN (R172): An opening of an edge window arrives, and waiting WWAIT threads resume. -/
  | edgeWindowOpen (paddock : Fin 64) (window : Fin 255)
  /-- WRITE (R324): WRITE frame received: checked, its data placed, and its message bell rung when the stream is complete. -/
  | write (link : Fin 64) (f : Frame)
  /-- WRITE_FLAG (R324): WRITE_FLAG frame received: held until earlier PSNs are placed, then placed with its bell rung. -/
  | writeFlag (link : Fin 64) (f : Frame)
  /-- READ_REQ (R322): READ_REQ frame received: executed in stream order and answered with READ_RESP. -/
  | readReq (link : Fin 64) (f : Frame)
  /-- READ_RESP (R345): READ_RESP frame received: data written to the register or buffer if in time, and the requester resumed. -/
  | readResp (link : Fin 64) (f : Frame)
  /-- ATOMIC (R323): ATOMIC frame received: executed once, recorded in the atomics cache and answered. -/
  | atomic (link : Fin 64) (f : Frame)
  /-- ATOMIC_RESP (R345): ATOMIC_RESP frame received: the old value is returned to the issuer if in time. -/
  | atomicResp (link : Fin 64) (f : Frame)
  /-- SEND (R329): SEND frame received: it takes the oldest posted RECV of the connection's ring. -/
  | send (link : Fin 64) (f : Frame)
  /-- ACK (R321): ACK frame received: acknowledgement, fast repair, RTT and congestion window update, and completions. -/
  | ack (link : Fin 64) (f : Frame)
  /-- NAK (R321): NAK frame received: a final refusal completes the packet, and a non-final one schedules a resend. -/
  | nak (link : Fin 64) (f : Frame)
  /-- SYNC_REQ (R51): Tally SYNC_REQ received by a parent and answered when the parent is allowed to. -/
  | syncReq (link : Fin 64) (f : Frame)
  /-- SYNC_RESP (R48): Tally SYNC_RESP received by a child and accepted or ignored for the burst's offset. -/
  | syncResp (link : Fin 64) (f : Frame)
  /-- MGMT_CMD (R76): MGMT_CMD frame received from the bound fabric manager and accepted as a command. -/
  | mgmtCmd (link : Fin 64) (f : Frame)
  /-- PEER_NOTE (R436): PEER_NOTE frame received: accepted once and recorded as a PEER_FAULTED event. -/
  | peerNote (link : Fin 64) (f : Frame)
  /-- PULL_PAGES (R274): Drove message at the source that starts writing a receiver's plan range of pages. -/
  | pullPages (link : Fin 64) (f : Frame)
  /-- PAGES_HELD (R274): Drove message at the source from a page receiver that has its pages. -/
  | pagesHeld (link : Fin 64) (f : Frame)
  /-- PULL_RECORD (R274): Drove message at the source, held until all page receivers hold their pages, then answered with RECORD. -/
  | pullRecord (link : Fin 64) (f : Frame)
  /-- RECORD (R274): Drove message at the record receiver: it writes its copy OWNED at epoch plus one with SETTLING and sends CONFIRM. -/
  | record (link : Fin 64) (f : Frame)
  /-- CONFIRM (R275): Drove message at the source: in time, it releases the source and sends RETAG. -/
  | confirm (link : Fin 64) (f : Frame)
  /-- RELEASED (R269): Drove message at a receiver that clears SETTLING and completes the drove. -/
  | released (link : Fin 64) (f : Frame)
  /-- ABORT (R276): Drove message at a receiver that voids the copy and frees what the drove gave. -/
  | abort (link : Fin 64) (f : Frame)
  /-- REFUSE (R278): Drove message at a receiver that ends its pull with a drove code. -/
  | refuse (link : Fin 64) (f : Frame)
  /-- RETAG (R280): Drove message at a holder that sets a table's epoch forward and answers. -/
  | retag (link : Fin 64) (f : Frame)
  /-- RETAG_DONE (R274): Drove message at the source; the last one sends RELEASED and completes the offer. -/
  | retagDone (link : Fin 64) (f : Frame)
  /-- RELEASE_PAGES (R286): Drove message at a holder that frees a remote table if its epoch matches. -/
  | releasePages (link : Fin 64) (f : Frame)
  /-- RELEASE_DONE (R286): Drove message at the owner; the last one completes DROVE_RELEASE. -/
  | releaseDone (link : Fin 64) (f : Frame)
  /-- DROVE_PULL_DEADLINE (R275): The pull deadline D passes with no valid CONFIRM, and the source reverts and sends ABORT. -/
  | drovePullDeadline (record : BitVec 46)
  /-- CONTEXT_FETCH_DONE (R318): A connection context arrives from the backing store, and its waiting packets and descriptors proceed. -/
  | contextFetchDone
  /-- RETRANSMISSION_TIMER (R321): The RTO of the oldest unacknowledged packet expires, and the packet is retransmitted. -/
  | retransmissionTimer (conn : BitVec 20)
  /-- ACK_TIMER (R321): An unacknowledged arrival reaches 800 ticks, and an ACK is sent. -/
  | ackTimer (conn : BitVec 20)
  /-- NAK_RESEND (R321): 8,000 ticks after a RX_FULL or PAGE_WAIT NAK, the packet is sent again. -/
  | nakResend (conn : BitVec 20)
  /-- CONN_GIVE_UP (R321): give_up_us passes without progress, and the connection goes to ERROR. -/
  | connGiveUp (conn : BitVec 20)
  /-- REVOCATION_GRACE_END (R331): The revocation grace ends, and the exposure goes DRAINING. -/
  | revocationGraceEnd (index : BitVec 20)
  /-- FOLD_DRAIN_END (R292): A fold map's drain window ends, and the previous map or leaving paddock is dropped. -/
  | foldDrainEnd (fold : BitVec 16)
  /-- LINK_SELECT (R360): A link finishes a frame or a class becomes eligible, and the next frame is selected. -/
  | linkSelect (link : Fin 64)
  /-- GATE_ENTRY_CHANGE (R358): A port's gate list moves to its next entry and opens or closes classes. -/
  | gateEntryChange (port : Fin 32)
  /-- MBX_DOORBELL (R75): Doorbell write that makes an IDLE mailbox BUSY, or is ignored and sets MBX_ERROR. -/
  | mbxDoorbell (page : PageAgent) (value : Word)
  /-- MBX_DONE (R520): W1C write that returns a DONE mailbox pair to IDLE. -/
  | mbxDone (page : PageAgent) (value : Word)
  /-- MBX_IRQ (R518): Write that sets the mailbox interrupt, refused for a bad value. -/
  | mbxIrq (page : PageAgent) (value : Word)
  /-- BELL_RING (R191): Host store of a ring word that rings a paddock's block bell. -/
  | bellRing (core : Fin 48) (value : Word)
  /-- RING_DOORBELL (R327): Host store to a ring's doorbell slot that posts descriptors and updates the consumed count. -/
  | ringDoorbell (core : Fin 48) (ring : Fin 16384) (value : Word)
  /-- STG_REGISTER_WRITE (R104): Write to an STG field that enters the selected stage set, or is ignored with STG_IGNORED. -/
  | stgRegisterWrite (page : PageAgent) (offset : BitVec 16) (value : Word)
  /-- REGISTER_WRITE (R11): Write to any other control-page register under its access code. -/
  | registerWrite (page : PageAgent) (offset : BitVec 16) (bytes : List Byte)
  /-- HOST_ACCESS (R174): Host-die load or store to device memory through an edge window, or refused with an access fault. -/
  | hostAccess (core : Fin 48) (access : HostAccess)
  /-- STAGE_APPLY (R70): The commit instant of a committed stage set arrives, and its commands apply. -/
  | stageApply
  /-- LEASE_EXPIRY (R90): The owner's lease expires, and the device has no owner. -/
  | leaseExpiry
  /-- CLAIM_WINDOW_END (R88): The claim window ends, and the highest-priority claimant becomes owner. -/
  | claimWindowEnd
  /-- HANDOVER_OFFER_LAPSE (R92): A handover offer's deadline passes without acceptance. -/
  | handoverOfferLapse
  /-- SYNC_BURST (R48): A member's exchange interval arrives, and it runs a burst of sync exchanges with its parent. -/
  | syncBurst
  /-- HOLDOVER_LIMIT (R55): The holdover limit passes, and the Tally enters FREE, or a BACKUP_ROOT becomes the time source. -/
  | holdoverLimit
  /-- LANE_CLOCK_LOSS (R52): The primary lane clock is lost, and a LOCKED Tally enters HOLDOVER. -/
  | laneClockLoss
  /-- TALLY_PPS_IN (R59): A rising edge on TALLY_PPS_IN at a ROOT with PPS_IN marks a second to slew to. -/
  | tallyPpsIn
  /-- PPS_EDGE_MISSED (R53): An expected PPS edge does not come in time and counts as missing. -/
  | ppsEdgeMissed
  /-- TALLY_PPS_OUT (R58): A Tally multiple of 800,000,000 starts a 100 ms pulse on TALLY_PPS_OUT. -/
  | tallyPpsOut
  /-- PADDOCK_WORK (R376): A STEP or IMAGE_LOAD reaches a ring head, so the paddock has work and is ranked, possibly preempting an occupant. -/
  | paddockWork (paddock : Fin 64)
  /-- SLICE_EXPIRY (R379): An occupant's time slice passes while an equal-priority paddock waits, and it is preempted. -/
  | sliceExpiry (paddock : Fin 64)
  /-- PREEMPTION_ESCALATION (R380): The escalation instant passes without a boundary, and the preemption turns IMMEDIATE. -/
  | preemptionEscalation (paddock : Fin 64)
  /-- PREEMPT_STOPPED (R384): A stopping paddock reaches its boundary or has all threads STOPPED, and its save begins. -/
  | preemptStopped (paddock : Fin 64)
  /-- SAVE_DONE (R387): The save of a paddock's blocks completes, and the blocks are cleared and passed on. -/
  | saveDone (paddock : Fin 64)
  /-- RESTORE_DONE (R386): Every block of an incoming paddock is restored. -/
  | restoreDone (paddock : Fin 64)
  /-- PADDOCK_RUNNING (R386): The first frame boundary after the restore arrives, and the paddock becomes RUNNING. -/
  | paddockRunning (paddock : Fin 64)
  /-- IMAGE_LOAD_SWITCH (R181): The image writes end and the switch frame boundary arrives, so the paddock switches images. -/
  | imageLoadSwitch (paddock : Fin 64)
  /-- CODEBOOK_BUILD_DONE (R248): A codebook build's sample reads finish, and the slot becomes READY or reverts. -/
  | codebookBuildDone (paddock : Fin 64) (slot : Fin 4)
  /-- DETECTED_ERROR_RETRY (R422): The one retry of a detected error returns, and the fault is transient or lasting. -/
  | detectedErrorRetry (error : ErrorReport) (retryPasses : Bool)
  /-- STILE_FLIT_REPLAY (R16): A stile flit fails its CRC and is replayed from the retry buffer. -/
  | stileFlitReplay (stile : Fin 40) (replayPasses : Bool)
  /-- LOCKSTEP_MISMATCH (R423): A Shepherd core pair mismatches and re-executes from its checkpoint. -/
  | lockstepMismatch (pair : Fin 2)
  /-- PEER_NOTE_COPY (R435): 10 µs or 100 µs after a fault, a further copy of a PEER_NOTE is sent. -/
  | peerNoteCopy
  /-- POWER_MEASUREMENT (R475): Every 100 µs the Shepherd measures power, current and temperature and throttles or unthrottles. -/
  | powerMeasurement (reading : PowerReading)
  /-- AOCLK_TRIM (R468): Once a second the Shepherd measures AOCLK and corrects its trim. -/
  | aoclkTrim (errorPpm : Int)
  /-- BLOCK_SLEEP (R472): A block stays idle for sleep_us and enters SLEEP. -/
  | blockSleep (block : Fin 1024)
  /-- BLOCK_WAKE (R473): A sleeping or deep block, or a deep-sleeping region's CCLK, finishes waking. -/
  | blockWake (block : Fin 1024)
  /-- STANDBY_WAKE (R484): wake_at arrives in STANDBY, and the device starts leaving STANDBY. -/
  | standbyWake
  /-- PWR_GOOD_RISE (R486): PWR_GOOD rises, and a cold boot starts. -/
  | pwrGoodRise
  /-- COLD_BOOT (R486): The boot sequence runs to READY, or to SAFE when no slot is valid. -/
  | coldBoot (inputs : BootInputs)
  /-- PWR_GOOD_FALL (R481): PWR_GOOD falls; the device forces safe states and enters OFF. -/
  | pwrGoodFall
  /-- RESET_N_LOW (R481): RESET_N is held low, and the device forces safe states. -/
  | resetNLow
  /-- RESET_N_HIGH (R481): RESET_N rises, and a WARM reset follows, or a held cold boot resumes. -/
  | resetNHigh
  /-- WARM_RESET (R485): A WARM reset runs the boot ROM again and keeps memory and the Tally. -/
  | warmReset (inputs : BootInputs)
  /-- RESTART_RESET (R485): A RESTART reset restarts the Shepherd firmware and keeps paddocks running. -/
  | restartReset
  /-- REF25_LOSS (R479): A window with too few REF25 edges forces safe states and puts the Tally in FREE on AOCLK. -/
  | ref25Loss
  /-- REF25_STABLE (R466): REF25 reaches 65,536 good cycles and counts as stable, which allows clocks to start or a warm reset to follow. -/
  | ref25Stable
  /-- NETREF_LOSS (R480): A network die's NETREF is lost, and its ports go to electrical idle. -/
  | netrefLoss (die : Fin 4)
  /-- NETREF_STABLE (R480): NETREF is stable again, and the die's links retrain. -/
  | netrefStable (die : Fin 4)
  /-- LINK_UP (R308): A port link comes UP after training. -/
  | linkUp (link : Fin 64)
  /-- LINK_DOWN (R363): A port link goes down, and its queued packets move to other links. -/
  | linkDown (link : Fin 64)
  /-- PACING_RELEASE (R325): A sequenced packet whose pacing gap of n × srtt ÷ cwnd after the connection's previous packet has passed leaves congestion control and goes on to its ring policer and class queue. -/
  | pacingRelease (conn : BitVec 20)
  /-- TALLY_PPS_OUT_FALL (R58): TALLY_PPS_OUT falls 80,000,000 ticks after each rising edge. -/
  | tallyPpsOutFall
  /-- CCLK_SLEW_DONE (R469): A region's running CCLK reaches its target after slewing at 10 MHz per µs; the voltage may then be lowered and THROTTLE_N released (R476). -/
  | cclkSlewDone (region : Fin 16)
  /-- PAGE_SELECT_DONE (R237): A top-k unit finishes a PAGE_SELECT's reads and writes through the service share; the descriptor completes and the unit takes its next descriptor. -/
  | pageSelectDone (region : Fin 16)
  /-- STANDBY_LEFT (R484): Retraining of stiles, HBM4, DDR5 and ports and the reload of slot tables finish, and a device leaving STANDBY is READY again. -/
  | standbyLeft (inputs : BootInputs)
  deriving DecidableEq, Repr

end Sys2Proof
end

