-- ==== Sys2Proof/Decode.lean ====
section
/-! DEFINITION. Commands by their bits. The block's opcode table gives no row any bits: commands come as mailbox
structures, ring descriptors, instruction words of a thread, frames and events, which the command queue holds whole. -/

namespace Sys2Proof

/-- The command a word of the opcode table's bits spells: none, since the table gives no row bits. -/
def decodeTableWord (_nbits _w : Nat) : Option Instr := none

end Sys2Proof
end

