-- ==== Sys2Proof/Config.lean ====
section
/-! DEFINITION. What an implementation fixes and the spec does not: free values. None has a body that Lean could
evaluate, so no proof can rest on one. Each is named in the log entry its docstring gives. -/

namespace Sys2Proof.Config

/-- A fresh value of 64 bits for the given draw (log entry 6). -/
opaque freeWord : Nat → Word

/-- A fresh byte for the given draw and place (log entry 6). -/
opaque freeByte : Nat → Nat → Byte

/-- Which of the values inside its bound exp2 returns for an input (R125, log entry 7). -/
opaque exp2Pick : Word32 → Nat

/-- Which of the values inside its bound the reciprocal returns (R125, log entry 7). -/
opaque rcpPick : Word32 → Nat

/-- Which of the values inside its bound the reciprocal square root returns (R125, log entry 7). -/
opaque rsqrtPick : Word32 → Nat

/-- Which of the values inside its bound log2 returns (R125, log entry 7). -/
opaque log2Pick : Word32 → Nat

/-- Whether a Falcon-1024 signature over a message verifies under a public key (R445, log entry 8). -/
opaque falconVerifies (key message signature : List Byte) : Bool

/-- Byte `i` of the device's signature over a message by the key of the given draw (0 the identity key), R445, R461
(log entry 8). -/
opaque falconSignByte (keyDraw : Nat) (message : List Byte) (i : Nat) : Byte

/-- Byte `i` of the public half of the device's key of the given draw (0 the identity key), R445, R461 (log entry 8). -/
opaque falconKeyByte (keyDraw i : Nat) : Byte

/-- Byte `i` of the intermediate certificate and of the identity certificate sealed at manufacture (kinds 2 and 3 of
R460, log entry 8). -/
opaque certByte (kind i : Nat) : Byte

/-- First entry and entry count of the plan range that a receiver pulls, which the spec lets it know by no stated
message (R285, log entry 15). -/
opaque pullRange (source epoch : Nat) : Nat × Nat

/-- Free positions before entry `i` of a source's table, and its valid tokens (R211, R285, log entry 15). -/
opaque pullEntry (source epoch i : Nat) : Nat × Nat

/-- Address and key that a source's page write to a receiver carries for block `j` of page `i` (R278, log entry 15). -/
opaque pageTarget (receiver record epoch i j : Nat) : Nat × Nat

/-- Paddock at the far end of a connection, by its peer's device, the peer's connection and the generation: no frame and no
`CONN_OPEN` names it (R279, R293, R316, log entry 97). -/
opaque peerPaddock (peer peerConn gen : Nat) : Nat

/-- Paddock in whose memory a global address of another device lies (R286, R293, log entry 97). -/
opaque paddockAt (address : Nat) : Nat

/-- What a source finds when it compares its binding and layout with a receiver's: 4 bindings differ, 5 layouts differ,
anything else agreement (R277, log entry 15). -/
opaque pullRefusal (receiver record epoch : Nat) : Nat

/-- What the reciprocal returns for ±infinity, for which the rules state no result (R125, log entry 7). -/
opaque rcpOpen : Word32 → Word32

/-- What the reciprocal square root returns where the rules state no result: ±0, negative inputs and infinities (R125, log
entry 7). -/
opaque rsqrtOpen : Word32 → Word32

/-- What log2 returns for −0 and for +infinity, for which the rules state no result (R125, log entry 7). -/
opaque log2Open : Word32 → Word32

/-- Fraction at which the Tally stands at an instant, in 1/65,536 tick (R43, log entry 4). -/
opaque tallyFrac : Nat → BitVec 16

/-- Whether a device that may step its Tally forward at an instant does so (R56, log entry 4). -/
opaque stepsForward : Nat → Bool

/-- Whether a line that the host die's caches have held is still there at a load (R27, log entry 102). -/
opaque hostHit : Nat → Bool

/-- Deliveries that a queue of an OUT window takes before it is full (R168, log entry 103). -/
opaque queueDepth : Nat → Nat

/-- Where among 8 frames the skipped ones of a region begin (R475, log entry 24). -/
opaque skipPhase : Nat → Nat

/-- Steps of 5 mV above 0.600 V that a running CCLK in MHz requires of VDD_CELL (R469, R495): which voltage it is,
is not stated (log entry 72). -/
opaque cellSteps : Nat → Nat

/-- Codewords that the FEC of a link has corrected (kind 0) or could not correct (kind 1) by an instant (R308, log
entry 111): link, kind, instant. -/
opaque fecCount : Nat → Nat → Nat → Nat

end Sys2Proof.Config
end

