-- ==== Sys2Proof/Machine/Data.lean ====
section
/-! DEFINITION. Keyed data and bytes: lookup and update of tables and sparse words in their canonical form, and the
little-endian fields of structures (R7). -/

namespace Sys2Proof

/-- The object a table holds under a number. -/
def Table.find {α : Type} : Table α → Nat → Option α
  | [], _ => none
  | (k, v) :: t, q => if q = k then some v else Table.find t q

/-- The table with an object put under a number, in its place by key. -/
def Table.put {α : Type} : Table α → Nat → α → Table α
  | [], q, v => [(q, v)]
  | (k, x) :: t, q, v =>
    if q < k then (q, v) :: (k, x) :: t else if q = k then (q, v) :: t else (k, x) :: Table.put t q v

/-- The table without the object under a number. -/
def Table.del {α : Type} : Table α → Nat → Table α
  | [], _ => []
  | (k, x) :: t, q => if q = k then t else (k, x) :: Table.del t q

/-- The object under a number, changed; nothing where there is none. -/
def Table.update {α : Type} (t : Table α) (k : Nat) (f : α → α) : Table α :=
  match t.find k with
  | none => t
  | some x => t.put k (f x)

/-- The objects of a table in ascending number, changed by a function of number and object. -/
def Table.mapAll {α β : Type} (t : Table α) (f : Nat → α → β) : Table β := t.map fun e => (e.1, f e.1 e.2)

/-- Keys strictly rise. -/
def Table.rising {α : Type} : Table α → Bool
  | [] => true
  | (k, _) :: t => t.all (fun e => decide (k < e.1)) && Table.rising t

/-- The word a sparse store holds under a key: zero where none is listed. -/
def Sparse.get {w : Nat} (m : Sparse w) (k : Nat) : BitVec w := (Table.find m k).getD 0

/-- A store of one word: writing zero removes the entry. -/
def Sparse.set {w : Nat} (m : Sparse w) (k : Nat) (v : BitVec w) : Sparse w :=
  if v = 0 then Table.del m k else Table.put m k v

/-- The canonical form: strictly rising keys and no entry equal to zero. -/
def Sparse.wf {w : Nat} (m : Sparse w) : Bool := Table.rising m && m.all fun e => decide (e.2 ≠ 0)

/-- The words of `n` consecutive keys. -/
def Sparse.getMany {w : Nat} (m : Sparse w) (k n : Nat) : List (BitVec w) := (List.range n).map fun i => m.get (k + i)

/-- A store of consecutive words. -/
def Sparse.setMany {w : Nat} (m : Sparse w) : Nat → List (BitVec w) → Sparse w
  | _, [] => m
  | k, v :: vs => Sparse.setMany (m.set k v) (k + 1) vs

/-- The listed words of a range, by offset from its base. -/
def Sparse.slice {w : Nat} (m : Sparse w) (base len : Nat) : Sparse w :=
  (m.filter fun e => decide (base ≤ e.1 ∧ e.1 < base + len)).map fun e => (e.1 - base, e.2)

/-- The store with a whole range replaced by the listed words of `part`, offsets from the base; words of `part` past
the range are left out. -/
def Sparse.replace {w : Nat} (m : Sparse w) (base len : Nat) (part : Sparse w) : Sparse w :=
  (part.filter fun e => decide (e.1 < len)).foldl (fun acc e => acc.set (base + e.1) e.2)
    (m.filter fun e => decide (e.1 < base ∨ base + len ≤ e.1))

/-- Little-endian value of bytes (R7). -/
def leValue : List Byte → Nat
  | [] => 0
  | b :: bs => b.toNat + 256 * leValue bs

/-- The low `n` bytes of a value, little-endian (R7). -/
def leBytes : Nat → Nat → List Byte
  | 0, _ => []
  | n + 1, v => BitVec.ofNat 8 v :: leBytes n (v / 256)

/-- Bytes `off` to `off + n - 1`, fewer where the list ends. -/
def bytesAt (bs : List Byte) (off n : Nat) : List Byte := (bs.drop off).take n

/-- An 8-bit field. -/
def fieldU8 (bs : List Byte) (off : Nat) : Nat := leValue (bytesAt bs off 1)
/-- A 16-bit field. -/
def fieldU16 (bs : List Byte) (off : Nat) : Nat := leValue (bytesAt bs off 2)
/-- A 32-bit field. -/
def fieldU32 (bs : List Byte) (off : Nat) : Nat := leValue (bytesAt bs off 4)
/-- A 64-bit field. -/
def fieldU64 (bs : List Byte) (off : Nat) : Nat := leValue (bytesAt bs off 8)

/-- The low `n` bytes of a value, most significant byte first (R7, fields of frame headers). -/
def beBytes (n v : Nat) : List Byte := (leBytes n v).reverse

/-- A field of a frame header, most significant byte first (R7). -/
def fieldBe (bs : List Byte) (off n : Nat) : Nat := leValue (bytesAt bs off n).reverse

/-- Two's complement reading of the low `w` bits. -/
def signed (w v : Nat) : Int := (BitVec.ofNat w v).toInt

/-- The low `w` bits of an integer as a number. -/
def unsigned (w : Nat) (v : Int) : Nat := (BitVec.ofInt w v).toNat

/-- Bytes of value zero. -/
def zeros (n : Nat) : List Byte := List.replicate n 0

/-- A list cut or filled with zeros to `n` bytes. -/
def padTo (n : Nat) (bs : List Byte) : List Byte := bs.take n ++ zeros (n - bs.length)

/-- A list with the bytes from `off` overwritten, as long as before (filled with zeros first where it is shorter). -/
def overwrite (bs : List Byte) (off : Nat) (new : List Byte) : List Byte :=
  let base := padTo (max bs.length (off + new.length)) bs
  base.take off ++ new ++ base.drop (off + new.length)

/-- Every byte is zero. -/
def allZero (bs : List Byte) : Bool := bs.all fun b => b == 0

/-- Bits `hi` to `lo` of a number. -/
def bitsOf (v hi lo : Nat) : Nat := v / 2 ^ lo % 2 ^ (hi - lo + 1)

/-- Bit `i` of a number. -/
def bitOf (v i : Nat) : Bool := v.testBit i

/-- 1 for true. -/
def b2n (b : Bool) : Nat := if b then 1 else 0

/-- Division rounded up. -/
def ceilDiv (a b : Nat) : Nat := (a + b - 1) / b

/-- The smallest element of a list by a measure, the earliest among equals. -/
def leastBy {α : Type} (f : α → Nat) : List α → Option α
  | [] => none
  | a :: as => match leastBy f as with
    | none => some a
    | some b => if f b < f a then some b else some a

end Sys2Proof
end

