-- ==== Sys2Proof/Machine/TypesControl.lean ====
section
/-! DEFINITION. The records of the control side of the device: masters, mailboxes, control pages, stage sets,
the Tally, device state, boot, power and clocks. Every field's docstring names the rule of spec/ that gives it
and the value it has right after reset. -/

namespace Sys2Proof.Machine

/-- The three masters of R72, codes 1, 2 and 3. -/
inductive Master where
  | host | fabric | board
  deriving DecidableEq, Repr

/-- The two worlds. -/
inductive World where
  | nonsecure | secure
  deriving DecidableEq, Repr

/-- States of a mailbox pair, queue entry or window (R75). -/
inductive MbxStatus where
  | idle | busy | done
  deriving DecidableEq, Repr

/-- One mailbox: a HOST pair, a FABRIC management-queue entry or the BOARD window. -/
structure Mailbox where
  /-- Handshake state; 2 bits; R75 of 04_control_plane.md; reset IDLE. -/
  status : MbxStatus := .idle
  /-- Command half: header and payload bytes as written, at most 2,048 (HOST), 8,192 (FABRIC), 256 (BOARD); R74, R76, R78 of 04_control_plane.md; reset empty (reads zero), on-die SRAM cleared (R485). -/
  cmd : List Byte := []
  /-- Response half: header and payload bytes the device wrote; R74, R81 of 04_control_plane.md; reset empty (reads zero). -/
  resp : List Byte := []
  /-- Execution of the command has begun and its response is still due (a claim, a preemption, a build, an indirect read); R85, R86 of 04_control_plane.md; reset false. -/
  begun : Bool := false
  /-- Stamp at which the execution of a command that reads its payload over the fabric began; 64; R69, R85, R102 of 04_control_plane.md; reset 0. -/
  beganAt : Nat := 0
  /-- Acceptance stamp of the command in the mailbox; 64; R73 of 04_control_plane.md; reset 0. -/
  accepted : Nat := 0
  /-- Owner at the acceptance stamp, by which R91 judges the right; R91 of 04_control_plane.md; reset none. -/
  ownerAt : Option Master := none
  /-- Part of a long response still to fetch; R79 of 04_control_plane.md; reset empty. -/
  rest : List Byte := []
  /-- PSN of the MGMT_CMD frame the command came in; R76, R322 of 12_fabric_transport.md; reset 0. -/
  psn : Nat := 0
  /-- Remote read of an indirect payload that is still out: the bytes so far and how many are missing; R82 of 04_control_plane.md; reset none. -/
  fetch : Option (List Byte × Nat) := none
  /-- Opcode whose long response `rest` belongs to; R79 of 04_control_plane.md; reset 0. -/
  restOf : Nat := 0
  deriving DecidableEq, Repr

/-- One kept header and response (R77). -/
structure KeptCommand where
  /-- The 32 header bytes of a command that was executed; R77 of 04_control_plane.md; reset: none kept. -/
  header : List Byte
  /-- The response it was given (header and first part); R77 of 04_control_plane.md; reset: none kept. -/
  response : List Byte
  /-- What was left to fetch behind that response; R77, R79 of 04_control_plane.md; reset: none kept. -/
  rest : List Byte
  deriving DecidableEq, Repr

/-- The writable fields of one master's control page (R518). -/
structure ControlPage where
  /-- `MBX_ERROR`; 8; R75, R519 table of 21_register_reference.md; reset 0. -/
  mbxError : BitVec 8 := 0
  /-- `MBX_IRQ.enable`; 1; MBX_IRQ table of 21_register_reference.md; reset 0. -/
  irqEnable : Bool := false
  /-- `MBX_IRQ.hart`; 6; MBX_IRQ table of 21_register_reference.md; reset 0. -/
  irqHart : BitVec 6 := 0
  /-- `MBX_IRQ.irq_id`; 11; MBX_IRQ table of 21_register_reference.md; reset 0. -/
  irqId : BitVec 11 := 0
  /-- `STAGE_SEL.set`; 16; R104 of 04_control_plane.md, STAGE_SEL table of 21_register_reference.md; reset 0xFFFF. -/
  stageSel : BitVec 16 := 0xFFFF
  /-- `STAGE_SEL.STG_IGNORED`; 1; R104 of 04_control_plane.md; reset 0. -/
  stgIgnored : Bool := false
  /-- `SCRATCH`; 64; R518 of 21_register_reference.md; reset 0. -/
  scratch : Word := 0
  /-- `PAGE_ERR` (BAD_VALUE, RESERVED_OFFSET, PARTIAL); 3; R516, R517 of 21_register_reference.md; reset 0. -/
  pageErr : BitVec 3 := 0
  deriving DecidableEq, Repr

/-- The mailboxes and control pages of the three masters. -/
structure ControlPaths where
  /-- HOST mailbox pairs 0 to 7; R74 of 04_control_plane.md; reset IDLE. -/
  hostPairs : Vector Mailbox 8 := Vector.replicate 8 {}
  /-- FABRIC management queue of 16 entries; R72, R76 of 04_control_plane.md; reset empty. -/
  fabricQueue : Vector Mailbox 16 := Vector.replicate 16 {}
  /-- BOARD window; R78 of 04_control_plane.md; reset IDLE. -/
  boardWindow : Mailbox := {}
  /-- Last 16 commands of the HOST path, newest first; R77 of 04_control_plane.md; reset empty. -/
  keptHost : List KeptCommand := []
  /-- Last 16 commands of the FABRIC path; R77 of 04_control_plane.md; reset empty. -/
  keptFabric : List KeptCommand := []
  /-- Last 16 commands of the BOARD path; R77 of 04_control_plane.md; reset empty. -/
  keptBoard : List KeptCommand := []
  /-- HOST control page; R518 of 21_register_reference.md. -/
  hostPage : ControlPage := {}
  /-- FABRIC control page; R518 of 21_register_reference.md. -/
  fabricPage : ControlPage := {}
  /-- BOARD control page; R518 of 21_register_reference.md. -/
  boardPage : ControlPage := {}
  /-- `GPIO_DIR` in effect; 16; R518 of 21_register_reference.md; reset 0. -/
  gpioDir : BitVec 16 := 0
  /-- `GPIO_OUT` in effect; 16; R518 of 21_register_reference.md; reset 0. -/
  gpioOut : BitVec 16 := 0
  /-- Levels the board drives on the GPIO pins; 16; R507 of 20_package_and_electrical.md; reset 0 (internal pull-down). -/
  gpioPins : BitVec 16 := 0
  deriving DecidableEq, Repr

/-- Ownership (R87 to R93). -/
structure Ownership where
  /-- Present owner; 2; R88 of 04_control_plane.md; reset none. -/
  owner : Option Master := none
  /-- Tally at which the lease expires; 64; R90 of 04_control_plane.md; reset 0. -/
  leaseExpiry : Nat := 0
  /-- Tally at which the owner took the device; 64; OWN_STATUS of 04_control_plane.md; reset 0. -/
  ownerSince : Nat := 0
  /-- End of the open claim window, none when it is closed; R88 of 04_control_plane.md; reset closed. -/
  claimEnd : Option Nat := none
  /-- Claims in the window: the master, its mailbox (pair, entry or window number) and acceptance stamp; R88 of 04_control_plane.md; reset none. -/
  claims : List (Master × Nat × Nat) := []
  /-- Target of the open handover offer, none when none is open; R92 of 04_control_plane.md; reset none. -/
  offerTarget : Option Master := none
  /-- Deadline of the open offer; 64; R92 of 04_control_plane.md; reset 0. -/
  offerEnd : Nat := 0
  deriving DecidableEq, Repr

/-- One command held in a stage set: its header fields, its payload (the copy of an indirect buffer) and, for a
register write, opcode 0xFFFF (R104). -/
structure StagedCommand where
  /-- Opcode; 16; R80, R104 of 04_control_plane.md. -/
  opcode : Nat
  /-- The 32 header bytes, for the set digest; R462 of 18_security_and_firmware_trust.md. -/
  header : List Byte
  /-- The payload the device copied; R99 of 04_control_plane.md. -/
  payload : List Byte
  /-- World of the path it came by; R97 of 04_control_plane.md. -/
  world : World
  deriving DecidableEq, Repr

/-- States of a stage set (R98), codes 0 to 4. -/
inductive SetState where
  | open | checked | committed | applied | aborted
  deriving DecidableEq, Repr

/-- One stage set the device keeps (R98, R99). -/
structure StageSet where
  /-- State of the set; R98 of 04_control_plane.md. -/
  state : SetState := .open
  /-- Master that opened it; R98 of 04_control_plane.md. -/
  owner : Master
  /-- Commands in staging order, at most 256; R99, R100 of 04_control_plane.md. -/
  commands : List StagedCommand := []
  /-- Commit instant T; R69 of 03_tally_and_ordering.md; zero before a commit. -/
  instant : Nat := 0
  /-- Place in the order in which commits were accepted; R71 of 03_tally_and_ordering.md. -/
  order : Nat := 0
  /-- `tag` of its STAGE_COMMIT; R103 of 04_control_plane.md. -/
  tag : Nat := 0
  deriving DecidableEq, Repr

/-- Every stage set, and the counters that name and order them. -/
structure Staging where
  /-- Sets by id, APPLIED and ABORTED ones until the id is needed again; R99 of 04_control_plane.md; reset none. -/
  sets : Table StageSet := []
  /-- Next id to give; 16; R99 of 04_control_plane.md; reset 0 (the model's own choice of ids). -/
  nextId : Nat := 0
  /-- Commits accepted so far, the order of R71 of 03_tally_and_ordering.md; reset 0 (the model's own counter). -/
  commits : Nat := 0
  deriving DecidableEq, Repr

/-- Tally states (R52), codes 0 to 3. -/
inductive TallyState where
  | free | acquire | locked | holdover
  deriving DecidableEq, Repr

/-- Role of the device in the fold's time tree (R60), codes 0 to 2. -/
inductive TallyRole where
  | member | root | backupRoot
  deriving DecidableEq, Repr

/-- `CLOCK_TALLY_CONFIG` in effect (R60). -/
structure TallyConfig where
  /-- `role`; R60 of 03_tally_and_ordering.md; reset MEMBER. -/
  role : TallyRole := .member
  /-- A configuration has been committed since cold reset (the defaults name no parent); R60 of 03_tally_and_ordering.md; reset false. -/
  committed : Bool := false
  /-- `PPS_IN`; R60 of 03_tally_and_ordering.md; reset 0. -/
  ppsIn : Bool := false
  /-- `SYNC_ONLY`; R47, R60 of 03_tally_and_ordering.md; reset 0. -/
  syncOnly : Bool := false
  /-- `primary_link`; 8; R60 of 03_tally_and_ordering.md; reset 0xFF. -/
  primaryLink : Nat := 0xFF
  /-- `backup_link`; 8; R60 of 03_tally_and_ordering.md; reset 0xFF. -/
  backupLink : Nat := 0xFF
  /-- `primary_parent`; 18; R60 of 03_tally_and_ordering.md; reset 0. -/
  primaryParent : Nat := 0
  /-- `backup_parent`; 18; R60 of 03_tally_and_ordering.md; reset 0. -/
  backupParent : Nat := 0
  /-- `root_id`; 18; R60 of 03_tally_and_ordering.md; reset 0. -/
  rootId : Nat := 0
  /-- `interval_us`; 32; R60 of 03_tally_and_ordering.md; reset 1,000. -/
  intervalUs : Nat := 1000
  /-- `burst`; 8; R60 of 03_tally_and_ordering.md; reset 8. -/
  burst : Nat := 8
  /-- `holdover_lane_ms`; 16; R55, R60 of 03_tally_and_ordering.md; reset 10,000. -/
  holdoverLaneMs : Nat := 10000
  /-- `holdover_free_ms`; 16; R55, R60 of 03_tally_and_ordering.md; reset 20. -/
  holdoverFreeMs : Nat := 20
  /-- `asym_primary`; signed 32, 1/256 tick; R60 of 03_tally_and_ordering.md; reset 0. -/
  asymPrimary : Int := 0
  /-- `asym_backup`; signed 32, 1/256 tick; R60 of 03_tally_and_ordering.md; reset 0. -/
  asymBackup : Int := 0
  deriving DecidableEq, Repr

/-- One exchange of the current burst that an accepted response completed (R48), in 1/65,536 tick. -/
structure SyncExchange where
  /-- Round trip (t4 - t1) - (t3 - t2); R48 of 03_tally_and_ordering.md. -/
  roundTrip : Int
  /-- (t1 - t2) + (t4 - t3); R48 of 03_tally_and_ordering.md. -/
  twiceOffset : Int
  deriving DecidableEq, Repr

/-- The Tally (R42 to R61). -/
structure Tally where
  /-- Whole ticks of the master; 64; R42 of 03_tally_and_ordering.md; reset 0 (cold reset). -/
  now : Nat := 0
  /-- Fraction of a tick, a free value at each instant after the reset; 16; R43 of 03_tally_and_ordering.md; reset 0 (the
  counter is set to zero), log entry 4. -/
  frac : BitVec 16 := 0
  /-- Tally state; R52 of 03_tally_and_ordering.md; reset FREE. -/
  state : TallyState := .free
  /-- Stamp of the last change of state; 64; R61 of 03_tally_and_ordering.md; reset 0. -/
  stateSince : Nat := 0
  /-- Configuration in effect; R60 of 03_tally_and_ordering.md; reset defaults. -/
  cfg : TallyConfig := {}
  /-- Level of the parent last accepted from (own level is one more); R61 of 03_tally_and_ordering.md; reset 0. -/
  parentLevel : Nat := 0
  /-- Parent whose bursts are being run: false primary, true backup; R54 of 03_tally_and_ordering.md; reset primary. -/
  useBackup : Bool := false
  /-- A BACKUP_ROOT has become the fold's time source; R54 of 03_tally_and_ordering.md; reset false. -/
  actingRoot : Bool := false
  /-- Exchange counter of the next SYNC_REQ; 32; R50 of 03_tally_and_ordering.md; reset 0. -/
  nextSequence : Nat := 0
  /-- A burst is open: its sequences and their t1 (1/65,536 tick); R48, R51 of 03_tally_and_ordering.md; reset none. -/
  burstSent : List (Nat × Nat) := []
  /-- Exchanges of the open burst; R48 of 03_tally_and_ordering.md; reset none. -/
  burstDone : List SyncExchange := []
  /-- A burst has been sent whose outcome is not yet counted; R51 of 03_tally_and_ordering.md; reset false. -/
  burstOpen : Bool := false
  /-- The open burst went to the backup parent; R54 of 03_tally_and_ordering.md; reset false. -/
  burstBackup : Bool := false
  /-- Instant of the last burst, none before the first; R48 of 03_tally_and_ordering.md; reset none. -/
  lastBurst : Option Nat := none
  /-- The open burst has met its first accepted response; R52 of 03_tally_and_ordering.md; reset false. -/
  burstAccepted : Bool := false
  /-- Consecutive bursts (or PPS edges) within 0.125 tick while in ACQUIRE; R52, R53 of 03_tally_and_ordering.md; reset 0. -/
  goodBursts : Nat := 0
  /-- Consecutive missed bursts (or missing PPS edges); R52, R53 of 03_tally_and_ordering.md; reset 0. -/
  missedInRow : Nat := 0
  /-- `missed_bursts` since cold reset; 64; R61 of 03_tally_and_ordering.md; reset 0. -/
  missedBursts : Nat := 0
  /-- Last offset, signed 32, in 1/65,536 tick; R61 of 03_tally_and_ordering.md; reset 0. -/
  offset : Int := 0
  /-- Phase still to be removed by slewing, in 1/65,536 tick; R44, R48 of 03_tally_and_ordering.md; reset 0. -/
  toSlew : Int := 0
  /-- Last one-way delay in 1/256 tick; 32; R61 of 03_tally_and_ordering.md; reset 0. -/
  delay : Nat := 0
  /-- Instant at which HOLDOVER was entered; R55 of 03_tally_and_ordering.md; reset 0. -/
  holdoverSince : Nat := 0
  /-- Instant at which the primary lane clock was lost, none while it is locked; R55 of 03_tally_and_ordering.md; reset lost since 0 (no link is a parent's). -/
  laneLostAt : Option Nat := some 0
  /-- Children answered: device id and stamp of the last answer; R61 of 03_tally_and_ordering.md; reset none. -/
  children : List (Nat × Nat) := []
  /-- TALLY_PPS_OUT level; 1 pin; R58 of 03_tally_and_ordering.md; reset low. -/
  ppsOut : Bool := false
  /-- Counting on AOCLK since REF25 was lost; R479 of 19_clocks_power_and_reset.md; reset false. -/
  onAoclk : Bool := false
  deriving DecidableEq, Repr

/-- Device power states (R482); `booting` covers the steps of R486 before READY or SAFE, `leaving` the way out of
STANDBY (R484), `refLost` the wait of R479, `tripped` the hold of R478, `resetHeld` a RESET_N held low (R481). -/
inductive DevState where
  | off | booting | standby | leaving | safe | ready | run | refLost | tripped | resetHeld
  deriving DecidableEq, Repr

/-- Steps the boot has still to take. -/
inductive BootStep where
  /-- No boot is in progress. -/
  | none
  /-- Cold boot: waiting for REF25 (R486 steps 1 to 3). -/
  | coldRef
  /-- Cold boot: the Tally counts; steps 4 to 13 are still to come. -/
  | cold
  /-- WARM reset: steps 4 to 13 are still to come. -/
  | warm
  deriving DecidableEq, Repr

/-- One firmware slot of the boot flash (R446, R450): its stored bytes and what the model keeps of their checks. -/
structure FwSlot where
  /-- Manifest and image bytes in the slot, erased bytes reading 0xFF kept out; R446 of 18_security_and_firmware_trust.md. -/
  bytes : List Byte := []
  deriving DecidableEq, Repr

/-- Block power states (R471). -/
inductive BlockPower where
  | run | sleep | deep
  deriving DecidableEq, Repr

/-- Clock and throttle state of one region (R469 to R475). -/
structure RegionClock where
  /-- Set CCLK in MHz; 12; R470 of 19_clocks_power_and_reset.md; reset 3,300. -/
  setMhz : Nat := 3300
  /-- `NO_DEEP`; 1; R470 of 19_clocks_power_and_reset.md; reset 0. -/
  noDeep : Bool := false
  /-- `sleep_us`; 16; R470 of 19_clocks_power_and_reset.md; reset 10. -/
  sleepUs : Nat := 10
  /-- Running CCLK in MHz, while out of deep sleep, at the stamp `slewSince`; R469 of 19_clocks_power_and_reset.md; reset 3,300. -/
  runningMhz : Nat := 3300
  /-- Stamp from which the running CCLK has moved towards its target; R469 of 19_clocks_power_and_reset.md; reset 0. -/
  slewSince : Nat := 0
  /-- Target of the slew in MHz; R475 of 19_clocks_power_and_reset.md; reset 3,300. -/
  targetMhz : Nat := 3300
  /-- Frames skipped of every 8; 3; R475 of 19_clocks_power_and_reset.md; reset 0. -/
  skip : Nat := 0
  /-- In deep sleep; 1; R474 of 19_clocks_power_and_reset.md; reset 1 (`CLOCKS.deep` 0xFFFF). -/
  deep : Bool := true
  deriving DecidableEq, Repr

/-- One throttle step on the stack of R475: for a region, the target and skip it had before. -/
structure ThrottleStep where
  /-- Region, its target and its skip before the step; R475 of 19_clocks_power_and_reset.md. -/
  before : List (Nat × Nat × Nat)
  deriving DecidableEq, Repr

/-- Power, thermal and clock-source state (R465 to R489). -/
structure Power where
  /-- `limit_w`; 16; R477 of 19_clocks_power_and_reset.md; reset 2,400. -/
  limitW : Nat := 2400
  /-- `group_a`; 16; R477 of 19_clocks_power_and_reset.md; reset 260. -/
  groupA : Nat := 260
  /-- `therm_c`; 8; R477 of 19_clocks_power_and_reset.md; reset 100. -/
  thermC : Nat := 100
  /-- P of the last interval in mW; 32; R475, POWER table of 21_register_reference.md; reset 0. -/
  powerMw : Nat := 0
  /-- Rail-group currents of the last interval in 0.1 A; 16 each; R475, R488 of 19_clocks_power_and_reset.md; reset 0. -/
  groupCurrent : Vector Nat 8 := Vector.replicate 8 0
  /-- Rail groups whose AVSBus transaction failed, and its retry too, with none passed since; 8; R497 of 20_package_and_electrical.md; reset 0. -/
  avsFailed : BitVec 8 := 0
  /-- Hottest die in 1/4 degree; signed 16; R488 of 19_clocks_power_and_reset.md; reset 0. -/
  tjMax : Int := 0
  /-- Number of the hottest die; 8; R488 of 19_clocks_power_and_reset.md; reset 0. -/
  tjDie : Nat := 0
  /-- Consecutive measurements with a die at 115 degrees or more; R478 of 19_clocks_power_and_reset.md; reset 0. -/
  tripCount : Nat := 0
  /-- THERM_N driven low; pin; R478 of 19_clocks_power_and_reset.md; reset released (R505). -/
  thermLow : Bool := false
  /-- THROTTLE_N driven low; pin; R476 of 19_clocks_power_and_reset.md; reset released (R505). -/
  throttleLow : Bool := false
  /-- Cause bits of the last throttle step (power, temperature, group current); 3; R488 of 19_clocks_power_and_reset.md; reset 0. -/
  lastCause : BitVec 3 := 0
  /-- `flags` of the POWER register, which changes only at the end of an interval; 5; POWER table of 21_register_reference.md; reset 0. -/
  flagsAtMeasure : BitVec 8 := 0
  /-- `device_state` of the POWER register at the last interval; 8; POWER table of 21_register_reference.md; reset 3. -/
  stateAtMeasure : Nat := 3
  /-- Ticks with THROTTLE_N low; 64; R488 of 19_clocks_power_and_reset.md; reset 0. -/
  throttleTicks : Nat := 0
  /-- Stamp at which THROTTLE_N last fell; R488 of 19_clocks_power_and_reset.md; reset 0. -/
  throttleSince : Nat := 0
  /-- Package energy in units of 0.1 microjoule (mW times 100 microseconds); R488 of 19_clocks_power_and_reset.md; reset 0. -/
  energy : Nat := 0
  /-- The step stack; R475 of 19_clocks_power_and_reset.md; reset empty. -/
  steps : List ThrottleStep := []
  /-- The sixteen regions; R469 to R475 of 19_clocks_power_and_reset.md. -/
  regions : Vector RegionClock 16 := Vector.replicate 16 {}
  /-- Power state of a block, DEEP where the table does not name it; R471 of 19_clocks_power_and_reset.md; reset DEEP. -/
  blocks : Table BlockPower := []
  /-- Blocks that are waking: the stamp at which each is in RUN; R473, R474 of 19_clocks_power_and_reset.md; reset none. -/
  waking : Table Nat := []
  /-- REF25 stable; R466 of 19_clocks_power_and_reset.md; reset false (`CLOCKS.sources` 0, 21_register_reference.md), log entry 5. -/
  refStable : Bool := false
  /-- NETREF of dies 0 to 3 stable; 4; R480 of 19_clocks_power_and_reset.md; reset 0 (`CLOCKS.sources` 0, 21_register_reference.md), log entry 5. -/
  netrefStable : BitVec 4 := 0
  /-- Stamp at which REF25 was last judged stable; R489 of 19_clocks_power_and_reset.md; reset 0. -/
  refSince : Nat := 0
  /-- REF25 losses since cold reset; 64; R489 of 19_clocks_power_and_reset.md; reset 0. -/
  refLosses : Nat := 0
  /-- AOCLK trimmed against the Tally rather than REF25; R468, R489 of 19_clocks_power_and_reset.md; reset 0. -/
  aoOnTally : Bool := false
  /-- Error of AOCLK at the last measurement in ppm; signed 16; R489 of 19_clocks_power_and_reset.md; reset DESIGN CHOICE 0, log entry 5. -/
  aoError : Int := 0
  deriving DecidableEq, Repr

/-- The boot flash, the fuses and what the boot made (R446 to R464). -/
structure Boot where
  /-- Running slot: 0 A, 1 B; R94 of 04_control_plane.md; reset DESIGN CHOICE 0, log entry 5. -/
  fwSlot : Nat := 0
  /-- Firmware version word; 32; R94 of 04_control_plane.md; reset DESIGN CHOICE 0x01000000, log entry 5. -/
  fwVersion : Nat := 0x01000000
  /-- SHAKE256 digest of the running manifest, 64 bytes; R94 of 04_control_plane.md; reset DESIGN CHOICE zeros, log entry 5. -/
  fwDigest : List Byte := List.replicate 64 0
  /-- `rollback` of the running manifest; 8; R452 of 18_security_and_firmware_trust.md; reset DESIGN CHOICE 0, log entry 5. -/
  rollback : Nat := 0
  /-- `revoke_mask` of the running manifest; 4; R452 of 18_security_and_firmware_trust.md; reset DESIGN CHOICE 0, log entry 5. -/
  revokeMask : BitVec 4 := 0
  /-- Serial number; 64; R94 of 04_control_plane.md; reset DESIGN CHOICE 0, log entry 5. -/
  serial : Nat := 0
  /-- OWN_PRIO strap as sampled; 2; R87 of 04_control_plane.md; reset DESIGN CHOICE 0 (unconnected, R506), log entry 5. -/
  ownPrio : BitVec 2 := 0
  /-- BOOT_SEL strap as sampled; 2; R506 of 20_package_and_electrical.md; reset DESIGN CHOICE 0 (unconnected), log entry 5. -/
  bootSel : BitVec 2 := 0
  /-- OWN_PRIO pins as the board drives them; R506 of 20_package_and_electrical.md; reset DESIGN CHOICE 0, log entry 5. -/
  ownPrioPins : BitVec 2 := 0
  /-- BOOT_SEL pins as the board drives them; R506 of 20_package_and_electrical.md; reset DESIGN CHOICE 0, log entry 5. -/
  bootSelPins : BitVec 2 := 0
  /-- RESET_N pin level; R481 of 19_clocks_power_and_reset.md; reset high. -/
  resetN : Bool := true
  /-- XSPI_RESET_N pin of the boot flash, false while the device holds it low; R508 of 20_package_and_electrical.md; reset high (step 7 of the boot is past). -/
  xspiResetN : Bool := true
  /-- Boot in progress; R486 of 19_clocks_power_and_reset.md; reset none. -/
  step : BootStep := .none
  /-- Instant a WARM or RESTART asked for by POWER_STATE_SET begins: the instant and whether it is a RESTART; R483 of 19_clocks_power_and_reset.md; reset none. -/
  resetAt : Option (Nat × Bool) := none
  /-- `wake_at` of STANDBY, 0 for none; R483 of 19_clocks_power_and_reset.md; reset 0. -/
  wakeAt : Nat := 0
  /-- Populated tier bytes; R510, R511 of 20_package_and_electrical.md; reset DESIGN CHOICE 8 TiB, log entry 5. -/
  tierBytes : Nat := 0x80000000000
  /-- Tier capacity the DIMMs would give at the next boot; R511 of 20_package_and_electrical.md; reset DESIGN CHOICE 8 TiB, log entry 5. -/
  tierFitted : Nat := 0x80000000000
  /-- The boot ROM started the host die in SAFE; R451 of 18_security_and_firmware_trust.md; reset false (the device is READY). -/
  hostInSafe : Bool := false
  deriving DecidableEq, Repr

end Sys2Proof.Machine
end

