-- ==== Sys2Proof/Machine/TypesWork.lean ====
section
/-! DEFINITION. The records of paddocks, schedule images, window queues, the fault ring, worlds, the boot flash,
attestation and the trace unit. Every field's docstring names the rule of spec/ that gives it and its reset value. -/

namespace Sys2Proof.Machine

/-- Paddock states (R375), codes 0 to 8. -/
inductive PaddockState where
  | vacant | running | waiting | stopping | saving | saved | restoring | held | faulted
  deriving DecidableEq, Repr

/-- The two preemption modes (R383, R384). -/
inductive PreemptMode where
  | boundary | immediate
  deriving DecidableEq, Repr

/-- One memory window of a paddock (R370). -/
structure MemWindow where
  /-- `base`; 46; R370 of 15_paddocks_and_preemption.md. -/
  base : Nat
  /-- `units` of 2 MiB; 32; R370 of 15_paddocks_and_preemption.md. -/
  units : Nat
  /-- `SECURE`; R370 of 15_paddocks_and_preemption.md. -/
  secure : Bool
  /-- `SHARED`; R370 of 15_paddocks_and_preemption.md. -/
  shared : Bool
  deriving DecidableEq, Repr

/-- A preemption in progress (R378 to R384, R390). -/
structure Preemption where
  /-- Mode; R383, R384 of 15_paddocks_and_preemption.md. -/
  mode : PreemptMode
  /-- Escalation instant of a BOUNDARY preemption, none when it has none; R378, R380 of 15_paddocks_and_preemption.md. -/
  escalateAt : Option Nat := none
  /-- It began as BOUNDARY and was escalated; R380, R392 of 15_paddocks_and_preemption.md. -/
  escalated : Bool := false
  /-- Stamp at which it began; R392 of 15_paddocks_and_preemption.md. -/
  startedAt : Nat
  /-- Stamp at which its threads were told to stop, in IMMEDIATE mode; R157 of 06_block_sequencer.md, R384. -/
  stopAt : Nat := 0
  /-- Asked for by PADDOCK_PREEMPT: the paddock goes to HELD; R390 of 15_paddocks_and_preemption.md. -/
  toHeld : Bool := false
  /-- The mailbox whose PADDOCK_PREEMPT waits for HELD; R390 of 15_paddocks_and_preemption.md. -/
  waiter : Option (Master × Nat) := none
  deriving DecidableEq, Repr

/-- A block bell of a paddock (R183, R388): values held per paddock and block while the paddock exists (R529). -/
structure Bell where
  /-- `value`; 31; R183 of 08_bells_and_hurdles.md; reset 0. -/
  value : Nat := 0
  /-- `rings`, saturating 32; R388 of 15_paddocks_and_preemption.md, R203 of 08_bells_and_hurdles.md; reset 0. -/
  rings : Nat := 0
  /-- Stamp of the last ring; 64; R203 of 08_bells_and_hurdles.md; reset 0. -/
  lastStamp : Nat := 0
  /-- Source number of the last ring; 40; R203 of 08_bells_and_hurdles.md; reset 0. -/
  lastSource : Nat := 0
  /-- Increment of the last ring; 16; R203 of 08_bells_and_hurdles.md; reset 0. -/
  lastInc : Nat := 0
  /-- Waiters in the order in which they began to wait: key (block times 16 plus thread; 2^20 plus ring for a WAIT descriptor), threshold and deadline (0 none); R192 to R194 of 08_bells_and_hurdles.md; reset none. -/
  waiters : List (Nat × Nat × Nat) := []
  /-- BELL_SATURATED has been raised for it; R188, R203 of 08_bells_and_hurdles.md; reset false. -/
  saturated : Bool := false
  /-- Buffer ranges (offset, bytes) that transfers signalled by the bell have placed in its block and that no thread may read before it has observed the bell; R135 of 06_block_sequencer.md; reset none. -/
  unseen : List (Nat × Nat) := []
  deriving DecidableEq, Repr

/-- One paddock (R366 to R393). -/
structure Paddock where
  /-- `role`; 0 to 3; R366 of 15_paddocks_and_preemption.md. -/
  role : Nat
  /-- `SECURE`; R366 of 15_paddocks_and_preemption.md. -/
  world : World
  /-- `priority`; 3; R366 of 15_paddocks_and_preemption.md. -/
  priority : Nat
  /-- `operator`; R366, R374 of 15_paddocks_and_preemption.md. -/
  operator : Option Master
  /-- `budget_ticks`; 32; R366 of 15_paddocks_and_preemption.md. -/
  budget : Nat
  /-- `slice_ticks`; 32; R366 of 15_paddocks_and_preemption.md. -/
  slice : Nat
  /-- `ring_save`; 46; R366, R389 of 15_paddocks_and_preemption.md. -/
  ringSave : Nat
  /-- `hurdles`, a bit per hurdle; 256; R366 of 15_paddocks_and_preemption.md. -/
  hurdles : BitVec 256
  /-- `nbells`, first and count per network die; R366 of 15_paddocks_and_preemption.md. -/
  nbells : Vector (Nat × Nat) 4
  /-- `blocks`, bit 64n + i for block i of region n; 1,024; R366 of 15_paddocks_and_preemption.md. -/
  blocks : BitVec 1024
  /-- `save_base` per region; R366, R388 of 15_paddocks_and_preemption.md. -/
  saveBase : Vector Nat 16
  /-- Windows; R370 of 15_paddocks_and_preemption.md; none at creation. -/
  windows : List MemWindow := []
  /-- State; R375 of 15_paddocks_and_preemption.md; VACANT at creation. -/
  state : PaddockState := .vacant
  /-- Stamp of the last change of state; 64; R392 of 15_paddocks_and_preemption.md. -/
  stateSince : Nat := 0
  /-- The paddock holds its blocks; R375 of 15_paddocks_and_preemption.md. -/
  holds : Bool := false
  /-- Demand stamp, 0 when it has no work; R376 of 15_paddocks_and_preemption.md. -/
  demand : Nat := 0
  /-- Stamp at which it last took its blocks; R379 of 15_paddocks_and_preemption.md. -/
  tookAt : Nat := 0
  /-- Preemption in progress; R378 of 15_paddocks_and_preemption.md; none at creation. -/
  preempt : Option Preemption := none
  /-- `last_mode`; 0 to 3; R392 of 15_paddocks_and_preemption.md; 0 at creation. -/
  lastMode : Nat := 0
  /-- `boundary` preemptions since cold reset; R392 of 15_paddocks_and_preemption.md; 0. -/
  nBoundary : Nat := 0
  /-- `immediate` preemptions; R392 of 15_paddocks_and_preemption.md; 0. -/
  nImmediate : Nat := 0
  /-- `escalated`; R392 of 15_paddocks_and_preemption.md; 0. -/
  nEscalated : Nat := 0
  /-- `saved_bytes`; R392 of 15_paddocks_and_preemption.md; 0. -/
  savedBytes : Nat := 0
  /-- `last_switch`; R392 of 15_paddocks_and_preemption.md; 0. -/
  lastSwitch : Nat := 0
  /-- Start of its last preemption while the incoming paddock is not yet RUNNING; R392 of 15_paddocks_and_preemption.md; none. -/
  switchFrom : Option Nat := none
  /-- Its block records hold the full record of a suspended command; R375 of 15_paddocks_and_preemption.md; false. -/
  suspended : Bool := false
  /-- Its last save was an IMMEDIATE one, so that a restore writes the whole record; R386 of 15_paddocks_and_preemption.md; false. -/
  fullRecord : Bool := false
  /-- Blocks in whose records a save has written the generator states; R386 of 15_paddocks_and_preemption.md; none. -/
  generatorsSaved : List Nat := []
  /-- Every block of an incoming paddock has been restored; R386 of 15_paddocks_and_preemption.md; false. -/
  restored : Bool := false
  /-- Record (32 bytes) of the fault that faulted it; R434, R435 of 17_faults_and_recovery.md; none. -/
  faultRecord : List Byte := []
  /-- Image serial: handles given so far; 26; R178 of 07_compiled_schedules.md; 0. -/
  nextSerial : Nat := 0
  /-- Block bells by block times 64 plus bell; R183, R529 of 08_bells_and_hurdles.md; zero at creation. -/
  bells : Table Bell := []
  /-- Tensor bindings 2,048 to 4,095 set by BALE_TENSOR_SET, as 32-byte entries; R238, R251 of 10_bales.md; none. -/
  tensors : Table (List Byte) := []
  deriving DecidableEq, Repr

/-- States of a registered image (R180), codes 0 to 2. -/
inductive ImageState where
  | registered | loading | resident
  deriving DecidableEq, Repr

/-- One registered image (R178). -/
structure Image where
  /-- The device's own copy of the image; R178 of 07_compiled_schedules.md. -/
  bytes : List Byte
  /-- Local address it was read from, which stays in the paddock's windows; R178 of 07_compiled_schedules.md, R371 of 15_paddocks_and_preemption.md. -/
  address : Nat := 0
  /-- State; R180 of 07_compiled_schedules.md. -/
  state : ImageState := .registered
  /-- `resident_at`; R180 of 07_compiled_schedules.md. -/
  residentAt : Nat := 0
  deriving DecidableEq, Repr

/-- An armed FAULT_INJECT (R440). -/
structure Injection where
  /-- `kind`; 0 to 3; R440 of 17_faults_and_recovery.md. -/
  kind : Nat
  /-- `persist`; R440 of 17_faults_and_recovery.md. -/
  persist : Bool
  /-- `paddock` or 0xFF; R440 of 17_faults_and_recovery.md. -/
  paddock : Nat
  /-- `target`; 64; R440 of 17_faults_and_recovery.md. -/
  target : Nat
  deriving DecidableEq, Repr

/-- `FAULT_RING_SET` in effect (R430). -/
structure FaultMirror where
  /-- `ENABLE`; R430 of 17_faults_and_recovery.md; reset 0. -/
  enable : Bool := false
  /-- `IRQ`; R430 of 17_faults_and_recovery.md; reset 0. -/
  irq : Bool := false
  /-- `SECURE`; R430 of 17_faults_and_recovery.md; reset 0. -/
  secure : Bool := false
  /-- `irq_hart`; R430 of 17_faults_and_recovery.md; reset 0. -/
  hart : Nat := 0
  /-- `irq_id`; R430 of 17_faults_and_recovery.md; reset 0. -/
  irqId : Nat := 0
  /-- `base`; R430 of 17_faults_and_recovery.md; reset 0. -/
  base : Nat := 0
  /-- `prod_addr`; R430 of 17_faults_and_recovery.md; reset 0. -/
  prodAddr : Nat := 0
  deriving DecidableEq, Repr

/-- A PEER_NOTE whose further copies are still to be sent (R435). -/
structure NoteDue where
  /-- Stamp of the fault, clear or start the copies count from; R435 of 17_faults_and_recovery.md. -/
  at0 : Nat
  /-- Next copy, 1 or 2; R435 of 17_faults_and_recovery.md. -/
  copy : Nat
  /-- Connections the note goes on; R435 of 17_faults_and_recovery.md. -/
  conns : List Nat
  /-- The 64-byte payload with `copy` zero; R435 of 17_faults_and_recovery.md. -/
  payload : List Byte
  deriving DecidableEq, Repr

/-- Faults and events (R419 to R440). -/
structure Faults where
  /-- Newest records first, at most 4,096 of 32 bytes; R428 of 17_faults_and_recovery.md; reset none. -/
  ring : List (List Byte) := []
  /-- Next sequence number; 64; R428 of 17_faults_and_recovery.md; reset 0. -/
  next : Nat := 0
  /-- `lost`; 64; R428 of 17_faults_and_recovery.md; reset 0. -/
  lost : Nat := 0
  /-- One-bit corrections; 64; R431 of 17_faults_and_recovery.md; reset 0. -/
  corrected1 : Nat := 0
  /-- Two-bit corrections; 64; R431 of 17_faults_and_recovery.md; reset 0. -/
  corrected2 : Nat := 0
  /-- Chip flag: lasting TALLY_FREE uncleared; R427 of 17_faults_and_recovery.md; reset 0. -/
  tallyFree : Bool := false
  /-- Chip flag: lasting LOCKSTEP uncleared; R427 of 17_faults_and_recovery.md; reset 0. -/
  lockstep : Bool := false
  /-- Chip flag: the Shepherd die's stile is DOWN; R427 of 17_faults_and_recovery.md; reset 0. -/
  shepherdStile : Bool := false
  /-- Chip flag: a stile link is DOWN; R427 of 17_faults_and_recovery.md; reset 0. -/
  stileDown : Bool := false
  /-- `FAULT_PADDOCKS`: paddocks with an uncleared lasting fault; 64; R437 of 17_faults_and_recovery.md; reset 0. -/
  paddocks : BitVec 64 := 0
  /-- Mesh stile links that are DOWN, numbers of R166; R424 of 17_faults_and_recovery.md; reset none. -/
  downMesh : List Nat := []
  /-- Edge stiles that are DOWN; R424 of 17_faults_and_recovery.md; reset none. -/
  downEdge : List Nat := []
  /-- Flits replayed since cold reset per link (edge stile e at 24 + e); R426 of 17_faults_and_recovery.md; reset 0. -/
  replays : Table Nat := []
  /-- Mirror in effect; R430 of 17_faults_and_recovery.md; reset defaults. -/
  mirror : FaultMirror := {}
  /-- Armed injection; R440 of 17_faults_and_recovery.md; reset none. -/
  injection : Option Injection := none
  /-- Notes with copies still due; R435 of 17_faults_and_recovery.md; reset none. -/
  notesDue : List NoteDue := []
  /-- Last 64 notes accepted, newest first: sender, paddock, kind, stamp; R436 of 17_faults_and_recovery.md; reset none. -/
  notesSeen : List (Nat × Nat × Nat × Nat) := []
  /-- Local word addresses (multiples of 8) written with the poison bit; R421 of 17_faults_and_recovery.md; reset none. -/
  poisoned : List Nat := []
  deriving DecidableEq, Repr

/-- Worlds, binding, boot flash, fuses and attestation (R441 to R464). -/
structure Security where
  /-- `harts`: SECURE host cores; 48; R443 of 18_security_and_firmware_trust.md; reset 0. -/
  harts : BitVec 64 := 0
  /-- `pairs`: SECURE HOST pairs; 8; R443 of 18_security_and_firmware_trust.md; reset 0. -/
  pairs : BitVec 8 := 0
  /-- `fabric`: the FABRIC path is SECURE; 1; R443 of 18_security_and_firmware_trust.md; reset 0. -/
  fabric : Bool := false
  /-- `origin`; 0 to 2; R444 of 18_security_and_firmware_trust.md; reset 0. -/
  origin : Nat := 0
  /-- `since`; 64; R444 of 18_security_and_firmware_trust.md; reset 0. -/
  since : Nat := 0
  /-- Bound fabric manager: device, connection, generation; R459 of 18_security_and_firmware_trust.md; reset none (no provisioned one). -/
  bound : Option (Nat × Nat × Nat) := none
  /-- The bound manager is the provisioned one; R485 of 19_clocks_power_and_reset.md; reset false. -/
  provisioned : Bool := false
  /-- The STARTED notes of the provisioned connection wait for a link of it; R457 of 18_security_and_firmware_trust.md; reset false. -/
  startedDue : Bool := false
  /-- Boot flash slot A, byte offset to byte, 0xFF where nothing is listed; R446 of 18_security_and_firmware_trust.md; reset DESIGN CHOICE empty, log entry 5. -/
  slotA : Table Byte := []
  /-- Boot flash slot B; R446 of 18_security_and_firmware_trust.md; reset DESIGN CHOICE empty, log entry 5. -/
  slotB : Table Byte := []
  /-- Bytes of slots programmed twice since their erase, whose value is undefined: slot times 2^32 plus offset; R454 of 18_security_and_firmware_trust.md; reset none. -/
  twice : List Nat := []
  /-- Boot record copy 0, 32 bytes; R449 of 18_security_and_firmware_trust.md; reset DESIGN CHOICE invalid (empty), log entry 5. -/
  record0 : List Byte := []
  /-- Boot record copy 1, 32 bytes; R449 of 18_security_and_firmware_trust.md; reset DESIGN CHOICE invalid (empty), log entry 5. -/
  record1 : List Byte := []
  /-- State of slots A and B as FW_INFO codes it; R453 of 18_security_and_firmware_trust.md; reset A RUNNING, B UNCHECKED, log entry 5. -/
  slotState : Vector Nat 2 := #v[3, 0]
  /-- Reason of the last check; R453 of 18_security_and_firmware_trust.md; reset 0. -/
  slotReason : Vector Nat 2 := #v[0, 0]
  /-- `checked_at`; R453 of 18_security_and_firmware_trust.md; reset 0. -/
  slotChecked : Vector Nat 2 := #v[0, 0]
  /-- Blown rollback fuses f; 0 to 64; R452 of 18_security_and_firmware_trust.md; reset DESIGN CHOICE 0, log entry 5. -/
  fusedStep : Nat := 0
  /-- Blown revoke fuses; 4; R452 of 18_security_and_firmware_trust.md; reset DESIGN CHOICE 0, log entry 5. -/
  revoked : BitVec 4 := 0
  /-- Fused digests of manifest-signing keys, up to 4 of 64 bytes; R445, R448 of 18_security_and_firmware_trust.md; reset DESIGN CHOICE none, log entry 5. -/
  fusedKeys : List (List Byte) := []
  /-- Manufacturing debug fuse; R464 of 18_security_and_firmware_trust.md; reset DESIGN CHOICE intact, log entry 5. -/
  debugFuse : Bool := false
  /-- Boot nonce, 64 bytes; R461 of 18_security_and_firmware_trust.md; reset a free value of the draw (log entry 6), held as its draw number. -/
  nonceDraw : Nat := 0
  /-- Board configuration component of the running slot, empty when it has none; R456 of 18_security_and_firmware_trust.md; reset empty. -/
  boardConfig : List Byte := []
  /-- `DEBUG` flag of the running manifest; R447 of 18_security_and_firmware_trust.md; reset 0. -/
  manifestDebug : Bool := false
  /-- Running on trial; R463 of 18_security_and_firmware_trust.md; reset false. -/
  onTrial : Bool := false
  /-- Firmware measurement, 64 bytes; R462 of 18_security_and_firmware_trust.md; reset DESIGN CHOICE zeros (no component named), log entry 5. -/
  fwMeasure : List Byte := List.replicate 64 0
  /-- Configuration measurement, 64 bytes; R462 of 18_security_and_firmware_trust.md; reset zero. -/
  cfgMeasure : List Byte := List.replicate 64 0
  /-- `sets_applied` since cold reset; R463 of 18_security_and_firmware_trust.md; reset 0. -/
  setsApplied : Nat := 0
  deriving DecidableEq, Repr

/-- One trace filter (R523). -/
structure TraceFilter where
  /-- `kind`; R523 of 21_register_reference.md. -/
  kind : Nat
  /-- `paddock` or 0xFF; R523 of 21_register_reference.md. -/
  paddock : Nat
  /-- `first`; R523 of 21_register_reference.md. -/
  first : Nat
  /-- `count`; R523 of 21_register_reference.md. -/
  count : Nat
  deriving DecidableEq, Repr

/-- One trace entry (R524). -/
structure TraceEntry where
  /-- `stamp`; R524 of 21_register_reference.md. -/
  stamp : Nat
  /-- `source`; R524 of 21_register_reference.md. -/
  source : Nat
  /-- `kind`; R524 of 21_register_reference.md. -/
  kind : Nat
  /-- `AFTER_DROP`; R524 of 21_register_reference.md. -/
  afterDrop : Bool
  /-- `object`; R524 of 21_register_reference.md. -/
  object : Nat
  /-- `value`; R524 of 21_register_reference.md. -/
  value : Nat
  /-- `aux`; R524 of 21_register_reference.md. -/
  aux : Nat
  /-- Paddock of the object, 0xFF none, for REDACTED; R525 of 21_register_reference.md. -/
  paddock : Nat
  deriving DecidableEq, Repr

/-- The trace unit (R523 to R525). -/
structure Trace where
  /-- `ENABLE`; R523 of 21_register_reference.md; reset 0. -/
  enable : Bool := false
  /-- `STOP_FULL`; R523 of 21_register_reference.md; reset 0. -/
  stopFull : Bool := false
  /-- Filters; R523 of 21_register_reference.md; reset none. -/
  filters : List TraceFilter := []
  /-- Entries newest first, at most 8,192; R524 of 21_register_reference.md; reset none. -/
  entries : List TraceEntry := []
  /-- `TRACE_NEXT`; 64; R518 of 21_register_reference.md; reset 0. -/
  next : Nat := 0
  /-- `TRACE_DROPPED`; 64; R518 of 21_register_reference.md; reset 0. -/
  dropped : Nat := 0
  /-- The next kept entry carries AFTER_DROP; R524 of 21_register_reference.md; reset false. -/
  pendingDrop : Bool := false
  /-- Tick of the last kept entry, for the rate of one per 2 ticks; R524 of 21_register_reference.md; reset none. -/
  lastAt : Option Nat := none
  deriving DecidableEq, Repr

end Sys2Proof.Machine
end

