-- ==== Sys2Proof/Machine/TypesSeq.lean ====
section
/-! DEFINITION. The records of the block sequencers, cells, hurdles and of what a block has outstanding.
Every field's docstring names the rule of spec/ that gives it and its reset value. -/

namespace Sys2Proof.Machine

/-- Thread states (R131). -/
inductive ThreadState where
  | idle | ready | held | waiting | stopped | faulted
  deriving DecidableEq, Repr

/-- What a WAITING thread waits for (R131, R150 to R153). -/
inductive WaitFor where
  /-- Nothing: the thread is not WAITING. -/
  | nothing
  /-- One CCLK after YIELD (R136). -/
  | yielded
  /-- The block slot counter to equal this value (SLOTWAIT), in the frame that begins at this Tally multiple or a later one. -/
  | slot (value frame : Nat)
  /-- A BWAIT: destination register, bell of the block, threshold, deadline (0 none). -/
  | bell (dest bell threshold deadline : Nat)
  /-- An HWAIT, or an HPASS whose arrival has counted: hurdle and round; `pass` marks HPASS. -/
  | hurdle (h round : Nat) (pass : Bool)
  /-- A WWAIT for this window. -/
  | window (w : Nat)
  /-- A remote access: identifier of the outstanding access. -/
  | remote (id : Nat)
  deriving DecidableEq, Repr

/-- One hardware thread (R130). -/
structure Thread where
  /-- s1 to s31 by number (s0 reads as zero); 32 of 64; R130 of 06_block_sequencer.md; reset 0 (R485 clears blocks). -/
  s : Sparse 64 := []
  /-- Lanes of v0 to v15 by 64 times register plus lane; 1,024 of 32; R130 of 06_block_sequencer.md; reset +0. -/
  v : Sparse 32 := []
  /-- PC; 13, and 8,192 past the last word, where the thread raises ADDRESS instead of issuing; R129, R137 of 06_block_sequencer.md; reset 0. -/
  pc : Nat := 0
  /-- `FSTAT` flags; 5; R122 of 05_cells_and_formats.md; reset 0. -/
  fstat : BitVec 5 := 0
  /-- Bale context; 12; R130 of 06_block_sequencer.md; reset 0. -/
  bale : Nat := 0
  /-- Thread state; R131 of 06_block_sequencer.md; reset IDLE. -/
  state : ThreadState := .idle
  /-- The awaited event; R131 of 06_block_sequencer.md; reset nothing. -/
  waits : WaitFor := .nothing
  /-- State before STOPPED; R388 of 15_paddocks_and_preemption.md; reset IDLE. -/
  before : ThreadState := .idle
  /-- `resume` bit: an HPASS whose arrival has counted; R388 of 15_paddocks_and_preemption.md; reset 0. -/
  resumePass : Bool := false
  /-- `progress`: rounds done of an interrupted MMAC; 12; R130, R157 of 06_block_sequencer.md, R388; reset 0. -/
  progress : Nat := 0
  /-- `mmac_pc`; 16; R388 of 15_paddocks_and_preemption.md; reset 0xFFFF. -/
  mmacPc : Nat := 0xFFFF
  /-- `mmac_context`; 12; R388 of 15_paddocks_and_preemption.md; reset 0. -/
  mmacContext : Nat := 0
  /-- `mmac_b`; 64; R388 of 15_paddocks_and_preemption.md; reset 0. -/
  mmacB : Nat := 0
  /-- `mmac_c`; 64; R388 of 15_paddocks_and_preemption.md; reset 0. -/
  mmacC : Nat := 0
  deriving DecidableEq, Repr

/-- Kinds of asynchronous bale transfer (R146). -/
inductive BaleOp where
  | load | store | expand | copyIn | copyOut
  deriving DecidableEq, Repr

/-- One outstanding bale transfer of a block (R146). -/
structure BaleTransfer where
  /-- Operation; R146 of 06_block_sequencer.md. -/
  op : BaleOp
  /-- Issuing thread; R146 of 06_block_sequencer.md. -/
  thread : Nat
  /-- Buffer offset s[a]; R145 of 06_block_sequencer.md. -/
  buffer : Nat
  /-- Memory address (or source buffer offset of BEXPAND) s[b]; R145 of 06_block_sequencer.md. -/
  address : Nat
  /-- `count`; R145 of 06_block_sequencer.md. -/
  count : Nat
  /-- Tensor of the bale context at issue; R145 of 06_block_sequencer.md. -/
  tensor : Nat
  /-- The 32-byte binding in effect at issue, empty for BCOPY; R240 of 10_bales.md. -/
  binding : List Byte := []
  /-- Bell of the block to ring at completion; R146 of 06_block_sequencer.md. -/
  bell : Option Nat
  deriving DecidableEq, Repr

/-- The MMAC that occupies a block's matrix engine, kept so that a stop at the end of a round finds the accumulator as it
stood (R134, R157). -/
structure MmacRun where
  /-- Issuing thread; R157 of 06_block_sequencer.md. -/
  thread : Nat
  /-- PC of the MMAC; R157, R388. -/
  pc : Nat
  /-- Bale context it uses; R157, R388. -/
  context : Nat
  /-- Its s[b]; R157, R388. -/
  b : Nat
  /-- Its s[c]; R157, R388. -/
  c : Nat
  /-- Tally multiple of the frame in which it issued; R160 of 07_compiled_schedules.md. -/
  frame : Nat
  /-- CCLK of that frame in which it issued; R141 of 06_block_sequencer.md. -/
  cclk : Nat
  /-- Its thread has issued another instruction since; R157 of 06_block_sequencer.md. -/
  later : Bool := false
  /-- Rounds of the instruction; R141 of 06_block_sequencer.md. -/
  rounds : Nat
  /-- Rounds done before this run, of one that resumes; R157 of 06_block_sequencer.md. -/
  first : Nat := 0
  /-- CCLKs of one round; R141 of 06_block_sequencer.md. -/
  roundTime : Nat
  /-- Accumulator number; R141 of 06_block_sequencer.md. -/
  acc : Nat
  /-- The accumulators of the 1,024 cells before it; the model's own, R157. -/
  before : List (BitVec 32)
  /-- The accumulator's flags before it; the model's own, R157. -/
  flags : BitVec 5
  deriving DecidableEq, Repr

/-- One block: its sequencer, its shared units and what it has outstanding. -/
structure Block where
  /-- The 16 threads; R129, R130 of 06_block_sequencer.md; reset IDLE. -/
  threads : Vector Thread 16 := Vector.replicate 16 {}
  /-- Stochastic-rounding generators, lane l; 64 of 32; R120 of 05_cells_and_formats.md; reset l + 1. -/
  generators : Vector (BitVec 32) 64 := Vector.ofFn fun l => BitVec.ofNat 32 (l.val + 1)
  /-- FSTAT flags the cells raised per accumulator since its last drain; 32 of 5; R124 of 05_cells_and_formats.md, R388; reset 0. -/
  accFlags : Vector (BitVec 5) 32 := Vector.replicate 32 0
  /-- Instruction store: words 0 to 8,191, zero where not listed; 64 KiB; R129 of 06_block_sequencer.md; reset 0. -/
  istore : Sparse 64 := []
  /-- Outstanding bale transfers, at most 16, oldest first; R146 of 06_block_sequencer.md; reset none. -/
  bales : List BaleTransfer := []
  /-- Tally multiple of the last frame whose start has come as an event; R160 of 07_compiled_schedules.md; reset 0. -/
  frameStart : Nat := 0
  /-- Tally multiple of the frame to which the next two count; R160 of 07_compiled_schedules.md; reset 0. -/
  cclkFrame : Nat := 0
  /-- First CCLK of that frame in which nothing has issued yet; R132 of 06_block_sequencer.md; reset 0. -/
  cclkNext : Nat := 0
  /-- First CCLK of that frame at which the matrix engine is free; R133 of 06_block_sequencer.md; reset 0. -/
  matrixNext : Nat := 0
  /-- Stamp of the last act of the block: an instruction issued, a transfer or an access that ended, a clear or a restore; R472 of
  19_clocks_power_and_reset.md; reset 0. -/
  busyAt : Nat := 0
  /-- The thread that issued last; R132 of 06_block_sequencer.md; reset DESIGN CHOICE 15 (thread 0 is first), log entry 10. -/
  lastThread : Nat := 15
  /-- The MMAC that was issued last, while a stop may still interrupt it; R157 of 06_block_sequencer.md; reset none. -/
  mmac : Option MmacRun := none
  deriving DecidableEq, Repr

/-- Kinds of remote access (R150). -/
inductive RemoteOp where
  | load | store | flag | atomic | put | get
  deriving DecidableEq, Repr

/-- What a remote access asks for, as its instruction and its context give it at issue (R335, R338). -/
structure Asked where
  /-- `LOCAL`; R335 of 13_memory_semantic_access.md. -/
  isLocal : Bool := false
  /-- Home die of the connection, or `home`; R335, R339 of 13_memory_semantic_access.md. -/
  home : Nat := 0
  /-- `SECURE`; R335 of 13_memory_semantic_access.md. -/
  secure : Bool := false
  /-- Traffic class, 0xFF for the connection's; R335 of 13_memory_semantic_access.md. -/
  cls : Nat := 0xFF
  /-- `key`; R335 of 13_memory_semantic_access.md. -/
  key : Nat := 0
  /-- Bell of a flag store; R341 of 13_memory_semantic_access.md. -/
  bell : Nat := 0xFFFFFFFF
  /-- Increment of a flag store; R341 of 13_memory_semantic_access.md. -/
  inc : Nat := 0
  /-- `aop`; R150 of 06_block_sequencer.md. -/
  aop : Nat := 0
  /-- Operand, or value stored; R338 of 13_memory_semantic_access.md. -/
  value : BitVec 64 := 0
  /-- Compare value; R338 of 13_memory_semantic_access.md. -/
  compare : BitVec 64 := 0
  /-- Bytes of an RPUT; R338 of 13_memory_semantic_access.md. -/
  data : List Byte := []
  deriving DecidableEq, Repr

/-- One outstanding remote access (R151, R335 to R345). -/
structure RemoteAccess where
  /-- Identifier; the model's own. -/
  id : Nat
  /-- Operation; R150 of 06_block_sequencer.md. -/
  op : RemoteOp
  /-- Issuing block; R151 of 06_block_sequencer.md. -/
  block : Nat
  /-- Issuing thread; R150 of 06_block_sequencer.md. -/
  thread : Nat
  /-- Paddock; R335 of 13_memory_semantic_access.md. -/
  paddock : Nat
  /-- Remote context; R335 of 13_memory_semantic_access.md. -/
  ctx : Nat
  /-- Global address; R150 of 06_block_sequencer.md. -/
  address : Nat
  /-- Bytes; R150 of 06_block_sequencer.md. -/
  len : Nat
  /-- Destination register of RLOAD and RATOM; R150 of 06_block_sequencer.md. -/
  dest : Nat := 0
  /-- Buffer offset an RGET writes; R150 of 06_block_sequencer.md. -/
  buffer : Nat := 0
  /-- Bell to ring at the end; R151 of 06_block_sequencer.md. -/
  bell : Option Nat := none
  /-- Instant of the bound; R345 of 13_memory_semantic_access.md. -/
  bound : Nat := 0
  /-- Connection it went out on; R335 of 13_memory_semantic_access.md. -/
  conn : Nat := 0
  /-- What it asks for; R338 of 13_memory_semantic_access.md. -/
  asked : Asked := {}
  /-- Its request has left the mesh through its OUT window; R150, R339; false at issue. -/
  left : Bool := false
  /-- Its answer came in time and waits for its IN window; R339, R345 of 13_memory_semantic_access.md; false at issue. -/
  inTime : Bool := false
  /-- Its bound has passed: a later answer is dropped; R345 of 13_memory_semantic_access.md. -/
  expired : Bool := false
  deriving DecidableEq, Repr

/-- One hurdle (R198). -/
structure Hurdle where
  /-- `round`; 64; R198 of 08_bells_and_hurdles.md; reset 0. -/
  round : Nat := 0
  /-- N, none while unset; 15; R198 of 08_bells_and_hurdles.md; reset unset. -/
  n : Option Nat := none
  /-- Current set: block times 16 plus thread, ascending; R198 of 08_bells_and_hurdles.md; reset empty. -/
  current : List Nat := []
  /-- Next set; R198 of 08_bells_and_hurdles.md; reset empty. -/
  nextSet : List Nat := []
  /-- Stamp of the last arrival; R198 of 08_bells_and_hurdles.md; reset 0. -/
  lastStamp : Nat := 0
  /-- Source of the last arrival; R198 of 08_bells_and_hurdles.md; reset 0. -/
  lastSource : Nat := 0
  /-- `completed_at`; R198 of 08_bells_and_hurdles.md; reset 0. -/
  completedAt : Nat := 0
  /-- HURDLE_OVERRUN raised; R203 of 08_bells_and_hurdles.md; reset false. -/
  overrun : Bool := false
  /-- HURDLE_MISMATCH raised; R203 of 08_bells_and_hurdles.md; reset false. -/
  mismatch : Bool := false
  deriving DecidableEq, Repr

/-- An arrival on its way to a hurdle (issued, not yet applied), or one whose answer is on its way back (R199, R202). -/
structure Arrival where
  /-- Hurdle; R197 of 08_bells_and_hurdles.md. -/
  hurdle : Nat
  /-- N of the arrival; R197 of 08_bells_and_hurdles.md. -/
  n : Nat
  /-- Block; R199 of 08_bells_and_hurdles.md. -/
  block : Nat
  /-- Thread; R199 of 08_bells_and_hurdles.md. -/
  thread : Nat
  /-- Destination register s[a]; R200 of 08_bells_and_hurdles.md. -/
  dest : Nat
  /-- An HPASS, which then waits for the round; R200 of 08_bells_and_hurdles.md. -/
  pass : Bool
  /-- Tally at which it reaches its hurdle; R199, R202 of 08_bells_and_hurdles.md. -/
  due : Nat := 0
  deriving DecidableEq, Repr

/-- The cell fabric: blocks, cells, hurdles, network bells and remote accesses. -/
structure Fabric where
  /-- Blocks by number 0 to 1,023; a block not listed is as after reset; R14, R129 of 06_block_sequencer.md; reset none listed. -/
  blocks : Table Block := []
  /-- Cell scratch, byte (1,024 block + cell) 4,096 + offset; 4 GiB; R107 of 05_cells_and_formats.md; reset 0 (R485). -/
  scratch : Sparse 8 := []
  /-- Accumulators, (1,024 block + cell) 32 + a; 32 each; R107 of 05_cells_and_formats.md; reset +0 (R485). -/
  acc : Sparse 32 := []
  /-- Network bells by 1,024 d + j; R182 of 08_bells_and_hurdles.md; reset 0. -/
  netBells : Table Bell := []
  /-- Hurdles 0 to 255; R197, R198 of 08_bells_and_hurdles.md; reset R198. -/
  hurdles : Table Hurdle := []
  /-- Hurdle arrivals on the bell lane, oldest first; R199, R202 of 08_bells_and_hurdles.md; reset none. -/
  arrivals : List Arrival := []
  /-- Bytes of the service share taken in each region, and last in tier die 0, from the Tally's zero on, 8,192 to a run; R530 of 07_compiled_schedules.md; reset 0. -/
  service : Vector Nat 17 := Vector.replicate 17 0
  /-- Remote accesses outstanding; R151 of 06_block_sequencer.md; reset none. -/
  remote : List RemoteAccess := []
  /-- Next identifier of a remote access; the model's own counter; reset 0. -/
  nextRemote : Nat := 0
  deriving DecidableEq, Repr

end Sys2Proof.Machine
end

