-- ==== Sys2Proof/Machine/TypesNet.lean ====
section
/-! DEFINITION. The records of the ports, connections, queue rings, exposures and the traffic scheduler.
Every field's docstring names the rule of spec/ that gives it and its reset value. -/

namespace Sys2Proof.Machine

/-- States of a port link (R308), codes 0 to 3. -/
inductive LinkState where
  | absent | down | training | up
  deriving DecidableEq, Repr

/-- A frame the device sends: opcode (R312) and contents. -/
structure OutFrame where
  /-- Opcode; 8; R312 of 12_fabric_transport.md. -/
  opcode : Nat
  /-- Header, extension and payload; R311 of 12_fabric_transport.md. -/
  frame : Frame
  /-- The bytes before the transport header, once it has left a link; R309, R310 of 12_fabric_transport.md; none before. -/
  encap : List Byte := []
  deriving DecidableEq, Repr

/-- A frame in a class queue (R350, stage 4). -/
structure QueuedFrame where
  /-- The frame as built; the send stamp is inserted when it leaves; R311 of 12_fabric_transport.md. -/
  out : OutFrame
  /-- Length L for scheduling; R352 of 14_traffic_scheduling.md. -/
  len : Nat
  /-- Connection and PSN of a sequenced packet; R350 of 14_traffic_scheduling.md. -/
  seqOf : Option (Nat × Nat) := none
  /-- Connection it belongs to, for R363 of 14_traffic_scheduling.md; none for a connectionless frame. -/
  conn : Option Nat := none
  /-- DEI mark of a YELLOW packet; R354 of 14_traffic_scheduling.md. -/
  dei : Bool := false
  deriving DecidableEq, Repr

/-- Class queues, shapers and the selection of one port link (R356, R360). -/
structure Link where
  /-- `state`; R308 of 12_fabric_transport.md; reset DESIGN CHOICE DOWN (UP or left DOWN by R486), log entry 5; link 1 ABSENT in mode 0. -/
  state : LinkState := .down
  /-- `up_since`; 64; R308 of 12_fabric_transport.md; reset 0. -/
  upSince : Nat := 0
  /-- `fec_corrected`, `fec_uncorrectable`, `frames_out`, `frames_in`, `drop_bad`, `drop_not_mine`, `drop_full`, `drop_window`; 64 each; R308 of 12_fabric_transport.md; reset 0. -/
  counters : Vector Nat 8 := Vector.replicate 8 0
  /-- Class queues 0 to 15, head first; R350 of 14_traffic_scheduling.md; reset empty. -/
  queues : Vector (List QueuedFrame) 16 := Vector.replicate 16 []
  /-- Shaper credit per class in 1/6,400 byte; signed; R356 of 14_traffic_scheduling.md; reset 0. -/
  credit : Vector Int 16 := Vector.replicate 16 0
  /-- Tick up to which the credits have been run; R356 of 14_traffic_scheduling.md; reset 0. -/
  creditAt : Nat := 0
  /-- The class of the frame being sent and the tick its last bit leaves; R356, R360 of 14_traffic_scheduling.md; reset none. -/
  sending : Option (Nat × Nat) := none
  /-- Deficits of W0 to W12 in bytes; R360 of 14_traffic_scheduling.md; reset 0. -/
  deficit : Vector Nat 13 := Vector.replicate 13 0
  /-- `cur`; R360 of 14_traffic_scheduling.md; reset 0. -/
  cur : Nat := 0
  /-- `fresh`; R360 of 14_traffic_scheduling.md; reset true. -/
  fresh : Bool := true
  /-- Frames sent per class; R365 of 14_traffic_scheduling.md; reset 0. -/
  frames : Vector Nat 16 := Vector.replicate 16 0
  /-- Bytes (L) sent per class; R365 of 14_traffic_scheduling.md; reset 0. -/
  bytes : Vector Nat 16 := Vector.replicate 16 0
  deriving DecidableEq, Repr

/-- A shaper of a class of a port (R357). -/
structure Shaper where
  /-- `idle_slope`; Mb/s; R357 of 14_traffic_scheduling.md. -/
  slope : Nat
  /-- `hi_credit`; bytes; R357 of 14_traffic_scheduling.md. -/
  hi : Int
  /-- `lo_credit`; bytes; R357 of 14_traffic_scheduling.md. -/
  lo : Int
  deriving DecidableEq, Repr

/-- A port's gate control list (R359). -/
structure GateList where
  /-- `cycle`; R359 of 14_traffic_scheduling.md. -/
  cycle : Nat
  /-- `phase`; R359 of 14_traffic_scheduling.md. -/
  phase : Nat
  /-- Entries: gates and ticks; R359 of 14_traffic_scheduling.md. -/
  entries : List (BitVec 16 × Nat)
  deriving DecidableEq, Repr

/-- One port (R307, R352 to R361). -/
structure Port where
  /-- `mode`; R307 of 12_fabric_transport.md; reset 0. -/
  mode : Nat := 0
  /-- `encap`; R307 of 12_fabric_transport.md; reset 0. -/
  encap : Nat := 0
  /-- `VLAN`; R307 of 12_fabric_transport.md; reset 0. -/
  vlanTag : Bool := false
  /-- `ECN`; R307 of 12_fabric_transport.md; reset 0. -/
  ecn : Bool := false
  /-- `vlan`; 12; R307 of 12_fabric_transport.md; reset 0. -/
  vlan : Nat := 0
  /-- `udp_port`; 16; R307 of 12_fabric_transport.md; reset 0xBA1E. -/
  udpPort : Nat := 0xBA1E
  /-- `prefix`; 64; R307 of 12_fabric_transport.md; reset 0. -/
  ipPrefix : Nat := 0
  /-- `pcp_map`; 64; R307 of 12_fabric_transport.md; reset class k to PCP 7 - min(k, 7). -/
  pcpMap : Nat := 0x0000000001234567
  /-- `dscp_map`, 16 bytes; R307 of 12_fabric_transport.md; reset 0. -/
  dscpMap : List Byte := List.replicate 16 0
  /-- `medium`; R307 of 12_fabric_transport.md; reset 2. -/
  medium : Nat := 2
  /-- `hop_limit`; R307 of 12_fabric_transport.md; reset 64. -/
  hopLimit : Nat := 64
  /-- `overhead`; signed; R352 of 14_traffic_scheduling.md; reset 20. -/
  overhead : Int := 20
  /-- Weights of W0 to W12; R361 of 14_traffic_scheduling.md; reset 1. -/
  weights : Vector Nat 13 := Vector.replicate 13 1
  /-- Shapers by class; R357 of 14_traffic_scheduling.md; reset unshaped. -/
  shapers : Table Shaper := []
  /-- Gate list in force, none while disabled; R359 of 14_traffic_scheduling.md; reset disabled. -/
  gates : Option GateList := none
  /-- Gates of the entry in force, as the last GATE_ENTRY_CHANGE or commit left them; R358 of 14_traffic_scheduling.md; reset all open. -/
  gatesNow : BitVec 16 := 0xFFFF
  /-- Link 0 (full port or p.0); R306 of 12_fabric_transport.md. -/
  link0 : Link := {}
  /-- Link 1 (p.1); R306 of 12_fabric_transport.md; ABSENT in mode 0. -/
  link1 : Link := { state := .absent }
  deriving DecidableEq, Repr

/-- The window arbiter of a network die (R361, R362). -/
structure Arbiter where
  /-- Weights of W0 to W12; R361 of 14_traffic_scheduling.md; reset 1. -/
  weights : Vector Nat 13 := Vector.replicate 13 1
  /-- Deficits; R362 of 14_traffic_scheduling.md; reset 0. -/
  deficit : Vector Nat 13 := Vector.replicate 13 0
  /-- `cur`; R362 of 14_traffic_scheduling.md; reset 0. -/
  cur : Nat := 0
  /-- `fresh`; R362 of 14_traffic_scheduling.md; reset true. -/
  fresh : Bool := true
  /-- Deliveries per class; R365 of 14_traffic_scheduling.md; reset 0. -/
  deliveries : Vector Nat 16 := Vector.replicate 16 0
  deriving DecidableEq, Repr

/-- What a sequenced packet answers to at its sender. -/
inductive Origin where
  /-- A descriptor: ring and ring position. -/
  | descriptor (ring index : Nat)
  /-- A remote access of a thread, by identifier. -/
  | remote (id : Nat)
  /-- The drove engine: address of the record (or of the holder's table) and the source's epoch. -/
  | drove (record epoch : Nat)
  /-- The read of an indirect payload by a FABRIC command: its queue entry (R82). -/
  | indirect (entry : Nat)
  /-- Nothing waits for it. -/
  | plain
  deriving DecidableEq, Repr

/-- A packet to send, before it has its PSN. -/
structure Outgoing where
  /-- Opcode (R312). -/
  opcode : Nat
  /-- Extension header. -/
  ext : List Byte := []
  /-- Payload. -/
  payload : List Byte := []
  /-- FIRST and LAST. -/
  flags : BitVec 16 := 3
  /-- Traffic class. -/
  cls : Nat
  /-- Ring whose policer meters it. -/
  ring : Option Nat := none
  /-- What it answers to. -/
  origin : Origin := .plain
  /-- It is a request that keeps until its response has come (R322). -/
  wants : Bool := false
  deriving DecidableEq, Repr

/-- One sequenced packet in the retransmission store or waiting for the congestion window (R320, R321). -/
structure TxPacket where
  /-- PSN, counted without wrapping; R311 of 12_fabric_transport.md. -/
  psn : Nat
  /-- Opcode; R312 of 12_fabric_transport.md. -/
  opcode : Nat
  /-- Extension bytes; R312 of 12_fabric_transport.md. -/
  ext : List Byte
  /-- Payload; R312 of 12_fabric_transport.md. -/
  payload : List Byte
  /-- FIRST and LAST flags; R311 of 12_fabric_transport.md. -/
  msgFlags : BitVec 16
  /-- Traffic class; R351 of 14_traffic_scheduling.md. -/
  cls : Nat
  /-- Ring whose policer meters it; R350 of 14_traffic_scheduling.md. -/
  ring : Option Nat
  /-- What it answers to. -/
  origin : Origin
  /-- It has left congestion control at least once; R325 of 12_fabric_transport.md. -/
  released : Bool := false
  /-- Send stamp of its last copy, or the instant at which a policer discarded that copy (R354); none before; R311 of 12_fabric_transport.md. -/
  sentAt : Option Nat := none
  /-- A copy has been sent before; R321 of 12_fabric_transport.md. -/
  again : Bool := false
  /-- Acknowledged by ACK or `sack`; R321 of 12_fabric_transport.md. -/
  acked : Bool := false
  /-- A request whose response is missing; R322 of 12_fabric_transport.md. -/
  wantsAnswer : Bool := false
  /-- Offset and length of the parts of a read that have arrived; R312, R322 of 12_fabric_transport.md. -/
  answered : List (Nat × Nat) := []
  /-- Instant of the resend that an RX_FULL or PAGE_WAIT asked for; R321 of 12_fabric_transport.md. -/
  resendAt : Option Nat := none
  /-- Fold-map version its destination was resolved under; R293 of 11_droves_folds_and_tiers.md. -/
  mapVersion : Nat := 0
  deriving DecidableEq, Repr

/-- A received packet that its stream holds until every earlier PSN has been placed (R324, R340). -/
structure HeldPacket where
  /-- PSN; R340 of 13_memory_semantic_access.md. -/
  psn : Nat
  /-- Opcode; R312 of 12_fabric_transport.md. -/
  opcode : Nat
  /-- The frame; R312 of 12_fabric_transport.md. -/
  frame : Frame
  /-- Port link whose receive share holds it; R320 of 12_fabric_transport.md. -/
  link : Nat
  deriving DecidableEq, Repr

/-- Connection states (R314), codes 0 to 3. -/
inductive ConnState where
  | idle | open | closing | error
  deriving DecidableEq, Repr

/-- One connection: its configuration and its context (R313 to R325). -/
structure Conn where
  /-- `state`; R314 of 12_fabric_transport.md; IDLE where the table names no connection. -/
  state : ConnState := .open
  /-- `peer_device`; 18; R313 of 12_fabric_transport.md. -/
  peer : Nat
  /-- `peer_conn`; 20; R313 of 12_fabric_transport.md. -/
  peerConn : Nat
  /-- `paddock`, 0xFF with MGMT; R313 of 12_fabric_transport.md. -/
  paddock : Nat
  /-- `home`; R313 of 12_fabric_transport.md. -/
  home : Nat
  /-- `links`; 16; R313 of 12_fabric_transport.md. -/
  links : BitVec 16
  /-- `class`; R313 of 12_fabric_transport.md. -/
  cls : Nat
  /-- `PIN`; R313 of 12_fabric_transport.md. -/
  pin : Bool
  /-- `MGMT`; R313 of 12_fabric_transport.md. -/
  mgmt : Bool
  /-- `gen`; 16; R313 of 12_fabric_transport.md. -/
  gen : Nat
  /-- `cc_target`; R313 of 12_fabric_transport.md; default 800. -/
  ccTarget : Nat := 800
  /-- `ack_every`; R313 of 12_fabric_transport.md; default 4. -/
  ackEvery : Nat := 4
  /-- `cwnd_init`; R313 of 12_fabric_transport.md; default 131,072. -/
  cwndInit : Nat := 131072
  /-- `cwnd_max`; R313 of 12_fabric_transport.md; default 2,097,152. -/
  cwndMax : Nat := 2097152
  /-- `give_up_us`; R313 of 12_fabric_transport.md; default 10,000. -/
  giveUpUs : Nat := 10000
  /-- `reorder_ticks`; R313 of 12_fabric_transport.md; default 400. -/
  reorder : Nat := 400
  /-- `recv_ring`, 0xFFFF none; R313 of 12_fabric_transport.md. -/
  recvRing : Nat := 0xFFFF
  /-- `fold`; R313 of 12_fabric_transport.md. -/
  fold : Nat := 0
  /-- Its context is cached on the home die; R317 of 12_fabric_transport.md; cached at T. -/
  cached : Bool := true
  /-- Last use of the cached context; R318 of 12_fabric_transport.md. -/
  lastUse : Nat := 0
  /-- Next PSN to give; R313 of 12_fabric_transport.md; 0 at T. -/
  nextPsn : Nat := 0
  /-- PSNs below this have been acknowledged (the `ack_psn` received, plus one); R321 of 12_fabric_transport.md; 0 at T. -/
  ackedTo : Nat := 0
  /-- Packets waiting for congestion control, or sent and not done with, by ascending PSN; R320 of 12_fabric_transport.md; none at T. -/
  tx : List TxPacket := []
  /-- PSNs below this have been placed or refused here (`ack_psn` to send, plus one); R321 of 12_fabric_transport.md; 0 at T. -/
  rxNext : Nat := 0
  /-- PSNs at or above `rxNext` that count as received; R321 of 12_fabric_transport.md; none at T. -/
  rxSeen : List Nat := []
  /-- PSNs accepted whose data still waits for its edge window; R331, R362; none at T. -/
  rxQueued : List Nat := []
  /-- Packets held in stream order; R324, R340 of 13_memory_semantic_access.md; none at T. -/
  held : List HeldPacket := []
  /-- Messages whose LAST packet has come: its PSN, address, bell and increment; R324 of 12_fabric_transport.md; none at T. -/
  rings : List (Nat × Nat × Nat × Nat) := []
  /-- Refused PSNs of messages whose LAST packet has not been passed (their bell does not ring); R324 of 12_fabric_transport.md; none at T. -/
  refusedRx : List Nat := []
  /-- Atomics cache: request PSN, old value, status; at most 32; R323 of 12_fabric_transport.md; empty at T. -/
  atomics : List (Nat × Nat × Nat) := []
  /-- Peer's `resp_psn`; R322, R323 of 12_fabric_transport.md; 0 at T. -/
  peerResp : Nat := 0
  /-- New packets since the last ACK; R321 of 12_fabric_transport.md; 0 at T. -/
  unacked : Nat := 0
  /-- Arrival stamp of the oldest unacknowledged arrival; R321 of 12_fabric_transport.md; none at T. -/
  unackedSince : Option Nat := none
  /-- CE-marked packets since the last ACK; R312 of 12_fabric_transport.md; 0 at T. -/
  ceCount : Nat := 0
  /-- `send_stamp` and arrival stamp of the last packet received, for `echo_stamp` and `owd`; R312 of 12_fabric_transport.md; 0 at T. -/
  lastEcho : Nat := 0
  /-- Arrival minus send stamp of that packet, signed; R312 of 12_fabric_transport.md; 0 at T. -/
  lastOwd : Int := 0
  /-- `send_stamp` of the oldest unacknowledged arrival, which an ACK of the timer echoes; R312, R321 of 12_fabric_transport.md; 0 at T. -/
  oldestEcho : Nat := 0
  /-- Arrival minus send stamp of that arrival, signed; R312 of 12_fabric_transport.md; 0 at T. -/
  oldestOwd : Int := 0
  /-- One-way delay that the last ACK reported, none before; R325 of 12_fabric_transport.md; none at T. -/
  lastReport : Option Int := none
  /-- cwnd in bytes; R325 of 12_fabric_transport.md; `cwnd_init` at T. -/
  cwnd : Nat := 131072
  /-- srtt in ticks; R321 of 12_fabric_transport.md; 0 at T (no sample). -/
  srtt : Nat := 0
  /-- rttvar in ticks; R321 of 12_fabric_transport.md; 0 at T. -/
  rttvar : Nat := 0
  /-- base_owd: least owd of the current and of the previous epoch, none before a sample; R325 of 12_fabric_transport.md; none at T. -/
  owdNow : Option Int := none
  /-- Least owd of the previous epoch; R325 of 12_fabric_transport.md; none at T. -/
  owdPrev : Option Int := none
  /-- Epoch number (stamp div 8,000,000) of `owdNow`; R325 of 12_fabric_transport.md; 0 at T. -/
  owdEpoch : Nat := 0
  /-- Instant of the last cut; R325 of 12_fabric_transport.md; 0 at T. -/
  lastCut : Nat := 0
  /-- Consecutive timeouts, which double the RTO; R321 of 12_fabric_transport.md; 0 at T. -/
  backoff : Nat := 0
  /-- Instant the last sequenced packet left congestion control, from which the next one's pacing gap runs; R325 of 12_fabric_transport.md; 0 at T. -/
  lastSend : Nat := 0
  /-- Instant of the last progress; R321 of 12_fabric_transport.md; T. -/
  progressAt : Nat := 0
  /-- `packets_out`, `packets_in`, `retransmits`, `timeouts`, `naks_in`, `naks_out`, `ce_seen`, `context_misses`; R315 of 12_fabric_transport.md; 0 at T. -/
  counters : Vector Nat 8 := Vector.replicate 8 0
  deriving DecidableEq, Repr

/-- A packet in a die's miss buffer (R318). -/
structure MissPacket where
  /-- Connection; R318 of 12_fabric_transport.md. -/
  conn : Nat
  /-- Port link it arrived on; R318 of 12_fabric_transport.md. -/
  link : Nat
  /-- Opcode; R318 of 12_fabric_transport.md. -/
  opcode : Nat
  /-- Frame; R318 of 12_fabric_transport.md. -/
  frame : Frame
  /-- Arrival stamp; R63 of 03_tally_and_ordering.md. -/
  arrived : Nat
  deriving DecidableEq, Repr

/-- Exposure states (R331), codes 0 to 3. -/
inductive ExposureState where
  | free | live | revoking | draining
  deriving DecidableEq, Repr

/-- One exposure (R330, R331). -/
structure Exposure where
  /-- State; R331 of 12_fabric_transport.md; FREE where the table names none. -/
  state : ExposureState := .live
  /-- `key`; 32; R330 of 12_fabric_transport.md. -/
  key : Nat
  /-- `paddock`; R330 of 12_fabric_transport.md. -/
  paddock : Nat
  /-- `rights`; 3; R330 of 12_fabric_transport.md. -/
  rights : BitVec 3
  /-- `ONDEMAND`; R330 of 12_fabric_transport.md. -/
  onDemand : Bool
  /-- `base`; R330 of 12_fabric_transport.md. -/
  base : Nat
  /-- `length`; R330 of 12_fabric_transport.md. -/
  length : Nat
  /-- `present`; R330 of 12_fabric_transport.md. -/
  present : Nat
  /-- `miss_bell`; R330 of 12_fabric_transport.md. -/
  missBell : Nat
  /-- World taken from its windows; R330 of 12_fabric_transport.md. -/
  world : World
  /-- Instant T at which it was created; R330, R332 of 12_fabric_transport.md. -/
  createdAt : Nat := 0
  /-- `revoke_at`; R331 of 12_fabric_transport.md; 0. -/
  revokeAt : Nat := 0
  /-- Grace in ticks; R331 of 12_fabric_transport.md; 0. -/
  grace : Nat := 0
  /-- `free_at`; R331 of 12_fabric_transport.md; 0. -/
  freeAt : Nat := 0
  /-- Accepted accesses not yet placed or answered; R331 of 12_fabric_transport.md; 0. -/
  inUse : Nat := 0
  /-- `accesses`; R331 of 12_fabric_transport.md; 0. -/
  accesses : Nat := 0
  /-- `page_waits`; R331 of 12_fabric_transport.md; 0. -/
  pageWaits : Nat := 0
  /-- `last_wait`; R331 of 12_fabric_transport.md; 0. -/
  lastWait : Nat := 0
  deriving DecidableEq, Repr

/-- Ring states (R326), codes 0 to 3. -/
inductive RingState where
  | free | live | stalled | draining
  deriving DecidableEq, Repr

/-- A descriptor in flight (taken and not yet completed). -/
structure InFlight where
  /-- Ring position; R328 of 12_fabric_transport.md. -/
  index : Nat
  /-- The 64 descriptor bytes; R328 of 12_fabric_transport.md. -/
  bytes : List Byte
  /-- Packets still to be acknowledged, or bytes still to arrive, before it completes; R324 of 12_fabric_transport.md. -/
  left : Nat := 0
  /-- First final refusal it met, 0 none; R324 of 12_fabric_transport.md. -/
  refusal : Nat := 0
  /-- Stamp at which the ring took it; R274 of 11_droves_folds_and_tiers.md. -/
  taken : Nat := 0
  /-- Bytes of a WRITE acknowledged, or of a READ arrived; R329 of 12_fabric_transport.md. -/
  moved : Nat := 0
  deriving DecidableEq, Repr

/-- One queue ring (R326 to R329, R353). -/
structure Ring where
  /-- State; R326 of 12_fabric_transport.md; FREE where the table names none. -/
  state : RingState := .live
  /-- `paddock`; R326 of 12_fabric_transport.md. -/
  paddock : Nat
  /-- `KICK`; R326 of 12_fabric_transport.md. -/
  kick : Bool
  /-- `IRQ`; R326 of 12_fabric_transport.md. -/
  irq : Bool
  /-- `entries`; R326 of 12_fabric_transport.md. -/
  entries : Nat
  /-- `base`; R326 of 12_fabric_transport.md. -/
  base : Nat
  /-- `cq_base`; R326 of 12_fabric_transport.md. -/
  cqBase : Nat
  /-- `cq_entries`; R326 of 12_fabric_transport.md. -/
  cqEntries : Nat
  /-- `cq_bell`; R326 of 12_fabric_transport.md. -/
  cqBell : Nat
  /-- `kick_bell`; R326 of 12_fabric_transport.md. -/
  kickBell : Nat
  /-- `class`; R326 of 12_fabric_transport.md. -/
  cls : Nat
  /-- `irq_hart`; R326 of 12_fabric_transport.md. -/
  irqHart : Nat
  /-- `irq_id`; R326 of 12_fabric_transport.md. -/
  irqId : Nat
  /-- `prod_addr`; R326 of 12_fabric_transport.md. -/
  prodAddr : Nat
  /-- `produced`; 32; R327 of 12_fabric_transport.md; 0 at T. -/
  produced : Nat := 0
  /-- `taken`; 32; R326 of 12_fabric_transport.md; 0 at T. -/
  taken : Nat := 0
  /-- `completed`: the completion count; 32; R328 of 12_fabric_transport.md; 0 at T. -/
  completed : Nat := 0
  /-- `consumed`; 32; R327 of 12_fabric_transport.md; 0 at T. -/
  consumed : Nat := 0
  /-- `stall_addr`; R326 of 12_fabric_transport.md; 0 at T. -/
  stallAddr : Nat := 0
  /-- Descriptors in flight, oldest first, at most 256; R328 of 12_fabric_transport.md; none at T. -/
  inFlight : List InFlight := []
  /-- Posted RECV buffers, oldest first: ring position, local address, length; R329 of 12_fabric_transport.md; none at T. -/
  recvs : List (Nat × Nat × Nat) := []
  /-- Stamp at which it stopped taking STEP and IMAGE_LOAD for a preemption; R389 of 15_paddocks_and_preemption.md; 0. -/
  stoppedAt : Nat := 0
  /-- Policer `ENABLE`; R355 of 14_traffic_scheduling.md; default off. -/
  policed : Bool := false
  /-- `MARK_DEI`; R355 of 14_traffic_scheduling.md; default 0. -/
  markDei : Bool := false
  /-- `cir`; R355 of 14_traffic_scheduling.md. -/
  cir : Nat := 0
  /-- `pir`; R355 of 14_traffic_scheduling.md. -/
  pir : Nat := 0
  /-- `cbs`; R355 of 14_traffic_scheduling.md. -/
  cbs : Nat := 0
  /-- `pbs`; R355 of 14_traffic_scheduling.md. -/
  pbs : Nat := 0
  /-- tc in 1/6,400 byte; R353 of 14_traffic_scheduling.md. -/
  tc : Nat := 0
  /-- tp in 1/6,400 byte; R353 of 14_traffic_scheduling.md. -/
  tp : Nat := 0
  /-- `last`; R353 of 14_traffic_scheduling.md. -/
  meterAt : Nat := 0
  /-- GREEN, YELLOW and RED packets; R365 of 14_traffic_scheduling.md; 0. -/
  green : Nat := 0
  /-- YELLOW packets; R365 of 14_traffic_scheduling.md; 0. -/
  yellow : Nat := 0
  /-- RED packets; R365 of 14_traffic_scheduling.md; 0. -/
  red : Nat := 0
  deriving DecidableEq, Repr

/-- What a delivery does when it is admitted through its edge window (R172). -/
inductive DeliveryKind where
  /-- A WRITE or WRITE_FLAG packet of a connection: PSN, the message's exposure index, and its bell (R135). -/
  | packet (conn psn key bell : Nat)
  /-- A READ_REQ or ATOMIC that its stream holds: PSN (R347). -/
  | request (conn psn : Nat)
  /-- A READ_REQ that came again: PSN and bytes (R322). -/
  | again (conn psn len : Nat)
  /-- The data of a SEND: PSN, ring, and the RECV's ring position, address and length (R329). -/
  | recv (conn psn ring index address len : Nat)
  /-- Part of an answer to a connection's peer: PSN, opcode, offset and status; the exposure index with the last part (R347). -/
  | answer (conn psn opcode off status : Nat) (key : Option Nat)
  /-- A packet of a descriptor or a drove on its way to its connection (R175, R347). -/
  | post (conn : Nat) (out : Outgoing)
  /-- Data that a READ or ATOMIC descriptor asked for: ring and ring position (R329). -/
  | descData (ring index : Nat)
  /-- Block `k` of a TIER_MOVE: ring and ring position (R301). -/
  | moved (ring index k : Nat)
  /-- A remote access of a thread on its way from its block: identifier (R339). -/
  | remote (id : Nat)
  /-- A LOCAL access on its way to its target: identifier and exposure index (R348). -/
  | served (id key : Nat)
  /-- The answer of a LOCAL access on its way from its target (R348). -/
  | localAnswer (id : Nat)
  /-- An answer on its way to the block of a remote access (R339). -/
  | result (id : Nat)
  /-- A host-die store. -/
  | hostStore (core : Nat)
  /-- A host-die load of `len` bytes, into the host die's caches or past them. -/
  | hostLoad (core len : Nat) (cached : Bool)
  /-- A ring of a block or network bell: bell, increment, source number, and the stamp at which it entered its stile (R63, R192). -/
  | ring (bell inc source entered : Nat)
  deriving DecidableEq, Repr

/-- A delivery waiting in a window queue or in the FIFO that feeds it (R172, R362). -/
structure WinDelivery where
  /-- Payload bytes; R172 of 07_compiled_schedules.md. -/
  size : Nat
  /-- Traffic class; R362 of 14_traffic_scheduling.md. -/
  cls : Nat
  /-- Port link whose receive share holds it, none for other traffic; R320 of 12_fabric_transport.md. -/
  link : Option Nat
  /-- Local address; R172 of 07_compiled_schedules.md. -/
  address : Nat
  /-- Bytes to be placed; R172 of 07_compiled_schedules.md. -/
  data : List Byte
  /-- What it does; R172 of 07_compiled_schedules.md. -/
  kind : DeliveryKind
  deriving DecidableEq, Repr

/-- A paddock's window queue and the FIFOs behind it (R172, R176, R362). -/
structure WinQueue where
  /-- The window's queue: at most 2 deliveries for a network-die IN window; R172, R362; reset none. -/
  queue : List WinDelivery := []
  /-- The receive FIFOs of the window, in arrival order (the class of each delivery tells its FIFO); R362 of 14_traffic_scheduling.md; reset none. -/
  fifo : List WinDelivery := []
  /-- First RCLK slot, counted from the Tally's zero, that no delivery of the window has taken; R159, R172; reset 0. -/
  next : Nat := 0
  deriving DecidableEq, Repr

/-- Ports, connections, rings, exposures and the traffic scheduler. -/
structure Network where
  /-- Ports 0 to 31; R28 of 01_architecture.md, R307 of 12_fabric_transport.md. -/
  ports : Vector Port 32 := Vector.replicate 32 {}
  /-- Connections by local id; R313 of 12_fabric_transport.md; reset none (IDLE). -/
  conns : Table Conn := []
  /-- Miss buffers of the four dies, oldest first; R318 of 12_fabric_transport.md; reset empty. -/
  missBuffers : Vector (List MissPacket) 4 := Vector.replicate 4 []
  /-- Context fetches outstanding, oldest first: connection; R318 of 12_fabric_transport.md; reset none. -/
  fetching : List Nat := []
  /-- Queue rings by number; R326 of 12_fabric_transport.md; reset none (FREE). -/
  rings : Table Ring := []
  /-- Exposures by index; R330 of 12_fabric_transport.md; reset none (FREE). -/
  exposures : Table Exposure := []
  /-- Window arbiters of the four dies; R362 of 14_traffic_scheduling.md. -/
  arbiters : Vector Arbiter 4 := Vector.replicate 4 {}
  /-- Window queues by 256 times paddock plus window; R176 of 07_compiled_schedules.md; reset empty. -/
  windows : Table WinQueue := []
  /-- Packets that wait at their connection because no link is up: connection; R363 of 14_traffic_scheduling.md; reset none. -/
  stranded : List (Nat × QueuedFrame) := []
  deriving DecidableEq, Repr

end Sys2Proof.Machine
end

