-- ==== Sys2Proof/Machine/TypesServe.lean ====
section
/-! DEFINITION. The records of droves, folds, the prefix tree, codebooks, serving configurations, grammars and steps.
Every field's docstring names the rule of spec/ that gives it and its reset value. -/

namespace Sys2Proof.Machine

/-- One entry of an offer's plan (R284). -/
structure PlanEntry where
  /-- `device`; R284 of 11_droves_folds_and_tiers.md. -/
  device : Nat
  /-- `paddock`; R284 of 11_droves_folds_and_tiers.md. -/
  paddock : Nat
  /-- `kind` RECORD (true) or PAGES; R284 of 11_droves_folds_and_tiers.md. -/
  record : Bool
  /-- `first_entry`; R284 of 11_droves_folds_and_tiers.md. -/
  first : Nat
  /-- `entry_count`; R284 of 11_droves_folds_and_tiers.md. -/
  count : Nat
  /-- Global address of the receiver's table once PAGES_HELD has come; R274 of 11_droves_folds_and_tiers.md; 0 before. -/
  held : Nat := 0
  deriving DecidableEq, Repr

/-- An offered record at its source (R269, R274). -/
structure Offer where
  /-- Ring and position of its DROVE_OFFER; R284 of 11_droves_folds_and_tiers.md. -/
  ring : Nat
  /-- Ring position; R284 of 11_droves_folds_and_tiers.md. -/
  index : Nat
  /-- Paddock; R284 of 11_droves_folds_and_tiers.md. -/
  paddock : Nat
  /-- Source's epoch e; R274 of 11_droves_folds_and_tiers.md. -/
  epoch : Nat
  /-- Pull deadline D; R275 of 11_droves_folds_and_tiers.md. -/
  deadline : Nat
  /-- The plan as read when the offer was taken; R284 of 11_droves_folds_and_tiers.md. -/
  plan : List PlanEntry
  /-- A PULL_RECORD is held: the record receiver's table; R274 of 11_droves_folds_and_tiers.md. -/
  pullHeld : Option Nat := none
  /-- RECORD has been sent; R274 of 11_droves_folds_and_tiers.md. -/
  recordSent : Bool := false
  /-- The source is RELEASED and waits for RETAG_DONE of these tables (global address, connection its RETAG went on); R274, R280 of 11_droves_folds_and_tiers.md. -/
  retags : Option (List (Nat × Nat)) := none
  /-- A holder was lost; R280 of 11_droves_folds_and_tiers.md. -/
  lost : Bool := false
  deriving DecidableEq, Repr

/-- How the last offer of a record ended, by which later messages of its drove are answered (R275, R279). -/
structure Ended where
  /-- Source's epoch e; R275 of 11_droves_folds_and_tiers.md. -/
  epoch : Nat
  /-- D; R275 of 11_droves_folds_and_tiers.md. -/
  deadline : Nat
  /-- RELEASED (true), or reverted at D; R269 of 11_droves_folds_and_tiers.md. -/
  released : Bool
  deriving DecidableEq, Repr

/-- The answer a holder gave to a RETAG or a RELEASE_PAGES, which a repetition draws again (R279). -/
structure DroveAnswer where
  /-- `type` of the message; R281 of 11_droves_folds_and_tiers.md. -/
  type : Nat
  /-- Local table; R281 of 11_droves_folds_and_tiers.md. -/
  table : Nat
  /-- `record`; R279 of 11_droves_folds_and_tiers.md. -/
  record : Nat
  /-- `epoch`; R279 of 11_droves_folds_and_tiers.md. -/
  epoch : Nat
  /-- Device that sent it; R279 of 11_droves_folds_and_tiers.md. -/
  sender : Nat
  /-- `flags` of a RETAG_DONE, `code` of a RELEASE_DONE; R280, R286 of 11_droves_folds_and_tiers.md. -/
  value : Nat
  deriving DecidableEq, Repr

/-- A pull in progress, or settling, at its receiver (R285). -/
structure Pull where
  /-- Ring of its DROVE_PULL; R285 of 11_droves_folds_and_tiers.md. -/
  ring : Nat
  /-- Ring position; R285 of 11_droves_folds_and_tiers.md. -/
  index : Nat
  /-- Paddock; R285 of 11_droves_folds_and_tiers.md. -/
  paddock : Nat
  /-- `mode` 0 RECORD, 1 PAGES, 2 COPY; R285 of 11_droves_folds_and_tiers.md. -/
  mode : Nat
  /-- `source`, global; R285 of 11_droves_folds_and_tiers.md. -/
  source : Nat
  /-- Local record, 0 when none; R285 of 11_droves_folds_and_tiers.md. -/
  record : Nat
  /-- Local table; R285 of 11_droves_folds_and_tiers.md. -/
  table : Nat
  /-- Local shadow table, 0 when none; R288 of 11_droves_folds_and_tiers.md. -/
  shadow : Nat
  /-- Expected epoch; R285 of 11_droves_folds_and_tiers.md. -/
  epoch : Nat
  /-- Bales and summaries still to arrive; R274 of 11_droves_folds_and_tiers.md. -/
  left : Nat
  /-- The descriptor has completed (CONFIRM or PAGES_HELD sent); R285 of 11_droves_folds_and_tiers.md. -/
  done : Bool := false
  /-- A RECORD failed its CRC at this stamp and is being fetched once more; R267 of 11_droves_folds_and_tiers.md. -/
  retryAt : Option Nat := none
  /-- Connection to the source; R316 of 12_fabric_transport.md. -/
  conn : Nat
  /-- D, as RECORD brought it; R281 of 11_droves_folds_and_tiers.md; 0 before. -/
  deadline : Nat := 0
  deriving DecidableEq, Repr

/-- A release in progress (R286). -/
structure Release where
  /-- Ring and position of the DROVE_RELEASE, none for a RECLAIM cancellation (R295); R286 of 11_droves_folds_and_tiers.md. -/
  ring : Option (Nat × Nat)
  /-- Paddock; R286 of 11_droves_folds_and_tiers.md. -/
  paddock : Nat
  /-- Tables whose RELEASE_DONE is still missing (global address, connection its RELEASE_PAGES went on); R286 of 11_droves_folds_and_tiers.md. -/
  waiting : List (Nat × Nat)
  /-- A holder was lost; R286 of 11_droves_folds_and_tiers.md. -/
  lost : Bool := false
  deriving DecidableEq, Repr

/-- A paddock's drove configuration, stacks and meters (R287, R302 to R304). -/
structure DroveState where
  /-- `deadline_ticks`; R302 of 11_droves_folds_and_tiers.md; default 1,600,000. -/
  deadline : Nat := 1600000
  /-- Free-set stacks per pool: address, capacity, sets present; R287, R302 of 11_droves_folds_and_tiers.md; none before DROVE_CONFIG. -/
  pageStacks : List (Nat × Nat × Nat) := []
  /-- Local addresses of the request-state records the drove engine has written for the paddock, ascending; R266, R303 of 11_droves_folds_and_tiers.md; none. -/
  records : List Nat := []
  /-- `voided`; R303 of 11_droves_folds_and_tiers.md; 0. -/
  voided : Nat := 0
  /-- Records that are OWNED with SETTLING after DROVE_UNSETTLED; R273, R303 of 11_droves_folds_and_tiers.md; none. -/
  unsettled : List Nat := []
  /-- PREFIX_CONFIG in effect: table_log2, max_probe, pool, table, owner; R296 of 11_droves_folds_and_tiers.md; none. -/
  prefixCfg : Option (Nat × Nat × Nat × Nat × Nat) := none
  /-- `evicted`; R303 of 11_droves_folds_and_tiers.md; 0. -/
  evicted : Nat := 0
  deriving DecidableEq, Repr

/-- A fold's figures for one paddock (R304). -/
structure Meter where
  /-- Commit stamp of the join; R304 of 11_droves_folds_and_tiers.md. -/
  since : Nat
  /-- Tick at which the paddock left and its drain ended, 0 while a member; R304 of 11_droves_folds_and_tiers.md. -/
  endAt : Nat := 0
  /-- `active` ticks counted; R304 of 11_droves_folds_and_tiers.md. -/
  active : Nat := 0
  /-- `droves_out`; R304 of 11_droves_folds_and_tiers.md. -/
  drovesOut : Nat := 0
  /-- `droves_in`; R304 of 11_droves_folds_and_tiers.md. -/
  drovesIn : Nat := 0
  /-- `bytes_out`; R304 of 11_droves_folds_and_tiers.md. -/
  bytesOut : Nat := 0
  /-- `bytes_in`; R304 of 11_droves_folds_and_tiers.md. -/
  bytesIn : Nat := 0
  deriving DecidableEq, Repr

/-- A fold map (R290). -/
structure FoldMap where
  /-- `version`; R290 of 11_droves_folds_and_tiers.md. -/
  version : Nat
  /-- `devices`; R290 of 11_droves_folds_and_tiers.md. -/
  devices : Nat
  /-- `drain_us`; R290 of 11_droves_folds_and_tiers.md. -/
  drainUs : Nat
  /-- Entries: device, paddock, role; R290 of 11_droves_folds_and_tiers.md. -/
  entries : List (Nat × Nat × Nat)
  deriving DecidableEq, Repr

/-- One fold on the device (R291, R292). -/
structure Fold where
  /-- Current map, none before the first; R292 of 11_droves_folds_and_tiers.md. -/
  current : Option FoldMap := none
  /-- Previous map while held; R292 of 11_droves_folds_and_tiers.md. -/
  previous : Option FoldMap := none
  /-- Instant at which the previous map is dropped, 0 when none is held; R292 of 11_droves_folds_and_tiers.md. -/
  drainEnd : Nat := 0
  /-- Instant T of the current map; R294 of 11_droves_folds_and_tiers.md. -/
  mapAt : Nat := 0
  /-- `founded`; R290 of 11_droves_folds_and_tiers.md. -/
  founded : Nat := 0
  /-- Local member paddocks with their figures; R291, R304 of 11_droves_folds_and_tiers.md. -/
  members : Table Meter := []
  /-- Figures of paddocks that have left and not joined again; R304, R305 of 11_droves_folds_and_tiers.md. -/
  former : Table Meter := []
  /-- Ticks in which some local paddock was resident in the fold; R304 of 11_droves_folds_and_tiers.md; 0. -/
  resident : Nat := 0
  /-- Ticks in which some local paddock of the fold was active; R304 of 11_droves_folds_and_tiers.md; 0. -/
  active : Nat := 0
  /-- Paddocks that have left and drain until this instant; R291 of 11_droves_folds_and_tiers.md. -/
  leaving : List (Nat × Nat) := []
  deriving DecidableEq, Repr

/-- States of a codebook slot (R246), codes 0 to 2. -/
inductive BookState where
  | empty | building | ready
  deriving DecidableEq, Repr

/-- One codebook slot of a paddock (R246). -/
structure Codebook where
  /-- State; R246 of 10_bales.md; EMPTY where none is listed. -/
  state : BookState := .empty
  /-- Generation; 6; R246 of 10_bales.md; 0. -/
  generation : Nat := 0
  /-- The record (192, 320 or 576 bytes), empty when EMPTY; R243 of 10_bales.md. -/
  record : List Byte := []
  /-- `since`; R250 of 10_bales.md; 0. -/
  since : Nat := 0
  /-- Build in progress: mailbox that waits for it, its payload, and the state, generation and record before it; R248 of 10_bales.md; none. -/
  build : Option (Master × Nat × List Byte) := none
  /-- What the slot held before the build; R248 of 10_bales.md. -/
  before : Option (BookState × Nat × List Byte) := none
  /-- Tick at which the build's sample reads end; R248, R530; 0. -/
  ends : Nat := 0
  deriving DecidableEq, Repr

/-- One pool of a key-value layout (R204). -/
structure Pool where
  /-- `base`; R204 of 09_attention_and_pages.md. -/
  base : Nat
  /-- `slots`; R204 of 09_attention_and_pages.md. -/
  slots : Nat
  /-- `summary_base`; R204 of 09_attention_and_pages.md. -/
  summary : Nat
  deriving DecidableEq, Repr

/-- SERVE_CONFIG in effect (R394), with its key-value layout (R204). -/
structure ServeConfig where
  /-- `step_die`; R394 of 16_serving_steps_and_sampling.md. -/
  stepDie : Nat
  /-- `spec_max`; R394 of 16_serving_steps_and_sampling.md. -/
  specMax : Nat
  /-- `restore_run`; R394 of 16_serving_steps_and_sampling.md. -/
  restoreRun : Nat
  /-- `slots`; R394 of 16_serving_steps_and_sampling.md. -/
  slots : Nat
  /-- `candidates` C; R394 of 16_serving_steps_and_sampling.md. -/
  candidates : Nat
  /-- `step_tokens`; R394 of 16_serving_steps_and_sampling.md. -/
  stepTokens : Nat
  /-- `vocab`; R394 of 16_serving_steps_and_sampling.md. -/
  vocab : Nat
  /-- `lead_block`; R394 of 16_serving_steps_and_sampling.md. -/
  leadBlock : Nat
  /-- `start_bell`; R394 of 16_serving_steps_and_sampling.md. -/
  startBell : Nat
  /-- `mask_bell`; R394 of 16_serving_steps_and_sampling.md. -/
  maskBell : Nat
  /-- `draft_nbell`; R394 of 16_serving_steps_and_sampling.md. -/
  draftBell : Nat
  /-- `sample_nbell`; R394 of 16_serving_steps_and_sampling.md. -/
  sampleBell : Nat
  /-- `sample_regions`; R394 of 16_serving_steps_and_sampling.md. -/
  regions : BitVec 16
  /-- `step_area`; R394 of 16_serving_steps_and_sampling.md. -/
  area : Nat
  /-- `step_area_bytes`; R394 of 16_serving_steps_and_sampling.md. -/
  areaBytes : Nat
  /-- `kv_fmt`; R204 of 09_attention_and_pages.md. -/
  kvFmt : Nat
  /-- `kv_sm`; R204 of 09_attention_and_pages.md. -/
  kvSm : Nat
  /-- `head_dim`; R204 of 09_attention_and_pages.md. -/
  headDim : Nat
  /-- `groups`; R204 of 09_attention_and_pages.md. -/
  groups : Nat
  /-- `heads`; R204 of 09_attention_and_pages.md. -/
  heads : Nat
  /-- `layers`; R204 of 09_attention_and_pages.md. -/
  layers : Nat
  /-- `k_scale`; FP32; R204 of 09_attention_and_pages.md. -/
  kScale : Word32
  /-- `v_scale`; FP32; R204 of 09_attention_and_pages.md. -/
  vScale : Word32
  /-- `score_scale`; FP32, 0 for the default; R204 of 09_attention_and_pages.md. -/
  scoreScale : Word32
  /-- `kv_tensor`; R204 of 09_attention_and_pages.md. -/
  kvTensor : Nat
  /-- `SUMMARIES`, `BIAS`, `BIAS_PER_LAYER`; R204 of 09_attention_and_pages.md. -/
  kvFlags : BitVec 3
  /-- `bias_base`; R204 of 09_attention_and_pages.md. -/
  biasBase : Nat
  /-- Pools; R204 of 09_attention_and_pages.md. -/
  pools : List Pool
  deriving DecidableEq, Repr

/-- Phases of a step (R400), codes 1 to 5. -/
inductive StepPhase where
  | queued | start | draft | mask | main | sample
  deriving DecidableEq, Repr

/-- What the device holds of one lane of a running step, beside the step area (R402, R403, R416). -/
structure Lane where
  /-- Slot entry, 64 bytes as read when the step was taken; R396 of 16_serving_steps_and_sampling.md. -/
  entry : List Byte
  /-- Final status once the lane has one; R415 of 16_serving_steps_and_sampling.md. -/
  status : Option Nat := none
  /-- Lane runs; R401 of 16_serving_steps_and_sampling.md. -/
  run : Bool := false
  /-- `depth` given at START; R401 of 16_serving_steps_and_sampling.md. -/
  depth : Nat := 0
  /-- `rows` given by START or MASK; R401 of 16_serving_steps_and_sampling.md. -/
  rows : Nat := 0
  /-- Page sets START added: pool and page ids, oldest first; R403 of 16_serving_steps_and_sampling.md. -/
  added : List (Nat × Nat) := []
  /-- A cancel was taken at START; R416 of 16_serving_steps_and_sampling.md. -/
  cancelTaken : Bool := false
  deriving DecidableEq, Repr

/-- One STEP taken and not completed (R396 to R400). -/
structure ServeStep where
  /-- Ring; R396 of 16_serving_steps_and_sampling.md. -/
  ring : Nat
  /-- Ring position; R396 of 16_serving_steps_and_sampling.md. -/
  index : Nat
  /-- Phase reached; R400 of 16_serving_steps_and_sampling.md. -/
  phase : StepPhase
  /-- Take stamp; R398 of 16_serving_steps_and_sampling.md. -/
  takenAt : Nat
  /-- `entries`; R396 of 16_serving_steps_and_sampling.md. -/
  entries : Nat
  /-- `completions`; R396 of 16_serving_steps_and_sampling.md. -/
  completions : Nat
  /-- `deadline`; R396 of 16_serving_steps_and_sampling.md. -/
  deadline : Nat
  /-- SERVE_CONFIG in effect at the take; R394 of 16_serving_steps_and_sampling.md. -/
  cfg : ServeConfig
  /-- Lanes; R401 of 16_serving_steps_and_sampling.md. -/
  lanes : List Lane
  deriving DecidableEq, Repr

/-- Serving state of one paddock (R394 to R418). -/
structure Serving where
  /-- SERVE_CONFIG in effect, none before the first; R394 of 16_serving_steps_and_sampling.md. -/
  cfg : Option ServeConfig := none
  /-- Grammars: number, table address, length; R407 of 16_serving_steps_and_sampling.md; none. -/
  grammars : List (Nat × Nat × Nat) := []
  /-- Steps in flight, the running one first; R398 of 16_serving_steps_and_sampling.md; none. -/
  steps : List ServeStep := []
  /-- `steps` completed; R418 of 16_serving_steps_and_sampling.md; 0. -/
  completed : Nat := 0
  /-- `tokens`; R418 of 16_serving_steps_and_sampling.md; 0. -/
  tokens : Nat := 0
  /-- `drafted`; R418 of 16_serving_steps_and_sampling.md; 0. -/
  drafted : Nat := 0
  /-- `accepted`; R418 of 16_serving_steps_and_sampling.md; 0. -/
  accepted : Nat := 0
  /-- `failed`; R418 of 16_serving_steps_and_sampling.md; 0. -/
  failed : Nat := 0
  /-- `last_step`; R418 of 16_serving_steps_and_sampling.md; 0. -/
  lastStep : Nat := 0
  /-- `boundary` of the number's earlier paddocks; R392 of 15_paddocks_and_preemption.md; 0. -/
  pastBoundary : Nat := 0
  /-- `immediate` of the number's earlier paddocks; R392 of 15_paddocks_and_preemption.md; 0. -/
  pastImmediate : Nat := 0
  /-- `escalated` of the number's earlier paddocks; R392 of 15_paddocks_and_preemption.md; 0. -/
  pastEscalated : Nat := 0
  /-- `saved_bytes` of the number's earlier paddocks; R392 of 15_paddocks_and_preemption.md; 0. -/
  pastSaved : Nat := 0
  deriving DecidableEq, Repr

/-- A PAGE_SELECT taken by a top-k unit (R233, R237). -/
structure Selecting where
  /-- Ring; R233 of 09_attention_and_pages.md. -/
  ring : Nat
  /-- Ring position; R233 of 09_attention_and_pages.md. -/
  index : Nat
  /-- The 64 descriptor bytes; R233 of 09_attention_and_pages.md. -/
  bytes : List Byte
  /-- Tick at which its transfers end, 0 until its unit has begun it; R237, R530. -/
  ends : Nat := 0
  deriving DecidableEq, Repr

/-- An IMAGE_LOAD whose switch has not come (R181). -/
structure Loading where
  /-- Ring; R181 of 07_compiled_schedules.md. -/
  ring : Nat
  /-- Ring position; R181 of 07_compiled_schedules.md. -/
  index : Nat
  /-- Handle; R181 of 07_compiled_schedules.md. -/
  handle : Nat
  /-- `start`; R181 of 07_compiled_schedules.md. -/
  start : Nat
  /-- Tick at which the writes of the region managers end; R181, R530 of 07_compiled_schedules.md. -/
  written : Nat := 0
  deriving DecidableEq, Repr

/-- Droves, folds, codebooks, serving and the other work of paddocks that is kept beside their descriptors. -/
structure Service where
  /-- Offers in progress by local record address; R274 of 11_droves_folds_and_tiers.md; reset none. -/
  offers : Table Offer := []
  /-- How the last offer of a record ended, by record address; R275, R279 of 11_droves_folds_and_tiers.md; reset none. -/
  ended : Table Ended := []
  /-- Answers given as a holder; R279 of 11_droves_folds_and_tiers.md; reset none. -/
  answers : List DroveAnswer := []
  /-- Pulls in progress or settling, oldest first; R285 of 11_droves_folds_and_tiers.md; reset none. -/
  pulls : List Pull := []
  /-- Releases in progress by local record address; R286 of 11_droves_folds_and_tiers.md; reset none. -/
  releases : Table Release := []
  /-- Descriptors (ring, position) that wait for a record to settle or for its step to complete; R271, R398; reset none. -/
  waitingDroves : List (Nat × Nat) := []
  /-- Drove configuration per paddock; R302 of 11_droves_folds_and_tiers.md; reset none (defaults). -/
  droves : Table DroveState := []
  /-- Folds by number; R291 of 11_droves_folds_and_tiers.md; reset none. -/
  folds : Table Fold := []
  /-- Codebook slots by 4 times paddock plus slot; R246 of 10_bales.md; reset EMPTY. -/
  books : Table Codebook := []
  /-- Serving state per paddock; R394 of 16_serving_steps_and_sampling.md; reset none. -/
  serving : Table Serving := []
  /-- PAGE_SELECT queues of the sixteen top-k units, running one first; R237 of 09_attention_and_pages.md; reset none. -/
  selecting : Vector (List Selecting) 16 := Vector.replicate 16 []
  /-- IMAGE_LOADs waiting for their switch with their paddock, oldest first; R181 of 07_compiled_schedules.md; reset none. -/
  loading : List (Nat × Loading) := []
  deriving DecidableEq, Repr

end Sys2Proof.Machine
end

