-- ==== Sys2Proof/Machine/State.lean ====
section
/-! DEFINITION. The state of the block: everything the spec gives the device (`Device`), and beside it the queue of
commands that wait, first in, first out. Plain data; `State.reset` is the device right after a cold reset. -/

namespace Sys2Proof.Machine

/-- Something the device puts out that leaves it: the model's own log of outputs, newest last. -/
inductive OutEvent where
  /-- An MSI to a host core's IMSIC: core and identity (R328). -/
  | msi (hart irq : Nat)
  /-- An I3C in-band interrupt on the BOARD path (R72). -/
  | inBand
  /-- A frame that left a port link, with its send stamp (R63). -/
  | frame (link : Nat) (out : OutFrame)
  /-- An access fault on a host core (R26, R174, R515). -/
  | accessFault (core : Nat)
  /-- The data of a host core's load (R24). -/
  | hostData (core : Nat) (data : List Byte)
  deriving DecidableEq, Repr

/-- Everything the spec gives the device. -/
structure Device where
  /-- The Tally; R42 to R61 of 03_tally_and_ordering.md. -/
  tally : Tally := {}
  /-- Device power state; R482 of 19_clocks_power_and_reset.md; reset READY. -/
  state : DevState := .ready
  /-- `state_since`: stamp of the last change of the device state; 64; R488 of 19_clocks_power_and_reset.md; reset 0. -/
  stateSince : Nat := 0
  /-- Committed device id, none while uncommitted; 18; R95 of 04_control_plane.md; reset uncommitted. -/
  deviceId : Option Nat := none
  /-- Former id and the instant it was changed, for frames already on their way; R95 of 04_control_plane.md; reset none. -/
  formerIds : List (Nat × Nat) := []
  /-- Boot, straps and identity; R486 of 19_clocks_power_and_reset.md. -/
  boot : Boot := {}
  /-- Power, clocks and throttling; R465 to R489 of 19_clocks_power_and_reset.md. -/
  power : Power := {}
  /-- Mailboxes and control pages; R72 to R79 of 04_control_plane.md, R514 to R522 of 21_register_reference.md. -/
  paths : ControlPaths := {}
  /-- Ownership; R87 to R93 of 04_control_plane.md. -/
  own : Ownership := {}
  /-- Stage sets; R98 to R104 of 04_control_plane.md. -/
  staging : Staging := {}
  /-- Worlds, keys, flash and attestation; R441 to R464 of 18_security_and_firmware_trust.md. -/
  security : Security := {}
  /-- Fault ring, flags and injection; R419 to R440 of 17_faults_and_recovery.md. -/
  faults : Faults := {}
  /-- Trace unit; R523 to R525 of 21_register_reference.md. -/
  trace : Trace := {}
  /-- Paddocks 0 to 63; R366 of 15_paddocks_and_preemption.md; reset none. -/
  paddocks : Table Paddock := []
  /-- Registered images by handle; R178 of 07_compiled_schedules.md; reset none. -/
  images : Table Image := []
  /-- Blocks, cells, hurdles, network bells and remote accesses; R19, R107, R182, R197. -/
  fabric : Fabric := {}
  /-- Ports, connections, rings and exposures; R306 to R332 of 12_fabric_transport.md. -/
  net : Network := {}
  /-- Droves, folds, codebooks and serving; R264 to R305, R394 to R418. -/
  service : Service := {}
  /-- HBM, block buffers and tier by local address (R24), a byte not listed reading 0; R24 of 01_architecture.md; reset nothing listed: block buffers cleared (R485), HBM and tier undefined (R526) and DESIGN CHOICE 0, log entry 2. -/
  mem : Sparse 8 := []
  /-- Lines of 64 bytes that the host die's caches may hold, by line number; R27 of 01_architecture.md; reset none. -/
  hostLines : Table (List Byte) := []
  /-- What has left the device, newest last; the model's own log; reset empty. -/
  outbox : List OutEvent := []
  /-- Number of the next free value (draw 0 is the boot nonce's); the model's own counter, DESIGN CHOICE 1, log entry 6; reset 1. -/
  draws : Nat := 1
  deriving DecidableEq, Repr

/-- The block: the device, and the commands that wait. -/
structure State where
  /-- The device. -/
  dev : Device := {}
  /-- Commands that wait, first in, first out; the model's own; reset empty. -/
  pending : List Instr := []
  deriving DecidableEq, Repr

/-- Reasons for which the block stops with a fault. -/
inductive Fault where
  /-- The environment has left the specification of R6. SAFE: raised by no meaning of this model, since every event the
  spec names is given its effect and every check it names is made; kept so that a statement can say that no step faults. -/
  | outsideSpecification
  deriving DecidableEq, Repr

/-- Reasons for which a command has no meaning here. -/
inductive Refusal where
  /-- A row of the opcode table without a meaning. SAFE: raised by an arm of `exec` that has none, and by nothing else. -/
  | notModelled (mnemonic : String)
  deriving DecidableEq, Repr

/-- The outcome of a command. -/
abbrev Outcome := Host.Outcome State Fault Refusal

/-- The state after the device has changed by `f`; the queue is untouched. -/
def State.on (s : State) (f : Device → Device) : State := { s with dev := f s.dev }

/-- The device right after a cold reset (R12, R485, R486): READY, the Tally at zero, regions in deep sleep, nothing
created. -/
def Device.reset : Device := {}

/-- The block right after reset: the device after its cold reset, and no command waiting. -/
def State.reset : State := { dev := Device.reset, pending := [] }

end Sys2Proof.Machine
end

