-- ==== Sys2Proof/Machine/Ops.lean ====
section
/-! DEFINITION. The named operations every meaning is written over: the parts of the device, the Tally, the local
address space, source numbers, fault and event records, the trace, and what leaves the device. -/

namespace Sys2Proof.Machine

/-! ### The parts of the device -/

/-- The device with its Tally changed. -/
def Device.mapTally (d : Device) (f : Tally → Tally) : Device := { d with tally := f d.tally }
/-- The device with its boot part changed. -/
def Device.mapBoot (d : Device) (f : Boot → Boot) : Device := { d with boot := f d.boot }
/-- The device with its power and clocks changed. -/
def Device.mapPower (d : Device) (f : Power → Power) : Device := { d with power := f d.power }
/-- The device with its mailboxes and control pages changed. -/
def Device.mapPaths (d : Device) (f : ControlPaths → ControlPaths) : Device := { d with paths := f d.paths }
/-- The device with its ownership changed. -/
def Device.mapOwn (d : Device) (f : Ownership → Ownership) : Device := { d with own := f d.own }
/-- The device with its stage sets changed. -/
def Device.mapStaging (d : Device) (f : Staging → Staging) : Device := { d with staging := f d.staging }
/-- The device with its security part changed. -/
def Device.mapSecurity (d : Device) (f : Security → Security) : Device := { d with security := f d.security }
/-- The device with its faults changed. -/
def Device.mapFaults (d : Device) (f : Faults → Faults) : Device := { d with faults := f d.faults }
/-- The device with its trace unit changed. -/
def Device.mapTrace (d : Device) (f : Trace → Trace) : Device := { d with trace := f d.trace }
/-- The device with its cell fabric changed. -/
def Device.mapFabric (d : Device) (f : Fabric → Fabric) : Device := { d with fabric := f d.fabric }
/-- The device with its network changed. -/
def Device.mapNet (d : Device) (f : Network → Network) : Device := { d with net := f d.net }
/-- The device with its service part changed. -/
def Device.mapService (d : Device) (f : Service → Service) : Device := { d with service := f d.service }
/-- The device with its memory changed. -/
def Device.mapMem (d : Device) (f : Sparse 8 → Sparse 8) : Device := { d with mem := f d.mem }
/-- The device after something has left it. -/
def Device.emit (d : Device) (e : OutEvent) : Device := { d with outbox := d.outbox ++ [e] }

/-- The Tally master, whole ticks (R42, R43). Every die's replica equals it: R45 lets a replica stand up to half a tick off,
which whole-tick stamps show at most as one tick; DESIGN CHOICE, log entry 82. -/
def Device.now (d : Device) : Nat := d.tally.now

/-- A fresh free value of 64 bits (log entry 6), and the device that has drawn it. -/
def Device.draw (d : Device) : Word × Device := (Config.freeWord d.draws, { d with draws := d.draws + 1 })

/-! ### Objects by number -/

/-- A paddock by its number. -/
def Device.paddock (d : Device) (p : Nat) : Option Paddock := Table.find d.paddocks p
/-- A paddock changed; nothing where it does not exist. -/
def Device.updPaddock (d : Device) (p : Nat) (f : Paddock → Paddock) : Device :=
  { d with paddocks := Table.update d.paddocks p f }
/-- A block; one the table does not list is as after reset. -/
def Device.block (d : Device) (b : Nat) : Block := (Table.find d.fabric.blocks b).getD {}
/-- A block changed. -/
def Device.updBlock (d : Device) (b : Nat) (f : Block → Block) : Device :=
  d.mapFabric fun x => { x with blocks := Table.put x.blocks b (f ((Table.find x.blocks b).getD {})) }
/-! ### Clocks and power of regions and blocks (R469, R471) -/

/-- Running CCLK of a region that has moved towards its target at 10 MHz per µs, 1 MHz in 80 ticks, until a stamp. -/
def RegionClock.runsAt (r : RegionClock) (now : Nat) : Nat :=
  let moved := (now - r.slewSince) / 80
  if r.runningMhz ≤ r.targetMhz then Nat.min r.targetMhz (r.runningMhz + moved)
  else Nat.max r.targetMhz (r.runningMhz - moved)

/-- The clock of a region as it stands now: its running CCLK has moved, but not while its rail group's transactions fail (R497). -/
def Device.clock (d : Device) (n : Nat) : RegionClock :=
  let r := (d.power.regions[n]?).getD {}
  { r with runningMhz := if d.power.avsFailed.getLsbD (n / 2) then r.runningMhz else r.runsAt d.now, slewSince := d.now }

/-- The clock of a region changed, from where it stands now. -/
def Device.updClock (d : Device) (n : Nat) (f : RegionClock → RegionClock) : Device :=
  d.mapPower fun w => { w with regions := w.regions.setIfInBounds n (f (d.clock n)) }

/-- VDD_CELL of a rail group in mV: what the higher running CCLK of its two regions requires, in steps of 5 mV from 600 to 800
(R469, R495). -/
def Device.cellMillivolts (d : Device) (k : Nat) : Nat :=
  600 + 5 * (Config.cellSteps (Nat.max (d.clock (2 * k)).runningMhz (d.clock (2 * k + 1)).runningMhz) % 41)

/-- Power state of a block, DEEP where none is listed. -/
def Device.blockPower (d : Device) (b : Nat) : BlockPower := (Table.find d.power.blocks b).getD .deep

/-- A block in a power state starts to wake, unless it does already: it is in RUN so many ticks later (R471, R473, R474). -/
def Device.startWake (d : Device) (from' : BlockPower) (ticks b : Nat) : Device :=
  if d.blockPower b = from' ∧ (Table.find d.power.waking b).isNone then
    d.mapPower fun w => { w with waking := Table.put w.waking b (d.now + ticks) }
  else d

/-- A sleeping block starts to wake: 2 µs (R473). -/
def Device.rouse (d : Device) (b : Nat) : Device := d.startWake .sleep 1600 b

/-- A block is in a power state, and wakes no more. -/
def Device.setBlockPower (d : Device) (b : Nat) (s : BlockPower) : Device :=
  d.mapPower fun w => { w with blocks := Table.put w.blocks b s, waking := Table.del w.waking b }

/-- A block has acted: it has not been idle before this stamp (R472). -/
def Device.stir (d : Device) (b : Nat) : Device := d.updBlock b fun k => { k with busyAt := d.now }

/-- The device's debug instructions work (R464). -/
def Device.debugWorks (d : Device) : Bool := d.security.manifestDebug && d.security.debugFuse

/-- A thread of a block. -/
def Block.thread (b : Block) (t : Nat) : Thread := (b.threads[t]?).getD {}
/-- A block with one thread changed. -/
def Block.updThread (b : Block) (t : Nat) (f : Thread → Thread) : Block :=
  { b with threads := b.threads.setIfInBounds t (f (b.thread t)) }
/-- A thread by block and number. -/
def Device.thread (d : Device) (b t : Nat) : Thread := (d.block b).thread t
/-- A thread changed. -/
def Device.updThread (d : Device) (b t : Nat) (f : Thread → Thread) : Device := d.updBlock b (·.updThread t f)
/-- A queue ring by its number, none while FREE. -/
def Device.ring (d : Device) (q : Nat) : Option Ring := Table.find d.net.rings q
/-- A queue ring changed. -/
def Device.updRing (d : Device) (q : Nat) (f : Ring → Ring) : Device :=
  d.mapNet fun n => { n with rings := Table.update n.rings q f }
/-- A connection by its local id, none while IDLE. -/
def Device.conn (d : Device) (c : Nat) : Option Conn := Table.find d.net.conns c
/-- A connection changed. -/
def Device.updConn (d : Device) (c : Nat) (f : Conn → Conn) : Device :=
  d.mapNet fun n => { n with conns := Table.update n.conns c f }
/-- An exposure by its index, none while it was never created. -/
def Device.exposure (d : Device) (i : Nat) : Option Exposure := Table.find d.net.exposures i
/-- An exposure changed. -/
def Device.updExposure (d : Device) (i : Nat) (f : Exposure → Exposure) : Device :=
  d.mapNet fun n => { n with exposures := Table.update n.exposures i f }
/-- A port. -/
def Device.port (d : Device) (p : Nat) : Port := (d.net.ports[p]?).getD {}
/-- A port changed. -/
def Device.updPort (d : Device) (p : Nat) (f : Port → Port) : Device :=
  d.mapNet fun n => { n with ports := n.ports.setIfInBounds p (f ((n.ports[p]?).getD {})) }
/-- A port link, numbered 2 × port + link (R60). -/
def Device.link (d : Device) (l : Nat) : Link := if l % 2 = 0 then (d.port (l / 2)).link0 else (d.port (l / 2)).link1
/-- A port link changed. -/
def Device.updLink (d : Device) (l : Nat) (f : Link → Link) : Device :=
  d.updPort (l / 2) fun p => if l % 2 = 0 then { p with link0 := f p.link0 } else { p with link1 := f p.link1 }
/-- A hurdle; one the table does not list is as after reset (R198). -/
def Device.hurdle (d : Device) (h : Nat) : Hurdle := (Table.find d.fabric.hurdles h).getD {}
/-- A hurdle changed. -/
def Device.updHurdle (d : Device) (h : Nat) (f : Hurdle → Hurdle) : Device :=
  d.mapFabric fun x => { x with hurdles := Table.put x.hurdles h (f ((Table.find x.hurdles h).getD {})) }
/-- The serving state of a paddock. -/
def Device.serving (d : Device) (p : Nat) : Serving := (Table.find d.service.serving p).getD {}
/-- What is left of a paddock number's serving state when its paddock is gone: the counters that run from cold reset (R392,
R418, R485). -/
def Device.servingKept (d : Device) (p : Nat) : Serving :=
  let s := d.serving p
  let n := fun (f : Paddock → Nat) => ((d.paddock p).map f).getD 0
  { completed := s.completed, tokens := s.tokens, drafted := s.drafted, accepted := s.accepted, failed := s.failed,
    pastBoundary := s.pastBoundary + n (·.nBoundary), pastImmediate := s.pastImmediate + n (·.nImmediate),
    pastEscalated := s.pastEscalated + n (·.nEscalated), pastSaved := s.pastSaved + n (·.savedBytes) }
/-- The serving state of a paddock changed. -/
def Device.updServing (d : Device) (p : Nat) (f : Serving → Serving) : Device :=
  d.mapService fun x => { x with serving := Table.put x.serving p (f ((Table.find x.serving p).getD {})) }
/-- The drove state of a paddock (R302). -/
def Device.droveState (d : Device) (p : Nat) : DroveState := (Table.find d.service.droves p).getD {}
/-- The drove state of a paddock changed. -/
def Device.updDrove (d : Device) (p : Nat) (f : DroveState → DroveState) : Device :=
  d.mapService fun x => { x with droves := Table.put x.droves p (f ((Table.find x.droves p).getD {})) }
/-- A counter of a vector advanced. -/
def bump {n : Nat} (v : Vector Nat n) (i by' : Nat) : Vector Nat n := v.setIfInBounds i ((v[i]?).getD 0 + by')
/-- A counter of a port link advanced (R308). -/
def Device.countLink (d : Device) (l i : Nat) : Device := d.updLink l fun x => { x with counters := bump x.counters i 1 }
/-- A counter of a connection advanced (R315). -/
def Device.countConn (d : Device) (c i : Nat) (n : Nat := 1) : Device :=
  d.updConn c fun x => { x with counters := bump x.counters i n }

/-! ### The local address space (R24, R26) -/

/-- End of the HBM4 range. -/
def hbmEnd : Nat := 0x10000000000
/-- First byte of the block buffers. -/
def bufferBase : Nat := 0x10000000000
/-- End of the block buffers. -/
def bufferEnd : Nat := 0x10040000000
/-- First byte of the DDR5 tier. -/
def tierBase : Nat := 0x80000000000
/-- HBM4 channel of its region, 0 to 15, that holds an HBM address: 1 KiB units rotate (R25). No command shows it. -/
def hbmChannel (a : Nat) : Nat := a / 0x400 % 16
/-- DDR5 channel, 0 to 15, that holds a tier address: 4 KiB units rotate (R25). -/
def ddrChannel (a : Nat) : Nat := (a - tierBase) / 0x1000 % 16
/-- Local address of a byte of a block's buffer. -/
def bufferAddr (b off : Nat) : Nat := bufferBase + 0x100000 * b + off
/-- A range lies wholly in HBM. -/
def inHbm (a n : Nat) : Bool := decide (a + n ≤ hbmEnd)
/-- A range lies wholly in the block buffers. -/
def inBuffers (a n : Nat) : Bool := decide (bufferBase ≤ a ∧ a + n ≤ bufferEnd)
/-- A range lies wholly in the populated tier. -/
def Device.inTier (d : Device) (a n : Nat) : Bool := decide (tierBase ≤ a ∧ a + n ≤ tierBase + d.boot.tierBytes)
/-- A range lies wholly in HBM, in the block buffers or in the populated tier: an access to it is not refused by R26. -/
def Device.rangeOk (d : Device) (a n : Nat) : Bool := inHbm a n || inBuffers a n || d.inTier a n
/-- A range lies wholly in HBM or in the populated tier, outside the top 1 GiB of the tier (R430). -/
def Device.inMemoryNotTop (d : Device) (a n : Nat) : Bool :=
  inHbm a n || (decide (tierBase ≤ a) && decide (a + n + 0x40000000 ≤ tierBase + d.boot.tierBytes))
/-- Bytes of memory. -/
def Device.load (d : Device) (a n : Nat) : List Byte := Sparse.getMany d.mem a n
/-- Little-endian value in memory. -/
def Device.loadLe (d : Device) (a n : Nat) : Nat := leValue (d.load a n)
/-- The bytes a store leaves where it covers only part of a poisoned word: zeros (R421); elsewhere its own. -/
def storedBytes (poisoned : List Nat) (a : Nat) (bs : List Byte) : List Byte :=
  let parts := poisoned.filter fun w =>
    decide (w < a + bs.length ∧ a < w + 8) && !decide (a ≤ w ∧ w + 8 ≤ a + bs.length)
  if parts.isEmpty then bs
  else (List.range bs.length).map fun i =>
    if parts.any fun w => decide (w ≤ a + i ∧ a + i < w + 8) then 0 else (bs[i]?).getD 0
/-- A store to memory. The poison bit is written with the word: a word it covers wholly is no longer poisoned, and one that
it covers in part stays poisoned with zero data (R421). -/
def Device.store (d : Device) (a : Nat) (bs : List Byte) : Device :=
  let kept := d.faults.poisoned.filter fun w => !decide (a ≤ w ∧ w + 8 ≤ a + bs.length)
  { d with mem := Sparse.setMany d.mem a (storedBytes d.faults.poisoned a bs), faults := { d.faults with poisoned := kept } }
/-- A little-endian value stored. -/
def Device.storeLe (d : Device) (a n v : Nat) : Device := d.store a (leBytes n v)

/-! ### Windows and worlds -/

/-- The first window of a list that holds an address. -/
def windowAt (ws : List MemWindow) (a : Nat) : Option MemWindow :=
  ws.find? fun w => decide (w.base ≤ a ∧ a < w.base + 0x200000 * w.units)
/-- Every byte of a range lies in some window that passes a test; `fuel` bounds the windows used. -/
def coveredBy (ws : List MemWindow) (test : MemWindow → Bool) : Nat → Nat → Nat → Bool
  | 0, _, n => decide (n = 0)
  | fuel + 1, a, n =>
    if n = 0 then true else
      match ws.find? fun w => decide (w.base ≤ a ∧ a < w.base + 0x200000 * w.units) && test w with
      | none => false
      | some w => coveredBy ws test fuel (w.base + 0x200000 * w.units) (a + n - (w.base + 0x200000 * w.units))
/-- A range lies in windows of the list, all passing a test. -/
def rangeCovered (ws : List MemWindow) (test : MemWindow → Bool) (a n : Nat) : Bool :=
  coveredBy ws test (ws.length + 1) a n
/-- The window of the paddock that holds an address holds the whole range from there on. -/
def Paddock.inOneWindow (p : Paddock) (a n : Nat) : Bool :=
  match windowAt p.windows a with
  | none => false
  | some w => decide (a + n ≤ w.base + 0x200000 * w.units)

/-- A range lies in the paddock's windows (R370). -/
def Paddock.covers (p : Paddock) (a n : Nat) : Bool := rangeCovered p.windows (fun _ => true) a n
/-- A range lies in the paddock's windows of one world. -/
def Paddock.coversIn (p : Paddock) (w : World) (a n : Nat) : Bool :=
  rangeCovered p.windows (fun x => x.secure == (w == .secure)) a n
/-- A range touches a SECURE window of some paddock. -/
def Device.touchesSecure (d : Device) (a n : Nat) : Bool :=
  d.paddocks.any fun e => e.2.windows.any fun w =>
    w.secure && decide (w.base < a + n ∧ a < w.base + 0x200000 * w.units)
/-- The paddock names a block (R366). -/
def Paddock.names (p : Paddock) (b : Nat) : Bool := p.blocks.getLsbD b
/-- The blocks a paddock names, ascending. -/
def Paddock.blockList (p : Paddock) : List Nat := (List.range 1024).filter fun b => p.names b
/-- The paddock that holds a block (R375). -/
def Device.occupant (d : Device) (b : Nat) : Option (Nat × Paddock) := d.paddocks.find? fun e => e.2.holds && e.2.names b
/-- The paddock is FAULTED; one that does not exist is not. -/
def Device.isFaulted (d : Device) (p : Nat) : Bool :=
  match d.paddock p with
  | some x => x.state == .faulted
  | none => false
/-- A paddock exists and is SECURE. -/
def Device.isSecure (d : Device) (p : Nat) : Bool :=
  match d.paddock p with
  | some x => x.world == .secure
  | none => false
/-- Paddock whose network bell j of die d it is (R182). -/
def Device.netBellOwner (d : Device) (die j : Nat) : Option (Nat × Paddock) :=
  d.paddocks.find? fun e =>
    match e.2.nbells[die]? with
    | some r => decide (r.1 ≤ j ∧ j < r.1 + r.2)
    | none => false
/-- Paddock to which a hurdle is assigned. -/
def Device.hurdleOwner (d : Device) (h : Nat) : Option (Nat × Paddock) := d.paddocks.find? fun e => e.2.hurdles.getLsbD h

/-! ### Source numbers (R62) -/

/-- Source number of a local source under the committed device id, 0 while none is committed. -/
def Device.src (d : Device) (localSource : Nat) : Nat := d.deviceId.getD 0 * 0x400000 + localSource
/-- Local source of a thread. -/
def srcThread (b t : Nat) : Nat := 16 * b + t
/-- Local source of a queue ring. -/
def srcRing (q : Nat) : Nat := 0x4000 + q
/-- Local source of a hurdle. -/
def srcHurdle (h : Nat) : Nat := 0x8000 + h
/-- Local source of unit u of a region. -/
def srcRegion (n u : Nat) : Nat := 0x8100 + 16 * n + u
/-- Local source of a port link. -/
def srcLink (l : Nat) : Nat := 0x8200 + l
/-- Local source of unit u of a network die. -/
def srcNet (die u : Nat) : Nat := 0x8240 + 4 * die + u
/-- Local source of unit u of a tier die. -/
def srcTier (k u : Nat) : Nat := 0x8250 + 4 * k + u
/-- Local source of the Shepherd firmware. -/
def srcFirmware : Nat := 0x8260
/-- Local source of the Tally master. -/
def srcTally : Nat := 0x8261
/-- Local source of the security engine. -/
def srcSecurity : Nat := 0x8262
/-- Local source of clock and power control. -/
def srcClock : Nat := 0x8263
/-- Local source of a host core. -/
def srcCore (c : Nat) : Nat := 0x8280 + c
/-- Code of a master, 0 none (R72, R81). -/
def masterCode : Option Master → Nat
  | none => 0
  | some .host => 1
  | some .fabric => 2
  | some .board => 3
/-- Local source of a master. -/
def srcMaster (m : Master) : Nat := 0x82AF + masterCode (some m)
/-- Local source of a timer of a deadline kind. -/
def srcTimer (kind : Nat) : Nat := 0x3FFF00 + kind

/-! ### Fault and event records (R426 to R430) -/

/-- What a record says besides its stamp. -/
structure Report where
  /-- Source number. -/
  source : Nat
  /-- Paddock affected, 0xFF none. -/
  paddock : Nat := 0xFF
  /-- Class: 0 EVENT, 1 TRANSIENT, 2 LASTING, 3 NOTICE; bit 2 SECONDARY, bit 3 INJECTED. -/
  cls : Nat := 0
  /-- Level. -/
  level : Nat := 0
  /-- Code. -/
  code : Nat
  /-- Code-specific. -/
  sub : Nat := 0
  /-- Code-specific. -/
  aux : Nat := 0
  /-- `where`. -/
  addr : Nat := 0
  deriving DecidableEq, Repr

/-- The 32 bytes of a record. -/
def Report.bytes (r : Report) (stamp : Nat) : List Byte :=
  leBytes 8 stamp ++ leBytes 5 r.source ++ leBytes 1 r.paddock ++ leBytes 1 r.cls ++ leBytes 1 r.level ++
    leBytes 2 r.code ++ leBytes 2 r.sub ++ leBytes 4 r.aux ++ leBytes 8 r.addr

/-- A record with `aux` and `where` zeroed and `REDACTED` set (R429). -/
def redactRecord (bs : List Byte) : List Byte :=
  overwrite (overwrite bs 20 (zeros 12)) 14 [BitVec.ofNat 8 (fieldU8 bs 14) ||| 0x10]

/-- The record as a path or mirror of a world may see it (R429). -/
def Device.recordFor (d : Device) (w : World) (bs : List Byte) : List Byte :=
  if w == .nonsecure && d.isSecure (fieldU8 bs 13) then redactRecord bs else bs

/-- The mirror of the fault ring follows a record (R430). -/
def Device.mirrorRecord (d : Device) (n : Nat) (bs : List Byte) : Device :=
  let m := d.faults.mirror
  if m.enable then
    let d1 := (d.store (m.base + 32 * (n % 4096)) (d.recordFor (if m.secure then .secure else .nonsecure) bs)).storeLe
      m.prodAddr 8 (n + 1)
    if m.irq then d1.emit (.msi m.hart m.irqId) else d1
  else d

/-- A record enters the fault ring: record n replaces record n − 4,096, which is counted in `lost` (R428). -/
def Device.recordBytes (d : Device) (bs : List Byte) : Device :=
  let n := d.faults.next
  (d.mapFaults fun f => { f with ring := (bs :: f.ring).take 4096, next := n + 1,
                                 lost := if 4096 ≤ n then f.lost + 1 else f.lost }).mirrorRecord n bs

/-- A fault or event is recorded, stamped now or at the stamp given. -/
def Device.record (d : Device) (r : Report) (stamp : Option Nat := none) : Device :=
  d.recordBytes (r.bytes (stamp.getD d.now))

/-- FAULT_N is driven low (R437): never before a cold boot has ended, but for a trip (R478, R505). -/
def Device.faultN (d : Device) : Bool :=
  decide (d.state = .tripped) ||
    (decide (d.state ≠ .off ∧ d.boot.step ≠ .coldRef ∧ d.boot.step ≠ .cold) &&
      (decide (d.faults.paddocks ≠ 0) || d.faults.tallyFree || d.faults.lockstep || d.faults.shepherdStile ||
        d.faults.stileDown || decide (d.state = .safe)))

/-! ### Trace (R523, R524) -/

/-- An event reaches the trace unit. -/
def Device.traced (d : Device) (kind object value aux paddock source : Nat) : Device :=
  let t := d.trace
  if t.enable && t.filters.any fun f =>
      decide (f.kind = kind ∧ (f.paddock = 0xFF ∨ f.paddock = paddock) ∧ f.first ≤ object ∧ object < f.first + f.count) then
    let tooSoon := match t.lastAt with
      | none => false
      | some a => decide (d.now < a + 2)
    if tooSoon || (t.stopFull && decide (8192 ≤ t.entries.length)) then
      d.mapTrace fun t => { t with dropped := t.dropped + 1, pendingDrop := true }
    else
      d.mapTrace fun t => { t with
        entries := ({ stamp := d.now, source := source, kind := kind, afterDrop := t.pendingDrop, object := object,
                      value := value % 2 ^ 32, aux := aux, paddock := paddock } :: t.entries).take 8192,
        next := t.next + 1, pendingDrop := false, lastAt := some d.now }
  else d

/-! ### State codes -/

/-- Code of a Tally state (R50). -/
def tallyStateCode : TallyState → Nat
  | .free => 0
  | .acquire => 1
  | .locked => 2
  | .holdover => 3

/-- Code of a paddock state (R375). -/
def paddockStateCode : PaddockState → Nat
  | .vacant => 0
  | .running => 1
  | .waiting => 2
  | .stopping => 3
  | .saving => 4
  | .saved => 5
  | .restoring => 6
  | .held => 7
  | .faulted => 8

/-- A paddock is RUNNING, STOPPING, SAVING or RESTORING (R482). -/
def Device.running (d : Device) : Bool :=
  d.paddocks.any fun e =>
    e.2.state == .running || e.2.state == .stopping || e.2.state == .saving || e.2.state == .restoring

/-- The device enters another power state: the stamp of the change is kept (R488). -/
def Device.setDevState (d : Device) (s : DevState) : Device :=
  if d.state = s then d else { d with state := s, stateSince := d.now }

/-- The device is READY or in RUN: its dies are powered and clocked (R482). -/
def Device.awake (d : Device) : Bool := decide (d.state = .ready ∨ d.state = .run)

/-- READY and RUN follow the paddocks (R482). -/
def Device.settleState (d : Device) : Device :=
  match d.state with
  | .ready => if d.running then d.setDevState .run else d
  | .run => if d.running then d else d.setDevState .ready
  | _ => d

/-- Code of the device state (R81, R482). -/
def Device.stateCode (d : Device) : Nat :=
  match d.state with
  | .standby => 1
  | .leaving => 1
  | .safe => 2
  | .ready => 3
  | .run => 4
  | _ => 0

/-- The Tally enters another state: the event of R57, and the chip-level fault on entry to FREE unless the device is in
STANDBY or leaving it, stamped now or at the deadline given. TALLY_PPS_OUT is held low where it does not pulse (R58). -/
def Device.setTallyState (d : Device) (s : TallyState) (stamp : Option Nat := none) : Device :=
  if d.tally.state = s then d else
    let old := d.tally.state
    let pulses := decide (s = .locked ∨ s = .holdover ∨ d.tally.cfg.role = .root)
    let d1 := d.mapTally fun t => { t with state := s, stateSince := stamp.getD t.now, ppsOut := t.ppsOut && pulses }
    let d2 := d1.record { source := d.src srcTally, code := 0x8001,
                          sub := 256 * tallyStateCode old + tallyStateCode s } stamp
    if s == .free && !(d.state == .standby || d.state == .leaving) then
      (d2.record { source := d.src srcTally, cls := 2, level := 4, code := 0x36 } stamp).mapFaults
        fun f => { f with tallyFree := true }
    else d2

/-- A paddock enters another state: its stamp and the PADDOCK_STATE event, which holds in `where` the `tag` of the mailbox
command that caused it, or 0 (R80). -/
def Device.setPaddockState (d : Device) (p : Nat) (s : PaddockState) (tag : Nat := 0) : Device :=
  match d.paddock p with
  | none => d
  | some x =>
    if x.state = s then d else
      (d.updPaddock p fun x => { x with state := s, stateSince := d.now }).settleState.record
        { source := d.src srcFirmware, paddock := p, code := 0x8008,
          sub := 256 * paddockStateCode x.state + paddockStateCode s, addr := tag }

end Sys2Proof.Machine
end

