-- ==== Sys2Proof/Machine/Image.lean ====
section
/-! DEFINITION. The parts of a schedule image (R162 to R171, R335) and of a paddock's resident image. -/

namespace Sys2Proof.Machine

/-- One directory entry (R162). -/
structure Sect where
  /-- `kind`. -/
  kind : Nat
  /-- `count`. -/
  count : Nat
  /-- `offset`. -/
  off : Nat
  /-- `bytes`. -/
  len : Nat
  deriving DecidableEq, Repr

/-- One edge-window entry (R170). -/
structure Win where
  /-- `window`. -/
  window : Nat
  /-- `dir`: 0 IN, 1 OUT. -/
  dir : Nat
  /-- `edge`. -/
  edge : Nat
  /-- `edge_stile`. -/
  stile : Nat
  /-- `target_kind`: 0 BLOCK, 1 MEMORY, 2 EDGE. -/
  kind : Nat
  /-- `target_region`. -/
  region : Nat
  /-- `entry_start`. -/
  start : Nat
  /-- `entry_len`. -/
  len : Nat
  /-- `stride`. -/
  stride : Nat
  /-- `openings`. -/
  openings : Nat
  /-- `target_edge`. -/
  toEdge : Nat
  /-- `target_stile`. -/
  toStile : Nat
  /-- `blocks`. -/
  blocks : Nat
  /-- `classes`. -/
  classes : Nat
  deriving DecidableEq, Repr

/-- One remote context entry (R335). -/
structure Ctx where
  /-- `ctx`. -/
  ctx : Nat
  /-- `LOCAL`. -/
  isLocal : Bool
  /-- `BELL_FROM_VALUE`. -/
  fromValue : Bool
  /-- `SECURE`. -/
  secure : Bool
  /-- `home`. -/
  home : Nat
  /-- `class`. -/
  cls : Nat
  /-- `conn`. -/
  conn : Nat
  /-- `key`. -/
  key : Nat
  /-- `bell`. -/
  bell : Nat
  /-- `increment`. -/
  inc : Nat
  /-- `bound_us`, 0 for the default. -/
  boundUs : Nat
  deriving DecidableEq, Repr

/-- The section directory of an image (R162). -/
def imageSections (im : List Byte) : List Sect :=
  (List.range (fieldU16 im 8)).map fun i =>
    let o := 128 + 16 * i
    { kind := fieldU16 im o, count := fieldU32 im (o + 4), off := fieldU32 im (o + 8), len := fieldU32 im (o + 12) }

/-- The sections of one kind. -/
def sectionsOf (im : List Byte) (kind : Nat) : List Sect := (imageSections im).filter fun s => decide (s.kind = kind)

/-- Items of a `CODE` or `BLOCK_SLOTS` section: block, offset of the first word and words. -/
def wordItems (im : List Byte) : Nat → Nat → List (Nat × Nat × Nat)
  | _, 0 => []
  | o, n + 1 =>
    let words := fieldU32 im (o + 4)
    (fieldU16 im o, o + 8, words) :: wordItems im (o + 8 + 8 * words) n

/-- Every `CODE` item of an image. -/
def imageCode (im : List Byte) : List (Nat × Nat × Nat) :=
  (sectionsOf im 1).flatMap fun s => wordItems im s.off s.count

/-- Every `BLOCK_SLOTS` item of an image. -/
def imageSlots (im : List Byte) : List (Nat × Nat × Nat) :=
  (sectionsOf im 3).flatMap fun s => wordItems im s.off s.count

/-- Every `ENTRY` item of an image: block and offset of its 16 entry PCs. -/
def imageEntries (im : List Byte) : List (Nat × Nat) :=
  (sectionsOf im 2).flatMap fun s => (List.range s.count).map fun i => (fieldU16 im (s.off + 34 * i), s.off + 34 * i + 2)

/-- The instruction store an image gives a block. -/
def imageStore (im : List Byte) (b : Nat) : Sparse 64 :=
  match (imageCode im).find? fun e => decide (e.1 = b) with
  | none => []
  | some e => (List.range e.2.2).foldl (fun acc i => acc.set i (BitVec.ofNat 64 (fieldU64 im (e.2.1 + 8 * i)))) []

/-- Entry PC an image gives a thread of a block, 0xFFFF for none. -/
def imageEntry (im : List Byte) (b t : Nat) : Nat :=
  match (imageEntries im).find? fun e => decide (e.1 = b) with
  | none => 0xFFFF
  | some e => fieldU16 im (e.2 + 2 * t)

/-- The window entry at an offset. -/
def winAt (im : List Byte) (o : Nat) : Win :=
  { window := fieldU8 im o, dir := fieldU8 im (o + 1), edge := fieldU8 im (o + 2), stile := fieldU8 im (o + 3),
    kind := fieldU8 im (o + 4), region := fieldU8 im (o + 5), start := fieldU16 im (o + 6), len := fieldU16 im (o + 8),
    stride := fieldU16 im (o + 10), openings := fieldU16 im (o + 12), toEdge := fieldU8 im (o + 14),
    toStile := fieldU8 im (o + 15), blocks := fieldU64 im (o + 16), classes := fieldU16 im (o + 24) }

/-- The windows of an image, in ascending number. -/
def imageWindows (im : List Byte) : List Win :=
  let ws := (sectionsOf im 5).flatMap fun s => (List.range s.count).map fun i => winAt im (s.off + 32 * i)
  (List.range 255).filterMap fun n => ws.find? fun w => decide (w.window = n)

/-- The context entry at an offset. -/
def ctxAt (im : List Byte) (o : Nat) : Ctx :=
  let fl := fieldU8 im (o + 1)
  { ctx := fieldU8 im o, isLocal := bitOf fl 0, fromValue := bitOf fl 1, secure := bitOf fl 2,
    home := fieldU8 im (o + 2), cls := fieldU8 im (o + 3), conn := fieldU32 im (o + 4), key := fieldU32 im (o + 8),
    bell := fieldU32 im (o + 12), inc := fieldU16 im (o + 16), boundUs := fieldU16 im (o + 18) }

/-- The remote contexts of an image. -/
def imageContexts (im : List Byte) : List Ctx :=
  (sectionsOf im 7).flatMap fun s => (List.range s.count).map fun i => ctxAt im (s.off + 32 * i)

/-- The tensor entries of an image, 32 bytes each (R238). -/
def imageTensors (im : List Byte) : List (List Byte) :=
  (sectionsOf im 6).flatMap fun s => (List.range s.count).map fun i => bytesAt im (s.off + 32 * i) 32

/-- Declared `max_step_ticks` of an image (R162). -/
def imageMaxStep (im : List Byte) : Nat := fieldU32 im 20
/-- `cclk_mhz` of an image. -/
def imageMhz (im : List Byte) : Nat := fieldU16 im 12
/-- `frame` of an image. -/
def imageFrame (im : List Byte) : Nat := fieldU32 im 16
/-- Ticks of a frame span of an image (R160). -/
def imageSpan (im : List Byte) : Nat := 4096 * 2 ^ fieldU8 im 10

/-- The images registered for a paddock (R178). -/
def Device.imagesOf (d : Device) (p : Nat) : List (Nat × Image) :=
  d.images.filter fun e => decide (e.1 / 0x4000000 = p)

/-- The resident image of a paddock (R180). -/
def Device.resident (d : Device) (p : Nat) : Option (Nat × Image) :=
  (d.imagesOf p).find? fun e => decide (e.2.state = .resident)

/-- The windows of a paddock's resident image, ascending. -/
def Device.windowsOf (d : Device) (p : Nat) : List Win :=
  match d.resident p with
  | none => []
  | some e => imageWindows e.2.bytes

/-- A remote context of a paddock's resident image (R335). -/
def Device.contextOf (d : Device) (p ctx : Nat) : Option Ctx :=
  match d.resident p with
  | none => none
  | some e => (imageContexts e.2.bytes).find? fun c => decide (c.ctx = ctx)

/-- Region of a block (R14). -/
def regionOf (b : Nat) : Nat := b / 64

/-- Edge die that serves a tier address: tier die 0 drives channels 0 to 7, tier die 1 channels 8 to 15 (R23, R25, R175). -/
def tierEdge (a : Nat) : Nat := 4 + ddrChannel a / 8

/-- A window serves a target address from or to an edge die: BLOCK by the block whose buffer it is, MEMORY by the region
whose HBM it is, EDGE by the tier die whose channel it is (R170, R175, R362). -/
def Win.serves (w : Win) (dir edge a : Nat) : Bool :=
  if a < hbmEnd then decide (w.dir = dir ∧ w.edge = edge ∧ w.kind = 1 ∧ w.region = a / 0x1000000000)
  else if a < bufferEnd then
    let b := (a - bufferBase) / 0x100000
    decide (w.dir = dir ∧ w.edge = edge ∧ w.kind = 0 ∧ w.region = regionOf b) && bitOf w.blocks (b % 64)
  else if dir = 0 then decide (w.kind = 2 ∧ w.edge = edge ∧ w.toEdge = tierEdge a)
  else decide (w.kind = 2 ∧ w.edge = tierEdge a ∧ w.toEdge = edge)

/-- The lowest-numbered window of a paddock that serves an address from an edge die for a class; class 16 asks for none
in particular (R174, R362). R18 names the nearest stile of the die instead; where both apply the number decides (DESIGN CHOICE,
log entry 101). -/
def Device.windowFor (d : Device) (p dir edge a cls : Nat) : Option Win :=
  (d.windowsOf p).find? fun w => w.serves dir edge a && (decide (cls = 16) || bitOf w.classes cls)

end Sys2Proof.Machine
end

