-- ==== Sys2Proof/Machine/Mesh.lean ====
section
/-! DEFINITION. The mesh: edge stiles, fixed routes, claims on routers and stiles, the hops of an edge window, and the
crossing of DOWN links (R14 to R18, R159 to R176, R424). -/

namespace Sys2Proof.Machine

/-! ### Geometry (R14 to R17) -/

/-- Region that an edge stile stands on (R166). -/
def stileRegion (e : Nat) : Nat :=
  if e < 4 then e else if e < 8 then e + 8 else if e < 12 then 4 * (e - 8) + 3 else 4 * (e - 12)

/-- Edge die of an edge stile: 0 to 3 network, 4 and 5 tier, 6 host, 7 the Shepherd die (R15, R170). -/
def stileDie (e : Nat) : Nat :=
  if e < 8 then e / 2 else if e < 10 then 4 else if e = 10 then 7 else if e = 11 then 6 else if e < 14 then 5 else 6

/-- A hop of a route: table (0 router, 1 mesh stile, 2 edge stile), index and direction (R166). -/
structure Hop where
  /-- `table`. -/
  table : Nat
  /-- `index`. -/
  index : Nat
  /-- `dir`. -/
  dir : Nat
  deriving DecidableEq, Repr

/-- The regions from one to another: along the row to the target column, then along the column (R17). -/
def regionPath (a b : Nat) : List Nat :=
  let ca := a % 4
  let cb := b % 4
  let ra := a / 4
  let rb := b / 4
  let row := if ca ≤ cb then (List.range (cb - ca)).map (fun i => 4 * ra + ca + 1 + i)
    else (List.range (ca - cb)).map (fun i => 4 * ra + ca - 1 - i)
  let col := if ra ≤ rb then (List.range (rb - ra)).map (fun i => 4 * (ra + 1 + i) + cb)
    else (List.range (ra - rb)).map (fun i => 4 * (ra - 1 - i) + cb)
  a :: (row ++ col)

/-- The mesh stile crossed from a region to a neighbour (R166). -/
def linkHop (a b : Nat) : Hop :=
  let lo := Nat.min a b
  let dir := if b < a then 0 else 1
  if Nat.max a b = lo + 1 then { table := 1, index := 3 * (lo / 4) + lo % 4, dir := dir }
  else { table := 1, index := 12 + lo, dir := dir }

/-- Routers and mesh stiles along a list of regions. -/
def pathHops : List Nat → List Hop
  | [] => []
  | [a] => [{ table := 0, index := a, dir := 0 }]
  | a :: b :: rest => { table := 0, index := a, dir := 0 } :: linkHop a b :: pathHops (b :: rest)

/-- A hop in the other direction. -/
def Hop.reversed (h : Hop) : Hop := if h.table = 0 then h else { h with dir := 1 - h.dir }

/-- The hops from an edge stile to a target region (R17). -/
def entryHops (stile region : Nat) : List Hop :=
  { table := 2, index := stile, dir := 0 } :: pathHops (regionPath (stileRegion stile) region)

/-- The hops of a window in the order of its traffic (R171). -/
def Win.hops (w : Win) : List Hop :=
  let inward := entryHops w.stile w.region
  if w.kind = 2 then inward ++ [{ table := 2, index := w.toStile, dir := 1 }]
  else if w.dir = 1 then (inward.map Hop.reversed).reverse
  else inward

/-- Edge stiles of a die. -/
def dieStiles (die : Nat) : List Nat := (List.range 16).filter fun e => decide (stileDie e = die)

/-- Mesh hops between two regions: the sum of their row and column distances (R18). -/
def meshHops (a b : Nat) : Nat := (a % 4 - b % 4) + (b % 4 - a % 4) + (a / 4 - b / 4) + (b / 4 - a / 4)

/-- The stile of an edge die that its traffic to a region uses: the nearest, at a tie the one on the lower-numbered region
(R18). -/
def nearestStile (die region : Nat) : Option Nat :=
  leastBy (fun e => 16 * meshHops (stileRegion e) region + stileRegion e) (dieStiles die)

/-- The stiles by which traffic between two edge dies enters and leaves the mesh: the nearest pair, at a tie the lower entry
region, then the lower exit region (R18, R175). -/
def stilePair (src dst : Nat) : Option (Nat × Nat) :=
  let pairs := (dieStiles src).flatMap fun a => (dieStiles dst).map fun b => 16 * a + b
  let key := fun (p : Nat) =>
    256 * meshHops (stileRegion (p / 16)) (stileRegion (p % 16)) + 16 * stileRegion (p / 16) + stileRegion (p % 16)
  (leastBy key pairs).map fun p => (p / 16, p % 16)

/-- The hops of device traffic between two edge dies (R17, R18, R175). -/
def serviceHops (src dst : Nat) : List Hop :=
  match stilePair src dst with
  | none => []
  | some (a, b) => entryHops a (stileRegion b) ++ [{ table := 2, index := b, dir := 1 }]

/-! ### Claims (R161, R166, R167) -/

/-- One claim entry (R166). -/
structure Claim where
  /-- Offset of the entry in the image. -/
  at_ : Nat
  /-- `start`. -/
  start : Nat
  /-- `length`. -/
  len : Nat
  /-- Router or stile and direction. -/
  hop : Hop
  /-- `use`. -/
  use : Nat
  /-- `src`. -/
  src : Nat
  /-- `dst`. -/
  dst : Nat
  /-- `window`. -/
  window : Nat
  deriving DecidableEq, Repr

/-- The claim entry at an offset. -/
def claimAt (im : List Byte) (o : Nat) : Claim :=
  { at_ := o, start := fieldU16 im o, len := fieldU16 im (o + 2),
    hop := { table := fieldU8 im (o + 4), index := fieldU8 im (o + 5), dir := fieldU8 im (o + 6) },
    use := fieldU8 im (o + 7), src := fieldU8 im (o + 8), dst := fieldU8 im (o + 9), window := fieldU8 im (o + 10) }

/-- The claims of an image. -/
def imageClaims (im : List Byte) : List Claim :=
  (sectionsOf im 4).flatMap fun s => (List.range s.count).map fun i => claimAt im (s.off + 16 * i)

/-- A run of RCLK slots lies wholly in one image span (R161). -/
def inOneSpan (start len : Nat) : Bool :=
  decide (1 ≤ len ∧ start + len ≤ 8448 ∧ 16 ≤ start % 1056 ∧ start % 1056 + len ≤ 1056)

/-- Two claims meet on the same router, stile and direction. -/
def Claim.meets (x y : Claim) : Bool := decide (x.hop = y.hop ∧ x.start < y.start + y.len ∧ y.start < x.start + x.len)

/-- The claim of a window for one opening at one hop: the first of a list that passes a test, and the list without it. -/
def pickClaim (test : Claim → Bool) : List Claim → Option (Claim × List Claim)
  | [] => none
  | c :: cs =>
    if test c then some (c, cs)
    else match pickClaim test cs with
      | none => none
      | some r => some (r.1, c :: r.2)

/-- The claims of one opening, hop by hop from the edge stile: `next` tells which start may follow the previous one. -/
def chainClaims (len : Nat) (follows : Nat → Nat → Bool) : List Hop → Nat → List Claim → Option (List Claim)
  | [], _, left => some left
  | h :: hs, prev, left =>
    match pickClaim (fun c => decide (c.hop = h) && follows prev c.start) left with
    | none => none
    | some r => if len ≤ r.1.len ∧ inOneSpan r.1.start r.1.len then chainClaims len follows hs r.1.start r.2 else none

/-- Claims sorted by start. -/
def claimInsert (up : Bool) (x : Claim) : List Claim → List Claim
  | [] => [x]
  | y :: ys => if (if up then x.start ≤ y.start else y.start ≤ x.start) then x :: y :: ys else y :: claimInsert up x ys

/-- Every opening of a window has its claims at every hop (R171): opening k's claim on the edge stile starts at its slot,
and along the traffic's way each hop's claim starts at least 2 slots after the one before. -/
def Win.claimed (w : Win) (claims : List Claim) : Bool :=
  let isOut := decide (w.dir = 1)
  let hops := if isOut then w.hops.reverse else w.hops
  let mine := (claims.filter fun c => decide (c.use = 1 ∧ c.window = w.window)).foldr (claimInsert (!isOut)) []
  match hops with
  | [] => false
  | h :: hs =>
    let follows := fun (prev start : Nat) => if isOut then decide (start + 2 ≤ prev) else decide (prev + 2 ≤ start)
    let order := if isOut then (List.range w.openings).reverse else List.range w.openings
    (order.foldl (fun (left : Option (List Claim)) k =>
      match left with
      | none => none
      | some cs =>
        match pickClaim (fun c => decide (c.hop = h ∧ c.start = w.start + k * w.stride)) cs with
        | none => none
        | some r => if w.len ≤ r.1.len ∧ inOneSpan r.1.start r.1.len then chainClaims w.len follows hs r.1.start r.2
            else none) (some mine)).isSome

/-- Longest gap between openings, in ticks (R173). -/
def Win.gapTicks (w : Win) : Nat := ceilDiv (Nat.max w.stride (8448 - (w.openings - 1) * w.stride) * 4096) 8448

/-- A paddock's window queue. -/
def Device.winQueue (d : Device) (p w : Nat) : WinQueue := (Table.find d.net.windows (256 * p + w)).getD {}

/-- The local address by which a window's target is found for the block of a bell. -/
def bellAddress (bell : Nat) : Nat := bufferAddr (bell / 64) 0

/-- Slots a delivery needs (R172). -/
def deliverySlots (bytes : Nat) : Nat := ceilDiv (bytes + 64) 512

/-! ### DOWN links (R424) -/

/-- A hop runs over a stile that is DOWN. -/
def Device.hopDown (d : Device) (h : Hop) : Bool :=
  (decide (h.table = 1) && d.faults.downMesh.contains h.index) || (decide (h.table = 2) && d.faults.downEdge.contains h.index)

/-- A window's route runs over a DOWN link. -/
def Device.routeDown (d : Device) (w : Win) : Bool := w.hops.any d.hopDown

/-- Device traffic between two edge dies meets a DOWN link on its route, out or back. -/
def Device.serviceDown (d : Device) (a b : Nat) : Bool := (serviceHops a b ++ serviceHops b a).any d.hopDown

/-- An image claims a link, or routes a window hop over it. -/
def imageUses (im : List Byte) (table index : Nat) : Bool :=
  (imageClaims im).any (fun c => decide (c.hop.table = table ∧ c.hop.index = index)) ||
    (imageWindows im).any fun w => w.hops.any fun h => decide (h.table = table ∧ h.index = index)

end Sys2Proof.Machine
end

