-- ==== Sys2Proof/Machine/Operands.lean ====
section
/-! DEFINITION. The operand forms of sequencer instructions: the fields of the instruction word, and what makes a word
ILLEGAL by its form alone (R136, R143, R144, R147, R155). -/

namespace Sys2Proof.Machine

/-! ### Fields (R136) -/

/-- Bits `hi` to `lo` of the class fields. -/
def classBits (w : IWord) (hi lo : Nat) : Nat := bitsOf w.k.toNat hi lo

/-- One bit of the class fields. -/
def classBit (w : IWord) (i : Nat) : Bool := w.k.getLsbD i

/-- `imm` in bits [31:0], signed. -/
def immSigned (w : IWord) : Int := signed 32 (classBits w 31 0)

/-- `imm` in bits [31:0], unsigned. -/
def immUnsigned (w : IWord) : Nat := classBits w 31 0

/-- Format code in bits [40:38] (R110). -/
def fmtField (w : IWord) : Nat := classBits w 40 38
/-- Scale mode in bits [37:36] (R110). -/
def smField (w : IWord) : Nat := classBits w 37 36
/-- `rmode` in bits [35:34] (R119). -/
def rmodeField (w : IWord) : Nat := classBits w 35 34
/-- `ovf` in bit 33 (R119). -/
def ovfField (w : IWord) : Bool := classBit w 33
/-- `ctx` of a remote-access instruction in bits [40:33]. -/
def ctxField (w : IWord) : Nat := classBits w 40 33
/-- `aop` of RATOM in bits [32:30]. -/
def aopField (w : IWord) : Nat := classBits w 32 30
/-- `len` of RPUT and RGET in bits [29:22]. -/
def lenField (w : IWord) : Nat := classBits w 29 22
/-- Bell an asynchronous remote access rings at its end, when `ring` is set. -/
def remoteBell (w : IWord) : Option Nat := if classBit w 15 then some (classBits w 21 16) else none
/-- Bell a bale transfer rings at its completion, when `ring` is set. -/
def baleBell (w : IWord) : Option Nat := if classBit w 30 then some (classBits w 29 24) else none
/-- `count` of a bale instruction in bits [10:0]. -/
def countField (w : IWord) : Nat := classBits w 10 0

/-- The opcode and the rest of a 64-bit instruction word (R136). -/
def splitWord (v : Nat) : Nat × IWord :=
  (v / 2 ^ 56 % 256,
   { a := BitVec.ofNat 5 (v / 2 ^ 51), b := BitVec.ofNat 5 (v / 2 ^ 46), c := BitVec.ofNat 5 (v / 2 ^ 41),
     k := BitVec.ofNat 41 v })

/-- The 64-bit word of an opcode and the rest (R136). -/
def joinWord (op : Nat) (w : IWord) : Nat :=
  2 ^ 56 * op + 2 ^ 51 * w.a.toNat + 2 ^ 46 * w.b.toNat + 2 ^ 41 * w.c.toNat + w.k.toNat

/-! ### Legal forms (R155, ILLEGAL) -/

/-- What a row of the class tables names: operand fields a, b, c (0 not named, 1 a scalar register or accumulator,
2 a vector register, 3 an even vector register) and the mask of class-field bits it defines. -/
structure RowForm where
  /-- Field a. -/
  a : Nat := 0
  /-- Field b. -/
  b : Nat := 0
  /-- Field c. -/
  c : Nat := 0
  /-- Class-field bits the row defines. -/
  mask : BitVec 41 := 0
  deriving DecidableEq, Repr

/-- The class bits of `imm`. -/
def immMask : BitVec 41 := 0xFFFFFFFF
/-- Class bits [40:38], [37:36], [35:34] and [33]. -/
def convMask : BitVec 41 := 0x1FE00000000
/-- Class bits of `rmode` and `ovf`. -/
def roundMask : BitVec 41 := 0xE00000000
/-- Class bits of `ring`, `bell` and `count` of a bale transfer. -/
def baleMask : BitVec 41 := 0x7F0007FF
/-- Class bits of `ctx`. -/
def ctxMask : BitVec 41 := 0x1FE00000000
/-- Class bits of `len`, `bell` and `ring` of RPUT and RGET. -/
def moveMask : BitVec 41 := 0x3FFF8000

/-- The form of an opcode's row; none for an opcode that no class table lists. -/
def rowForm (op : Nat) : Option RowForm :=
  if op = 0x00 ∨ op = 0x01 ∨ op = 0x0B then some {}
  else if op = 0x02 ∨ op = 0x0C then some { mask := immMask }
  else if 0x03 ≤ op ∧ op ≤ 0x08 then some { b := 1, c := 1, mask := immMask }
  else if op = 0x09 then some { a := 1, mask := immMask }
  else if op = 0x0A then some { a := 1, b := 1 }
  else if op = 0x0D then some { b := 1, mask := immMask }
  else if 0x10 ≤ op ∧ op ≤ 0x1D then some { a := 1, b := 1, c := 1 }
  else if 0x20 ≤ op ∧ op ≤ 0x23 then some { a := 1, b := 1, mask := immMask }
  else if 0x24 ≤ op ∧ op ≤ 0x26 then some { a := 1, b := 1, mask := 0x3F }
  else if op = 0x27 ∨ op = 0x28 then some { a := 1, b := 1, mask := immMask }
  else if op = 0x29 then some { b := 1, c := 1, mask := immMask }
  else if op = 0x30 then some { b := 1, mask := 0x1FFFFFC0000 }
  else if op = 0x31 then some { a := 1, b := 1, c := 1, mask := 0x1FFFFFFFFC0 }
  else if op = 0x32 then some { a := 1, b := 1, c := 1, mask := 0x1CF80000000 }
  else if op = 0x33 then some { a := 1, mask := 1 }
  else if op = 0x40 then some { a := 2, b := 1, mask := immMask }
  else if op = 0x41 then some { b := 1, c := 2, mask := immMask }
  else if 0x42 ≤ op ∧ op ≤ 0x45 then some { a := 2, b := 2, c := 2, mask := roundMask }
  else if op = 0x46 ∨ op = 0x47 then some { a := 2, b := 2, c := 2 }
  else if 0x48 ≤ op ∧ op ≤ 0x4B then some { a := 2, b := 2, mask := roundMask }
  else if op = 0x4C then some { a := 2, b := 1 }
  else if op = 0x4D ∨ op = 0x4E then some { a := 1, b := 2 }
  else if op = 0x4F then some { a := 1, b := 2, mask := 0x3F }
  else if op = 0x50 ∨ op = 0x51 then some { a := 1, b := 2, c := 1, mask := convMask }
  else if op = 0x52 then some { a := 2, b := 1, c := 1, mask := 0x1F000000000 }
  else if op = 0x60 then some { mask := 0xFFF }
  else if 0x61 ≤ op ∧ op ≤ 0x63 then some { a := 1, b := 1, mask := baleMask }
  else if op = 0x64 then some { a := 1, b := 1, mask := 0x80000000 ||| baleMask }
  else if op = 0x70 ∨ op = 0x71 ∨ op = 0x72 then some { a := 2, b := 2, c := 2 }
  else if op = 0x73 then some { a := 3, b := 3, c := 3 }
  else if op = 0x74 then some { a := 2, b := 2, c := 2, mask := immMask }
  else if op = 0x80 then some { a := 1, b := 1, mask := ctxMask }
  else if op = 0x81 ∨ op = 0x82 then some { b := 1, c := 1, mask := ctxMask }
  else if op = 0x83 then some { a := 1, b := 1, c := 1, mask := ctxMask ||| 0x1C0000000 }
  else if op = 0x84 then some { b := 1, c := 1, mask := ctxMask ||| moveMask }
  else if op = 0x85 then some { a := 1, b := 1, mask := ctxMask ||| moveMask }
  else if op = 0x90 then some { b := 1, mask := immMask }
  else if op = 0x91 then some { a := 1, b := 1, c := 1, mask := immMask }
  else if op = 0x92 then some { a := 1, b := 1, c := 1 }
  else if op = 0x93 then some { a := 1, b := 1 }
  else if op = 0xA0 ∨ op = 0xA2 then some { a := 1, b := 1 }
  else if op = 0xA1 then some { b := 1, c := 1 }
  else if op = 0xB0 then some { mask := immMask }
  else if op = 0xB1 then some { a := 1, mask := immMask }
  else if op = 0xC0 ∨ (0xC3 ≤ op ∧ op ≤ 0xC5) then some { a := 1 }
  else if op = 0xC1 then some { mask := 0x1F }
  else if op = 0xC2 then some { b := 1 }
  else none

/-- The scalar registers an instruction names; field a of MMAC, MDRAIN and MZERO names an accumulator. -/
def scalarFields (op : Nat) (w : IWord) : List Nat :=
  match rowForm op with
  | none => []
  | some f =>
    (if f.a = 1 ∧ ¬(0x31 ≤ op ∧ op ≤ 0x33) then [w.a.toNat] else []) ++ (if f.b = 1 then [w.b.toNat] else []) ++
      (if f.c = 1 then [w.c.toNat] else [])

/-- An operand field fits what its row names there. -/
def fieldFits (kind : Nat) (v : BitVec 5) : Bool :=
  match kind with
  | 0 => decide (v = 0)
  | 1 => true
  | 2 => decide (v.toNat < 16)
  | _ => decide (v.toNat < 16 ∧ v.toNat % 2 = 0)

/-- `rmode`, `ovf` and `aop` hold encodings that R144 allows. -/
def encodingsFit (op : Nat) (w : IWord) : Bool :=
  let rm := rmodeField w
  if 0x42 ≤ op ∧ op ≤ 0x45 then decide (rm ≤ 1)
  else if 0x48 ≤ op ∧ op ≤ 0x4B then decide (rm = 0)
  else if op = 0x32 then decide (rm ≤ 1) || (decide (rm = 2) && decide (fmtField w = 1 ∨ fmtField w = 2))
  else if op = 0x50 then decide (rm ≤ 1) || (decide (rm = 2) && decide (fmtField w ≠ 0))
  else if op = 0x51 then decide (rm ≤ 2) && !ovfField w
  else if op = 0x83 then decide (aopField w ≠ 7)
  else true

/-- A word is free of ILLEGAL conditions. -/
def wordLegal (op : Nat) (w : IWord) : Bool :=
  match rowForm op with
  | none => false
  | some f => fieldFits f.a w.a && fieldFits f.b w.b && fieldFits f.c w.c && decide (w.k &&& f.mask = w.k) && encodingsFit op w

end Sys2Proof.Machine
end

