-- ==== Sys2Proof/Machine/Slots.lean ====
section
/-! DEFINITION. A block's clock, its slot table, and the thread that issues in a CCLK (R131 to R134, R160, R164, R165, R169,
R195). A CCLK is counted from the frame's start, a Tally multiple of the image's frame span. -/

namespace Sys2Proof.Machine

/-! ### The clock of a block (R160, R169, R475) -/

/-- Running CCLK of a region in MHz. -/
def Device.runningMhz (d : Device) (n : Nat) : Nat := max 1 (d.clock n).runningMhz

/-- Ticks of the frame span of a paddock's resident image; a schedule period where it has none. -/
def Device.spanOf (d : Device) (p : Nat) : Nat := ((d.resident p).map fun e => imageSpan e.2.bytes).getD 4096

/-- Tally multiple at which the present frame of a paddock's blocks began (R160). -/
def Device.frameBase (d : Device) (p : Nat) : Nat := d.now / d.spanOf p * d.spanOf p

/-- CCLKs that begin in the first `ticks` ticks of a frame: 800 ticks take `mhz` CCLKs. -/
def cclksIn (mhz ticks : Nat) : Nat := ceilDiv (ticks * mhz) 800

/-- Tick of a frame in which a CCLK begins. -/
def cclkTick (mhz c : Nat) : Nat := c * 800 / mhz

/-- A frame of a region is skipped: `skip` frames of every 8, from a phase that the rules leave open (log entry 24). -/
def Device.skipsFrame (d : Device) (n frame : Nat) : Bool :=
  decide ((frame + Config.skipPhase n) % 8 < ((d.power.regions[n]?).map (·.skip)).getD 0)

/-- The paddock names a block of a region. -/
def Paddock.inRegion (x : Paddock) (n : Nat) : Bool := decide ((x.blocks >>> (64 * n)).setWidth 64 ≠ 0)

/-- Ticks of a frame that a region skips whole: the longest frame span of the resident images with blocks there (log entry
24). -/
def Device.regionSpan (d : Device) (n : Nat) : Nat :=
  d.paddocks.foldl (fun acc e => if e.2.holds && e.2.inRegion n then max acc (d.spanOf e.1) else acc) 4096

/-- The region of a block holds its slot counters at zero in the frame that a Tally value lies in (R169). -/
def Device.skipsAt (d : Device) (b t : Nat) : Bool := d.skipsFrame (regionOf b) (t / d.regionSpan (regionOf b))

/-- First frame of a block, from one on, that its region does not skip. -/
def Device.openFrame (d : Device) (b frame : Nat) : Option Nat :=
  let n := d.regionSpan (regionOf b)
  (frame :: (List.range 8).map fun j => (frame / n + 1 + j) * n).find? fun t => !d.skipsAt b t

/-- Frame length of the resident image's block slot tables; 0 with no image. -/
def Device.frameOf (d : Device) (p : Nat) : Nat :=
  match d.resident p with
  | some e => imageFrame e.2.bytes
  | none => 0

/-- The block slot counter at a CCLK of the present frame: `frame` in the tail, and zero in a skipped frame. -/
def Device.slotCounter (d : Device) (p b c : Nat) : Nat := if d.skipsAt b d.now then 0 else Nat.min (d.frameOf p) c

/-! ### The slot table (R164, R165) -/

/-- One run of a block slot table (R164). -/
structure SlotRun where
  /-- `start`. -/
  start : Nat
  /-- `length`. -/
  len : Nat
  /-- `res`. -/
  res : Nat
  /-- `thread`. -/
  thread : Nat
  /-- `window`. -/
  window : Nat
  deriving DecidableEq, Repr

/-- The block slot entry at an offset (R164). -/
def slotRunAt (im : List Byte) (o : Nat) : SlotRun :=
  let v := fieldU64 im o
  { start := bitsOf v 63 44, len := bitsOf v 43 24, res := bitsOf v 23 22, thread := bitsOf v 21 18, window := bitsOf v 17 10 }

/-- The runs of an item of `BLOCK_SLOTS`. -/
def slotRuns (im : List Byte) (item : Nat × Nat × Nat) : List SlotRun :=
  (List.range item.2.2).map fun i => slotRunAt im (item.2.1 + 8 * i)

/-- The runs of a block in an image. -/
def imageRuns (im : List Byte) (b : Nat) : List SlotRun :=
  match (imageSlots im).find? fun x => decide (x.1 = b) with
  | none => []
  | some x => slotRuns im x

/-- The runs of a block in a paddock's resident image. -/
def Device.runsOf (d : Device) (p b : Nat) : List SlotRun :=
  match d.resident p with
  | none => []
  | some e => imageRuns e.2.bytes b

/-- First slot from `c` on that a table, sorted by start, does not grant to a thread for a resource. -/
def grantEnd (runs : List SlotRun) (res t c : Nat) : Nat :=
  runs.foldl (fun pos r =>
    if r.res = res ∧ r.thread = t ∧ r.start ≤ pos ∧ pos < r.start + r.len then r.start + r.len else pos) c

/-- A run of `k` slots from slot `c` on is granted to a thread (R133). -/
def granted (runs : List SlotRun) (res t c k : Nat) : Bool := decide (c + k ≤ grantEnd runs res t c)

/-- Slots left in the run of a window that a slot lies in, the slot counted; 0 outside its runs (R165). -/
def slotsLeft (runs : List SlotRun) (w slot : Nat) : Nat :=
  match runs.find? fun r => decide (r.res = 2 ∧ r.window = w ∧ r.start ≤ slot ∧ slot < r.start + r.len) with
  | none => 0
  | some r => r.start + r.len - slot

/-! ### Slotted instructions (R133, R140, R141) -/

/-- The slotted resource an opcode uses: 0 the matrix engine, 1 the router port. -/
def slotRes (op : Nat) : Option Nat :=
  if 0x30 ≤ op ∧ op ≤ 0x33 then some 0
  else if 0x61 ≤ op ∧ op ≤ 0x64 ∨ 0x80 ≤ op ∧ op ≤ 0x85 then some 1
  else none

/-- CCLKs of one round of an MMAC, by its operand formats (R109, R141). -/
def roundTime (afmt wfmt : Nat) : Nat :=
  if afmt = 0 then 512 else if afmt = 1 ∨ afmt = 2 then 128 else if afmt = 7 ∧ wfmt = 7 then 16 else 32

/-- Slots that an instruction occupies its resource for. -/
def slotCount (op : Nat) (w : IWord) : Nat :=
  if op = 0x30 then 64 * (classBits w 40 31 + 1)
  else if op = 0x31 then classBits w 29 18 * roundTime (classBits w 40 38) (classBits w 35 33)
  else 1

/-- A scalar register; s0 reads as zero. -/
def Thread.getS (t : Thread) (r : Nat) : Word := if r = 0 then 0 else t.s.get r

/-! ### The thread that issues in a CCLK (R131, R132, R134, R195) -/

/-- A thread may issue: READY, HELD, or WAITING after YIELD. -/
def Thread.mayIssue (t : Thread) : Bool :=
  match t.state with
  | .ready => true
  | .held => true
  | .waiting => decide (t.waits = .yielded)
  | _ => false

/-- The instruction a thread's PC names. -/
def Device.nextWord (d : Device) (b t : Nat) : Nat × IWord := splitWord ((d.block b).istore.get (d.thread b t).pc).toNat

/-- The outbound bell-lane queue of a block's region is full: 256 messages to other regions (R195). -/
def Device.laneFull (d : Device) (b : Nat) : Bool :=
  decide (256 ≤ (d.fabric.arrivals.filter fun a => decide (regionOf a.block = regionOf b ∧ a.hurdle / 16 ≠ regionOf b)).length)

/-- The instruction is a remote access. -/
def isRemoteOp (op : Nat) : Bool := decide (0x80 ≤ op ∧ op ≤ 0x85)

/-- Greatest number of bale transfers a block has outstanding (R146). -/
def maxBales : Nat := 16
/-- Greatest number of remote accesses a block has outstanding (R151). -/
def maxRemote : Nat := 256
/-- Greatest number of atomics a connection has without their answers (R323). -/
def maxAtomics : Nat := 32

/-- One of the limits on what is outstanding holds an instruction (R146, R151, R323). -/
def Device.limitHolds (d : Device) (p b op : Nat) (w : IWord) : Bool :=
  (decide (0x61 ≤ op ∧ op ≤ 0x64) && decide (maxBales ≤ (d.block b).bales.length)) ||
    (isRemoteOp op && (decide (maxRemote ≤ (d.fabric.remote.filter fun a => decide (a.block = b)).length) ||
      (decide (op = 0x83) && (match d.contextOf p (ctxField w) with
        | none => false
        | some c => !c.isLocal &&
            decide (maxAtomics ≤ (d.fabric.remote.filter fun a => decide (a.op = .atomic ∧ a.conn = c.conn % 0x100000)).length)))))

/-- Home die of a context: its own, or its connection's; none while the connection is IDLE. -/
def Device.contextHome (d : Device) (c : Ctx) : Option Nat :=
  if c.isLocal then some c.home else (d.conn (c.conn % 0x100000)).map (·.home)

/-- Edge die that an instruction's own delivery leaves for: a remote access, or a ring of a network bell (R190, R339). -/
def Device.leavesFor (d : Device) (p b t op : Nat) (w : IWord) : Option Nat :=
  if isRemoteOp op then (d.contextOf p (ctxField w)).bind d.contextHome
  else if op = 0x90 then
    let n := ((d.thread b t).getS w.b.toNat).toNat
    if n < 65536 then none else some ((n - 65536) / 1024)
  else none

/-- The queue of the OUT window that an instruction's delivery would join is full (R168). -/
def Device.outFull (d : Device) (p b t op : Nat) (w : IWord) : Bool :=
  match (d.leavesFor p b t op w).bind fun die => d.windowFor p 1 die (bellAddress (64 * b)) 16 with
  | none => false
  | some win => decide (Config.queueDepth (256 * p + win.window) < (d.winQueue p win.window).queue.length)

/-- An instruction of a thread is HELD: for an operand that a hurdle's answer will write, a limit on what is outstanding, or room
in an outbound queue (R131, R134, R168, R195, R200). -/
def Device.awaits (d : Device) (p b t op : Nat) (w : IWord) : Bool :=
  (d.fabric.arrivals.any fun a => decide (a.block = b ∧ a.thread = t ∧ a.dest ≠ 0) && (scalarFields op w).contains a.dest) ||
    (decide (op = 0x90 ∨ op = 0xA0 ∨ op = 0xA2) && d.laneFull b) || d.limitHolds p b op w || d.outFull p b t op w

/-- A thread's next instruction uses no slotted resource and nothing holds it; one that will raise an exception by its form is
such a one. -/
def Device.readyFree (d : Device) (p b t : Nat) : Bool :=
  let x := d.thread b t
  let next := d.nextWord b t
  x.mayIssue && (decide (8192 ≤ x.pc) || !wordLegal next.1 next.2 ||
    (decide (slotRes next.1 = none) && !d.awaits p b t next.1 next.2))

/-- A thread's next instruction uses a slotted resource that a run from CCLK `c` on grants it for as long as it needs it. -/
def Device.readyGranted (d : Device) (runs : List SlotRun) (p b res c t : Nat) : Bool :=
  let x := d.thread b t
  let next := d.nextWord b t
  x.mayIssue && decide (x.pc < 8192) && wordLegal next.1 next.2 && decide (slotRes next.1 = some res) &&
    !d.awaits p b t next.1 next.2 && granted runs res t c (slotCount next.1 next.2)

/-- A thread waits in this CCLK because it issued YIELD in the one before (R136). -/
def Block.yieldedAt (k : Block) (base c t : Nat) : Bool :=
  decide ((k.thread t).waits = .yielded ∧ k.lastThread = t ∧ k.cclkFrame = base ∧ k.cclkNext = c)

/-- First CCLK of a frame at which the matrix engine is free. -/
def Block.engineFree (k : Block) (base : Nat) : Nat := if k.cclkFrame = base then k.matrixNext else 0

/-- Thread `i` in round-robin order after the one that issued last. -/
def Block.inTurn (k : Block) (i : Nat) : Nat := (k.lastThread + 1 + i) % 16

/-- The thread that issues in a CCLK: one granted the matrix engine, else one granted the router port, else the next in turn
with an instruction that needs neither (R132). -/
def Device.chosen (d : Device) (p b c : Nat) : Option Nat :=
  let k := d.block b
  let base := d.frameBase p
  let runs := if d.skipsAt b d.now then [] else d.runsOf p b
  let matrix := if c < k.engineFree base then [] else runs
  let threads := ((List.range 16).map k.inTurn).filter fun t => !k.yieldedAt base c t
  match threads.find? (d.readyGranted matrix p b 0 c) with
  | some t => some t
  | none =>
    match threads.find? (d.readyGranted runs p b 1 c) with
    | some t => some t
    | none => threads.find? (d.readyFree p b)

/-- The CCLK, among `n` from `c` on, at which a thread issues: the first in which any does, where it is this one. -/
def Device.turnFrom (d : Device) (p b t : Nat) : Nat → Nat → Option Nat
  | 0, _ => none
  | n + 1, c =>
    match d.chosen p b c with
    | some u => if u = t then some c else none
    | none => d.turnFrom p b t n (c + 1)

/-- First CCLK of the present frame, from the present tick on, in which nothing of a block has issued. -/
def Device.nextCclk (d : Device) (p b : Nat) : Nat :=
  let k := d.block b
  let base := d.frameBase p
  max (cclksIn (d.runningMhz (regionOf b)) (d.now - base)) (if k.cclkFrame = base then k.cclkNext else 0)

/-- The CCLK of the present tick in which a thread issues its next instruction, if its turn comes in it. -/
def Device.turn (d : Device) (p b t : Nat) : Option Nat :=
  let c := d.nextCclk p b
  d.turnFrom p b t (cclksIn (d.runningMhz (regionOf b)) (d.now + 1 - d.frameBase p) - c) c

/-- A thread has issued in a CCLK: nothing else does in it, and a matrix instruction keeps the engine for its slots. -/
def Device.takeTurn (d : Device) (p b t c op : Nat) (w : IWord) : Device :=
  let base := d.frameBase p
  d.updBlock b fun k =>
    { k with cclkFrame := base, cclkNext := c + 1, lastThread := t, busyAt := d.now,
             matrixNext := if slotRes op = some 0 then c + slotCount op w else k.engineFree base,
             mmac := k.mmac.map fun r => if r.thread = t then { r with later := true } else r }

/-- A HELD thread whose cause has cleared is READY; one that waits for its grant is HELD until a run of it begins (R131,
R133). -/
def Device.unhold (d : Device) (b : Nat) : Device :=
  match d.occupant b with
  | none => d
  | some (p, _) =>
    (List.range 16).foldl (fun d t =>
      if (d.thread b t).state = .held && d.readyFree p b t then d.updThread b t fun x => { x with state := .ready } else d) d

end Sys2Proof.Machine
end

