-- ==== Sys2Proof/Machine/Hash.lean ====
section
/-! DEFINITION. The two digests the device computes: SHAKE256 with 512-bit output (FIPS 202, chapter "Security,
identity and firmware trust") and CRC-32C (R242). -/

namespace Sys2Proof.Machine

/-- Round constants of Keccak-f[1600] (FIPS 202). -/
def keccakConstants : List Word :=
  [0x0000000000000001, 0x0000000000008082, 0x800000000000808A, 0x8000000080008000,
   0x000000000000808B, 0x0000000080000001, 0x8000000080008081, 0x8000000000008009] ++
  [0x000000000000008A, 0x0000000000000088, 0x0000000080008009, 0x000000008000000A,
   0x000000008000808B, 0x800000000000008B, 0x8000000000008089, 0x8000000000008003] ++
  [0x8000000000008002, 0x8000000000000080, 0x000000000000800A, 0x800000008000000A,
   0x8000000080008081, 0x8000000000008080, 0x0000000080000001, 0x8000000080008008]

/-- Rotation of lane x + 5y (FIPS 202, rho). -/
def keccakRotations : List Nat :=
  [0, 1, 62, 28, 27, 36, 44, 6, 55, 20, 3, 10, 43, 25, 39, 41, 45, 15, 21, 8, 18, 2, 61, 56, 14]

/-- Lane `i` of a Keccak state. -/
def keccakLane (s : List Word) (i : Nat) : Word := s.getD i 0

/-- One round of Keccak-f[1600]: theta, rho, pi, chi and iota. -/
def keccakRound (s : List Word) (rc : Word) : List Word :=
  let c := (List.range 5).map fun x =>
    keccakLane s x ^^^ keccakLane s (x + 5) ^^^ keccakLane s (x + 10) ^^^ keccakLane s (x + 15) ^^^ keccakLane s (x + 20)
  let d := (List.range 5).map fun x => c.getD ((x + 4) % 5) 0 ^^^ (c.getD ((x + 1) % 5) 0).rotateLeft 1
  let t := (List.range 25).map fun i => (keccakLane s i ^^^ d.getD (i % 5) 0).rotateLeft (keccakRotations.getD i 0)
  -- pi: lane (x, y) comes from lane (x + 3y, x)
  let b := (List.range 25).map fun i =>
    let x := i % 5
    let y := i / 5
    t.getD ((x + 3 * y) % 5 + 5 * x) 0
  let e := (List.range 25).map fun i =>
    let x := i % 5
    let y := i / 5
    b.getD i 0 ^^^ (~~~(b.getD ((x + 1) % 5 + 5 * y) 0) &&& b.getD ((x + 2) % 5 + 5 * y) 0)
  match e with
  | [] => []
  | l :: ls => (l ^^^ rc) :: ls

/-- Keccak-f[1600]. -/
def keccakF (s : List Word) : List Word := keccakConstants.foldl keccakRound s

/-- One 136-byte block absorbed. -/
def keccakAbsorb (s : List Word) (block : List Byte) : List Word :=
  keccakF ((List.range 25).map fun i => keccakLane s i ^^^ BitVec.ofNat 64 (fieldU64 block (8 * i)))

/-- The blocks of a padded message absorbed, `n` of them. -/
def keccakBlocks : Nat → List Word → List Byte → List Word
  | 0, s, _ => s
  | n + 1, s, m => keccakBlocks n (keccakAbsorb s (m.take 136)) (m.drop 136)

/-- SHAKE256 of a message, the first `n` output bytes, `n` at most 136 (FIPS 202). -/
def shake256 (message : List Byte) (n : Nat) : List Byte :=
  let blocks := message.length / 136 + 1
  let padded := padTo (136 * blocks) (message ++ [0x1F])
  let last := padded.getD (136 * blocks - 1) 0
  let full := padded.take (136 * blocks - 1) ++ [last ||| 0x80]
  ((keccakBlocks blocks (List.replicate 25 0) full).flatMap fun w => leBytes 8 w.toNat).take n

/-- The device's digest: SHAKE256 with 512-bit output. -/
def digest (message : List Byte) : List Byte := shake256 message 64

/-- One bit step of the reflected Castagnoli polynomial (R242). -/
def crcBit (c : Word32) : Word32 := if c.getLsbD 0 then (c >>> 1) ^^^ 0x82F63B78 else c >>> 1

/-- One byte of CRC-32C. -/
def crcByte (c : Word32) (b : Byte) : Word32 :=
  crcBit (crcBit (crcBit (crcBit (crcBit (crcBit (crcBit (crcBit (c ^^^ b.setWidth 32))))))))

/-- CRC-32C of bytes (R242). -/
def crc32c (bs : List Byte) : Nat := ((bs.foldl crcByte 0xFFFFFFFF) ^^^ 0xFFFFFFFF).toNat

end Sys2Proof.Machine
end

