-- ==== Sys2Proof/Machine/Links.lean ====
section
/-! DEFINITION. What leaves a port: frames, the class queues of a link, the shapers, time gates and the selection of the
next frame (chapters "Fabric transport" and "Traffic scheduling"). -/

namespace Sys2Proof.Machine

/-! ### Frames -/

/-- Bytes of the extension header of an opcode; none for an opcode absent from R312. -/
def extensionSize : Nat → Option Nat
  | 0x01 => some 32
  | 0x02 => some 32
  | 0x03 => some 32
  | 0x04 => some 16
  | 0x05 => some 32
  | 0x06 => some 16
  | 0x07 => some 0
  | 0x10 => some 48
  | 0x11 => some 16
  | 0x20 => some 0
  | 0x21 => some 0
  | 0x22 => some 16
  | 0x23 => some 0
  | 0x24 => some 0
  | _ => none

/-- Length L of a frame on a port, for scheduling (R352): encapsulation, header, extension, payload, FCS and overhead,
never below 0. -/
def Port.frameLength (p : Port) (f : Frame) : Nat :=
  let encap := 14 + (if p.vlanTag then 4 else 0) + (if p.encap = 1 then 48 else 0)
  ((encap + 48 + f.ext.length + f.payload.length + 4 : Nat) + p.overhead).toNat

/-- Rate of a link of the port in Mb/s (R352). -/
def Port.rate (p : Port) : Nat := if p.mode = 1 then 800000 else 1600000

/-- Ticks a frame of length L occupies a link, rounded up (R352, R358). -/
def Port.occupies (p : Port) (len : Nat) : Nat := ceilDiv (6400 * len) p.rate

/-- Bytes waiting in a class queue of a link. -/
def Link.queuedBytes (l : Link) (k : Nat) : Nat := (((l.queues[k]?).getD []).map (·.len)).sum

/-! ### Time gates (R358) -/

/-- Entry in force at a tick and the ticks it has left. -/
def gateAt : List (BitVec 16 × Nat) → Nat → List (BitVec 16 × Nat)
  | [], _ => []
  | (g, n) :: rest, pos => if pos < n then (g, n - pos) :: rest else gateAt rest (pos - n)

/-- Position in the cycle at a tick. -/
def GateList.position (g : GateList) (t : Nat) : Nat := (t + g.cycle - g.phase % max g.cycle 1) % max g.cycle 1

/-- The entries from a tick on, through the end of this cycle and two more. -/
def GateList.ahead (g : GateList) (t : Nat) : List (BitVec 16 × Nat) :=
  gateAt g.entries (g.position t) ++ g.entries ++ g.entries

/-- Ticks for which a class stays open from the head of a list of entries. -/
def openFor (k : Nat) : List (BitVec 16 × Nat) → Nat
  | [] => 0
  | (g, n) :: rest => if g.getLsbD k then n + openFor k rest else 0

/-- Gates in force on a port at a tick: all open while no list is in force; S0 always open. -/
def Port.gatesAt (p : Port) (t : Nat) : BitVec 16 :=
  match p.gates with
  | none => 0xFFFF
  | some g =>
    match g.ahead t with
    | [] => 0xFFFF
    | e :: _ => e.1 ||| 1

/-- A frame of class k and length L may start at a tick (R358). -/
def Port.mayStart (p : Port) (k len t : Nat) : Bool :=
  match p.gates with
  | none => true
  | some g => if k = 0 then true else decide (p.occupies len ≤ openFor k (g.ahead t))

/-! ### Shapers (R356) -/

/-- Credit clamped to the shaper's bounds, in 1/6,400 byte. -/
def Shaper.clamp (s : Shaper) (c : Int) : Int := max (s.lo * 6400) (min (s.hi * 6400) c)

/-- Credit after `n` ticks in which the class was being sent. -/
def Shaper.sending (s : Shaper) (rate n : Nat) (c : Int) : Int :=
  if n = 0 then c else s.clamp (c - (n : Int) * ((rate : Int) - s.slope))

/-- Credit after `n` ticks in which the class was not being sent. -/
def Shaper.waiting (s : Shaper) (isOpen queued : Bool) (n : Nat) (c : Int) : Int :=
  if n = 0 then c
  else if !isOpen then s.clamp c
  else if queued then s.clamp (c + (n : Int) * s.slope)
  else if c < 0 then s.clamp (min 0 (c + (n : Int) * s.slope))
  else s.clamp 0

/-- The first `n` ticks of a list of gate entries. -/
def cutSpans : Nat → List (BitVec 16 × Nat) → List (BitVec 16 × Nat)
  | _, [] => []
  | n, (g, k) :: rest => if n ≤ k then [(g, n)] else (g, k) :: cutSpans (n - k) rest

/-- The gates in force on a port in the `n` ticks from a tick on. -/
def Port.gateSpans (p : Port) (t n : Nat) : List (BitVec 16 × Nat) :=
  match p.gates with
  | none => [(0xFFFF, n)]
  | some g => cutSpans n (g.ahead t ++ (List.replicate (n / max g.cycle 1) g.entries).flatten)

/-- Credit and tick of a class after a span of ticks under one setting of the gates; the class is being sent until a tick. -/
def Shaper.span (s : Shaper) (rate k busyUntil : Nat) (queued : Bool) (x : Int × Nat) (e : BitVec 16 × Nat) : Int × Nat :=
  let busy := Nat.min e.2 (busyUntil - x.2)
  (s.waiting (e.1.getLsbD k) queued (e.2 - busy) (s.sending rate busy x.1), x.2 + e.2)

/-- The credits of a link run up to a tick, under the gates of each tick and the queues as they have stood since. -/
def Link.runCredits (l : Link) (p : Port) (t : Nat) : Link :=
  let upTo := fun k (c : Int) =>
    match Table.find p.shapers k with
    | none => c
    | some s =>
      let busyUntil := match l.sending with
        | some (j, e) => if j = k then e else 0
        | none => 0
      ((p.gateSpans l.creditAt (t - l.creditAt)).foldl (s.span p.rate k busyUntil !((l.queues[k]?).getD []).isEmpty)
        (c, l.creditAt)).1
  { l with credit := Vector.ofFn fun k => upTo k.val l.credit[k], creditAt := max t l.creditAt }

/-- The credits of a port link run up to now. -/
def Device.runCredits (d : Device) (l : Nat) : Device := d.updLink l fun x => x.runCredits (d.port (l / 2)) d.now

/-! ### Class queues -/

/-- A frame joins the class queue of a link (stage 4 of R350). -/
def Device.enqueue (d : Device) (l : Nat) (out : OutFrame) (conn : Option Nat) (seqOf : Option (Nat × Nat))
    (dei : Bool := false) : Device :=
  let k := out.frame.cls.toNat % 16
  let q : QueuedFrame := { out := out, len := (d.port (l / 2)).frameLength out.frame, conn := conn, seqOf := seqOf, dei := dei }
  (d.runCredits l).updLink l fun x => { x with queues := x.queues.setIfInBounds k (((x.queues[k]?).getD []) ++ [q]) }

/-- Links of a home die that a connection may use and that are UP, ascending (R313). -/
def Device.upLinks (d : Device) (home : Nat) (mask : BitVec 16) : List Nat :=
  ((List.range 16).filter fun i => mask.getLsbD i && decide ((d.link (16 * home + i)).state = .up)).map (16 * home + ·)

/-- The spray rule: the link with the fewest bytes queued in the class, the lower one at equal counts. -/
def Device.sprayLink (d : Device) (links : List Nat) (k : Nat) : Option Nat :=
  leastBy (fun l => (d.link l).queuedBytes k) links

/-- The PSN below which every response of a connection has arrived (R322), and `resp_psn` made of it. -/
def Conn.respPoint (c : Conn) : Nat :=
  match c.tx.find? (·.wantsAnswer) with
  | none => c.nextPsn
  | some t => t.psn + 0xFFFFFFFF

/-- The header fields every frame of a connection carries (R311). -/
def Device.connFrame (d : Device) (c : Conn) : Frame :=
  { dst := BitVec.ofNat 32 c.peer, src := BitVec.ofNat 32 (d.deviceId.getD 0), conn := BitVec.ofNat 32 c.peerConn,
    gen := BitVec.ofNat 16 c.gen, ackPsn := BitVec.ofNat 32 (c.rxNext + 0xFFFFFFFF), fold := BitVec.ofNat 16 c.fold,
    respPsn := BitVec.ofNat 32 c.respPoint }

/-- An unsequenced frame of a connection is queued on the link the spray rule chooses; with no link up it waits at its
connection (R350, R363). -/
def Device.sendOn (d : Device) (id : Nat) (opcode cls psn : Nat) (ext payload : List Byte)
    (flags : BitVec 16 := 0) : Device :=
  match d.conn id with
  | none => d
  | some c =>
    let f : Frame := { d.connFrame c with
      flags := flags, psn := BitVec.ofNat 32 psn, cls := BitVec.ofNat 8 cls, ext := ext, payload := payload,
      payloadLength := BitVec.ofNat 16 payload.length }
    match d.sprayLink (d.upLinks c.home c.links) cls with
    | some l => d.enqueue l { opcode := opcode, frame := f } (some id) none
    | none => d.mapNet fun n => { n with stranded := n.stranded ++
        [(id, { out := { opcode := opcode, frame := f }, len := 0, conn := some id })] }

/-- A connectionless frame to a device, on an up link of a die (R51, R435). -/
def Device.sendLoose (d : Device) (links : List Nat) (opcode cls dst : Nat) (payload : List Byte) : Device :=
  let f : Frame :=
    { dst := BitVec.ofNat 32 dst, src := BitVec.ofNat 32 (d.deviceId.getD 0), conn := 0xFFFFFFFF,
      cls := BitVec.ofNat 8 cls, payload := payload, payloadLength := BitVec.ofNat 16 payload.length }
  match d.sprayLink links cls with
  | some l => d.enqueue l { opcode := opcode, frame := f } none none
  | none => d

/-! ### Selection (R360) -/

/-- Class k of a link is eligible at a tick. -/
def Link.eligible (l : Link) (p : Port) (t k : Nat) : Bool :=
  match (l.queues[k]?).getD [] with
  | [] => false
  | q :: _ => p.mayStart k q.len t &&
      (match Table.find p.shapers k with
       | none => true
       | some _ => decide (0 ≤ (l.credit[k]?).getD 0))

/-- Deficit round robin over thirteen queues given as their eligibility, emptiness and head length: the class chosen,
and the scheduler's state. The fuel bounds the visits: every queue that is eligible gains at least 1,024 each round. -/
def drr (eligible empty : Nat → Bool) (headLen queueLen : Nat → Nat) (weight : Nat → Nat) :
    Nat → Vector Nat 13 → Nat → Bool → Option Nat × Vector Nat 13 × Nat × Bool
  | 0, deficit, cur, fresh => (none, deficit, cur, fresh)
  | fuel + 1, deficit, cur, fresh =>
    let w := cur
    let next := (w + 1) % 13
    if eligible w then
      let have' := ((deficit[w]?).getD 0) + (if fresh then weight w * 1024 else 0)
      if headLen w ≤ have' then
        if queueLen w = 1 then (some w, deficit.setIfInBounds w 0, next, true)
        else (some w, deficit.setIfInBounds w (have' - headLen w), w, false)
      else drr eligible empty headLen queueLen weight fuel (deficit.setIfInBounds w have') next true
    else if empty w then drr eligible empty headLen queueLen weight fuel (deficit.setIfInBounds w 0) next true
    else drr eligible empty headLen queueLen weight fuel deficit next true

/-- The class a link sends next, and the link with its scheduler's state moved on. -/
def Link.choose (l : Link) (p : Port) (t : Nat) : Option Nat × Link :=
  match [0, 1, 2].find? (l.eligible p t) with
  | some k => (some k, l)
  | none =>
    if (List.range 13).any fun w => l.eligible p t (3 + w) then
      let queue := fun w => (l.queues[3 + w]?).getD []
      let r := drr (fun w => l.eligible p t (3 + w)) (fun w => (queue w).isEmpty)
        (fun w => ((queue w).head?.map (·.len)).getD 0) (fun w => (queue w).length)
        (fun w => (p.weights[w]?).getD 1) 200 l.deficit l.cur l.fresh
      (r.1.map (3 + ·), { l with deficit := r.2.1, cur := r.2.2.1, fresh := r.2.2.2 })
    else (none, l)

/-! ### Encapsulation (R309, R310) -/

/-- The 48 bytes of the transport header (R311). -/
def OutFrame.header (out : OutFrame) : List Byte :=
  let f := out.frame
  f.version :: BitVec.ofNat 8 out.opcode :: (beBytes 2 f.flags.toNat ++ beBytes 4 f.dst.toNat ++ beBytes 4 f.src.toNat ++
    beBytes 4 f.conn.toNat ++ beBytes 2 f.gen.toNat ++ beBytes 2 f.payloadLength.toNat ++ beBytes 4 f.psn.toNat ++
    beBytes 4 f.ackPsn.toNat ++ beBytes 4 f.mapVersion.toNat ++ beBytes 8 f.sendStamp.toNat ++ beBytes 2 f.fold.toNat ++
    [f.cls, f.reserved] ++ beBytes 4 f.respPsn.toNat)

/-- The 16-bit one's complement sum of bytes taken in pairs, the last one padded with zero. -/
def onesSum : Nat → List Byte → Nat
  | acc, [] => acc
  | acc, [a] => (acc + 256 * a.toNat - 1) % 65535 + 1
  | acc, a :: b :: rest => onesSum ((acc + 256 * a.toNat + b.toNat - 1) % 65535 + 1) rest

/-- The IPv6 address of a device: the port's prefix, then the id in 64 bits. -/
def Port.address (p : Port) (id : Nat) : List Byte := beBytes 8 p.ipPrefix ++ beBytes 8 (id % 2 ^ 18)

/-- The IPv6 and UDP headers of a frame of a port link; the flow label is 0 (log entry 93). `conn` is the frame's own field and
the link index the link's place on its die (DEDUCED, log entry 93). -/
def Port.ipHeaders (p : Port) (l : Nat) (out : OutFrame) : List Byte :=
  let f := out.frame
  let body := out.header ++ f.ext ++ f.payload
  let n := 8 + body.length
  let traffic := fieldU8 p.dscpMap (f.cls.toNat % 16) % 64 * 4 + (if p.ecn then 2 else 0)
  let source := p.address f.src.toNat
  let target := p.address f.dst.toNat
  let ports := beBytes 2 (0xC000 + (16 * f.conn.toNat + l % 16) % 16384) ++ beBytes 2 p.udpPort
  let sum := onesSum 0 (source ++ target ++ beBytes 4 n ++ beBytes 4 17 ++ ports ++ beBytes 2 n ++ zeros 2 ++ body)
  let check := if sum = 0xFFFF then 0xFFFF else 0xFFFF - sum
  beBytes 4 (6 * 2 ^ 28 + traffic * 2 ^ 20) ++ beBytes 2 n ++ beBytes 1 17 ++ beBytes 1 p.hopLimit ++ source ++ target ++
    ports ++ beBytes 2 n ++ beBytes 2 check

/-- The bytes before the transport header of a frame that leaves a port link (R309, R310). -/
def Port.encapsulation (p : Port) (l : Nat) (out : OutFrame) (dei : Bool) : List Byte :=
  let f := out.frame
  let k := f.cls.toNat % 16
  let pcp := p.pcpMap / 2 ^ (4 * k) % 8
  beBytes 6 (0x060000000000 + f.dst.toNat) ++ beBytes 6 (0x060000000000 + l * 2 ^ 24 + f.src.toNat) ++
    (if p.vlanTag then beBytes 2 0x8100 ++ beBytes 2 (pcp * 2 ^ 13 + b2n dei * 2 ^ 12 + p.vlan % 4096) else []) ++
    (if p.encap = 1 then beBytes 2 0x86DD ++ p.ipHeaders l out else beBytes 2 0x8A5E)

/-- What the transmitter inserts as a frame leaves: the device's id as it now is (R95), the send stamp (R311), and t1 or t3 of
a sync frame (R48). -/
def Device.stampFrame (d : Device) (out : OutFrame) : OutFrame :=
  let f := { out.frame with sendStamp := BitVec.ofNat 64 d.now, src := BitVec.ofNat 32 (d.deviceId.getD 0) }
  if out.opcode = 0x20 then
    let place := if fieldU8 f.payload 0 = 1 then 8 else 24
    let fr := if fieldU8 f.payload 0 = 1 then 32 else 36
    { out with frame := { f with
        payload := overwrite (overwrite f.payload place (leBytes 8 d.now)) fr (leBytes 2 d.tally.frac.toNat) } }
  else { out with frame := f }

/-- A sync request's t1 is kept with its sequence (R48). -/
def Device.noteSyncSent (d : Device) (out : OutFrame) : Device :=
  if out.opcode = 0x20 ∧ fieldU8 out.frame.payload 0 = 1 then
    let stamp := 65536 * d.now + d.tally.frac.toNat
    let sequence := fieldU32 out.frame.payload 4
    d.mapTally fun t =>
      { t with burstSent := t.burstSent.map fun e => if e.1 = sequence then (e.1, stamp) else e }
  else d

/-- A sequenced packet of a connection leaves a lane: its send stamp is kept (R321). -/
def Conn.packetLeft (c : Conn) (psn t : Nat) : Conn :=
  { c with counters := bump c.counters 0 1,
           tx := c.tx.map fun x => if x.psn = psn then { x with sentAt := some t, again := true } else x }

/-- The head of a class queue of a link leaves: counters, stamps, trace and the link busy until its last bit (R360). -/
def Device.transmit (d : Device) (l k : Nat) : Device :=
  match ((d.link l).queues[k]?).getD [] with
  | [] => d
  | q :: rest =>
    let stamped := d.stampFrame q.out
    let out := { stamped with encap := (d.port (l / 2)).encapsulation l stamped q.dei }
    let d1 := (d.updLink l fun x => { x with
        queues := x.queues.setIfInBounds k rest, frames := bump x.frames k 1, bytes := bump x.bytes k q.len,
        counters := bump x.counters 2 1, sending := some (k, d.now + (d.port (l / 2)).occupies q.len) }).noteSyncSent out
    let d2 := match q.seqOf with
      | some (c, psn) => d1.updConn c (·.packetLeft psn d.now)
      | none => d1
    let d3 := d2.traced 7 l out.frame.psn.toNat (out.frame.conn.toNat % 0x100000 + 0x1000000 * out.opcode) 0xFF
      (d.src (srcLink l))
    d3.emit (.frame l out)

/-- A link that is UP and idle selects a frame and sends it (R360). -/
def Device.selectLink (d : Device) (l : Nat) : Device :=
  let d1 := d.runCredits l
  let x := d1.link l
  let busy := match x.sending with
    | some (_, e) => decide (d.now < e)
    | none => false
  if x.state = .up ∧ busy = false then
    let d2 := d1.updLink l fun x => { x with sending := none }
    let r := (d2.link l).choose (d2.port (l / 2)) d.now
    let d3 := d2.updLink l fun _ => r.2
    match r.1 with
    | some k => d3.transmit l k
    | none => d3
  else d1

end Sys2Proof.Machine
end

