-- ==== Sys2Proof/Machine/Respond.lean ====
section
/-! DEFINITION. The mailboxes of the three paths and the response the device gives (R72 to R81). -/

namespace Sys2Proof.Machine

/-! ### Result codes (R105) -/

/-- OK. -/
def resOk : Nat := 0x0000
/-- ACCEPTED. -/
def resAccepted : Nat := 0x0001
/-- NOT_OWNER. -/
def resNotOwner : Nat := 0x0101
/-- UNKNOWN_COMMAND. -/
def resUnknown : Nat := 0x0201
/-- BAD_LENGTH. -/
def resBadLength : Nat := 0x0202
/-- BAD_ARGUMENT. -/
def resBadArgument : Nat := 0x0203
/-- BAD_STATE. -/
def resBadState : Nat := 0x0204
/-- NO_RESOURCE. -/
def resNoResource : Nat := 0x0301
/-- BUSY. -/
def resBusy : Nat := 0x0302
/-- CONFLICT. -/
def resConflict : Nat := 0x0401
/-- LATE. -/
def resLate : Nat := 0x0402
/-- WORLD_DENIED. -/
def resWorldDenied : Nat := 0x0501
/-- AUTH_FAILED. -/
def resAuthFailed : Nat := 0x0502
/-- FAULTED. -/
def resFaulted : Nat := 0x0601
/-- TIMED_OUT. -/
def resTimedOut : Nat := 0x0602
/-- VERSION_MISMATCH. -/
def resVersion : Nat := 0x0701

/-- What a command ends with: result, `detail`, and response payload. -/
structure Reply where
  /-- Result code (R105). -/
  result : Nat := 0
  /-- `detail` (R81); with OK the device gives the bytes still to fetch. -/
  detail : Nat := 0
  /-- Response payload. -/
  payload : List Byte := []
  deriving DecidableEq, Repr

/-! ### Paths and mailboxes -/

/-- The master of a path (R72). -/
def pathMaster : Path → Master
  | .host _ => .host
  | .fabric _ => .fabric
  | .board => .board

/-- Number of the mailbox on its path. -/
def pathBox : Path → Nat
  | .host p => p.val
  | .fabric e => e.val
  | .board => 0

/-- The path of a master's mailbox by its number. -/
def pathOf : Master → Nat → Path
  | .host, n => .host (Fin.ofNat 8 n)
  | .fabric, n => .fabric (Fin.ofNat 16 n)
  | .board, _ => .board

/-- Largest inline payload of a path (R72). -/
def inlineLimit : Path → Nat
  | .host _ => 2016
  | .fabric _ => 8160
  | .board => 224

/-- World of a path (R96, R443). -/
def Device.pathWorld (d : Device) : Path → World
  | .host p => if d.security.pairs.getLsbD p.val then .secure else .nonsecure
  | .fabric _ => if d.security.fabric then .secure else .nonsecure
  | .board => .nonsecure

/-- The mailbox of a path. -/
def ControlPaths.box (c : ControlPaths) : Path → Mailbox
  | .host p => c.hostPairs.get p
  | .fabric e => c.fabricQueue.get e
  | .board => c.boardWindow

/-- The mailbox of a path replaced. -/
def ControlPaths.setBox (c : ControlPaths) (p : Path) (m : Mailbox) : ControlPaths :=
  match p with
  | .host i => { c with hostPairs := c.hostPairs.set i m }
  | .fabric e => { c with fabricQueue := c.fabricQueue.set e m }
  | .board => { c with boardWindow := m }

/-- The mailbox of a path changed. -/
def Device.updBox (d : Device) (p : Path) (f : Mailbox → Mailbox) : Device :=
  d.mapPaths fun c => c.setBox p (f (c.box p))

/-- The kept headers and responses of a master's path (R77). -/
def ControlPaths.kept (c : ControlPaths) : Master → List KeptCommand
  | .host => c.keptHost
  | .fabric => c.keptFabric
  | .board => c.keptBoard

/-- The kept list of a master's path replaced. -/
def ControlPaths.setKept (c : ControlPaths) (m : Master) (l : List KeptCommand) : ControlPaths :=
  match m with
  | .host => { c with keptHost := l }
  | .fabric => { c with keptFabric := l }
  | .board => { c with keptBoard := l }

/-- The control page of a master. -/
def ControlPaths.page (c : ControlPaths) : Master → ControlPage
  | .host => c.hostPage
  | .fabric => c.fabricPage
  | .board => c.boardPage

/-- The control page of a master changed. -/
def Device.updPage (d : Device) (m : Master) (f : ControlPage → ControlPage) : Device :=
  d.mapPaths fun c =>
    match m with
    | .host => { c with hostPage := f c.hostPage }
    | .fabric => { c with fabricPage := f c.fabricPage }
    | .board => { c with boardPage := f c.boardPage }

/-! ### The response -/

/-- The response header and its first part (R81). -/
def responseBytes (command : List Byte) (r : Reply) (part : List Byte) (left now : Nat) : List Byte :=
  bytesAt (padTo 32 command) 0 2 ++ leBytes 2 r.result ++ bytesAt (padTo 32 command) 4 4 ++ leBytes 4 part.length ++
    zeros 4 ++ leBytes 8 now ++ leBytes 8 (if r.result = resOk ∧ left ≠ 0 then left else r.detail) ++ part

/-- The completion signal of a path: an MSI or an in-band interrupt where it is enabled (R72, R75). -/
def Device.signalDone (d : Device) (m : Master) : Device :=
  let pg := d.paths.page m
  if pg.irqEnable then
    match m with
    | .host => d.emit (.msi pg.irqHart.toNat pg.irqId.toNat)
    | .board => d.emit .inBand
    | .fabric => d
  else d

/-- The command half of a mailbox after a response: the response overwrites the command in the BOARD window (R78). -/
def answeredHalf (p : Path) (cmd resp : List Byte) : List Byte :=
  match p with
  | .board => overwrite (padTo 256 cmd) 0 resp
  | _ => cmd

/-- A response answers an MBX_NEXT that was refused: the rest of the mailbox's long response stays to be fetched, since a
refused command has no effect (R79, R83, R105). -/
def refusedNext (resp : List Byte) : Bool := decide (fieldU16 resp 0 = 0x0001 ∧ fieldU16 resp 2 ≠ resOk)

/-- A response is delivered on its path: HOST and BOARD mailboxes become DONE, a FABRIC command is answered by a
MGMT_RESP frame and its queue entry is free again (R75, R76, R78). -/
def Device.deliver (d : Device) (p : Path) (resp rest : List Byte) : Device :=
  let keeps := refusedNext resp
  let d1 := d.updBox p fun b =>
    { b with status := .done, begun := false, fetch := none, cmd := answeredHalf p b.cmd resp, resp := resp,
             rest := if keeps then b.rest else rest, restOf := if keeps then b.restOf else fieldU16 resp 0 }
  match p with
  | .fabric _ =>
    let psn := (d1.paths.box p).psn
    let d2 := d1.updBox p fun b => { b with status := .idle }
    match d.security.bound with
    | none => d2
    | some m => d2.sendOn m.2.1 0x22 1 psn (beBytes 4 psn ++ zeros 12) resp
  | _ => d1.signalDone (pathMaster p)

/-- A command is answered: the first part of a long response is returned and the rest kept for MBX_NEXT (R79), and the
header and response join the last sixteen of the path (R77). -/
def Device.respond (d : Device) (p : Path) (r : Reply) : Device :=
  let command := (d.paths.box p).cmd
  let part := r.payload.take (inlineLimit p)
  let rest := r.payload.drop (inlineLimit p)
  let resp := responseBytes command r part rest.length d.now
  let m := pathMaster p
  (d.mapPaths fun c =>
    c.setKept m (({ header := padTo 32 (command.take 32), response := resp, rest := rest } :: c.kept m).take 16)).deliver
    p resp rest

end Sys2Proof.Machine
end

