-- ==== Sys2Proof/Machine/Sched.lean ====
section
/-! DEFINITION. How paddocks share blocks in time: work, ranking, taking blocks, the choice and start of a preemption,
and the clearing of blocks (R375 to R385, R393). -/

namespace Sys2Proof.Machine

/-! ### Work and boundaries (R376) -/

/-- The descriptor at the head of a ring: its 64 bytes in memory, none when everything posted has been taken. -/
def Device.headOf (d : Device) (r : Ring) : Option (List Byte) :=
  if r.produced = r.taken then none else some (d.load (r.base + 64 * (r.taken % max r.entries 1)) 64)

/-- A descriptor type that runs the paddock's blocks: IMAGE_LOAD or STEP. -/
def blockWork (type : Nat) : Bool := decide (type = 0x10 ∨ type = 0x40)

/-- A STEP or IMAGE_LOAD of the ring is in flight. -/
def Ring.blockWorkInFlight (r : Ring) : Bool := r.inFlight.any fun i => blockWork (fieldU8 i.bytes 0)

/-- The rings of a paddock, in ascending number. -/
def Device.ringsOf (d : Device) (p : Nat) : List (Nat × Ring) := d.net.rings.filter fun e => decide (e.2.paddock = p)

/-- A paddock is at a boundary when none of its STEP or IMAGE_LOAD descriptors is in flight. -/
def Device.atBoundary (d : Device) (p : Nat) : Bool := (d.ringsOf p).all fun e => !e.2.blockWorkInFlight

/-- A STEP or IMAGE_LOAD stands at the head of one of the paddock's rings. -/
def Device.workAtHead (d : Device) (p : Nat) : Bool :=
  (d.ringsOf p).any fun e =>
    match d.headOf e.2 with
    | some bs => blockWork (fieldU8 bs 0)
    | none => false

/-- A paddock has work. -/
def Device.hasWork (d : Device) (p : Nat) : Bool :=
  d.workAtHead p || !d.atBoundary p ||
    (match d.paddock p with
     | some x => decide (x.state = .saved)
     | none => false)

/-! ### Ranking (R377) -/

/-- The first paddock ranks before the second: higher priority, then earlier demand stamp, then lower number. -/
def ranksBefore (x y : Nat × Paddock) : Bool :=
  if x.2.priority ≠ y.2.priority then decide (y.2.priority < x.2.priority)
  else if x.2.demand ≠ y.2.demand then decide (x.2.demand < y.2.demand)
  else decide (x.1 < y.1)

/-- An element put in its place in a ranked list. -/
def rankInsert (x : Nat × Paddock) : List (Nat × Paddock) → List (Nat × Paddock)
  | [] => [x]
  | y :: ys => if ranksBefore x y then x :: y :: ys else y :: rankInsert x ys

/-- Paddocks that have work and hold no blocks, in the order of R377; a HELD one is not ranked. -/
def Device.ranking (d : Device) : List (Nat × Paddock) :=
  (d.paddocks.filter fun e => !e.2.holds && decide (e.2.state = .waiting ∨ e.2.state = .saved)).foldr rankInsert []

/-- Blocks held by some paddock. -/
def Device.heldBlocks (d : Device) : BitVec 1024 :=
  d.paddocks.foldl (fun acc e => if e.2.holds then acc ||| e.2.blocks else acc) 0

/-! ### Clearing (R385) -/

/-- A block is cleared: cells, accumulators, buffer, instruction store and threads zero, generators l + 1. -/
def Device.clearBlock (d : Device) (b : Nat) : Device :=
  let old := d.block b
  let fresh : Block :=
    { frameStart := old.frameStart, cclkFrame := old.cclkFrame, cclkNext := old.cclkNext, lastThread := old.lastThread,
      busyAt := d.now }
  { d with fabric := { d.fabric with
             blocks := Table.put d.fabric.blocks b fresh,
             acc := Sparse.replace d.fabric.acc (32768 * b) 32768 [],
             scratch := Sparse.replace d.fabric.scratch (4194304 * b) 4194304 [] },
           mem := Sparse.replace d.mem (bufferAddr b 0) 0x100000 [] }

/-- Every block of a paddock is cleared. -/
def Device.clearBlocksOf (d : Device) (p : Nat) : Device :=
  match d.paddock p with
  | none => d
  | some x => x.blockList.foldl (fun d b => (d.clearBlock b).rouse b) d

/-! ### Threads (R157, R432) -/

/-- The waits of a paddock's threads are taken out of its bells; waits of queue rings stay. -/
def Paddock.dropThreadWaits (p : Paddock) : Paddock :=
  { p with bells := Table.mapAll p.bells fun _ b => { b with waiters := b.waiters.filter fun w => decide (2 ^ 20 ≤ w.1) } }

/-- Every thread of a paddock's blocks changed. -/
def Device.mapThreadsOf (d : Device) (p : Nat) (f : Thread → Thread) : Device :=
  match d.paddock p with
  | none => d
  | some x => x.blockList.foldl (fun d b => d.updBlock b fun k => { k with threads := k.threads.map f }) d

/-- The round an HPASS waits for while the hurdle's answer is still on its way (R200). -/
def answerOut : Nat := 2 ^ 64

/-- A thread stops at its instruction boundary: a wait on a bell, hurdle, window or slot is abandoned and issued afresh
on resume; a remote access goes on until its answer (R157). -/
def Thread.stop (t : Thread) : Thread :=
  match t.state, t.waits with
  | .idle, _ => t
  | .faulted, _ => t
  | .stopped, _ => t
  | _, .remote _ => t
  | .waiting, .hurdle _ r true =>
    if r = answerOut then t
    else { t with before := .waiting, state := .stopped, waits := .nothing, resumePass := true }
  | st, _ => { t with before := st, state := .stopped, waits := .nothing }

/-- The threads of a paddock stop, and leave the bells they wait on with nothing consumed (R194). -/
def Device.stopThreads (d : Device) (p : Nat) : Device :=
  (d.mapThreadsOf p Thread.stop).updPaddock p (·.dropThreadWaits)

/-! ### Preemption begins (R378 to R384) -/

/-- `max_step_ticks` of the paddock's resident image; with none, 0 (its blocks are saved whole). -/
def Device.maxStep (d : Device) (p : Nat) : Nat :=
  match d.resident p with
  | some e => imageMaxStep e.2.bytes
  | none => 0

/-- `tag` of the command in a mailbox whose answer is awaited, 0 for none: the command that causes a record (R80). -/
def Device.waiterTag (d : Device) (w : Option (Master × Nat)) : Nat :=
  (w.map fun w => fieldU64 (d.paths.box (pathOf w.1 w.2)).cmd 24).getD 0

/-- A running paddock begins to be preempted: STOPPING, its rings stop taking STEP and IMAGE_LOAD, and in IMMEDIATE mode
its threads stop. -/
def Device.beginPreempt (d : Device) (p : Nat) (mode : PreemptMode) (escalateAt : Option Nat) (toHeld : Bool)
    (waiter : Option (Master × Nat)) : Device :=
  let isB := mode == .boundary
  let d1 := d.updPaddock p fun x =>
    { x with preempt := some { mode := mode, escalateAt := escalateAt, startedAt := d.now, stopAt := d.now, toHeld := toHeld,
                               waiter := waiter },
             switchFrom := some d.now, lastMode := if isB then 1 else 2,
             nBoundary := x.nBoundary + b2n isB, nImmediate := x.nImmediate + b2n (!isB) }
  let d2 := (d1.setPaddockState p .stopping (d.waiterTag waiter)).mapNet fun n =>
    { n with rings := Table.mapAll n.rings fun _ r => if r.paddock = p then { r with stoppedAt := d.now } else r }
  if isB then d2 else d2.stopThreads p

/-- A BOUNDARY preemption in progress turns IMMEDIATE (R380). -/
def Device.escalate (d : Device) (p : Nat) : Device :=
  match d.paddock p with
  | none => d
  | some x =>
    match x.preempt with
    | none => d
    | some q =>
      if q.mode = .immediate then d else
        (d.updPaddock p fun x =>
          { x with preempt := some { q with mode := .immediate, escalated := true, escalateAt := none, stopAt := d.now }, lastMode := 3,
                   nImmediate := x.nImmediate + 1, nEscalated := x.nEscalated + 1 }).stopThreads p

/-- A waiter needs blocks of an occupant: what the occupant does. An image that keeps state in its blocks is preempted only
with IMMEDIATE (R377 to R381, R393). -/
def Device.considerPreempt (d : Device) (w : Nat × Paddock) (o : Nat × Paddock) : Device :=
  let m := d.maxStep o.1
  let escalation := w.2.demand + w.2.budget
  let plain : PreemptMode := if m = 0 then .immediate else .boundary
  match o.2.state with
  | .running =>
    if !d.hasWork o.1 then d.beginPreempt o.1 plain none false none
    else if o.2.priority < w.2.priority then
      if d.atBoundary o.1 && decide (m ≠ 0) then d.beginPreempt o.1 .boundary none false none
      else if m ≠ 0 ∧ m ≤ w.2.budget then d.beginPreempt o.1 .boundary (some escalation) false none
      else d.beginPreempt o.1 .immediate none false none
    else if o.2.priority = w.2.priority ∧ o.2.tookAt + o.2.slice ≤ d.now then d.beginPreempt o.1 plain none false none
    else d
  | .stopping =>
    match o.2.preempt with
    | none => d
    | some q =>
      if q.mode = .boundary ∧ o.2.priority < w.2.priority ∧ d.atBoundary o.1 = false then
        if m ≠ 0 ∧ m ≤ w.2.budget then
          d.updPaddock o.1 fun x =>
            { x with preempt := some { q with escalateAt := some (Nat.min (q.escalateAt.getD escalation) escalation) } }
        else d.escalate o.1
      else d
  | .faulted => (d.clearBlocksOf o.1).updPaddock o.1 fun x => { x with holds := false }
  | _ => d

/-! ### Taking blocks (R377) -/

/-- A paddock takes its blocks and goes to RESTORING; those that sleep start to wake. -/
def Device.takeBlocks (d : Device) (p : Nat) : Device :=
  let d1 := (d.updPaddock p fun x => { x with holds := true, tookAt := d.now, restored := false }).setPaddockState p .restoring
  (((d.paddock p).map (·.blockList)).getD []).foldl Device.rouse d1

/-- Ranked paddocks take their blocks in order, blocks being reserved for those ahead. -/
def Device.takeInOrder (d : Device) : BitVec 1024 → List (Nat × Paddock) → Device
  | _, [] => d
  | reserved, w :: ws =>
    if w.2.blocks &&& (d.heldBlocks ||| reserved) = 0 then (d.takeBlocks w.1).takeInOrder reserved ws
    else d.takeInOrder (reserved ||| w.2.blocks) ws

/-- Each ranked paddock still waiting asks the occupants of its blocks. -/
def Device.askOccupants (d : Device) (w : Nat × Paddock) : Device :=
  (d.paddocks.filter fun o => o.2.holds && decide (o.1 ≠ w.1 ∧ o.2.blocks &&& w.2.blocks ≠ 0)).foldl
    (fun d o => d.considerPreempt w o) d

/-- A paddock that has lost its work has no demand stamp, and does not wait for blocks (R375, R376). -/
def Device.settleDemand (d : Device) (p : Nat) : Device :=
  match d.paddock p with
  | none => d
  | some x =>
    if d.hasWork p then d else
      let d1 := d.updPaddock p fun x => { x with demand := 0 }
      if x.state = .waiting then d1.setPaddockState p .vacant else d1

/-- The decisions of "Sharing blocks" are made: occupants yield, and free blocks are taken. -/
def Device.schedule (d : Device) : Device :=
  let d1 := d.takeInOrder 0 d.ranking
  let d2 := d1.ranking.foldl Device.askOccupants d1
  d2.takeInOrder 0 d2.ranking

end Sys2Proof.Machine
end

