-- ==== Sys2Proof/Machine/Work.lean ====
section
/-! DEFINITION. The three things that can cause one another: a bell is rung, a descriptor completes, a lasting fault
strikes a paddock. They are run from a worklist, in order (R184 to R194, R328, R432 to R435). -/

namespace Sys2Proof.Machine

/-- One thing to do. -/
inductive Work where
  /-- A ring: the paddock whose bell it is (block bells, R529), bell number, increment, source number. -/
  | ring (paddock bell inc source : Nat)
  /-- A descriptor in flight completes: ring, ring position, result, code, detail (R328). -/
  | done (ring index result code detail : Nat)
  /-- A lasting fault strikes a paddock (R432), with its stamp. -/
  | fault (report : Report) (paddock stamp : Nat)
  deriving DecidableEq, Repr

/-! ### Bells (R184 to R194) -/

/-- Greatest value of a bell (R184). -/
def bellMax : Nat := 2 ^ 31 - 1

/-- A paddock's save record of a block: local address (R388); blocks of a region in ascending number. -/
def Paddock.recordOf (p : Paddock) (b : Nat) : Nat :=
  let n := regionOf b
  let j := ((List.range (b % 64)).filter fun i => p.names (64 * n + i)).length
  ((p.saveBase[n]?).getD 0) + j * 0x533000

/-- Address of a bell's 32 bytes in its paddock's save record (R388). -/
def Paddock.bellRecord (p : Paddock) (bell : Nat) : Nat := p.recordOf (bell / 64) + 0x100 + 32 * (bell % 64)

/-- The 32 bytes of a bell in a save record (R388). -/
def Bell.bytes (b : Bell) : List Byte :=
  leBytes 4 b.value ++ leBytes 4 b.rings ++ leBytes 8 b.lastStamp ++ leBytes 8 b.lastSource ++ leBytes 2 b.lastInc ++ zeros 6

/-- A bell as its save record holds it; its mark of saturation and waits of rings stay with the device. -/
def Bell.ofBytes (old : Bell) (bs : List Byte) : Bell :=
  { old with value := fieldU32 bs 0, rings := fieldU32 bs 4, lastStamp := fieldU64 bs 8,
             lastSource := leValue (bytesAt bs 16 5), lastInc := fieldU16 bs 24 }

/-- A paddock's block bells are in its blocks: it holds them, and a restore has written their bells (R386, R529). -/
def Paddock.bellsInBlocks (p : Paddock) : Bool := p.holds && (decide (p.state ≠ .restoring) || p.restored)

/-- A block bell of a paddock: in the block while the paddock holds it, else in its save record (R529). -/
def Device.blockBell (d : Device) (p bell : Nat) : Bell :=
  match d.paddock p with
  | none => {}
  | some x =>
    let b := (Table.find x.bells bell).getD {}
    if x.bellsInBlocks then b else b.ofBytes (d.load (x.bellRecord bell) 32)

/-- A block bell of a paddock stored where it lies. -/
def Device.setBlockBell (d : Device) (p bell : Nat) (v : Bell) : Device :=
  match d.paddock p with
  | none => d
  | some x =>
    let d1 := d.updPaddock p fun x => { x with bells := Table.put x.bells bell v }
    if x.bellsInBlocks then d1 else d1.store (x.bellRecord bell) v.bytes

/-- A network bell by 1,024 d + j. -/
def Device.netBell (d : Device) (n : Nat) : Bell := (Table.find d.fabric.netBells n).getD {}

/-- A network bell stored. -/
def Device.setNetBell (d : Device) (n : Nat) (v : Bell) : Device :=
  d.mapFabric fun f => { f with netBells := Table.put f.netBells n v }

/-- A bell of a paddock by its number: block bells below 65,536, network bells from there (R182). -/
def Device.bell (d : Device) (p bell : Nat) : Bell :=
  if bell < 65536 then d.blockBell p bell else d.netBell (bell - 65536)

/-- A bell of a paddock stored. -/
def Device.setBell (d : Device) (p bell : Nat) (v : Bell) : Device :=
  if bell < 65536 then d.setBlockBell p bell v else d.setNetBell (bell - 65536) v

/-- Bytes that a transfer has placed in a block's buffer read as free values until its bell has been observed (R135). -/
def Device.signals (d : Device) (p bell a n : Nat) : Device :=
  if bell < 65536 && decide (bufferBase + 0x100000 * (bell / 64) ≤ a ∧ a + n ≤ bufferBase + 0x100000 * (bell / 64 + 1)) &&
      (d.paddock p).isSome then
    let b := d.bell p bell
    d.setBell p bell { b with unseen := b.unseen ++ [(a % 0x100000, n)] }
  else d

/-- A ring is applied to a bell (R186, R188): the part above 2^31 − 1 is lost. -/
def Bell.rung (b : Bell) (inc stamp source : Nat) : Bell :=
  { b with value := Nat.min (b.value + inc) bellMax, rings := Nat.min (b.rings + 1) 0xFFFFFFFF,
           lastStamp := stamp, lastSource := source, lastInc := inc, saturated := b.saturated || decide (bellMax < b.value + inc) }

/-- Waiters examined in the order of their waits: each whose threshold the value still meets consumes and leaves (R193). -/
def consume : Nat → List (Nat × Nat × Nat) → Nat × List (Nat × Nat × Nat) × List (Nat × Nat)
  | value, [] => (value, [], [])
  | value, w :: ws =>
    if w.2.1 ≤ value then
      let r := consume (value - w.2.1) ws
      (r.1, r.2.1, (w.1, w.2.1) :: r.2.2)
    else
      let r := consume value ws
      (r.1, w :: r.2.1, r.2.2)

/-- A scalar register written; s0 discards (R130). -/
def Thread.setS (t : Thread) (r : Nat) (v : Word) : Thread := if r = 0 then t else { t with s := t.s.set r v }

/-- A waiting thread resumes after its wait instruction, with a result in a register. -/
def Thread.resume (t : Thread) (dest : Nat) (v : Word) : Thread :=
  { t.setS dest v with state := .ready, waits := .nothing, pc := t.pc + 1 }

/-- A thread whose BWAIT was satisfied resumes with 0 in its destination (R152). -/
def Thread.bellSatisfied (t : Thread) : Thread :=
  match t.waits with
  | .bell dest _ _ _ => t.resume dest 0
  | _ => t

/-- The satisfied waiters of a bell go on: threads resume, WAIT descriptors complete. -/
def Device.releaseWaiters (d : Device) (p bell : Nat) (source : Nat) : List (Nat × Nat) → Nat → Device × List Work
  | [], _ => (d, [])
  | (key, threshold) :: rest, value =>
    let after := value - threshold
    let d1 := d.traced 2 bell threshold after p source
    let r := if key < 2 ^ 20 then ((d1.updThread (key / 16) (key % 16) Thread.bellSatisfied).rouse (key / 16), [])
      else
        let q := key - 2 ^ 20
        match d1.ring q with
        | none => (d1, [])
        | some x =>
          match x.inFlight.find? fun i => decide (fieldU8 i.bytes 0 = 6) with
          | none => (d1, [])
          | some i => (d1, [Work.done q i.index resOk 0 0])
    let r2 := r.1.releaseWaiters p bell source rest after
    (r2.1, r.2 ++ r2.2)

/-- The waiters of a bell are examined (R193); one that consumes has observed what the bell signals (R135). -/
def Device.examine (d : Device) (p bell source : Nat) : Device × List Work :=
  let b := d.bell p bell
  let r := consume b.value b.waiters
  if r.2.2.isEmpty then (d, []) else
    (d.setBell p bell { b with value := r.1, waiters := r.2.1, unseen := [] }).releaseWaiters p bell source r.2.2 b.value

/-! ### Doorbells (R327) -/

/-- A doorbell word reaches a ring: `produced` and `consumed` are taken over, or the word is ignored with an event when
it would put more than `entries` descriptors outstanding. A STALLED ring retries. -/
def Device.postDoorbell (d : Device) (q word source : Nat) : Device :=
  match d.ring q with
  | none => d
  | some r =>
    if r.entries < (word % 2 ^ 32 + 2 ^ 32 - r.taken) % 2 ^ 32 then
      d.record { source := source, paddock := r.paddock, code := 0x8007, aux := q, addr := word }
    else
      d.updRing q fun r =>
        { r with produced := word % 2 ^ 32, consumed := word / 2 ^ 32 % 2 ^ 32,
                 state := if r.state = .stalled then .live else r.state,
                 stallAddr := if r.state = .stalled then 0 else r.stallAddr }

/-- A KICK ring whose bell has a value consumes all of it at once and reads its doorbell word (R327). -/
def Device.kick (d : Device) (netBell source : Nat) : Device :=
  d.net.rings.foldl (fun d e =>
    let b := d.netBell netBell
    if e.2.kick && decide (1024 * (e.1 / 4096) + e.2.kickBell = netBell ∧ b.value ≠ 0 ∧ e.2.state ≠ .draining) then
      (d.setNetBell netBell { b with value := 0 }).postDoorbell e.1 (d.loadLe e.2.prodAddr 8) source
    else d) d

/-- A ring is applied: nothing to a bell whose paddock is FAULTED or that belongs to none; a value held at 2^31 − 1
raises BELL_SATURATED; then waiters are examined and KICK rings read their doorbells. -/
def Device.applyRing (d : Device) (p bell inc source : Nat) : Device × List Work :=
  let owner := if bell < 65536 then (if (d.paddock p).isSome then some p else none)
    else (d.netBellOwner ((bell - 65536) / 1024) ((bell - 65536) % 1024)).map (·.1)
  match owner with
  | none => (d, [])
  | some o =>
    if d.isFaulted o then (d, []) else
      let old := d.bell o bell
      let new := old.rung inc d.now source
      let d1 := (d.setBell o bell new).traced 1 bell inc new.value o source
      if bellMax < old.value + inc then
        (d1, [Work.fault { source := source, paddock := o, cls := 2, level := 4, code := 0x31, aux := bell } o d.now])
      else
        let r := d1.examine o bell source
        (if bell < 65536 then r.1 else r.1.kick (bell - 65536) source, r.2)

/-! ### Completions (R328) -/

/-- The 32 bytes of a completion record. -/
def completionRecord (bytes : List Byte) (now result code index detail : Nat) : List Byte :=
  bytesAt bytes 8 8 ++ leBytes 8 now ++ leBytes 2 result ++ bytesAt bytes 0 1 ++ leBytes 1 code ++ leBytes 4 index ++
    leBytes 8 detail

/-- WAIT descriptors of a paddock that wait for a ring's completion count and are now satisfied (R329). -/
def Device.countWaits (d : Device) (q : Nat) : List Work :=
  match d.ring q with
  | none => []
  | some r => (d.ringsOf r.paddock).flatMap fun e =>
    (e.2.inFlight.filter fun i =>
      decide (fieldU8 i.bytes 0 = 6 ∧ fieldU8 i.bytes 16 = 0 ∧ fieldU32 i.bytes 20 = q ∧
        0 ≤ signed 32 (r.completed + 2 ^ 32 - fieldU32 i.bytes 24 % 2 ^ 32))).map
      fun i => Work.done e.1 i.index resOk 0 0

/-- A descriptor in flight completes: record, completion count, MSI, `cq_bell`; then what waited for it goes on. -/
def Device.applyDone (d : Device) (q index result code detail : Nat) : Device × List Work :=
  match d.ring q with
  | none => (d, [])
  | some r =>
    match r.inFlight.find? fun i => decide (i.index = index) with
    | none => (d, [])
    | some i =>
      let d1 := d.store (r.cqBase + 32 * (r.completed % max r.cqEntries 1))
        (completionRecord i.bytes d.now result code index detail)
      let left := r.inFlight.filter fun j => decide (j.index ≠ index)
      let d2 := (d1.updRing q fun r => { r with completed := (r.completed + 1) % 2 ^ 32, inFlight := left }).traced 6 q
        index (fieldU64 i.bytes 8) r.paddock (d.src (srcRing q))
      let d3 := if r.irq then d2.emit (.msi r.irqHart r.irqId) else d2
      let bell := if r.cqBell = 0xFFFF then []
        else [Work.ring r.paddock (65536 + 1024 * (q / 4096) + r.cqBell) 1 (d.src (srcRing q))]
      let waits := d3.countWaits q
      let d4 := if r.state = .draining ∧ left.isEmpty then d3.mapNet fun n => { n with rings := Table.del n.rings q } else d3
      let d5 := if blockWork (fieldU8 i.bytes 0) then
          (d4.settleDemand r.paddock).schedule
        else d4
      (d5, bell ++ waits)

/-! ### Faulted paddocks (R432 to R435) -/

/-- The payload of a PEER_NOTE (R435) but for `copy`. -/
def notePayload (kind fold paddock mapVersion : Nat) (record : List Byte) : List Byte :=
  [BitVec.ofNat 8 kind, 0] ++ leBytes 2 fold ++ leBytes 1 paddock ++ zeros 3 ++ leBytes 4 mapVersion ++ zeros 4 ++
    padTo 32 record ++ zeros 16

/-- The fold of a paddock and the version in effect, 0 for none. -/
def Device.foldOf (d : Device) (p : Nat) : Nat × Nat :=
  match d.service.folds.find? fun f => f.2.members.any fun m => decide (m.1 = p) with
  | none => (0, 0)
  | some f => (f.1, (f.2.current.map (·.version)).getD 0)

/-- The connections on which a paddock's peers are told: the first OPEN or CLOSING one to each distinct peer, and the
bound manager's. -/
def Device.noteConns (d : Device) (p : Nat) : List Nat :=
  let own := d.net.conns.filter fun c => decide (c.2.paddock = p ∧ (c.2.state = .open ∨ c.2.state = .closing))
  let firsts := own.foldl (fun (acc : List (Nat × Nat)) c =>
    if acc.any fun a => decide (a.2 = c.2.peer) then acc else acc ++ [(c.1, c.2.peer)]) []
  firsts.map (·.1) ++ (match d.security.bound with | some b => [b.2.1] | none => [])

/-- One copy of a note is sent on each of the connections' home dies, in class S1 (R435). -/
def Device.sendNotes (d : Device) (conns : List Nat) (copy : Nat) (payload : List Byte) : Device :=
  conns.foldl (fun d c =>
    match d.conn c with
    | none => d
    | some x =>
      let record := bytesAt payload 16 32
      let seen := if x.mgmt then d.recordFor (if d.security.fabric then .secure else .nonsecure) record
        else d.recordFor (if d.isSecure x.paddock then .secure else .nonsecure) record
      d.sendLoose (d.upLinks x.home x.links) 0x24 1 x.peer
        (overwrite (overwrite payload 1 [BitVec.ofNat 8 copy]) 16 seen)) d

/-- A paddock's peers are told of a fault or a clear: copy 0 now, two more copies are due (R435). -/
def Device.notifyPeers (d : Device) (p kind : Nat) (record : List Byte) : Device :=
  let f := d.foldOf p
  let payload := notePayload kind f.1 p f.2 record
  let conns := d.noteConns p
  (d.sendNotes conns 0 payload).mapFaults fun x =>
    { x with notesDue := x.notesDue ++ [{ at0 := d.now, copy := 1, conns := conns, payload := payload }] }

/-- A thread of a faulted paddock becomes FAULTED. -/
def Thread.faultStop (t : Thread) : Thread := { t with state := .faulted, waits := .nothing }

/-- The steps of a paddock in flight are dropped: no lane of them is resolved any more (R433); they count as completed
(R418, log entry 19). -/
def Device.dropSteps (d : Device) (p : Nat) : Device :=
  let n := (d.serving p).steps.length
  if n = 0 then d else d.updServing p fun s => { s with steps := [], completed := s.completed + n, lastStep := d.now }

/-- STEP and IMAGE_LOAD descriptors of a paddock in flight, as completions with FAULTED and the fault's source. -/
def Device.faultedWork (d : Device) (p source : Nat) : List Work :=
  (d.ringsOf p).flatMap fun e =>
    (e.2.inFlight.filter fun i => blockWork (fieldU8 i.bytes 0)).map
      fun i => Work.done e.1 i.index resFaulted 0 source

/-- An image that was loading is REGISTERED again. -/
def Image.endLoad (im : Image) : Image := if im.state = .loading then { im with state := .registered } else im

/-- The paddock's images that were loading are REGISTERED again. -/
def Device.endLoads (d : Device) (p : Nat) : Device :=
  { d with images := Table.mapAll d.images fun h im => if h / 0x4000000 = p then im.endLoad else im }

/-- A lasting fault strikes a paddock: the first one makes it FAULTED, a further one is recorded SECONDARY (R432, R434). -/
def Device.applyFault (d : Device) (r : Report) (p stamp : Nat) : Device × List Work :=
  match d.paddock p with
  | none => (d.record r (some stamp), [])
  | some x =>
    if x.state = .faulted then (d.record { r with cls := r.cls ||| 4 } (some stamp), []) else
      let rec' := r.bytes stamp
      let d1 := d.recordBytes rec'
      let waiter := x.preempt.bind (·.waiter)
      let d2 := d1.updPaddock p fun x => { x.dropThreadWaits with faultRecord := rec', preempt := none }
      let d3 := (d2.mapFaults fun f => { f with paddocks := f.paddocks ||| BitVec.ofNat 64 (2 ^ p) }).setPaddockState p .faulted
      let d4 := if x.holds then d3.mapThreadsOf p Thread.faultStop else d3
      let d5 := d4.dropSteps p
      let d6 := d5.mapService fun s => { s with loading := s.loading.filter fun e => decide (e.1 ≠ p) }
      let d7 := d6.endLoads p
      let d8 := d7.notifyPeers p 1 rec'
      let d9 := match waiter with
        | some w => d8.respond (pathOf w.1 w.2) { result := resFaulted, detail := r.source }
        | none => d8
      (d9.schedule, d9.faultedWork p r.source)

/-! ### The worklist -/

/-- One thing is done; what it causes is returned. -/
def Device.doWork (d : Device) : Work → Device × List Work
  | .ring p bell inc source => d.applyRing p bell inc source
  | .done q index result code detail => d.applyDone q index result code detail
  | .fault r p stamp => d.applyFault r p stamp

/-- The worklist is run; `fuel` bounds the things done. -/
def Device.runWork : Nat → List Work → Device → Device
  | 0, _, d => d
  | _, [], d => d
  | fuel + 1, w :: ws, d =>
    let r := d.doWork w
    Device.runWork fuel (r.2 ++ ws) r.1

/-- Descriptors in flight on the device. -/
def Device.inFlightCount (d : Device) : Nat := (d.net.rings.map fun e => e.2.inFlight.length).sum

/-- Things are done, and everything they cause: each completion takes a descriptor out of flight and rings at most one
bell, so the work is bounded by twice the descriptors in flight beside what is given. -/
def Device.perform (d : Device) (ws : List Work) : Device :=
  Device.runWork (4 * (d.inFlightCount + ws.length) + 8) ws d

end Sys2Proof.Machine
end

