-- ==== Sys2Proof/Machine/Checks.lean ====
section
/-! DEFINITION. The form in which commands are checked (R83, R84, R100): a check passes or gives the reply the command
ends with; and the form of a staged command. -/

namespace Sys2Proof.Machine

/-- A check: none passes, a reply is the failure. -/
abbrev Check := Option Reply

/-- The first failure of a list of checks. -/
def firstFail : List Check → Check
  | [] => none
  | none :: cs => firstFail cs
  | some r :: _ => some r

/-- A check that must hold, else the result with the offset or value in `detail`. -/
def require (ok : Bool) (result : Nat) (detail : Nat := 0) : Check :=
  if ok then none else some { result := result, detail := detail }

/-- Offset of a field of the header in `detail` (R81). -/
def headerField (off : Nat) : Nat := 2 ^ 32 + off

/-- Offset of a field of a buffer that the command names (R531). -/
def bufferField (off : Nat) : Nat := 2 ^ 33 + off

/-- The payload has exactly `n` bytes (step 6 of R83). -/
def lengthIs (n : Nat) (p : List Byte) : Check := require (decide (p.length = n)) resBadLength (headerField 8)

/-- The payload's length lies in a range. -/
def lengthIn (lo hi : Nat) (p : List Byte) : Check :=
  require (decide (lo ≤ p.length ∧ p.length ≤ hi)) resBadLength (headerField 8)

/-- A value of the payload lies in its range, else BAD_ARGUMENT at its offset (step 7). -/
def inRange (off lo hi v : Nat) : Check := require (decide (lo ≤ v ∧ v ≤ hi)) resBadArgument off

/-- A length, count or size lies in its range, else BAD_LENGTH at its offset (R84). -/
def sizeIn (off lo hi v : Nat) : Check := require (decide (lo ≤ v ∧ v ≤ hi)) resBadLength off

/-- A reserved field is zero (R8). -/
def reserved (p : List Byte) (off n : Nat) : Check := require (allZero (bytesAt p off n)) resBadArgument off

/-- Reserved bits of a byte are zero: only the bits of `mask` may be set. -/
def flagsIn (p : List Byte) (off mask : Nat) : Check :=
  require (decide (fieldU8 p off &&& mask = fieldU8 p off)) resBadArgument off

/-- A value is a local address: bits [63:46] zero, aligned. -/
def addressAligned (off align v : Nat) : Check :=
  require (decide (v < 2 ^ 46 ∧ v % align = 0)) resBadArgument off

/-- `detail` of BAD_STATE: device state and object state (R81). -/
def Device.stateDetail (d : Device) (object : Nat) : Nat := 256 * d.stateCode + object

/-- A paddock named by a command is of the path's world, where it exists (R97). -/
def Device.worldOf (d : Device) (w : World) (p off : Nat) : Check :=
  require (!(w == .nonsecure && d.isSecure p)) resWorldDenied off

/-- How a staged command is judged. `before` is the configuration with the commands before it applied, `after` the one
with the whole set applied (the same as `before` at staging). -/
structure Judging where
  /-- At staging, checks whose object does not exist are not made (R100). -/
  staging : Bool
  /-- World of the path. -/
  world : World
  /-- Configuration before the command. -/
  before : Device
  /-- Configuration with the whole set applied. -/
  after : Device

/-- A check that is not made at staging. -/
def Judging.atCheck (j : Judging) (c : Check) : Check := if j.staging then none else c

/-- A check against an object that the command names: made wherever the object exists, and only at the check of the set where
it does not (R100). -/
def Judging.against {α : Type} (j : Judging) (o : Option α) (test : α → Bool) (res off : Nat) : Check :=
  match o with
  | some x => require (test x) res off
  | none => j.atCheck (require false res off)

/-- A paddock the command names exists: not judged at staging, CONFLICT at the check of the set (R528). -/
def Judging.paddockExists (j : Judging) (p : Nat) : Check :=
  j.atCheck (require (j.before.paddock p).isSome resConflict)

/-- A staged command: its own form (steps 6 and 7), its judgement against a configuration (steps 8 to 12), and its
effect at the commit instant. -/
structure Staged where
  /-- Payload lengths accepted, lowest and highest. -/
  minLen : Nat
  /-- Highest payload length. -/
  maxLen : Nat
  /-- Steps 6 and 7 of R83, on the payload alone (and what the device is built with). -/
  form : Device → List Byte → Check
  /-- Steps 8 to 12 against a configuration. -/
  judge : Judging → List Byte → Check
  /-- The effect at T. -/
  apply : Device → List Byte → Device

end Sys2Proof.Machine
end

