-- ==== Sys2Proof/Machine/StagedPaddock.lean ====
section
/-! DEFINITION. The staged commands on paddocks: descriptor, windows, removal (R366 to R373), and the power of the blocks
they name (R474). -/

namespace Sys2Proof.Machine

/-! ### Block power that follows naming (R474) -/

/-- Some paddock names the block. -/
def Device.named (d : Device) (b : Nat) : Bool := d.paddocks.any fun e => e.2.names b

/-- All 64 blocks of a region are DEEP. -/
def Device.regionDeep (d : Device) (n : Nat) : Bool := d.power.blocks.all fun e => decide (regionOf e.1 ≠ n ∨ e.2 = .deep)

/-- Regions whose blocks are all DEEP enter deep sleep unless NO_DEEP is set. -/
def Device.restRegions (d : Device) : Device :=
  d.mapPower fun p => { p with regions := Vector.ofFn fun (n : Fin 16) =>
    let r := p.regions[n]
    { r with deep := r.deep || (d.regionDeep n.val && !r.noDeep) } }

/-- Blocks that no paddock names are cleared and go to DEEP. -/
def Device.restBlocks (d : Device) : Device :=
  let gone := d.power.blocks.filter fun e => !d.named e.1
  let d1 := gone.foldl (fun d e => d.clearBlock e.1) d
  (d1.mapPower fun p =>
    { p with blocks := p.blocks.filter fun e => d.named e.1, waking := p.waking.filter fun e => d.named e.1 }).restRegions

/-- DEEP blocks that a paddock now names start to wake, and their regions with them: 150 µs (R471, R474). -/
def Device.wakeNamed (d : Device) (blocks : List Nat) : Device := blocks.foldl (fun d b => d.startWake .deep 120000 b) d

/-! ### Descriptor (R366, R367) -/

/-- The paddock a descriptor describes; what it keeps from before is given. -/
def paddockOf (p : List Byte) (old : Option Paddock) (now : Nat) : Paddock :=
  let base : Paddock := old.getD
    { role := 0, world := .nonsecure, priority := 4, operator := none, budget := 0, slice := 0, ringSave := 0,
      hurdles := 0, nbells := Vector.replicate 4 (0, 0), blocks := 0, saveBase := Vector.replicate 16 0,
      stateSince := now }
  { base with
    role := fieldU8 p 1, world := if bitOf (fieldU8 p 2) 0 then .secure else .nonsecure, priority := fieldU8 p 3,
    operator := (match fieldU8 p 4 with | 1 => some .host | 2 => some .fabric | 3 => some .board | _ => none),
    budget := fieldU32 p 8, slice := fieldU32 p 12, ringSave := fieldU64 p 16,
    hurdles := BitVec.ofNat 256 (leValue (bytesAt p 64 32)),
    nbells := Vector.ofFn fun (i : Fin 4) => (fieldU16 p (96 + 4 * i.val), fieldU16 p (98 + 4 * i.val)),
    blocks := BitVec.ofNat 1024 (leValue (bytesAt p 128 128)),
    saveBase := Vector.ofFn fun (n : Fin 16) => fieldU64 p (256 + 8 * n.val) }

/-- Steps 6 and 7 for a descriptor. -/
def descriptorForm (_ : Device) (p : List Byte) : Check :=
  firstFail (
    ((List.range 4).map fun i =>
      let first := fieldU16 p (96 + 4 * i)
      require (decide (1023 < first ∨ fieldU16 p (98 + 4 * i) + first ≤ 1024)) resBadLength (98 + 4 * i)) ++
    [inRange 0 0 63 (fieldU8 p 0), inRange 1 0 3 (fieldU8 p 1), flagsIn p 2 1, inRange 3 0 7 (fieldU8 p 3),
     inRange 4 0 3 (fieldU8 p 4), reserved p 5 3, inRange 8 0 800000000 (fieldU32 p 8),
     inRange 12 40000 800000000 (fieldU32 p 12), addressAligned 16 64 (fieldU64 p 16), reserved p 24 40] ++
    ((List.range 4).map fun i => inRange (96 + 4 * i) 0 1023 (fieldU16 p (96 + 4 * i))) ++
    [reserved p 112 16, require (!allZero (bytesAt p 128 128)) resBadArgument 128] ++
    ((List.range 16).map fun n =>
      let base := fieldU64 p (256 + 8 * n)
      require (decide ((base = 0 ↔ fieldU64 p (128 + 8 * n) = 0) ∧ base % 4096 = 0 ∧ base < 2 ^ 46)) resBadArgument
        (256 + 8 * n)))

/-- Two ranges of network bells of one die meet. -/
def bellRangesMeet (x y : Nat × Nat) : Bool := decide (x.1 < y.1 + y.2 ∧ y.1 < x.1 + x.2)

/-- Another paddock holds a hurdle or network bell of the descriptor. -/
def Device.objectsTaken (d : Device) (p : Nat) (x : Paddock) : Bool :=
  d.paddocks.any fun e => decide (e.1 ≠ p) &&
    (decide (e.2.hurdles &&& x.hurdles ≠ 0) ||
      (List.range 4).any fun i => bellRangesMeet ((e.2.nbells[i]?).getD (0, 0)) ((x.nbells[i]?).getD (0, 0)))

/-- Number of a paddock's blocks in a region. -/
def Paddock.blocksIn (p : Paddock) (n : Nat) : Nat := ((List.range 64).filter fun i => p.names (64 * n + i)).length

/-- R368: every save area lies in the paddock's windows of its own world, not SHARED; that of region n in region n's HBM,
the ring save area in any HBM. -/
def Paddock.saveAreasOk (x : Paddock) : Bool :=
  let ok := fun a n => rangeCovered x.windows (fun w => !w.shared && (w.secure == (x.world == .secure))) a n
  (List.range 16).all (fun n =>
    let k := x.blocksIn n
    let a := (x.saveBase[n]?).getD 0
    decide (k = 0) || (ok a (k * 0x533000) &&
      decide (0x1000000000 * n ≤ a ∧ a + k * 0x533000 ≤ 0x1000000000 * (n + 1)))) &&
  ok x.ringSave 65536 && inHbm x.ringSave 65536

/-- R368 in the configuration with the whole set applied. -/
def saveAreasCheck (j : Judging) (p : Nat) : Check :=
  j.atCheck (match j.after.paddock p with
    | some x => require x.saveAreasOk resConflict
    | none => none)

/-- PADDOCK_CREATE: steps 8 to 12. While the debug instructions work, no SECURE paddock is created (R464). -/
def paddockCreateJudge (j : Judging) (p : List Byte) : Check :=
  let n := fieldU8 p 0
  let x := paddockOf p none 0
  firstFail [require (!((j.world == .nonsecure || j.before.debugWorks) && x.world == .secure)) resWorldDenied 2,
    require (j.before.paddock n).isNone resConflict,
    require (!j.before.objectsTaken n x) resConflict,
    saveAreasCheck j n]

/-- The bells fields of a paddock's block save records are written with zero values (R529). -/
def Device.zeroBells (d : Device) (p : Nat) (blocks : List Nat) : Device :=
  match d.paddock p with
  | none => d
  | some x => blocks.foldl (fun d b => d.store (x.recordOf b + 0x100) (zeros 2048)) d

/-- The hurdles of a paddock are reset (R201). -/
def Device.resetHurdles (d : Device) (p : Nat) : Device :=
  match d.paddock p with
  | none => d
  | some x => d.mapFabric fun f => { f with hurdles := f.hurdles.filter fun e => !x.hurdles.getLsbD e.1 }

/-- The network bells of a paddock are zeroed; waits of queue rings stay (R185). -/
def Device.resetNetBells (d : Device) (p : Nat) : Device :=
  match d.paddock p with
  | none => d
  | some x => d.mapFabric fun f => { f with netBells := Table.mapAll f.netBells fun k b =>
      match x.nbells[k / 1024]? with
      | some r => if r.1 ≤ k % 1024 ∧ k % 1024 < r.1 + r.2 then { waiters := b.waiters } else b
      | none => b }

/-- The blocks' bells held with the device are zeroed. -/
def Device.resetBlockBells (d : Device) (p : Nat) : Device :=
  d.updPaddock p fun x => { x with bells := Table.mapAll x.bells fun _ b => { waiters := b.waiters } }

/-- PADDOCK_CREATE: the paddock comes into being at T, with its bells and hurdles reset (R185, R201, R366). -/
def paddockCreateApply (d : Device) (p : List Byte) : Device :=
  let n := fieldU8 p 0
  let d1 := { d with paddocks := Table.put d.paddocks n (paddockOf p none d.now) }
  let x := paddockOf p none d.now
  ((((d1.zeroBells n x.blockList).resetNetBells n).resetHurdles n).wakeNamed x.blockList).schedule

/-- A thread waits on a hurdle, in HWAIT or HPASS, or its arrival is on its way. -/
def Device.hurdleWaited (d : Device) (h : Nat) : Bool :=
  d.fabric.blocks.any fun e => e.2.threads.any fun t =>
    match t.waits with
    | .hurdle k _ _ => decide (k = h)
    | _ => false

/-- PADDOCK_MODIFY: steps 8 to 12 (R372). No thread ever waits on a network bell (R152, R189), so only hurdles are looked at. -/
def paddockModifyJudge (j : Judging) (p : List Byte) : Check :=
  let n := fieldU8 p 0
  let x := paddockOf p none 0
  firstFail [require (!(j.world == .nonsecure && x.world == .secure)) resWorldDenied 2, j.before.worldOf j.world n 0,
    j.paddockExists n,
    require (!j.before.objectsTaken n x) resConflict,
    (match j.before.paddock n with
     | none => none
     | some old => firstFail [
        require (decide (old.role = x.role ∧ old.world = x.world ∧ old.blocks = x.blocks ∧ old.saveBase = x.saveBase) ||
          ((j.before.imagesOf n).isEmpty && decide (old.state = .vacant))) resConflict,
        require (decide (old.role = x.role) || !j.before.service.folds.any fun f =>
          match f.2.current with
          | none => false
          | some m => m.entries.any fun e =>
              decide (e.1 = j.before.deviceId.getD 0 ∧ e.2.1 = n ∧ e.2.2 ≠ x.role)) resConflict,
        require ((List.range 256).all fun h =>
          !(old.hurdles.getLsbD h && !x.hurdles.getLsbD h && j.before.hurdleWaited h)) resConflict]),
    saveAreasCheck j n]

/-- PADDOCK_MODIFY at T: the new descriptor, zero bells for blocks it now names, and the decisions again (R372, R529). -/
def paddockModifyApply (d : Device) (p : List Byte) : Device :=
  let n := fieldU8 p 0
  match d.paddock n with
  | none => d
  | some old =>
    let x := paddockOf p (some old) d.now
    let kept := old.generatorsSaved.filter fun b => x.names b && decide (x.recordOf b = old.recordOf b)
    let d1 := d.updPaddock n fun _ => { x with generatorsSaved := kept }
    (((d1.zeroBells n (x.blockList.filter fun b => !old.names b)).restBlocks).wakeNamed x.blockList).schedule

/-- Steps 6 and 7 of a command whose payload is a paddock and seven reserved bytes. -/
def paddockOnlyForm (_ : Device) (p : List Byte) : Check := firstFail [inRange 0 0 63 (fieldU8 p 0), reserved p 1 7]

/-- PADDOCK_DESTROY: steps 8 to 12 (R373). -/
def paddockDestroyJudge (j : Judging) (p : List Byte) : Check :=
  let n := fieldU8 p 0
  let d := j.before
  firstFail [d.worldOf j.world n 0, j.paddockExists n, j.atCheck (firstFail [
    require (!d.service.folds.any fun f => f.2.members.any fun m => decide (m.1 = n)) resConflict,
    require (d.imagesOf n).isEmpty resConflict,
    require (!d.net.rings.any fun r => decide (r.2.paddock = n)) resConflict,
    require (!d.net.conns.any fun c => decide (c.2.paddock = n)) resConflict,
    require (!d.net.exposures.any fun e => decide (e.2.paddock = n ∧ e.2.state ≠ .free)) resConflict,
    require ((List.range 4).all fun s =>
      decide (((Table.find d.service.books (4 * n + s)).map (·.state)).getD .empty = .empty)) resConflict])]

/-- PADDOCK_DESTROY at T: windows, hurdles and network bells are released, its settings go, and its number is free. Only the
counters that a cold reset alone clears stay (R305). -/
def paddockDestroyApply (d : Device) (p : List Byte) : Device :=
  let n := fieldU8 p 0
  let d1 := (d.resetHurdles n).resetNetBells n
  let d2 := match d1.paddock n with
    | some x => if x.holds then d1.clearBlocksOf n else d1
    | none => d1
  let d3 := { d2 with paddocks := Table.del d2.paddocks n }
  let d4 := d3.mapService fun s =>
    { s with droves := Table.update s.droves n (fun x => { voided := x.voided, evicted := x.evicted }),
             serving := Table.put s.serving n (d.servingKept n), loading := s.loading.filter fun e => decide (e.1 ≠ n),
             books := s.books.filter fun e => decide (e.1 / 4 ≠ n) }
  ((d4.mapNet fun x => { x with windows := x.windows.filter fun e => decide (e.1 / 256 ≠ n) }).restBlocks.settleState).schedule

/-! ### Windows (R370, R371) -/

/-- The window entries of a PADDOCK_WINDOW_SET payload. -/
def windowEntries (p : List Byte) : List MemWindow :=
  (List.range (fieldU16 p 2)).map fun i =>
    let o := 8 + 16 * i
    { base := fieldU64 p o, units := fieldU32 p (o + 8), secure := bitOf (fieldU8 p (o + 12)) 0,
      shared := bitOf (fieldU8 p (o + 12)) 1 }

/-- Bytes of a window. -/
def MemWindow.size (w : MemWindow) : Nat := 0x200000 * w.units

/-- Two windows overlap. -/
def MemWindow.meets (x y : MemWindow) : Bool := decide (x.base < y.base + y.size ∧ y.base < x.base + x.size)

/-- Steps 6 and 7 of PADDOCK_WINDOW_SET: the size of a window is a size (R84), so its range gives BAD_LENGTH. -/
def windowSetForm (d : Device) (p : List Byte) : Check :=
  let n := fieldU16 p 2
  let ws := windowEntries p
  firstFail ([require (decide (n ≤ 256 ∧ p.length = 8 + 16 * n)) resBadLength 2] ++
    (if n ≤ 256 then (List.range n).map fun i => sizeIn (16 + 16 * i) 1 4194304 (fieldU32 p (16 + 16 * i)) else []) ++
    [inRange 0 0 63 (fieldU8 p 0), reserved p 1 1, reserved p 4 4] ++
    (if n ≤ 256 then (List.range n).flatMap fun i =>
      let o := 8 + 16 * i
      let w := ws.getD i { base := 0, units := 0, secure := false, shared := false }
      [require (decide (w.base % 0x200000 = 0) && (inHbm w.base w.size || d.inTier w.base w.size) &&
          !(ws.take i).any (·.meets w)) resBadArgument o,
       flagsIn p (o + 12) 3, reserved p (o + 13) 3] else []))

/-- Request-state records of a paddock that are not FREE (R266). -/
def Device.recordsOf (d : Device) (p : Nat) : List Nat :=
  (d.droveState p).records.filter fun a => decide (d.loadLe a 1 ≠ 0)

/-- Memory a paddock must keep in its windows: rings, completion rings, exposures, images, save areas and records (R371). -/
def Device.heldRanges (d : Device) (p : Nat) (x : Paddock) : List (Nat × Nat) :=
  ((d.ringsOf p).flatMap fun e =>
    [(e.2.base, 64 * e.2.entries), (e.2.cqBase, 32 * e.2.cqEntries)]) ++
  ((d.net.exposures.filter fun e => decide (e.2.paddock = p ∧ e.2.state ≠ .free)).map fun e => (e.2.base, e.2.length)) ++
  ((d.imagesOf p).map fun e => (e.2.address, e.2.bytes.length)) ++
  ((List.range 16).filterMap fun n =>
    let k := x.blocksIn n
    if k = 0 then none else some ((x.saveBase[n]?).getD 0, k * 0x533000)) ++
  (d.recordsOf p).map (fun r => (r, 256)) ++
  [(x.ringSave, 65536)]

/-- PADDOCK_WINDOW_SET: steps 7 to 12 against a configuration (R371). -/
def windowSetJudge (j : Judging) (p : List Byte) : Check :=
  let n := fieldU8 p 0
  let ws := windowEntries p
  let d := j.before
  firstFail ([d.worldOf j.world n 0] ++
    ((List.range ws.length).map fun i =>
      require (!(j.world == .nonsecure && (ws.getD i default').secure)) resWorldDenied (8 + 16 * i + 12)) ++
    [j.paddockExists n] ++
    (match d.paddock n with
     | none => []
     | some x =>
        ((List.range ws.length).map fun i =>
          require (!((ws.getD i default').secure && decide (x.world = .nonsecure))) resBadArgument (8 + 16 * i + 12)) ++
        [j.atCheck (require (ws.all fun w => d.inMemoryNotTop w.base w.size) resConflict),
         j.atCheck (require (ws.all fun w => j.after.paddocks.all fun e => decide (e.1 = n) || e.2.windows.all fun o =>
            !o.meets w || (o.shared && w.shared && (o.secure == w.secure))) resConflict),
         j.atCheck (require ((j.after.heldRanges n ((j.after.paddock n).getD x)).all fun r =>
            rangeCovered ((j.after.paddock n).getD x).windows (fun _ => true) r.1 r.2) resConflict)]))
where
  /-- An entry past the end. -/
  default' : MemWindow := { base := 0, units := 0, secure := false, shared := false }

/-- PADDOCK_WINDOW_SET at T: the whole set of windows is replaced. -/
def windowSetApply (d : Device) (p : List Byte) : Device :=
  d.updPaddock (fieldU8 p 0) fun x => { x with windows := windowEntries p }

/-- PADDOCK_CREATE. -/
def stagedPaddockCreate : Staged :=
  { minLen := 384, maxLen := 384, form := descriptorForm, judge := paddockCreateJudge, apply := paddockCreateApply }
/-- PADDOCK_MODIFY. -/
def stagedPaddockModify : Staged :=
  { minLen := 384, maxLen := 384, form := descriptorForm, judge := paddockModifyJudge, apply := paddockModifyApply }
/-- PADDOCK_DESTROY. -/
def stagedPaddockDestroy : Staged :=
  { minLen := 8, maxLen := 8, form := paddockOnlyForm, judge := paddockDestroyJudge, apply := paddockDestroyApply }
/-- PADDOCK_WINDOW_SET. -/
def stagedPaddockWindowSet : Staged :=
  { minLen := 8, maxLen := 8 + 16 * 256, form := windowSetForm, judge := windowSetJudge, apply := windowSetApply }

end Sys2Proof.Machine
end

