-- ==== Sys2Proof/Machine/StagedNet.lean ====
section
/-! DEFINITION. The staged commands on queue rings, connections, exposures and ports (R307, R313, R315, R326, R330,
R331). -/

namespace Sys2Proof.Machine

/-! ### Queue rings (R326, R369) -/

/-- A power of two from 16 to 65,536. -/
def ringSize (n : Nat) : Bool := decide (16 ≤ n ∧ n ≤ 65536 ∧ n &&& (n - 1) = 0)

/-- Steps 6 and 7 of QUEUE_CREATE. -/
def queueCreateForm (_ : Device) (p : List Byte) : Check :=
  let fl := fieldU8 p 3
  let kick := bitOf fl 0
  let irq := bitOf fl 1
  firstFail [require (ringSize (fieldU32 p 4)) resBadLength 4, require (ringSize (fieldU32 p 24)) resBadLength 24,
    inRange 0 0 16383 (fieldU16 p 0), inRange 2 0 63 (fieldU8 p 2), flagsIn p 3 3, addressAligned 8 64 (fieldU64 p 8),
    addressAligned 16 32 (fieldU64 p 16),
    require (decide (fieldU16 p 28 < 1024 ∨ fieldU16 p 28 = 0xFFFF)) resBadArgument 28,
    require (if kick then decide (fieldU16 p 30 < 1024) else decide (fieldU16 p 30 = 0xFFFF)) resBadArgument 30,
    inRange 32 1 15 (fieldU8 p 32),
    require (!irq || decide (fieldU8 p 33 ≤ 47)) resBadArgument 33,
    require (!irq || decide (1 ≤ fieldU16 p 34 ∧ fieldU16 p 34 ≤ 2047)) resBadArgument 34, reserved p 36 4,
    require (if kick then decide (fieldU64 p 40 < 2 ^ 46 ∧ fieldU64 p 40 % 8 = 0) else true) resBadArgument 40,
    reserved p 48 16]

/-- A network bell of a die belongs to a paddock. -/
def Device.netBellOf (d : Device) (p die j : Nat) : Bool :=
  match d.netBellOwner die j with
  | some e => decide (e.1 = p)
  | none => false

/-- QUEUE_CREATE: steps 8 to 12. The rings, completion ring and doorbell word lie in the paddock's windows and its bells
belong to the paddock; what a later command of the set may still add is judged at the check. -/
def queueCreateJudge (j : Judging) (p : List Byte) : Check :=
  let q := fieldU16 p 0
  let n := fieldU8 p 2
  let die := q / 4096
  firstFail [j.before.worldOf j.world n 2, j.paddockExists n,
    require (j.before.ring q).isNone resConflict,
    require (decide ((j.before.ringsOf n).length < 1024)) resNoResource,
    j.atCheck (match j.after.paddock n with
      | none => none
      | some x => firstFail [
          require (x.covers (fieldU64 p 8) (64 * fieldU32 p 4)) resBadArgument 8,
          require (x.covers (fieldU64 p 16) (32 * fieldU32 p 24)) resBadArgument 16,
          require (decide (fieldU16 p 28 = 0xFFFF) || j.after.netBellOf n die (fieldU16 p 28)) resBadArgument 28,
          require (!bitOf (fieldU8 p 3) 0 || j.after.netBellOf n die (fieldU16 p 30)) resBadArgument 30,
          require (!bitOf (fieldU8 p 3) 0 || x.covers (fieldU64 p 40) 8) resBadArgument 40])]

/-- QUEUE_CREATE at T. -/
def queueCreateApply (d : Device) (p : List Byte) : Device :=
  let fl := fieldU8 p 3
  let r : Ring :=
    { paddock := fieldU8 p 2, kick := bitOf fl 0, irq := bitOf fl 1, entries := fieldU32 p 4, base := fieldU64 p 8,
      cqBase := fieldU64 p 16, cqEntries := fieldU32 p 24, cqBell := fieldU16 p 28, kickBell := fieldU16 p 30,
      cls := fieldU8 p 32, irqHart := fieldU8 p 33, irqId := fieldU16 p 34, prodAddr := fieldU64 p 40 }
  d.mapNet fun n => { n with rings := Table.put n.rings (fieldU16 p 0) r }

/-- Steps 6 and 7 of QUEUE_DESTROY: `ring` and 6 reserved bytes. -/
def queueDestroyForm (_ : Device) (p : List Byte) : Check :=
  firstFail [inRange 0 0 16383 (fieldU16 p 0), reserved p 2 6]

/-- QUEUE_DESTROY: the ring exists and is not already draining. -/
def queueDestroyJudge (j : Judging) (p : List Byte) : Check :=
  match j.before.ring (fieldU16 p 0) with
  | none => j.atCheck (some { result := resBadState })
  | some r => firstFail [j.before.worldOf j.world r.paddock 0,
      require (decide (r.state ≠ .draining)) resBadState (j.before.stateDetail 3)]

/-- QUEUE_DESTROY at T: the ring takes no descriptor, and is free once those in flight have completed. -/
def queueDestroyApply (d : Device) (p : List Byte) : Device :=
  let q := fieldU16 p 0
  match d.ring q with
  | none => d
  | some r => if r.inFlight.isEmpty then ((d.mapNet fun n => { n with rings := Table.del n.rings q }).settleDemand r.paddock).schedule
      else d.updRing q fun r => { r with state := .draining }

/-! ### Connections (R313 to R315, R317) -/

/-- `cwnd_max` of a CONN_OPEN. -/
def connCwndMax (p : List Byte) : Nat := fieldU32 p 28

/-- Steps 6 and 7 of CONN_OPEN. -/
def connOpenForm (_ : Device) (p : List Byte) : Check :=
  let mgmt := bitOf (fieldU8 p 17) 1
  firstFail [inRange 0 0 1048575 (fieldU32 p 0), inRange 4 0 0x3FFFF (fieldU32 p 4), inRange 8 0 1048575 (fieldU32 p 8),
    require (if mgmt then decide (fieldU8 p 12 = 0xFF) else decide (fieldU8 p 12 ≤ 63)) resBadArgument 12,
    inRange 13 0 3 (fieldU8 p 13), require (decide (fieldU16 p 14 ≠ 0)) resBadArgument 14,
    require (if mgmt then decide (fieldU8 p 16 = 1) else decide (1 ≤ fieldU8 p 16 ∧ fieldU8 p 16 ≤ 15)) resBadArgument 16,
    flagsIn p 17 3, inRange 20 100 20000 (fieldU16 p 20), inRange 22 1 32 (fieldU16 p 22),
    inRange 24 8192 (connCwndMax p) (fieldU32 p 24), inRange 28 8192 2097152 (connCwndMax p),
    inRange 32 100 1000000 (fieldU32 p 32), inRange 36 0 8000 (fieldU16 p 36),
    require (decide (fieldU16 p 38 < 16384 ∨ fieldU16 p 38 = 0xFFFF)) resBadArgument 38, reserved p 42 22]

/-- The fold of a paddock in a configuration, 0 for none. -/
def Device.foldNumber (d : Device) (p : Nat) : Nat := (d.foldOf p).1

/-- Pinned contexts of a die. -/
def Device.pinned (d : Device) (die : Nat) : Nat :=
  (d.net.conns.filter fun c => c.2.pin && decide (c.2.home = die)).length

/-- CONN_OPEN: steps 8 to 12. -/
def connOpenJudge (j : Judging) (p : List Byte) : Check :=
  let c := fieldU32 p 0
  let n := fieldU8 p 12
  let mgmt := bitOf (fieldU8 p 17) 1
  let pin := bitOf (fieldU8 p 17) 0 || mgmt
  let home := fieldU8 p 13
  firstFail [if mgmt then none else j.before.worldOf j.world n 12,
    require (!(mgmt && j.world == .nonsecure && j.before.security.fabric)) resWorldDenied 17,
    require (j.before.conn c).isNone resConflict,
    require (pin || decide (0x20000000000 ≤ j.before.boot.tierBytes)) resNoResource,
    require (!pin || decide (j.before.pinned home < 1024)) resNoResource,
    (if mgmt then none else j.against (j.after.paddock n) (fun _ => true) resBadArgument 12),
    (if fieldU16 p 38 = 0xFFFF then none else
      j.against (j.after.ring (fieldU16 p 38)) (fun r => decide (r.paddock = n ∧ fieldU16 p 38 / 4096 = home)) resBadArgument 38),
    (if mgmt then require (decide (fieldU16 p 40 = 0)) resBadArgument 40
     else j.against (j.after.paddock n) (fun _ => decide (fieldU16 p 40 = j.after.foldNumber n)) resBadArgument 40)]

/-- A connection enters another state: the CONN_STATE event, and on entry to ERROR the CONN_ERROR record (R314). -/
def Device.connEvent (d : Device) (c : Nat) (x : Conn) (code : Nat) : Device :=
  let d1 := d.record { source := d.src (srcNet x.home 0), paddock := x.paddock, code := 0x8005, sub := code, aux := c,
                       addr := x.peer }
  if code = 3 then
    d1.record { source := d.src (srcNet x.home 0), paddock := x.paddock, cls := 3, level := 4, code := 0x42, aux := c,
                addr := x.peer }
  else d1

/-- Contexts that are not pinned and cached on a die. -/
def Device.cachedOn (d : Device) (die : Nat) : List (Nat × Conn) :=
  d.net.conns.filter fun c => c.2.cached && decide (c.2.home = die)

/-- Room is made on a die for one more cached context: the one not pinned with the oldest last use is written back when
8,192 are cached (R317, R318). -/
def Device.evictFor (d : Device) (die : Nat) : Device :=
  let cached := d.cachedOn die
  if cached.length < 8192 then d else
    match leastBy (fun (c : Nat × Conn) => c.2.lastUse) (cached.filter fun c => !c.2.pin) with
    | none => d
    | some c => d.updConn c.1 fun x => { x with cached := false }

/-- CONN_OPEN at T: both streams start at PSN 0 and the window at `cwnd_init` (R313, R325). -/
def connOpenApply (d : Device) (p : List Byte) : Device :=
  let c := fieldU32 p 0
  let fl := fieldU8 p 17
  let x : Conn :=
    { peer := fieldU32 p 4, peerConn := fieldU32 p 8, paddock := fieldU8 p 12, home := fieldU8 p 13,
      links := BitVec.ofNat 16 (fieldU16 p 14), cls := fieldU8 p 16, pin := bitOf fl 0 || bitOf fl 1, mgmt := bitOf fl 1,
      gen := fieldU16 p 18, ccTarget := fieldU16 p 20, ackEvery := fieldU16 p 22, cwndInit := fieldU32 p 24,
      cwndMax := fieldU32 p 28, giveUpUs := fieldU32 p 32, reorder := fieldU16 p 36, recvRing := fieldU16 p 38,
      fold := fieldU16 p 40, cwnd := fieldU32 p 24, lastUse := d.now, progressAt := d.now }
  ((d.evictFor x.home).mapNet fun n => { n with conns := Table.put n.conns c x }).connEvent c x 1

/-- Steps 6 and 7 of CONN_CLOSE: `conn` and 4 reserved bytes. -/
def connForm (_ : Device) (p : List Byte) : Check := firstFail [inRange 0 0 1048575 (fieldU32 p 0), reserved p 4 4]

/-- CONN_CLOSE: the connection is OPEN or in ERROR. -/
def connCloseJudge (j : Judging) (p : List Byte) : Check :=
  match j.before.conn (fieldU32 p 0) with
  | none => j.atCheck (some { result := resBadState })
  | some c => firstFail [j.before.worldOf j.world c.paddock 0,
      require (decide (c.state = .open ∨ c.state = .error)) resBadState (j.before.stateDetail 2)]

/-- A connection is IDLE again: it has no context. -/
def Device.connIdle (d : Device) (c : Nat) (x : Conn) : Device :=
  (d.mapNet fun n => { n with conns := Table.del n.conns c,
                              stranded := n.stranded.filter fun s => decide (s.1 ≠ c) }).connEvent c x 0

/-- A packet of a connection is on its way to it through an OUT window. -/
def Device.outWaits (d : Device) (conn : Nat) : Bool :=
  d.net.windows.any fun e => (e.2.queue ++ e.2.fifo).any fun x => match x.kind with
    | .post k _ => decide (k = conn)
    | _ => false

/-- A CLOSING connection with nothing in flight becomes IDLE (R314). -/
def Device.closeIfDrained (d : Device) (c : Nat) : Device :=
  match d.conn c with
  | none => d
  | some x => if x.state = .closing ∧ x.tx.isEmpty ∧ x.held.isEmpty ∧ x.rxQueued.isEmpty ∧ d.outWaits c = false then d.connIdle c x else d

/-- CONN_CLOSE at T: OPEN goes to CLOSING, ERROR to IDLE. -/
def connCloseApply (d : Device) (p : List Byte) : Device :=
  let c := fieldU32 p 0
  match d.conn c with
  | none => d
  | some x =>
    if x.state = .error then d.connIdle c x
    else if x.state = .open then
      ((d.updConn c fun x => { x with state := .closing }).connEvent c x 2).closeIfDrained c
    else d

/-! ### Exposures (R330, R331) -/

/-- Steps 6 and 7 of EXPOSE_CREATE. -/
def exposeCreateForm (_ : Device) (p : List Byte) : Check :=
  let demand := bitOf (fieldU8 p 6) 0
  let len := fieldU64 p 16
  firstFail [require (decide (4096 ≤ len ∧ len ≤ 2 ^ 43 ∧ len % 4096 = 0)) resBadLength 16,
    inRange 4 0 63 (fieldU8 p 4), inRange 5 1 7 (fieldU8 p 5), flagsIn p 6 1, reserved p 7 1,
    addressAligned 8 4096 (fieldU64 p 8),
    require (if demand then decide (fieldU64 p 24 < 2 ^ 46) else decide (fieldU64 p 24 = 0)) resBadArgument 24,
    require (decide (fieldU16 p 32 = 0xFFFF) || (demand && decide (fieldU16 p 32 < 1024))) resBadArgument 32,
    reserved p 34 30]

/-- The world of the windows that hold a range, none when it is not wholly in windows of one world. -/
def Paddock.rangeWorld (x : Paddock) (a n : Nat) : Option World :=
  if x.coversIn .nonsecure a n then some .nonsecure else if x.coversIn .secure a n then some .secure else none

/-- EXPOSE_CREATE: steps 8 to 12. -/
def exposeCreateJudge (j : Judging) (p : List Byte) : Check :=
  let i := fieldU32 p 0 % 0x100000
  let n := fieldU8 p 4
  firstFail [j.before.worldOf j.world n 4,
    (match j.before.paddock n with
     | some x => require (!(j.world == .nonsecure && x.rangeWorld (fieldU64 p 8) (fieldU64 p 16) == some .secure))
         resWorldDenied 8
     | none => none),
    j.paddockExists n,
    require (match j.before.exposure i with | none => true | some e => decide (e.state = .free)) resConflict,
    j.atCheck (match j.after.paddock n with
      | none => none
      | some x => firstFail [require (x.rangeWorld (fieldU64 p 8) (fieldU64 p 16)).isSome resBadArgument 8,
          require (!bitOf (fieldU8 p 6) 0 || x.covers (fieldU64 p 24) (ceilDiv (fieldU64 p 16) 0x80000)) resBadArgument 24])]

/-- EXPOSE_CREATE at T. -/
def exposeCreateApply (d : Device) (p : List Byte) : Device :=
  let n := fieldU8 p 4
  let w := ((d.paddock n).bind fun x => x.rangeWorld (fieldU64 p 8) (fieldU64 p 16)).getD .nonsecure
  let e : Exposure :=
    { key := fieldU32 p 0, paddock := n, rights := BitVec.ofNat 3 (fieldU8 p 5), onDemand := bitOf (fieldU8 p 6) 0,
      base := fieldU64 p 8, length := fieldU64 p 16, present := fieldU64 p 24, missBell := fieldU16 p 32, world := w, createdAt := d.now }
  d.mapNet fun x => { x with exposures := Table.put x.exposures (fieldU32 p 0 % 0x100000) e }

/-- Steps 6 and 7 of EXPOSE_REVOKE. -/
def exposeRevokeForm (_ : Device) (p : List Byte) : Check :=
  firstFail [inRange 4 0 1000 (fieldU16 p 4), reserved p 6 2]

/-- EXPOSE_REVOKE: the key names a LIVE exposure. -/
def exposeRevokeJudge (j : Judging) (p : List Byte) : Check :=
  match j.before.exposure (fieldU32 p 0 % 0x100000) with
  | none => j.atCheck (some { result := resBadState })
  | some e => firstFail [require (!(j.world == .nonsecure && e.world == .secure)) resWorldDenied 0,
      require (decide (e.key = fieldU32 p 0 ∧ e.state = .live)) resBadState (j.before.stateDetail 0)]

/-- EXPOSE_REVOKE at T: REVOKING, with its grace. -/
def exposeRevokeApply (d : Device) (p : List Byte) : Device :=
  let us := if fieldU16 p 4 = 0 then 20 else fieldU16 p 4
  d.updExposure (fieldU32 p 0 % 0x100000) fun e =>
    { e with state := .revoking, revokeAt := d.now, grace := 800 * us }

/-! ### Ports (R307) -/

/-- Steps 6 and 7 of PORT_CONFIG. -/
def portConfigForm (_ : Device) (p : List Byte) : Check :=
  firstFail ([inRange 0 0 31 (fieldU8 p 0), inRange 1 0 2 (fieldU8 p 1), inRange 2 0 1 (fieldU8 p 2), flagsIn p 3 3,
    require (!bitOf (fieldU8 p 3) 1 || decide (fieldU8 p 2 = 1)) resBadArgument 3,
    inRange 4 0 4095 (fieldU16 p 4),
    require (decide (fieldU8 p 2 = 1 ∨ fieldU64 p 8 = 0)) resBadArgument 8,
    require (decide (fieldU64 p 16 &&& 0x8888888888888888 = 0)) resBadArgument 16] ++
    ((List.range 16).map fun k => inRange (24 + k) 0 63 (fieldU8 p (24 + k))) ++
    [inRange 40 0 2 (fieldU8 p 40), inRange 41 1 255 (fieldU8 p 41), reserved p 42 22])

/-- A link goes to another state: its event (R308). -/
def Device.setLink (d : Device) (l : Nat) (s : LinkState) (code : Nat) : Device :=
  if (d.link l).state = s then d else
    (d.updLink l fun x => { x with state := s, upSince := if s = .up then d.now else x.upSince }).record
      { source := d.src (srcLink l), code := 0x8004, sub := code, aux := l }

/-- Packets in the class queues of a link that went down move in queue order to another up link of their connection, or
wait at the connection (R363); connectionless frames are lost with the link. -/
def Device.moveQueues (d : Device) (l : Nat) : Device :=
  let qs := (List.range 16).flatMap fun k => ((d.link l).queues[k]?).getD []
  let d1 := d.updLink l fun x => { x with queues := Vector.replicate 16 [], sending := none }
  qs.foldl (fun d q =>
    match q.conn with
    | none => d
    | some c =>
      match d.conn c with
      | none => d
      | some x =>
        match d.sprayLink (d.upLinks x.home x.links) (q.out.frame.cls.toNat % 16) with
        | some l' => d.enqueue l' q.out q.conn q.seqOf q.dei
        | none => d.mapNet fun n => { n with stranded := n.stranded ++ [(c, q)] }) d1

/-- A link that was up or training goes down. -/
def Device.linkGoesDown (d : Device) (l : Nat) : Device :=
  if (d.link l).state = .up then (d.setLink l .down 1).moveQueues l else d

/-- PORT_CONFIG at T: a change of mode or medium takes the port's links down and retrains them; in mode 0 link 1 is
ABSENT, in mode 2 both are. -/
def portConfigApply (d : Device) (p : List Byte) : Device :=
  let n := fieldU8 p 0
  let old := d.port n
  let mode := fieldU8 p 1
  let fl := fieldU8 p 3
  let retrain := decide (old.mode ≠ mode ∨ old.medium ≠ fieldU8 p 40)
  let d1 := if retrain then (d.linkGoesDown (2 * n)).linkGoesDown (2 * n + 1) else d
  let d2 := d1.updPort n fun x =>
    { x with mode := mode, encap := fieldU8 p 2, vlanTag := bitOf fl 0, ecn := bitOf fl 1, vlan := fieldU16 p 4,
             udpPort := fieldU16 p 6, ipPrefix := fieldU64 p 8, pcpMap := fieldU64 p 16, dscpMap := bytesAt p 24 16,
             medium := fieldU8 p 40, hopLimit := fieldU8 p 41 }
  if retrain then
    let d3 := if mode = 2 then d2.setLink (2 * n) .absent 0 else d2.setLink (2 * n) .training 2
    if mode = 1 then d3.setLink (2 * n + 1) .training 2 else d3.setLink (2 * n + 1) .absent 0
  else d2

/-- A check that needs no other object. -/
def judgeNothing (_ : Judging) (_ : List Byte) : Check := none

/-- QUEUE_CREATE. -/
def stagedQueueCreate : Staged :=
  { minLen := 64, maxLen := 64, form := queueCreateForm, judge := queueCreateJudge, apply := queueCreateApply }
/-- QUEUE_DESTROY. -/
def stagedQueueDestroy : Staged :=
  { minLen := 8, maxLen := 8, form := queueDestroyForm, judge := queueDestroyJudge, apply := queueDestroyApply }
/-- CONN_OPEN. -/
def stagedConnOpen : Staged :=
  { minLen := 64, maxLen := 64, form := connOpenForm, judge := connOpenJudge, apply := connOpenApply }
/-- CONN_CLOSE. -/
def stagedConnClose : Staged :=
  { minLen := 8, maxLen := 8, form := connForm, judge := connCloseJudge, apply := connCloseApply }
/-- EXPOSE_CREATE. -/
def stagedExposeCreate : Staged :=
  { minLen := 64, maxLen := 64, form := exposeCreateForm, judge := exposeCreateJudge, apply := exposeCreateApply }
/-- EXPOSE_REVOKE. -/
def stagedExposeRevoke : Staged :=
  { minLen := 8, maxLen := 8, form := exposeRevokeForm, judge := exposeRevokeJudge, apply := exposeRevokeApply }
/-- PORT_CONFIG. -/
def stagedPortConfig : Staged :=
  { minLen := 64, maxLen := 64, form := portConfigForm, judge := judgeNothing, apply := portConfigApply }

end Sys2Proof.Machine
end

