-- ==== Sys2Proof/Machine/StagedTraffic.lean ====
section
/-! DEFINITION. The staged commands of the traffic scheduler (R352, R355, R357, R359, R361, R364). -/

namespace Sys2Proof.Machine

/-- Fields that must be zero while a flag is clear. -/
def zeroUnless (enable : Bool) (p : List Byte) (off n : Nat) : Check :=
  require (enable || allZero (bytesAt p off n)) resBadArgument off

/-- A check made only while a flag is set. -/
def whenSet (enable : Bool) (c : Check) : Check := if enable then c else none

/-! ### Weights (R361) -/

/-- Steps 6 and 7 of TRAFFIC_CLASS_SET. -/
def trafficClassForm (_ : Device) (p : List Byte) : Check :=
  firstFail ([inRange 0 0 35 (fieldU8 p 0), reserved p 1 3] ++
    ((List.range 13).map fun w => inRange (4 + w) 1 255 (fieldU8 p (4 + w))) ++ [reserved p 17 15])

/-- The weights of W0 to W12 in a payload. -/
def weightsOf (p : List Byte) : Vector Nat 13 := Vector.ofFn fun (w : Fin 13) => fieldU8 p (4 + w.val)

/-- A link with its deficit round robin started afresh (R364). -/
def Link.restartRobin (l : Link) : Link := { l with deficit := Vector.replicate 13 0, cur := 0, fresh := true }

/-- TRAFFIC_CLASS_SET at T. -/
def trafficClassApply (d : Device) (p : List Byte) : Device :=
  let scope := fieldU8 p 0
  if scope < 32 then
    d.updPort scope fun x =>
      { x with weights := weightsOf p, link0 := x.link0.restartRobin, link1 := x.link1.restartRobin }
  else
    let change := fun (a : Arbiter) =>
      { a with weights := weightsOf p, deficit := Vector.replicate 13 0, cur := 0, fresh := true }
    d.mapNet fun n => { n with arbiters := n.arbiters.setIfInBounds (scope - 32) (change ((n.arbiters[scope - 32]?).getD {})) }

/-! ### Policers (R353, R355) -/

/-- Steps 6 and 7 of TRAFFIC_POLICER_SET. -/
def trafficPolicerForm (_ : Device) (p : List Byte) : Check :=
  let on := bitOf (fieldU8 p 2) 0
  firstFail [inRange 0 0 16383 (fieldU16 p 0), flagsIn p 2 3, zeroUnless (on || !bitOf (fieldU8 p 2) 1) p 2 1,
    reserved p 3 1,
    zeroUnless on p 4 4, whenSet on (inRange 4 1 1600000 (fieldU32 p 4)),
    zeroUnless on p 8 4, whenSet on (inRange 8 (fieldU32 p 4) 1600000 (fieldU32 p 8)),
    zeroUnless on p 12 4, whenSet on (inRange 12 9216 268435456 (fieldU32 p 12)),
    zeroUnless on p 16 4, whenSet on (inRange 16 9216 268435456 (fieldU32 p 16)), reserved p 20 12]

/-- A command that names a queue ring: its world, and at the check that the ring exists. -/
def ringJudge (off : Nat) (j : Judging) (p : List Byte) : Check :=
  match j.before.ring (fieldU16 p off) with
  | none => j.atCheck (some { result := resBadState })
  | some r => j.before.worldOf j.world r.paddock off

/-- TRAFFIC_POLICER_SET at T: full buckets (R364). -/
def trafficPolicerApply (d : Device) (p : List Byte) : Device :=
  let fl := fieldU8 p 2
  d.updRing (fieldU16 p 0) fun r =>
    { r with policed := bitOf fl 0, markDei := bitOf fl 1, cir := fieldU32 p 4, pir := fieldU32 p 8, cbs := fieldU32 p 12,
             pbs := fieldU32 p 16, tc := 6400 * fieldU32 p 12, tp := 6400 * fieldU32 p 16, meterAt := d.now }

/-! ### Shapers (R357) -/

/-- Steps 6 and 7 of TRAFFIC_SHAPER_SET. -/
def trafficShaperForm (_ : Device) (p : List Byte) : Check :=
  let on := bitOf (fieldU8 p 2) 0
  firstFail [inRange 0 0 31 (fieldU8 p 0), inRange 1 1 15 (fieldU8 p 1), flagsIn p 2 1, reserved p 3 1,
    zeroUnless on p 4 4, whenSet on (inRange 4 1 1599999 (fieldU32 p 4)),
    zeroUnless on p 8 4, require (decide (fieldU32 p 8 ≤ 16777215)) resBadArgument 8,
    zeroUnless on p 12 4,
    require (decide (-16777215 ≤ signed 32 (fieldU32 p 12) ∧ signed 32 (fieldU32 p 12) ≤ 0)) resBadArgument 12,
    reserved p 16 16]

/-- TRAFFIC_SHAPER_SET: `idle_slope` lies below the link rate of the mode projected at T. -/
def trafficShaperJudge (j : Judging) (p : List Byte) : Check :=
  j.atCheck (require (!bitOf (fieldU8 p 2) 0 || decide (fieldU32 p 4 < (j.after.port (fieldU8 p 0)).rate)) resConflict)

/-- TRAFFIC_SHAPER_SET at T: the class's credit on both links is 0 (R364). -/
def trafficShaperApply (d : Device) (p : List Byte) : Device :=
  let n := fieldU8 p 0
  let k := fieldU8 p 1
  let clear := fun (l : Link) => { l with credit := l.credit.setIfInBounds k 0 }
  let s : Shaper := { slope := fieldU32 p 4, hi := signed 32 (fieldU32 p 8), lo := signed 32 (fieldU32 p 12) }
  ((d.runCredits (2 * n)).runCredits (2 * n + 1)).updPort n fun x =>
    { x with shapers := if bitOf (fieldU8 p 2) 0 then Table.put x.shapers k s else Table.del x.shapers k,
             link0 := clear x.link0, link1 := clear x.link1 }

/-! ### Time gates (R359) -/

/-- The entries of a TRAFFIC_GATE_LIST payload. -/
def gateEntries (p : List Byte) : List (BitVec 16 × Nat) :=
  (List.range (fieldU16 p 2)).map fun i => (BitVec.ofNat 16 (fieldU16 p (16 + 8 * i)), fieldU32 p (20 + 8 * i))

/-- Steps 6 and 7 of TRAFFIC_GATE_LIST. -/
def trafficGateForm (_ : Device) (p : List Byte) : Check :=
  let on := bitOf (fieldU8 p 1) 0
  let n := fieldU16 p 2
  let cycle := fieldU32 p 8
  firstFail ([require (decide (n ≤ 256) && (!on || decide (1 ≤ n)) && decide (p.length = 16 + 8 * n)) resBadLength 2,
      inRange 0 0 31 (fieldU8 p 0), flagsIn p 1 1, reserved p 4 4,
      whenSet (on || decide (n ≠ 0)) (inRange 8 256 800000000 cycle), whenSet (!on && decide (n = 0)) (zeroUnless (decide (256 ≤ cycle ∧ cycle ≤ 800000000)) p 8 4),
      require (decide (fieldU32 p 12 < max cycle 1)) resBadArgument 12] ++
    (if n ≤ 256 then (List.range n).flatMap fun i =>
      [require (!bitOf (fieldU16 p (16 + 8 * i)) 0) resBadArgument (16 + 8 * i), reserved p (18 + 8 * i) 2,
       inRange (20 + 8 * i) 1 cycle (fieldU32 p (20 + 8 * i))] else []) ++
    [require (decide (n = 0) || decide (((gateEntries p).map (·.2)).sum = cycle)) resBadArgument 8])

/-- TRAFFIC_GATE_LIST at T: the new list is in force from T (R364). -/
def trafficGateApply (d : Device) (p : List Byte) : Device :=
  let n := fieldU8 p 0
  let g : GateList := { cycle := fieldU32 p 8, phase := fieldU32 p 12, entries := gateEntries p }
  let d1 := ((d.runCredits (2 * n)).runCredits (2 * n + 1)).updPort n fun x =>
    { x with gates := if bitOf (fieldU8 p 1) 0 then some g else none }
  d1.updPort n fun x => { x with gatesNow := x.gatesAt d.now }

/-! ### Overhead (R352) -/

/-- Steps 6 and 7 of TRAFFIC_OVERHEAD_SET. -/
def trafficOverheadForm (_ : Device) (p : List Byte) : Check :=
  firstFail [inRange 0 0 31 (fieldU8 p 0), reserved p 1 1,
    require (decide (-64 ≤ signed 16 (fieldU16 p 2) ∧ signed 16 (fieldU16 p 2) ≤ 255)) resBadArgument 2, reserved p 4 4]

/-- TRAFFIC_OVERHEAD_SET at T. -/
def trafficOverheadApply (d : Device) (p : List Byte) : Device :=
  d.updPort (fieldU8 p 0) fun x => { x with overhead := signed 16 (fieldU16 p 2) }

/-- TRAFFIC_CLASS_SET. -/
def stagedTrafficClassSet : Staged :=
  { minLen := 32, maxLen := 32, form := trafficClassForm, judge := judgeNothing, apply := trafficClassApply }
/-- TRAFFIC_POLICER_SET. -/
def stagedTrafficPolicerSet : Staged :=
  { minLen := 32, maxLen := 32, form := trafficPolicerForm, judge := ringJudge 0, apply := trafficPolicerApply }
/-- TRAFFIC_SHAPER_SET. -/
def stagedTrafficShaperSet : Staged :=
  { minLen := 32, maxLen := 32, form := trafficShaperForm, judge := trafficShaperJudge, apply := trafficShaperApply }
/-- TRAFFIC_GATE_LIST. -/
def stagedTrafficGateList : Staged :=
  { minLen := 16, maxLen := 16 + 8 * 256, form := trafficGateForm, judge := judgeNothing, apply := trafficGateApply }
/-- TRAFFIC_OVERHEAD_SET. -/
def stagedTrafficOverheadSet : Staged :=
  { minLen := 8, maxLen := 8, form := trafficOverheadForm, judge := judgeNothing, apply := trafficOverheadApply }

end Sys2Proof.Machine
end

