-- ==== Sys2Proof/Machine/StagedMisc.lean ====
section
/-! DEFINITION. The staged commands on the device as a whole: its id, worlds, fabric manager, fault ring mirror, trace,
Tally role, power limit, cell clocks and the GPIO registers. -/

namespace Sys2Proof.Machine

/-! ### Device id (R95) -/

/-- Steps 6 and 7 of DEVICE_ID_SET. -/
def deviceIdForm (_ : Device) (p : List Byte) : Check := inRange 0 0 0x3FFFF (fieldU32 p 0)

/-- DEVICE_ID_SET: a committed id changes only on a device that nothing addresses by it. -/
def deviceIdJudge (j : Judging) (p : List Byte) : Check :=
  let d := j.before
  j.atCheck (require
    (match d.deviceId with
     | none => true
     | some old => decide (old = fieldU32 p 0) ||
        !((d.net.conns.any fun c => !c.2.mgmt) || (d.service.folds.any fun f => !f.2.members.isEmpty) ||
          (d.net.exposures.any fun e => decide (e.2.state ≠ .free)))) resConflict)

/-- DEVICE_ID_SET at T. -/
def deviceIdApply (d : Device) (p : List Byte) : Device :=
  let new := fieldU32 p 0
  match d.deviceId with
  | none => { d with deviceId := some new }
  | some old => if old = new then d else { d with deviceId := some new, formerIds := (old, d.now) :: d.formerIds.filter fun e => decide (d.now ≤ e.2 + 160000) }

/-! ### Worlds (R443) -/

/-- Steps 6 and 7 of WORLD_SET. -/
def worldSetForm (_ : Device) (p : List Byte) : Check :=
  firstFail [inRange 0 0 0xFFFFFFFFFFFF (fieldU64 p 0), flagsIn p 9 1, reserved p 10 6]

/-- WORLD_SET comes from a SECURE path only. -/
def worldSetJudge (j : Judging) (_ : List Byte) : Check := require (j.world == .secure) resWorldDenied 0

/-- WORLD_SET at T. -/
def worldSetApply (d : Device) (p : List Byte) : Device :=
  d.mapSecurity fun s =>
    { s with harts := BitVec.ofNat 64 (fieldU64 p 0), pairs := BitVec.ofNat 8 (fieldU8 p 8),
             fabric := bitOf (fieldU8 p 9) 0, origin := 2, since := d.now }

/-! ### The fabric manager (R459) -/

/-- The boot nonce: 64 bytes that the security engine drew at this run of the ROM (R461). -/
def Device.bootNonce (d : Device) : List Byte := (List.range 64).map (Config.freeByte d.security.nonceDraw)

/-- The bind statement's digest. -/
def Device.bindStatement (d : Device) (p : List Byte) : List Byte :=
  digest (leBytes 8 d.boot.serial ++ d.bootNonce ++ bytesAt p 0 11)

/-- Steps 6 and 7 of OWN_FABRIC_BIND. -/
def fabricBindForm (_ : Device) (p : List Byte) : Check :=
  let unbind := bitOf (fieldU8 p 11) 0
  firstFail ([require (decide (p.length = if unbind then 16 else 3096)) resBadLength (headerField 8),
    inRange 0 0 0x3FFFF (fieldU32 p 0), inRange 4 0 1048575 (fieldU32 p 4), inRange 10 0 1 (fieldU8 p 10), flagsIn p 11 1,
    reserved p 12 4] ++ (if unbind then [] else [reserved p 1809 7]))

/-- The digest of a fabric manager key is among those the board configuration permits, when it lists any. -/
def Device.managerPermitted (d : Device) (key : List Byte) : Bool :=
  let n := fieldU8 d.security.boardConfig 7
  decide (n = 0) || (List.range n).any fun i => bytesAt d.security.boardConfig (64 + 64 * i) 64 == digest key

/-- OWN_FABRIC_BIND: world, key and proof. -/
def fabricBindJudge (j : Judging) (p : List Byte) : Check :=
  if bitOf (fieldU8 p 11) 0 then none else
    let key := bytesAt p 16 1793
    firstFail [require (!(j.world == .nonsecure && decide (fieldU8 p 10 = 1))) resWorldDenied 10,
      require (Config.falconVerifies key (j.before.bindStatement p) (bytesAt p 1816 1280)) resAuthFailed,
      require (j.before.managerPermitted key) resAuthFailed]

/-- OWN_FABRIC_BIND at T. -/
def fabricBindApply (d : Device) (p : List Byte) : Device :=
  if bitOf (fieldU8 p 11) 0 then d.mapSecurity fun s => { s with bound := none, provisioned := false }
  else d.mapSecurity fun s =>
    { s with bound := some (fieldU32 p 0, fieldU32 p 4, fieldU16 p 8), provisioned := false,
             fabric := decide (fieldU8 p 10 = 1),
             since := if s.fabric = decide (fieldU8 p 10 = 1) then s.since else d.now }

/-! ### The fault ring mirror (R430) -/

/-- Steps 6 and 7 of FAULT_RING_SET. -/
def faultRingForm (d : Device) (p : List Byte) : Check :=
  let fl := fieldU8 p 0
  let on := bitOf fl 0
  let irq := bitOf fl 1
  firstFail [flagsIn p 0 7, require (if irq then decide (fieldU8 p 1 ≤ 47) else decide (fieldU8 p 1 = 0)) resBadArgument 1,
    require (if irq then decide (1 ≤ fieldU16 p 2 ∧ fieldU16 p 2 ≤ 2047) else decide (fieldU16 p 2 = 0)) resBadArgument 2,
    zeroUnless on p 1 1, zeroUnless on p 2 2, reserved p 4 4, zeroUnless on p 8 8,
    whenSet on (addressAligned 8 32 (fieldU64 p 8)),
    whenSet on (require (d.inMemoryNotTop (fieldU64 p 8) 131072) resBadArgument 8), zeroUnless on p 16 8,
    whenSet on (addressAligned 16 8 (fieldU64 p 16)),
    whenSet on (require (d.inMemoryNotTop (fieldU64 p 16) 8) resBadArgument 16)]

/-- FAULT_RING_SET: `SECURE` comes from a SECURE path only. -/
def faultRingJudge (j : Judging) (p : List Byte) : Check :=
  require (!(j.world == .nonsecure && bitOf (fieldU8 p 0) 2)) resWorldDenied 0

/-- FAULT_RING_SET at T. -/
def faultRingApply (d : Device) (p : List Byte) : Device :=
  let fl := fieldU8 p 0
  d.mapFaults fun f =>
    { f with mirror := { enable := bitOf fl 0, irq := bitOf fl 1, secure := bitOf fl 2, hart := fieldU8 p 1,
                         irqId := fieldU16 p 2, base := fieldU64 p 8, prodAddr := fieldU64 p 16 } }

/-! ### Trace (R523) -/

/-- Number of objects of a trace kind. -/
def traceObjects (kind : Nat) : Nat :=
  if kind ≤ 2 then 69632 else if kind ≤ 4 then 256 else if kind ≤ 6 then 16384 else if kind ≤ 8 then 64 else 0xFFFF

/-- Steps 6 and 7 of TRACE_CONFIG. -/
def traceConfigForm (_ : Device) (p : List Byte) : Check :=
  let on := bitOf (fieldU8 p 0) 0
  let n := fieldU8 p 1
  firstFail ([require (decide (n ≤ 8) && (!on || decide (1 ≤ n)) && decide (p.length = 8 + 16 * n)) resBadLength 1] ++
    (if n ≤ 8 then (List.range n).map fun i =>
      let o := 8 + 16 * i
      require (decide (1 ≤ fieldU32 p (o + 8)) &&
        (decide (fieldU8 p o < 1 ∨ 9 < fieldU8 p o) ||
          decide (fieldU32 p (o + 4) + fieldU32 p (o + 8) ≤ traceObjects (fieldU8 p o)))) resBadLength (o + 8) else []) ++
    [flagsIn p 0 3, reserved p 2 6] ++
    (if n ≤ 8 then (List.range n).flatMap fun i =>
      let o := 8 + 16 * i
      [inRange o 1 9 (fieldU8 p o), require (decide (fieldU8 p (o + 1) ≤ 63 ∨ fieldU8 p (o + 1) = 0xFF)) resBadArgument (o + 1),
       reserved p (o + 2) 2, reserved p (o + 12) 4] else []))

/-- TRACE_CONFIG at T: the buffer is emptied, and the sequence numbers run on. -/
def traceConfigApply (d : Device) (p : List Byte) : Device :=
  d.mapTrace fun t =>
    { t with enable := bitOf (fieldU8 p 0) 0, stopFull := bitOf (fieldU8 p 0) 1, entries := [],
             filters := (List.range (fieldU8 p 1)).map fun i =>
               { kind := fieldU8 p (8 + 16 * i), paddock := fieldU8 p (9 + 16 * i), first := fieldU32 p (12 + 16 * i),
                 count := fieldU32 p (16 + 16 * i) } }

/-! ### The Tally's role (R53, R60) -/

/-- Steps 6 and 7 of CLOCK_TALLY_CONFIG. -/
def tallyConfigForm (_ : Device) (p : List Byte) : Check :=
  let role := fieldU8 p 0
  let link := fun v => decide (v ≤ 63 ∨ v = 0xFF)
  firstFail [inRange 0 0 2 role, flagsIn p 1 3, require (!bitOf (fieldU8 p 1) 0 || decide (role = 1)) resBadArgument 1,
    require (link (fieldU8 p 2) && (decide (role = 1) == decide (fieldU8 p 2 = 0xFF))) resBadArgument 2,
    require (link (fieldU8 p 3) && (decide (role ≠ 1) || decide (fieldU8 p 3 = 0xFF))) resBadArgument 3,
    inRange 4 0 0x3FFFF (fieldU32 p 4),
    require (decide (fieldU8 p 3 = 0xFF ∨ fieldU32 p 8 ≤ 0x3FFFF)) resBadArgument 8,
    inRange 12 0 0x3FFFF (fieldU32 p 12), inRange 16 100 100000 (fieldU32 p 16), inRange 20 1 32 (fieldU8 p 20),
    reserved p 21 1, inRange 22 1 60000 (fieldU16 p 22), inRange 24 1 1000 (fieldU16 p 24), reserved p 26 2,
    reserved p 36 28]

/-- The configuration a CLOCK_TALLY_CONFIG carries. -/
def tallyConfigOf (p : List Byte) : TallyConfig :=
  { role := (match fieldU8 p 0 with | 1 => .root | 2 => .backupRoot | _ => .member), committed := true,
    ppsIn := bitOf (fieldU8 p 1) 0, syncOnly := bitOf (fieldU8 p 1) 1, primaryLink := fieldU8 p 2,
    backupLink := fieldU8 p 3, primaryParent := fieldU32 p 4, backupParent := fieldU32 p 8, rootId := fieldU32 p 12,
    intervalUs := fieldU32 p 16, burst := fieldU8 p 20, holdoverLaneMs := fieldU16 p 22, holdoverFreeMs := fieldU16 p 24,
    asymPrimary := signed 32 (fieldU32 p 28), asymBackup := signed 32 (fieldU32 p 32) }

/-- CLOCK_TALLY_CONFIG at T: a ROOT without `PPS_IN` is LOCKED, one with it is in ACQUIRE; any other role keeps the
Tally's state. -/
def tallyConfigApply (d : Device) (p : List Byte) : Device :=
  let c := tallyConfigOf p
  let d1 := d.mapTally fun t =>
    { t with cfg := c, useBackup := false, actingRoot := false, burstSent := [], burstDone := [], burstOpen := false,
             burstAccepted := false, burstBackup := false, lastBurst := none, goodBursts := 0, missedInRow := 0,
             ppsOut := t.ppsOut && decide (t.state = .locked ∨ t.state = .holdover ∨ c.role = .root),
             laneLostAt := if c.primaryLink ≠ 0xFF ∧ (d.link c.primaryLink).state = .up then none
               else some (t.laneLostAt.getD t.now) }
  match c.role with
  | .root => d1.setTallyState (if c.ppsIn then .acquire else .locked)
  | _ => d1

/-! ### Power and clocks (R469, R470, R477) -/

/-- Steps 6 and 7 of POWER_LIMIT_SET. -/
def powerLimitForm (_ : Device) (p : List Byte) : Check :=
  firstFail [inRange 0 600 2400 (fieldU16 p 0), inRange 2 50 260 (fieldU16 p 2), inRange 4 70 105 (fieldU8 p 4),
    reserved p 5 3]

/-- POWER_LIMIT_SET at T. -/
def powerLimitApply (d : Device) (p : List Byte) : Device :=
  d.mapPower fun w => { w with limitW := fieldU16 p 0, groupA := fieldU16 p 2, thermC := fieldU8 p 4 }

/-- An image places code in a region. -/
def imageInRegion (im : List Byte) (n : Nat) : Bool := (imageCode im).any fun e => decide (regionOf e.1 = n)

/-- Floor of a region in MHz (R469). -/
def Device.floorMhz (d : Device) (n : Nat) : Nat :=
  (d.images.filter fun e => decide (e.2.state = .resident) && imageInRegion e.2.bytes n).foldl
    (fun m e => Nat.max m (imageMhz e.2.bytes)) 1000

/-- Steps 6 and 7 of CLOCK_REGION_SET. -/
def clockRegionForm (_ : Device) (p : List Byte) : Check :=
  firstFail [require (decide (fieldU8 p 0 ≤ 15 ∨ fieldU8 p 0 = 0xFF)) resBadArgument 0, flagsIn p 1 1,
    require (decide (1000 ≤ fieldU16 p 2 ∧ fieldU16 p 2 ≤ 3300 ∧ fieldU16 p 2 % 25 = 0)) resBadArgument 2,
    inRange 4 0 10000 (fieldU16 p 4), reserved p 6 2]

/-- Regions a CLOCK_REGION_SET names. -/
def clockRegions (p : List Byte) : List Nat := if fieldU8 p 0 = 0xFF then List.range 16 else [fieldU8 p 0]

/-- CLOCK_REGION_SET: not below the floor of a named region. -/
def clockRegionJudge (j : Judging) (p : List Byte) : Check :=
  j.atCheck (require ((clockRegions p).all fun n => decide (j.before.floorMhz n ≤ fieldU16 p 2)) resConflict)

/-- A region's CCLK runs below its set CCLK, or leaves it on its way down, or the region skips frames (R476). -/
def RegionClock.throttled (r : RegionClock) : Bool :=
  !r.deep && decide (Nat.min r.runningMhz r.targetMhz < r.setMhz) || decide (0 < r.skip)

/-- THROTTLE_N follows the running and set clocks and the skips (R476); the ticks it is low are counted (R488). -/
def Device.settleThrottle (d : Device) : Device :=
  let low := (List.range 16).any fun n => (d.clock n).throttled
  if low = d.power.throttleLow then d else
    d.mapPower fun w =>
      { w with throttleLow := low, throttleSince := if low then d.now else w.throttleSince,
               throttleTicks := if low then w.throttleTicks else w.throttleTicks + (d.now - w.throttleSince) }

/-- CLOCK_REGION_SET at T: the running CCLK slews to the new set CCLK, below it as far as steps on the throttle stack
hold it (log entry 16). -/
def clockRegionApply (d : Device) (p : List Byte) : Device :=
  let set := fieldU16 p 2
  let change := fun (n : Nat) (r : RegionClock) =>
    let held := d.power.steps.any fun s => s.before.any fun e => decide (e.1 = n)
    let target := if held then Nat.min r.targetMhz set else set
    { r with setMhz := set, noDeep := bitOf (fieldU8 p 1) 0, sleepUs := fieldU16 p 4, targetMhz := target,
             runningMhz := if r.deep then target else r.runningMhz }
  (((clockRegions p).foldl (fun d n => d.updClock n (change n)) d).restRegions).settleThrottle

/-! ### GPIO (R104, R518) -/

/-- A write to `GPIO_DIR` or `GPIO_OUT` held in a set: page offset and value. -/
def gpioApply (d : Device) (p : List Byte) : Device :=
  let v := BitVec.ofNat 16 (fieldU64 p 8)
  d.mapPaths fun c => if fieldU64 p 0 = 0x0148 then { c with gpioDir := v } else { c with gpioOut := v }

/-- A check that passes. -/
def formNothing (_ : Device) (_ : List Byte) : Check := none

/-- DEVICE_ID_SET. -/
def stagedDeviceIdSet : Staged :=
  { minLen := 4, maxLen := 4, form := deviceIdForm, judge := deviceIdJudge, apply := deviceIdApply }
/-- WORLD_SET. -/
def stagedWorldSet : Staged :=
  { minLen := 16, maxLen := 16, form := worldSetForm, judge := worldSetJudge, apply := worldSetApply }
/-- OWN_FABRIC_BIND. -/
def stagedFabricBind : Staged :=
  { minLen := 16, maxLen := 3096, form := fabricBindForm, judge := fabricBindJudge, apply := fabricBindApply }
/-- FAULT_RING_SET. -/
def stagedFaultRingSet : Staged :=
  { minLen := 24, maxLen := 24, form := faultRingForm, judge := faultRingJudge, apply := faultRingApply }
/-- TRACE_CONFIG. -/
def stagedTraceConfig : Staged :=
  { minLen := 8, maxLen := 136, form := traceConfigForm, judge := judgeNothing, apply := traceConfigApply }
/-- CLOCK_TALLY_CONFIG. -/
def stagedTallyConfig : Staged :=
  { minLen := 64, maxLen := 64, form := tallyConfigForm, judge := judgeNothing, apply := tallyConfigApply }
/-- POWER_LIMIT_SET. -/
def stagedPowerLimitSet : Staged :=
  { minLen := 8, maxLen := 8, form := powerLimitForm, judge := judgeNothing, apply := powerLimitApply }
/-- CLOCK_REGION_SET. -/
def stagedClockRegionSet : Staged :=
  { minLen := 8, maxLen := 8, form := clockRegionForm, judge := clockRegionJudge, apply := clockRegionApply }
/-- A register write held in a set (R104). -/
def stagedGpio : Staged :=
  { minLen := 16, maxLen := 16, form := formNothing, judge := judgeNothing, apply := gpioApply }

end Sys2Proof.Machine
end

