-- ==== Sys2Proof/Machine/StagedServe.lean ====
section
/-! DEFINITION. The staged commands on folds, droves, the prefix tree, tensor bindings and serving (R204, R238, R239,
R251, R291, R292, R296, R302, R394). -/

namespace Sys2Proof.Machine

/-! ### Folds (R290 to R292) -/

/-- A fold by its number. -/
def Device.fold (d : Device) (f : Nat) : Option Fold := Table.find d.service.folds f

/-- A fold put in place. -/
def Device.putFold (d : Device) (n : Nat) (f : Fold) : Device :=
  d.mapService fun s => { s with folds := Table.put s.folds n f }

/-- Steps 6 and 7 of FOLD_JOIN and FOLD_LEAVE. -/
def foldMemberForm (_ : Device) (p : List Byte) : Check :=
  firstFail [inRange 0 1 65535 (fieldU16 p 0), inRange 2 0 63 (fieldU8 p 2), reserved p 3 5]

/-- A map lists a paddock of this device with a role. -/
def Device.mapLists (d : Device) (m : FoldMap) (paddock role : Nat) : Bool :=
  m.entries.any fun e => decide (e.1 = d.deviceId.getD 0 ∧ e.2.1 = paddock ∧ e.2.2 = role)

/-- The map of a fold in effect lists a paddock with its role. -/
def Device.foldLists (d : Device) (f paddock role : Nat) : Bool :=
  match (d.fold f).bind (·.current) with
  | some m => d.mapLists m paddock role
  | none => false

/-- FOLD_JOIN: steps 8 to 12. -/
def foldJoinJudge (j : Judging) (p : List Byte) : Check :=
  let f := fieldU16 p 0
  let n := fieldU8 p 2
  let d := j.before
  firstFail [d.worldOf j.world n 2, j.paddockExists n,
    require ((d.fold f).isSome || decide (d.service.folds.length < 64)) resNoResource,
    require (decide ((d.paddock n).isNone ∨ d.foldNumber n = 0)) resConflict,
    j.atCheck (match j.after.paddock n with
      | none => none
      | some x => require (j.after.foldLists f n x.role) resConflict)]

/-- FOLD_JOIN at T: the paddock is a member, its figures start at 0. A join after a leave clears the fold's own figures and
those of the paddocks that have left; the entries of its other members stand (R305, DEDUCED, log entry 89). -/
def foldJoinApply (d : Device) (p : List Byte) : Device :=
  let f := fieldU16 p 0
  let n := fieldU8 p 2
  let x := (d.fold f).getD {}
  d.putFold f { x with members := Table.put x.members n { since := d.now }, former := Table.mapAll
                         (x.former.filter fun e => decide (e.1 ≠ n) && x.leaving.any fun l => decide (l.1 = e.1 ∧ d.now < l.2))
                         fun _ m => { since := d.now, endAt := m.endAt },
                       leaving := x.leaving.filter fun e => decide (e.1 ≠ n),
                       resident := if x.former.isEmpty then x.resident else 0,
                       active := if x.former.isEmpty then x.active else 0 }

/-- FOLD_LEAVE: the paddock is a member. -/
def foldLeaveJudge (j : Judging) (p : List Byte) : Check :=
  let n := fieldU8 p 2
  firstFail [j.before.worldOf j.world n 2, j.paddockExists n,
    j.atCheck (require (decide (j.before.foldNumber n = fieldU16 p 0)) resBadState)]

/-- FOLD_LEAVE at T: the paddock drains for the drain window of the map in effect. -/
def foldLeaveApply (d : Device) (p : List Byte) : Device :=
  let f := fieldU16 p 0
  let n := fieldU8 p 2
  match d.fold f with
  | none => d
  | some x =>
    match Table.find x.members n with
    | none => d
    | some m =>
      let last := d.now + 800 * ((x.current.map (·.drainUs)).getD 0)
      d.putFold f { x with members := Table.del x.members n, former := Table.put x.former n { m with endAt := last },
                           leaving := x.leaving ++ [(n, last)] }

/-- Entry i of a fold map payload as a 64-bit word. -/
def mapWord (p : List Byte) (i : Nat) : Nat := fieldU64 p (64 + 8 * i)

/-- Distinct device ids among the first `n` entries, which are sorted. -/
def mapDevices (p : List Byte) (n : Nat) : Nat :=
  ((List.range n).filter fun i => decide (i = 0) || decide (mapWord p i / 2 ^ 46 ≠ mapWord p (i - 1) / 2 ^ 46)).length

/-- Steps 6 and 7 of FOLD_MAP_SET. -/
def foldMapForm (_ : Device) (p : List Byte) : Check :=
  let n := fieldU32 p 8
  firstFail ([require (decide (1 ≤ n ∧ n ≤ 1048576 ∧ p.length = 64 + 8 * n)) resBadLength 8,
      inRange 0 1 65535 (fieldU16 p 0), reserved p 2 2, inRange 4 1 0xFFFFFFFE (fieldU32 p 4),
      inRange 20 10 100000 (fieldU32 p 20), reserved p 24 40] ++
    (if n ≤ 1048576 then (List.range n).map fun i =>
      let w := mapWord p i
      require (decide (w % 2 ^ 37 = 0 ∧ w / 2 ^ 37 % 8 ≤ 3) &&
        (decide (i = 0) || decide (mapWord p (i - 1) / 2 ^ 40 < w / 2 ^ 40))) resBadArgument (64 + 8 * i)
      else []) ++
    [if n ≤ 1048576 then require (decide (fieldU32 p 12 = mapDevices p n)) resBadArgument 12 else none])

/-- The map a payload carries. -/
def foldMapOf (p : List Byte) : FoldMap :=
  { version := fieldU32 p 4, devices := fieldU32 p 12, drainUs := fieldU32 p 20,
    entries := (List.range (fieldU32 p 8)).map fun i =>
      let w := mapWord p i
      (w / 2 ^ 46, w / 2 ^ 40 % 64, w / 2 ^ 37 % 8) }

/-- FOLD_MAP_SET: version and founding size against the map it follows, and every local member listed. -/
def foldMapJudge (j : Judging) (p : List Byte) : Check :=
  let f := fieldU16 p 0
  let d := j.before
  firstFail [
    require ((d.fold f).isSome || decide (d.service.folds.length < 64)) resNoResource,
    (match (d.fold f).bind (·.current) with
     | none => require (decide (fieldU32 p 16 = fieldU32 p 12)) resBadArgument 16
     | some m => firstFail [require (decide (m.version < fieldU32 p 4)) resBadArgument 4,
         require (decide (fieldU32 p 16 = ((d.fold f).map (·.founded)).getD 0)) resBadArgument 16]),
    j.atCheck (match j.after.fold f with
      | none => none
      | some x => require (x.members.all fun e =>
          match j.after.paddock e.1 with
          | none => true
          | some y => j.after.foldLists f e.1 y.role) resConflict)]

/-- FOLD_MAP_SET at T: the old map is held as the previous one until T plus `drain_us`. -/
def foldMapApply (d : Device) (p : List Byte) : Device :=
  let f := fieldU16 p 0
  let x := (d.fold f).getD {}
  let m := foldMapOf p
  d.putFold f { x with current := some m, previous := x.current, mapAt := d.now,
                       drainEnd := if x.current.isSome then d.now + 800 * m.drainUs else 0,
                       founded := if x.current.isSome then x.founded else fieldU32 p 16 }

/-! ### Droves and the prefix tree (R287, R296, R302) -/

/-- Steps 6 and 7 of DROVE_CONFIG. -/
def droveConfigForm (_ : Device) (p : List Byte) : Check :=
  let n := fieldU8 p 1
  firstFail ([require (decide (1 ≤ n ∧ n ≤ 16 ∧ p.length = 16 + 16 * n)) resBadLength 1] ++
    ((List.range (Nat.min n 16)).map fun i => require (decide (fieldU32 p (28 + 16 * i) ≤ fieldU32 p (24 + 16 * i))) resBadLength (28 + 16 * i)) ++
    [inRange 0 0 63 (fieldU8 p 0), reserved p 2 2, inRange 4 40000 800000000 (fieldU32 p 4), reserved p 8 8] ++
    ((List.range (Nat.min n 16)).map fun i => addressAligned (16 + 16 * i) 4 (fieldU64 p (16 + 16 * i))))

/-- Page sets a pool holds (R287). -/
def Pool.sets (k : Pool) (c : ServeConfig) : Nat := k.slots / max (c.layers * c.groups) 1

/-- The stacks a DROVE_CONFIG carries. -/
def droveStacks (p : List Byte) : List (Nat × Nat × Nat) :=
  (List.range (fieldU8 p 1)).map fun i => (fieldU64 p (16 + 16 * i), fieldU32 p (24 + 16 * i), fieldU32 p (28 + 16 * i))

/-- A record of the paddock is HANDING, or OWNED with SETTLING. -/
def Device.handing (d : Device) (n : Nat) : Bool :=
  (d.recordsOf n).any fun a => decide (d.loadLe a 1 = 2) || bitOf (d.loadLe (a + 1) 1) 0

/-- DROVE_CONFIG: steps 8 to 12. -/
def droveConfigJudge (j : Judging) (p : List Byte) : Check :=
  let n := fieldU8 p 0
  let d := j.before
  firstFail [d.worldOf j.world n 0, j.paddockExists n,
    (match (j.after.serving n).cfg with
     | none => j.atCheck (some { result := resConflict })
     | some c => firstFail ([require (decide (fieldU8 p 1 = c.pools.length)) resBadLength 1] ++
         (List.range c.pools.length).map fun i =>
           require (match c.pools[i]? with
             | some k => decide (fieldU32 p (24 + 16 * i) = k.sets c)
             | none => true) resBadLength (24 + 16 * i))),
    require (decide ((d.droveState n).pageStacks = droveStacks p) || !d.handing n) resConflict]

/-- DROVE_CONFIG at T. -/
def droveConfigApply (d : Device) (p : List Byte) : Device :=
  d.updDrove (fieldU8 p 0) fun s => { s with deadline := fieldU32 p 4, pageStacks := droveStacks p }

/-- Steps 6 and 7 of PREFIX_CONFIG. -/
def prefixConfigForm (_ : Device) (p : List Byte) : Check :=
  firstFail [sizeIn 1 10 26 (fieldU8 p 1), inRange 0 0 63 (fieldU8 p 0), inRange 2 1 255 (fieldU8 p 2),
    inRange 3 0 15 (fieldU8 p 3), reserved p 4 4, addressAligned 8 64 (fieldU64 p 8), addressAligned 16 4 (fieldU64 p 16)]

/-- Number of prefix nodes of a table that pass a test of their 64 bytes. -/
def Device.countNodes (d : Device) (table log2 : Nat) (test : List Byte → Bool) : Nat :=
  ((List.range (2 ^ log2)).filter fun i => test (d.load (table + 64 * i) 64)).length

/-- PREFIX_CONFIG: a CACHE or MIXED paddock, the pool of its layout, and no pinned node under a change. -/
def prefixConfigJudge (j : Judging) (p : List Byte) : Check :=
  let n := fieldU8 p 0
  let d := j.before
  let new := (fieldU8 p 1, fieldU8 p 2, fieldU8 p 3, fieldU64 p 8, fieldU64 p 16)
  firstFail [d.worldOf j.world n 0, j.paddockExists n,
    (match d.paddock n with
     | none => none
     | some x => require (decide (2 ≤ x.role)) resConflict),
    (match (j.after.serving n).cfg with
     | none => none
     | some c => require (decide (fieldU8 p 3 < c.pools.length)) resBadArgument 3),
    (match (d.droveState n).prefixCfg with
     | none => none
     | some old => require (decide (old = new) ||
         decide (d.countNodes old.2.2.2.1 old.1 (fun b => bitOf (fieldU8 b 14) 0 && decide (fieldU32 b 24 ≠ 0)) = 0)) resConflict)]

/-- PREFIX_CONFIG at T. -/
def prefixConfigApply (d : Device) (p : List Byte) : Device :=
  d.updDrove (fieldU8 p 0) fun s =>
    { s with prefixCfg := some (fieldU8 p 1, fieldU8 p 2, fieldU8 p 3, fieldU64 p 8, fieldU64 p 16) }

/-! ### Tensor bindings (R238, R239, R251) -/

/-- The reserved bits of a binding that removes: its other fields mean nothing (R238, R239). -/
def removalForm (b : List Byte) (off : Nat) : Check :=
  firstFail [require (decide (fieldU8 b 3 ≤ 1)) resBadArgument (off + 3), require (allZero (bytesAt b 20 12)) resBadArgument (off + 20)]

/-- The values and reserved fields of a binding of 32 bytes that begins at an offset of the payload. `spill_slots` is a count
and answers BAD_LENGTH, by R84 (DEDUCED, log entry 90). -/
def bindingForm (b : List Byte) (off : Nat) : Check :=
  let size := fieldU16 b 4
  firstFail [require (decide (fieldU8 b 2 = 1 ∨ fieldU8 b 2 = 2 ∨ fieldU8 b 2 = 4)) resBadArgument (off + 2),
    require (decide (fieldU8 b 3 ≤ 1)) resBadArgument (off + 3),
    require (decide (1024 ≤ size ∧ size ≤ 3584 ∧ size % 512 = 0)) resBadArgument (off + 4),
    require (decide (1 ≤ fieldU8 b 6 % 64)) resBadArgument (off + 6),
    require (decide (fieldU8 b 7 ≤ 16)) resBadArgument (off + 7),
    require (decide (fieldU64 b 8 < 2 ^ 46 ∧ fieldU64 b 8 % 4096 = 0 ∧ (fieldU32 b 16 ≠ 0 ∨ fieldU64 b 8 = 0)))
      resBadArgument (off + 8),
    require (allZero (bytesAt b 20 12)) resBadArgument (off + 20)]

/-- `spill_slots` of a binding lies in its range (R84, R238). -/
def bindingCount (b : List Byte) (off : Nat) : Check := sizeIn (off + 16) 0 16777216 (fieldU32 b 16)

/-- Bytes of a spill area: its bitmap and its slots (R254). -/
def spillBytes (slots : Nat) : Nat := 4096 * (ceilDiv slots 32768 + slots)

/-- A codebook slot of a paddock. -/
def Device.book (d : Device) (p slot : Nat) : Codebook := (Table.find d.service.books (4 * p + slot)).getD {}

/-- A binding judged against a paddock's windows and codebook slots (R239). At staging no window may hold the spill area
yet, and it is then not judged (R100). -/
def Device.bindingJudge (d : Device) (p : Nat) (b : List Byte) (off : Nat) (staging : Bool := false) : Check :=
  match d.paddock p with
  | none => none
  | some x =>
    let slots := fieldU32 b 16
    let base := fieldU64 b 8
    let book := d.book p (fieldU8 b 6 / 64)
    firstFail [
      require (decide (slots = 0) || !x.covers base 1 || x.inOneWindow base (spillBytes slots)) resBadLength (off + 16),
      require (staging || decide (slots = 0) || x.covers base 1) resBadArgument (off + 8),
      require (decide (book.state = .ready ∧ book.generation = fieldU8 b 6 % 64 ∧ fieldU8 book.record 0 = fieldU8 b 2)) resConflict]

/-- Bindings of a BALE_TENSOR_SET payload with their offsets. -/
def tensorEntries (p : List Byte) : List (Nat × List Byte) :=
  (List.range (Nat.min (fieldU32 p 4) 256)).map fun i => (8 + 32 * i, bytesAt p (8 + 32 * i) 32)

/-- A binding that removes: `bale_size` 0. -/
def bindingRemoves (b : List Byte) : Bool := decide (fieldU16 b 4 = 0)

/-- Steps 6 and 7 of BALE_TENSOR_SET. -/
def tensorSetForm (_ : Device) (p : List Byte) : Check :=
  let n := fieldU32 p 4
  firstFail ([require (decide (1 ≤ n ∧ n ≤ 256 ∧ p.length = 8 + 32 * n)) resBadLength 4, inRange 0 0 63 (fieldU8 p 0),
      reserved p 1 3] ++
    ((tensorEntries p).map fun e => if bindingRemoves e.2 then none else bindingCount e.2 e.1) ++
    (tensorEntries p).flatMap fun e =>
      [inRange e.1 2048 4095 (fieldU16 e.2 0), if bindingRemoves e.2 then removalForm e.2 e.1 else bindingForm e.2 e.1])

/-- BALE_TENSOR_SET: steps 8 to 12; windows are judged as the whole set leaves them at the check. -/
def tensorSetJudge (j : Judging) (p : List Byte) : Check :=
  let n := fieldU8 p 0
  firstFail ([j.before.worldOf j.world n 0, j.paddockExists n] ++
    (tensorEntries p).map fun e => if bindingRemoves e.2 then none else j.after.bindingJudge n e.2 e.1 j.staging)

/-- BALE_TENSOR_SET at T. -/
def tensorSetApply (d : Device) (p : List Byte) : Device :=
  d.updPaddock (fieldU8 p 0) fun x =>
    { x with tensors := (tensorEntries p).foldl (fun t e =>
        if bindingRemoves e.2 then Table.del t (fieldU16 e.2 0) else Table.put t (fieldU16 e.2 0) e.2) x.tensors }

/-! ### Serving (R204, R205, R394, R395) -/

/-- An FP32 word is positive, finite and normal. -/
def fpPositiveNormal (v : Nat) : Bool := decide (0x00800000 ≤ v ∧ v < 0x7F800000)

/-- Bytes of a raw page (R205). -/
def rawPageBytes (fmt d : Nat) : Nat := 32 * d * (if fmt = 3 ∨ fmt = 4 then 1 else 2)

/-- Raw blocks of a page (R205). -/
def ServeConfig.blocksPerPage (c : ServeConfig) : Nat := rawPageBytes c.kvFmt c.headDim / 4096

/-- The serving configuration a payload carries. -/
def serveConfigOf (p : List Byte) : ServeConfig :=
  { stepDie := fieldU8 p 1, specMax := fieldU8 p 2, restoreRun := fieldU8 p 3, slots := fieldU16 p 4,
    candidates := fieldU16 p 6, stepTokens := fieldU32 p 8, vocab := fieldU32 p 12, leadBlock := fieldU16 p 16,
    startBell := fieldU8 p 18, maskBell := fieldU8 p 19, draftBell := fieldU16 p 20, sampleBell := fieldU16 p 22,
    regions := BitVec.ofNat 16 (fieldU16 p 24), area := fieldU64 p 32, areaBytes := fieldU32 p 40,
    kvFmt := fieldU8 p 64, kvSm := fieldU8 p 65, headDim := fieldU16 p 66, groups := fieldU8 p 68, heads := fieldU8 p 69,
    layers := fieldU16 p 70, kScale := BitVec.ofNat 32 (fieldU32 p 72), vScale := BitVec.ofNat 32 (fieldU32 p 76),
    scoreScale := BitVec.ofNat 32 (fieldU32 p 80), kvTensor := fieldU16 p 84, kvFlags := BitVec.ofNat 3 (fieldU8 p 86),
    biasBase := fieldU64 p 88,
    pools := (List.range (Nat.min (fieldU8 p 87) 16)).map fun i =>
      { base := fieldU64 p (128 + 32 * i), slots := fieldU32 p (136 + 32 * i), summary := fieldU64 p (144 + 32 * i) } }

/-- Steps 6 and 7 of SERVE_CONFIG. -/
def serveConfigForm (d : Device) (p : List Byte) : Check :=
  let n := fieldU8 p 87
  let fl := fieldU8 p 86
  let fmt := fieldU8 p 64
  let raw := rawPageBytes fmt (fieldU16 p 66)
  firstFail ([require (decide (1 ≤ n ∧ n ≤ 16 ∧ p.length = 128 + 32 * n)) resBadLength 87,
    sizeIn 40 64 268435456 (fieldU32 p 40)] ++
    ((List.range (Nat.min n 16)).map fun i => sizeIn (128 + 32 * i + 8) 1 268435456 (fieldU32 p (128 + 32 * i + 8))) ++ [
    inRange 0 0 63 (fieldU8 p 0), inRange 1 0 3 (fieldU8 p 1), inRange 2 0 16 (fieldU8 p 2), inRange 3 1 255 (fieldU8 p 3),
    inRange 4 1 8192 (fieldU16 p 4), inRange 6 1 1024 (fieldU16 p 6), inRange 8 1 1048576 (fieldU32 p 8),
    inRange 12 2 1048576 (fieldU32 p 12), inRange 16 0 1023 (fieldU16 p 16), inRange 18 0 63 (fieldU8 p 18),
    inRange 19 0 63 (fieldU8 p 19), inRange 20 0 1023 (fieldU16 p 20), inRange 22 0 1023 (fieldU16 p 22), reserved p 26 6,
    addressAligned 32 64 (fieldU64 p 32), require (inHbm (fieldU64 p 32) 1) resBadArgument 32,
    reserved p 44 20,
    inRange 64 1 4 fmt, require (decide (fieldU8 p 65 = if fmt = 3 ∨ fmt = 4 then 1 else 0)) resBadArgument 65,
    require (decide (fieldU16 p 66 = 64 ∨ fieldU16 p 66 = 128 ∨ fieldU16 p 66 = 256)) resBadArgument 66,
    require (decide (raw = 4096 ∨ raw = 8192 ∨ raw = 16384)) resBadArgument 66,
    inRange 68 1 64 (fieldU8 p 68), inRange 69 1 16 (fieldU8 p 69), inRange 70 1 512 (fieldU16 p 70),
    require (fpPositiveNormal (fieldU32 p 72)) resBadArgument 72, require (fpPositiveNormal (fieldU32 p 76)) resBadArgument 76,
    inRange 80 0 0x7F7FFFFF (fieldU32 p 80), inRange 84 0 4095 (fieldU16 p 84), flagsIn p 86 7,
    require (if bitOf fl 1 then decide (fieldU64 p 88 < 2 ^ 46) else decide (fieldU64 p 88 = 0)) resBadArgument 88,
    reserved p 96 32] ++
    (List.range (Nat.min n 16)).flatMap fun i =>
      let o := 128 + 32 * i
      [addressAligned o 4096 (fieldU64 p o), require (inHbm (fieldU64 p o) 1 || d.inTier (fieldU64 p o) 1) resBadArgument o,
       reserved p (o + 12) 4,
       (if bitOf fl 0 then addressAligned (o + 16) 64 (fieldU64 p (o + 16))
        else require (decide (fieldU64 p (o + 16) = 0)) resBadArgument (o + 16)),
       reserved p (o + 24) 8])

/-- The 32 bytes of a paddock's binding of a tensor: its own settings, or the resident image's (R238). -/
def Device.binding (d : Device) (p tensor : Nat) : Option (List Byte) :=
  if tensor < 2048 then
    match d.resident p with
    | none => none
    | some e => (imageTensors e.2.bytes).find? fun b => decide (fieldU16 b 0 = tensor)
  else (d.paddock p).bind fun x => Table.find x.tensors tensor

/-- Bale size of a paddock's binding of a tensor, 0 without one. -/
def Device.baleSize (d : Device) (p tensor : Nat) : Nat := ((d.binding p tensor).map fun b => fieldU16 b 4).getD 0

/-- SERVE_CONFIG: steps 8 to 12. Memory is judged against the windows as the whole set leaves them. -/
def serveConfigJudge (j : Judging) (p : List Byte) : Check :=
  let n := fieldU8 p 0
  let c := serveConfigOf p
  let d := j.after
  firstFail ([j.before.worldOf j.world n 0, j.paddockExists n] ++
    (match d.paddock n with
     | none => []
     | some x =>
       let stride := c.blocksPerPage * d.baleSize n c.kvTensor
       [require (!x.covers c.area 1 || x.inOneWindow c.area c.areaBytes) resBadLength 40] ++
       (List.range c.pools.length).flatMap (fun i =>
         match c.pools[i]? with
         | none => []
         | some k =>
           [require (x.covers k.base (max 1 (stride * k.slots))) resBadArgument (128 + 32 * i),
            require (!c.kvFlags.getLsbD 0 || x.covers k.summary (2 * c.headDim * k.slots)) resBadArgument (144 + 32 * i)]) ++
       [require (!c.kvFlags.getLsbD 1 ||
          x.covers c.biasBase ((if c.kvFlags.getLsbD 2 then c.layers else 1) * c.groups * c.heads * 2048)) resBadArgument 88,
        j.atCheck (firstFail [
          require (x.names c.leadBlock) resConflict,
          require ((List.range 16).all fun r => !c.regions.getLsbD r || decide (x.blocksIn r ≠ 0)) resConflict,
          require (decide (c.draftBell < ((x.nbells[c.stepDie]?).getD (0, 0)).2)) resConflict,
          require (decide (c.sampleBell < ((x.nbells[c.stepDie]?).getD (0, 0)).2)) resConflict,
          require (x.covers c.area 1) resConflict, require (decide (x.role ≠ 2)) resConflict])]))

/-- SERVE_CONFIG at T. -/
def serveConfigApply (d : Device) (p : List Byte) : Device :=
  d.updServing (fieldU8 p 0) fun s => { s with cfg := some (serveConfigOf p) }

/-- FOLD_JOIN. -/
def stagedFoldJoin : Staged :=
  { minLen := 8, maxLen := 8, form := foldMemberForm, judge := foldJoinJudge, apply := foldJoinApply }
/-- FOLD_LEAVE. -/
def stagedFoldLeave : Staged :=
  { minLen := 8, maxLen := 8, form := foldMemberForm, judge := foldLeaveJudge, apply := foldLeaveApply }
/-- FOLD_MAP_SET. -/
def stagedFoldMapSet : Staged :=
  { minLen := 72, maxLen := 64 + 8 * 1048576, form := foldMapForm, judge := foldMapJudge, apply := foldMapApply }
/-- DROVE_CONFIG. -/
def stagedDroveConfig : Staged :=
  { minLen := 32, maxLen := 272, form := droveConfigForm, judge := droveConfigJudge, apply := droveConfigApply }
/-- PREFIX_CONFIG. -/
def stagedPrefixConfig : Staged :=
  { minLen := 24, maxLen := 24, form := prefixConfigForm, judge := prefixConfigJudge, apply := prefixConfigApply }
/-- BALE_TENSOR_SET. -/
def stagedTensorSet : Staged :=
  { minLen := 40, maxLen := 8 + 32 * 256, form := tensorSetForm, judge := tensorSetJudge, apply := tensorSetApply }
/-- SERVE_CONFIG. -/
def stagedServeConfig : Staged :=
  { minLen := 160, maxLen := 128 + 32 * 16, form := serveConfigForm, judge := serveConfigJudge, apply := serveConfigApply }

end Sys2Proof.Machine
end

