-- ==== Sys2Proof/Machine/Clock.lean ====
section
/-! DEFINITION. Time: the Tally moves forward, committed stage sets apply at their instants, and ownership changes hands
(R69 to R71, R87 to R103). -/

namespace Sys2Proof.Machine

/-! ### Staged commands by opcode (R106) -/

/-- The opcode a register write has in a set (R104). -/
def gpioOpcode : Nat := 0xFFFF

/-- The staged command of an opcode, none for an immediate or unknown one. -/
def stagedOf : Nat → Option Staged
  | 0x0003 => some stagedDeviceIdSet
  | 0x0016 => some stagedFabricBind
  | 0x0200 => some stagedPaddockCreate
  | 0x0201 => some stagedPaddockDestroy
  | 0x0202 => some stagedPaddockModify
  | 0x0203 => some stagedPaddockWindowSet
  | 0x0400 => some stagedFoldJoin
  | 0x0401 => some stagedFoldLeave
  | 0x0402 => some stagedFoldMapSet
  | 0x0500 => some stagedQueueCreate
  | 0x0501 => some stagedQueueDestroy
  | 0x0510 => some stagedConnOpen
  | 0x0511 => some stagedConnClose
  | 0x0520 => some stagedExposeCreate
  | 0x0521 => some stagedExposeRevoke
  | 0x0530 => some stagedPortConfig
  | 0x0600 => some stagedTrafficClassSet
  | 0x0601 => some stagedTrafficPolicerSet
  | 0x0602 => some stagedTrafficShaperSet
  | 0x0603 => some stagedTrafficGateList
  | 0x0604 => some stagedTrafficOverheadSet
  | 0x0700 => some stagedDroveConfig
  | 0x0710 => some stagedPrefixConfig
  | 0x0803 => some stagedTensorSet
  | 0x0900 => some stagedServeConfig
  | 0x0B00 => some stagedFaultRingSet
  | 0x0C10 => some stagedWorldSet
  | 0x0D01 => some stagedPowerLimitSet
  | 0x0D10 => some stagedClockRegionSet
  | 0x0D20 => some stagedTallyConfig
  | 0x0F00 => some stagedTraceConfig
  | 0xFFFF => some stagedGpio
  | _ => none

/-- A command of a set applied to a configuration. -/
def Device.applyStaged (d : Device) (c : StagedCommand) : Device :=
  match stagedOf c.opcode with
  | some s => s.apply d c.payload
  | none => d

/-- The commands of a set applied in their staging order (R100). -/
def Device.applyCommands (d : Device) (cs : List StagedCommand) : Device := cs.foldl Device.applyStaged d

/-- A staged command judged: steps 6 and 7, then 8 to 12. -/
def judgeStaged (j : Judging) (c : StagedCommand) : Check :=
  match stagedOf c.opcode with
  | none => none
  | some s => firstFail [s.form j.before c.payload, s.judge { j with world := c.world } c.payload]

/-! ### Checks of a set (R101) -/

/-- The first command of a list that fails, judged in order: its index and result. -/
def judgeCommands (after : Device) : Device → Nat → List StagedCommand → Option (Nat × Nat)
  | _, _, [] => none
  | before, i, c :: cs =>
    match judgeStaged { staging := false, world := c.world, before := before, after := after } c with
    | some r => some (i, r.result)
    | none => judgeCommands after (before.applyStaged c) (i + 1) cs

/-- A set checked against a projected configuration: CONFLICT with the failing check, set and index. -/
def checkSet (projected : Device) (id : Nat) (cs : List StagedCommand) : Check :=
  match judgeCommands (projected.applyCommands cs) projected 0 cs with
  | none => none
  | some (i, r) => some { result := resConflict, detail := 2 ^ 32 * r + 65536 * id + i }

/-- The first of two sets by instant, then by the order in which their commits were accepted (R71). -/
def appliesBefore (x y : Nat × StageSet) : Bool :=
  decide (x.2.instant < y.2.instant) || decide (x.2.instant = y.2.instant ∧ x.2.order < y.2.order)

/-- A set put in its place in commit order. -/
def commitInsert (x : Nat × StageSet) : List (Nat × StageSet) → List (Nat × StageSet)
  | [] => [x]
  | y :: ys => if appliesBefore x y then x :: y :: ys else y :: commitInsert x ys

/-- The COMMITTED sets in the order in which they apply. -/
def Device.committed (d : Device) : List (Nat × StageSet) :=
  (d.staging.sets.filter fun e => decide (e.2.state = .committed)).foldr commitInsert []

/-- A configuration with a list of sets applied, each at its instant. -/
def Device.project (d : Device) (sets : List (Nat × StageSet)) : Device :=
  sets.foldl (fun d e => (d.mapTally fun t => { t with now := max t.now e.2.instant }).applyCommands e.2.commands) d

/-- Later sets stay consistent when they apply in order. -/
def checkLater : Device → List (Nat × StageSet) → Check
  | _, [] => none
  | d, e :: es =>
    match checkSet d e.1 e.2.commands with
    | some r => some r
    | none => checkLater (d.project [e]) es

/-! ### Commit instants (R70, R103) -/

/-- The set digest of R462: each command's header with `sequence`, `deadline` and `tag` zeroed, then its payload. -/
def setDigest (cs : List StagedCommand) : List Byte :=
  digest (cs.flatMap fun c => overwrite (overwrite (padTo 32 c.header) 4 (zeros 4)) 16 (zeros 16) ++ c.payload)

/-- A committed set applies, the Tally standing at its instant: its commands, its measurement, its event, which already sees
the change (R62, R70). -/
def Device.applySet (d : Device) (id : Nat) (s : StageSet) : Device :=
  let d1 := d.applyCommands s.commands
  let d2 := d1.mapStaging fun x => { x with sets := Table.update x.sets id fun y => { y with state := .applied } }
  let d3 := d2.mapSecurity fun x =>
    { x with cfgMeasure := digest (x.cfgMeasure ++ setDigest s.commands), setsApplied := x.setsApplied + 1 }
  (d3.record { source := d3.src srcFirmware, code := 0x8003, aux := id, addr := s.tag }).traced 9 id 0 s.tag 0xFF
    (d3.src srcFirmware)

/-- A drove, prefix or tier descriptor of a paddock is in progress (R304). -/
def Device.droveWork (d : Device) (p : Nat) : Bool :=
  (d.ringsOf p).any fun e => e.2.inFlight.any fun i => decide (0x20 ≤ fieldU8 i.bytes 0 ∧ fieldU8 i.bytes 0 ≤ 0x28)

/-- A paddock is active: one of its blocks is in RUN, or one of its drove, prefix or tier descriptors is in progress. -/
def Device.isActive (d : Device) (p : Nat) : Bool :=
  d.droveWork p ||
    (match d.paddock p with
     | some x => x.holds && d.power.blocks.any fun b => x.names b.1 && decide (b.2 = .run)
     | none => false)

/-- A fold's figures after `n` more ticks in which the device stood as it stands (R304). -/
def Device.meterFold (d : Device) (n : Nat) (f : Fold) : Fold :=
  let left := fun (e : Nat × Nat) => min n (e.2 - d.now)
  let draining := fun (p : Nat) => f.leaving.foldl (fun k e => if e.1 = p then max k (left e) else k) 0
  let more := fun (k p : Nat) (m : Meter) => if d.isActive p then { m with active := m.active + k } else m
  let ticks := fun (test : Nat → Bool) =>
    if f.members.any fun m => test m.1 then n
    else f.leaving.foldl (fun k e => if test e.1 then max k (left e) else k) 0
  { f with members := Table.mapAll f.members (more n), former := Table.mapAll f.former fun p m => more (draining p) p m,
           resident := f.resident + ticks fun _ => true, active := f.active + ticks d.isActive }

/-- Phase still to be removed after `n` ticks: at most 1 tick in 64 in ACQUIRE and 1 in 1,024 in LOCKED (R44, R52). -/
def Tally.slewLeft (t : Tally) (n : Nat) : Int :=
  let most : Int := match t.state with
    | .acquire => 1024 * n
    | .locked => 64 * n
    | _ => 0
  if 0 ≤ t.toSlew then max 0 (t.toSlew - most) else min 0 (t.toSlew + most)

/-- The Tally moves to a later instant, it slews, and the meters count the ticks between. The fraction it stands at there is
open (log entry 4). -/
def Device.passTo (d : Device) (t : Nat) : Device :=
  if t ≤ d.now then d else
    let n := t - d.now
    { d with tally := { d.tally with now := t, frac := Config.tallyFrac t, toSlew := d.tally.slewLeft n },
             service := { d.service with folds := Table.mapAll d.service.folds fun _ f => d.meterFold n f } }

/-- Sets due by an instant apply in order, the Tally moving to each instant; `fuel` bounds the sets. -/
def Device.applyDue : Nat → Nat → Device → Device
  | 0, _, d => d
  | fuel + 1, t, d =>
    match d.committed with
    | [] => d
    | e :: _ =>
      if e.2.instant ≤ t then
        Device.applyDue fuel t ((d.passTo e.2.instant).applySet e.1 e.2)
      else d

/-- The Tally counts: it has a clock (R42, R466). -/
def Device.counts (d : Device) : Bool :=
  match d.state with
  | .off => false
  | .booting => decide (d.boot.step ≠ .coldRef)
  | .resetHeld => decide (d.boot.step ≠ .coldRef)
  | _ => true

/-- The Tally moves forward to an instant, never back, and every committed set whose instant it reaches applies. -/
def Device.advanceTo (d : Device) (t : Nat) : Device :=
  if d.counts then
    (Device.applyDue d.staging.sets.length t d).passTo t
  else d

/-- Something that is due at an instant happens there, the Tally having come to it; without a clock it does not come. -/
def Device.atInstant (d : Device) (t : Nat) (f : Device → Device) : Device :=
  let d1 := d.advanceTo t
  if t ≤ d1.now then f d1 else d1

/-- Watermark that every stamping point publishes: its replica, and at a port whose link is down the Tally (R68). -/
def Device.watermark (d : Device) : Nat := d.now

/-- An arrival stamped at or before an instant is still inside the device: it waits in a miss buffer. -/
def Device.unseen (d : Device) (t : Nat) : Bool :=
  d.net.missBuffers.toList.any fun b => b.any fun m => decide (m.arrived ≤ t)

/-- A deadline of tick `t` is acted on (R65 to R68). Nothing acts before the Tally has come to it, and an arrival stamped in
time that is still inside the device delays the decision until it is seen. A decision at the tick itself takes every watermark
past it in the same step, so that nothing that happens after it is stamped at or before the deadline. -/
def Device.atDeadline (d : Device) (t : Nat) (f : Device → Device) : Device :=
  let d1 := d.advanceTo t
  if t ≤ d1.watermark ∧ d1.unseen t = false then (f d1).advanceTo (t + 1) else d1

/-- One tick of the Tally. -/
def Device.tick (d : Device) : Device := d.advanceTo (d.now + 1)

/-! ### Ownership (R87 to R93) -/

/-- The three masters by priority, highest first, as OWN_PRIO sets it (R87). -/
def ownPriority : BitVec 2 → List Master
  | 0 => [.host, .fabric, .board]
  | 1 => [.fabric, .host, .board]
  | 2 => [.board, .fabric, .host]
  | _ => [.board, .host, .fabric]

/-- Open and checked sets of a master are aborted (R93). -/
def Device.abortSets (d : Device) (m : Master) : Device :=
  d.mapStaging fun s =>
    { s with sets := Table.mapAll s.sets fun _ x =>
        if x.owner = m ∧ (x.state = .open ∨ x.state = .checked) then { x with state := .aborted } else x }

/-- Ownership passes at a stamp: the old owner's sets are aborted, an offer closes, an event is written (R93), with the
`tag` of the command that causes it, or 0 (R80). -/
def Device.setOwner (d : Device) (new : Option Master) (stamp : Nat) (tag : Nat := 0) : Device :=
  let old := d.own.owner
  let d1 := match old with
    | some m => if new = some m then d else d.abortSets m
    | none => d
  let d2 := d1.mapOwn fun o =>
    { o with owner := new, leaseExpiry := if new.isSome then stamp + 400000000 else 0,
             ownerSince := if new.isSome then stamp else 0, offerTarget := none, offerEnd := 0 }
  if old = new then d2 else
    d2.record { source := d.src srcFirmware, code := 0x8002, sub := 256 * masterCode old + masterCode new,
                addr := tag } (some stamp)

/-- The claimant of highest priority among the claims of a window (R87, R88). -/
def Device.claimWinner (d : Device) : Option Master :=
  (ownPriority d.boot.ownPrio).find? fun m => d.own.claims.any fun c => decide (c.1 = m)

/-- The claim window ends: the winner becomes owner at the window's end, its claim returns OK and every other one
CONFLICT with the winner (R88). -/
def Device.closeClaims (d : Device) : Device :=
  match d.own.claimEnd with
  | none => d
  | some stamp =>
    let winner := d.claimWinner
    let claims := d.own.claims
    let d1 := (d.mapOwn fun o => { o with claimEnd := none, claims := [] }).setOwner winner stamp
      (d.waiterTag ((claims.find? fun c => decide (some c.1 = winner)).map fun c => (c.1, c.2.1)))
    claims.foldl (fun d c =>
      d.respond (pathOf c.1 c.2.1) (if winner = some c.1 then {} else { result := resConflict, detail := masterCode winner })) d1

/-- What ownership timers that have run out by now have done: a lease lapses, a claim window ends, an offer lapses
(R88, R90, R92). -/
def Device.settleOwnership (d : Device) : Device :=
  let d1 := match d.own.owner with
    | some _ => if d.own.leaseExpiry < d.now then d.setOwner none d.own.leaseExpiry else d
    | none => d
  let d2 := match d1.own.claimEnd with
    | some e => if e < d1.now then d1.closeClaims else d1
    | none => d1
  if d2.own.offerTarget.isSome ∧ d2.own.offerEnd < d2.now then
    d2.mapOwn fun o => { o with offerTarget := none, offerEnd := 0 }
  else d2

/-- A lease renewed by a command accepted now (R90). -/
def Device.renew (d : Device) : Device := d.mapOwn fun o => { o with leaseExpiry := d.now + 400000000 }

end Sys2Proof.Machine
end

