-- ==== Sys2Proof/Machine/Transmit.lean ====
section
/-! DEFINITION. How a sequenced packet leaves: its connection's stream, congestion window and pacing, its link, its ring's
policer and its class queue (R311 to R325, R350 to R354). -/

namespace Sys2Proof.Machine

/-! ### What is posted -/

/-- The access extension (R312). -/
def accessExt (address key bell inc aop offset length : Nat) : List Byte :=
  beBytes 8 address ++ beBytes 4 key ++ beBytes 4 bell ++ beBytes 2 inc ++ beBytes 1 aop ++ zeros 1 ++ beBytes 4 offset ++
    beBytes 4 length ++ zeros 4

/-- The response extension (R312). -/
def responseExt (psn offset status : Nat) : List Byte := beBytes 4 psn ++ beBytes 4 offset ++ beBytes 1 status ++ zeros 7

/-- The bell of an access that rings none. -/
def noBell : Nat := 0xFFFFFFFF

/-- Largest payload of a packet (R309). -/
def maxPayload : Nat := 8192

/-- Data cut into packets of at most 8,192 bytes, with their offsets. -/
def cutData : Nat → Nat → List Byte → List (Nat × List Byte)
  | 0, _, _ => []
  | fuel + 1, off, bs =>
    if bs.length ≤ maxPayload then [(off, bs)]
    else (off, bs.take maxPayload) :: cutData fuel (off + maxPayload) (bs.drop maxPayload)

/-- The packets of a WRITE message: WRITEs of up to 8,192 bytes and, with FLAG, the last 64 bytes (all of a shorter
message, which has at least 8) as a WRITE_FLAG (R312, R329, log entry 17). -/
def writePackets (address key bell inc : Nat) (data : List Byte) (flag : Bool) (base : Outgoing) : List Outgoing :=
  let tail := if flag then Nat.min 64 data.length else 0
  let body := data.take (data.length - tail)
  let parts := (if body.isEmpty then [] else cutData (body.length / maxPayload + 1) 0 body).map (fun e => (1, e)) ++
    (if flag then [(2, (data.length - tail, data.drop (data.length - tail)))] else [])
  (List.range parts.length).filterMap fun i =>
    (parts[i]?).map fun e =>
      { base with opcode := e.1, payload := e.2.2,
                  ext := accessExt (address + e.2.1) key bell inc 0 e.2.1 data.length,
                  flags := (if i = 0 then 1 else 0) ||| (if i + 1 = parts.length then 2 else 0) }

/-! ### Leaving congestion control (R320, R321, R325) -/

/-- Bytes of a connection in flight: packets that have left congestion control and are not acknowledged. -/
def Conn.inFlight (c : Conn) : Nat := ((c.tx.filter fun t => t.released && !t.acked).map (·.payload.length)).sum

/-- Bytes of a die's retransmission store. -/
def Device.storeBytes (d : Device) (die : Nat) : Nat :=
  (d.net.conns.map fun c => if c.2.home = die then (c.2.tx.map fun t => if t.released then t.payload.length else 0).sum else 0).sum

/-- The retransmission store of a die has no room for a packet (R320). -/
def Device.storeFull (d : Device) (die n : Nat) : Bool := decide (40 * 2 ^ 20 < d.storeBytes die + n)

/-- ATOMIC requests of a connection without their responses. -/
def Conn.atomicsOut (c : Conn) : Nat := (c.tx.filter fun t => t.released && decide (t.opcode = 5) && t.wantsAnswer).length

/-- The packet that leaves congestion control next: the lowest PSN that has not, or is to leave again. -/
def Conn.nextOut (c : Conn) : Option TxPacket := c.tx.find? fun t => !t.released && (!t.acked || t.wantsAnswer)

/-- Ticks of a packet's pacing gap. -/
def Conn.gap (c : Conn) (n : Nat) : Nat := ceilDiv (n * c.srtt) (max c.cwnd 1)

/-- A flag store waits for the earlier stores of its thread through other connections, of which a LOCAL context is none
(R340). -/
def Device.flagHeld (d : Device) (conn : Nat) (t : TxPacket) : Bool :=
  match t.origin with
  | .remote id =>
    match d.fabric.remote.find? fun a => decide (a.id = id) with
    | none => false
    | some a => decide (a.op = .flag) && d.fabric.remote.any fun b =>
        decide (b.id < id ∧ b.block = a.block ∧ b.thread = a.thread ∧ b.conn ≠ conn ∧ b.conn < 0x100000 ∧ b.op ≠ .load ∧
          b.op ≠ .get)
  | _ => false

/-- A packet of an OPEN or CLOSING connection may leave congestion control now. -/
def Device.mayLeave (d : Device) (id : Nat) (c : Conn) (t : TxPacket) : Bool :=
  let n := t.payload.length
  c.cached && decide ((c.state = .open ∨ c.state = .closing) ∧ t.psn < c.ackedTo + 256 ∧ c.inFlight + n ≤ c.cwnd ∧
    c.lastSend + c.gap n ≤ d.now) && (t.again || !d.storeFull c.home n) &&
  (t.again || decide (t.opcode ≠ 5 ∨ c.atomicsOut < 32)) && !d.flagHeld id t

/-! ### Policers (R353, R354) -/

/-- Colours of RFC 2698. -/
inductive Colour where
  | green | yellow | red
  deriving DecidableEq, Repr

/-- A packet of length L metered at a tick. -/
def Ring.meter (r : Ring) (now len : Nat) : Colour × Ring :=
  let u := 6400 * len
  let tc := Nat.min (r.cbs * 6400) (r.tc + r.cir * (now - r.meterAt))
  let tp := Nat.min (r.pbs * 6400) (r.tp + r.pir * (now - r.meterAt))
  if tp < u then (.red, { r with tc := tc, tp := tp, meterAt := now, red := r.red + 1 })
  else if tc < u then (.yellow, { r with tc := tc, tp := tp - u, meterAt := now, yellow := r.yellow + 1 })
  else (.green, { r with tc := tc - u, tp := tp - u, meterAt := now, green := r.green + 1 })

/-- A packet reaches the policer of its ring and then its class queue. A RED packet is discarded and is repaired as any lost
one (R354). -/
def Device.police (d : Device) (l : Nat) (out : OutFrame) (conn psn : Nat) (ring : Option Nat) : Device :=
  match ring.bind fun q => (d.ring q).map fun r => (q, r) with
  | none => d.enqueue l out (some conn) (some (conn, psn))
  | some (q, r) =>
    if r.policed then
      let p := d.port (l / 2)
      let m := r.meter d.now (p.frameLength out.frame)
      let d1 := d.updRing q fun _ => m.2
      match m.1 with
      | .red => d1.updConn conn fun c =>
          { c with tx := c.tx.map fun t => if t.psn = psn then { t with sentAt := some d.now, again := true } else t }
      | .yellow => d1.enqueue l out (some conn) (some (conn, psn)) (r.markDei && p.vlanTag)
      | .green => d1.enqueue l out (some conn) (some (conn, psn))
    else d.enqueue l out (some conn) (some (conn, psn))

/-- The frame of a sequenced packet as it is built for a link: it acknowledges, and a later copy says so. -/
def Device.buildPacket (d : Device) (c : Conn) (t : TxPacket) : OutFrame :=
  { opcode := t.opcode,
    frame := { d.connFrame c with
      flags := t.msgFlags ||| 0x20 ||| (if t.again then 4 else 0), psn := BitVec.ofNat 32 t.psn, ext := t.ext,
      payload := t.payload, payloadLength := BitVec.ofNat 16 t.payload.length, cls := BitVec.ofNat 8 t.cls,
      mapVersion := BitVec.ofNat 32 t.mapVersion } }

/-- Paddock at the far end of a connection (log entry 97). -/
def Conn.peerPaddock (c : Conn) : Nat := Config.peerPaddock c.peer c.peerConn c.gen % 64

/-- A map lists a device and paddock. -/
def FoldMap.lists (m : FoldMap) (device paddock : Nat) : Bool :=
  m.entries.any fun e => decide (e.1 = device ∧ e.2.1 = paddock)

/-- A device and paddock are in a fold's current map; outside a fold there is none to be in. -/
def Device.pairInCurrent (d : Device) (fold device paddock : Nat) : Bool :=
  if fold = 0 then true else (((d.fold fold).bind (·.current)).map (·.lists device paddock)).getD false

/-- A device and paddock are in a fold's current map, or in the previous one while it is held (R293). -/
def Device.pairInMap (d : Device) (fold device paddock : Nat) : Bool :=
  d.pairInCurrent fold device paddock ||
    (match d.fold fold with
     | none => false
     | some f => decide (d.now < f.drainEnd) && ((f.previous.map (·.lists device paddock)).getD false))

/-- The map version a connection's packets carry (R293): that of its fold's current map. -/
def Device.mapVersionOf (d : Device) (c : Conn) : Nat := (((d.fold c.fold).bind (·.current)).map (·.version)).getD 0

/-- The version by which a packet's destination is resolved now: the current map's where it lists the destination (R293). -/
def Device.resolved (d : Device) (c : Conn) (t : TxPacket) : Nat :=
  if d.pairInCurrent c.fold c.peer c.peerPaddock then d.mapVersionOf c else t.mapVersion

/-- A packet leaves congestion control, its destination resolved anew (R293): spray, policer, class queue; with no link up it
waits at its connection. -/
def Device.release (d : Device) (id : Nat) (c : Conn) (t : TxPacket) : Device :=
  let t := { t with mapVersion := d.resolved c t }
  let mark := fun (x : TxPacket) =>
    if x.psn = t.psn then { x with released := true, resendAt := none, mapVersion := t.mapVersion } else x
  let d1 := d.updConn id fun c => { c with tx := c.tx.map mark, lastSend := d.now, lastUse := d.now }
  let out := d1.buildPacket c t
  match d1.sprayLink (d1.upLinks c.home c.links) t.cls with
  | some l => d1.police l out id t.psn t.ring
  | none => d1.mapNet fun n => { n with stranded := n.stranded ++
      [(id, { out := out, len := 0, conn := some id, seqOf := some (id, t.psn) })] }

/-- Packets of a connection leave congestion control while they may; `fuel` bounds them. -/
def Device.pumpN : Nat → Nat → Device → Device
  | 0, _, d => d
  | fuel + 1, id, d =>
    match d.conn id with
    | none => d
    | some c =>
      match c.nextOut with
      | none => d
      | some t => if d.mayLeave id c t then Device.pumpN fuel id (d.release id c t) else d

/-- A context that is not cached and is needed is fetched (R318). -/
def Device.fetchContext (d : Device) (id : Nat) : Device :=
  match d.conn id with
  | none => d
  | some c =>
    if c.cached || d.net.fetching.contains id then d
    else d.mapNet fun n => { n with fetching := n.fetching ++ [id] }

/-- Packets of a connection leave congestion control while they may. -/
def Device.pump (d : Device) (id : Nat) : Device :=
  match d.conn id with
  | none => d
  | some c => if c.nextOut.isSome then Device.pumpN (c.tx.length + 1) id (d.fetchContext id) else d

/-- Every connection with a packet to send is pumped. -/
def Device.pumpAll (d : Device) : Device := d.net.conns.foldl (fun d e => d.pump e.1) d

/-- A packet as its stream holds it, under a PSN and the map version of its posting. -/
def Outgoing.packet (o : Outgoing) (psn version : Nat) : TxPacket :=
  { psn := psn, opcode := o.opcode, ext := o.ext, payload := o.payload, msgFlags := o.flags, cls := o.cls, ring := o.ring,
    origin := o.origin, wantsAnswer := o.wants, mapVersion := version }

/-- Packets join a connection's stream under PSNs in order. -/
def Device.post (d : Device) (id : Nat) (os : List Outgoing) : Device :=
  match d.conn id with
  | none => d
  | some c =>
    let version := d.mapVersionOf c
    let new := (List.range os.length).filterMap fun i => (os[i]?).map fun o => o.packet (c.nextPsn + i) version
    let started := if c.tx.isEmpty then d.now else c.progressAt
    (d.updConn id fun c => { c with tx := c.tx ++ new, nextPsn := c.nextPsn + os.length, progressAt := started }).pump id

/-- A packet of a connection is to be sent again under its PSN (R321): it passes every stage anew. -/
def Device.resend (d : Device) (id psn : Nat) : Device :=
  ((d.updConn id fun c =>
    { c with tx := c.tx.map fun t => if t.psn = psn then { t with released := false } else t,
             counters := bump c.counters 2 1 })).pump id

/-- A PSN's 32-bit wire value, read as the count nearest to a reference. -/
def wirePsn (near w : Nat) : Nat :=
  let low := near % 2 ^ 32
  let base := near - low + w
  if low + 2 ^ 31 ≤ w ∧ 2 ^ 32 ≤ base then base - 2 ^ 32 else if w + 2 ^ 31 < low then base + 2 ^ 32 else base

end Sys2Proof.Machine
end

