-- ==== Sys2Proof/Machine/Reads.lean ====
section
/-! DEFINITION. Reads that may meet a memory error: poisoned words and injected errors (R419 to R423, R440). An error that
the environment brings on its own comes with the row DETECTED_ERROR_RETRY. -/

namespace Sys2Proof.Machine

/-- Memory kind and unit of a local address, as `aux` of a memory record codes them (R426). -/
def memoryUnit (a : Nat) : Nat :=
  if a < hbmEnd then 3 * 2 ^ 24 + a / 0x2000000000
  else if a < bufferEnd then 2 ^ 24 + (a - bufferBase) / 0x100000
  else 4 * 2 ^ 24 + ddrChannel a

/-- The record of a read that meets a poisoned word. -/
def poisonReport (source paddock w : Nat) : Report :=
  { source := source, paddock := paddock, cls := 2, level := 1, code := 3, aux := memoryUnit w, addr := w }

/-- The record of a read that meets an uncorrectable word: transient or lasting, injected or not. -/
def uncorrectableReport (source paddock w : Nat) (lasting injected : Bool) : Report :=
  { source := source, paddock := paddock, cls := (if lasting then 2 else 1) + (if injected then 8 else 0), level := 1,
    code := 2, aux := memoryUnit w, addr := w }

/-- The first poisoned word that a range touches. -/
def Device.poisonIn (d : Device) (a n : Nat) : Option Nat :=
  d.faults.poisoned.find? fun w => decide (w < a + n ∧ a < w + 8)

/-- An armed injection of a kind on a target that a test accepts, for a paddock. -/
def Device.injected (d : Device) (kind paddock : Nat) (hit : Nat → Bool) : Option Injection :=
  match d.faults.injection with
  | none => none
  | some i => if i.kind = kind ∧ hit i.target ∧ (i.paddock = 0xFF ∨ i.paddock = paddock) then some i else none

/-- A read of memory by a reader for a paddock: the device after it, and the record of the lasting error it met. A
transient error is recorded and the read completes. -/
def Device.checkedRead (d : Device) (a n source paddock : Nat) : Device × Option Report :=
  match d.poisonIn a n with
  | some w => (d, some (poisonReport source paddock w))
  | none =>
    match d.injected 0 paddock fun t => decide (t < a + n ∧ a < t + 8) with
    | none => (d, none)
    | some i =>
      let d1 := d.mapFaults fun f => { f with injection := none }
      if i.persist then (d1, some (uncorrectableReport source paddock i.target true true))
      else (d1.record (uncorrectableReport source paddock i.target false true), none)

/-- A unit writes words whose data it could not obtain: zeros with the poison bit (R421). -/
def Device.poison (d : Device) (a n : Nat) : Device :=
  let d1 := d.store a (zeros n)
  d1.mapFaults fun f => { f with poisoned := f.poisoned ++ ((List.range (ceilDiv n 8)).map fun i => (a + 8 * i) / 8 * 8) }

/-- A lasting error strikes a paddock: it goes to FAULTED (R423, R432). -/
def Device.strike (d : Device) (p : Nat) (r : Report) : Device := d.perform [.fault r p d.now]

end Sys2Proof.Machine
end

