-- ==== Sys2Proof/Machine/Mailbox.lean ====
section
/-! DEFINITION. How a mailbox command is accepted, checked and executed (R73 to R91, R528, R531). -/

namespace Sys2Proof.Machine

/-- A command as it executes: its path, header and the payload the device holds. -/
structure Call where
  /-- Path. -/
  path : Path
  /-- The 32 header bytes. -/
  header : List Byte
  /-- The payload, or the device's copy of an indirect buffer. -/
  payload : List Byte
  /-- The command came with `INDIRECT`. -/
  indirect : Bool := false
  /-- Where execution began before now (a payload read over the fabric), its stamp (R85). -/
  begun : Option Nat := none
  deriving DecidableEq, Repr

/-- Who may issue a command (R91). -/
inductive Right where
  /-- O: only the owner. -/
  | owner
  /-- P: the owner, or the operator of the paddock that a payload names. -/
  | operator (paddock : List Byte → Nat)
  /-- A: any master. -/
  | any
  /-- T: the target of an open handover offer. -/
  | target

/-- An immediate command: bounds, right, checks from step 6 on, and what it does, its response included. -/
structure Immediate where
  /-- Lowest payload length. -/
  minLen : Nat
  /-- Highest payload length. -/
  maxLen : Nat
  /-- Who may issue it. -/
  who : Right
  /-- Steps 6 to 12 of R83, in order. -/
  check : Device → Call → Check
  /-- Its effect and response. -/
  run : Device → Call → Device

/-- What a row of the command index is. -/
inductive Kind where
  | immediate (m : Immediate)
  | staged (s : Staged)

/-- Payload lengths a command accepts. -/
def Kind.range : Kind → Nat × Nat
  | .immediate m => (m.minLen, m.maxLen)
  | .staged s => (s.minLen, s.maxLen)

/-- The right a command needs. -/
def Kind.right : Kind → Right
  | .immediate m => m.who
  | .staged _ => .owner

/-! ### Header fields -/

/-- The 32 header bytes of a command (R80). -/
def cmdHeader (c : Cmd) (opcode : Nat) : List Byte :=
  leBytes 2 opcode ++ leBytes 2 c.flags.toNat ++ leBytes 4 c.sequence.toNat ++ leBytes 4 c.payloadLength.toNat ++
    leBytes 2 c.stageSet.toNat ++ leBytes 2 c.reserved.toNat ++ leBytes 8 c.deadline.toNat ++ leBytes 8 c.tag.toNat

/-- `INDIRECT`. -/
def isIndirect (header : List Byte) : Bool := bitOf (fieldU8 header 2) 0

/-- World of a call's path. -/
def Device.callWorld (d : Device) (c : Call) : World := d.pathWorld c.path

/-- `tag` of a call. -/
def Call.tag (c : Call) : Nat := fieldU64 c.header 24

/-- The stamp at which the execution of a command began (R69, R85, R102). -/
def Device.begunAt (d : Device) (c : Call) : Nat := c.begun.getD d.now

/-- A call answered OK with a payload. -/
def Device.answerOk (d : Device) (c : Call) (payload : List Byte) : Device := d.respond c.path { payload := payload }

/-! ### Steps 1 to 5 (R83) -/

/-- Step 1: SAFE answers groups 0x00, 0x0C and 0x0E and no staged command; STANDBY serves the BOARD path and groups
0x00, 0x0B to 0x0E (R484). -/
def Device.stateStep (d : Device) (k : Kind) (opcode : Nat) : Check :=
  let group := opcode / 256
  match d.state with
  | .safe =>
    let isStaged := match k with
      | .staged _ => true
      | .immediate _ => false
    require ((decide (group = 0 ∨ group = 0x0C ∨ group = 0x0E)) && !isStaged) resBadState (d.stateDetail 0)
  | .standby => require (decide (group = 0 ∨ (0x0B ≤ group ∧ group ≤ 0x0E))) resBadState (d.stateDetail 0)
  | .leaving => require (decide (group = 0 ∨ (0x0B ≤ group ∧ group ≤ 0x0E))) resBadState (d.stateDetail 0)
  | _ => none

/-- Step 3: the issuer has the right, judged at the acceptance stamp (R91, R374). -/
def Device.rightStep (d : Device) (r : Right) (path : Path) (payload : List Byte) : Check :=
  let box := d.paths.box path
  let m := pathMaster path
  let isOwner := decide (box.ownerAt = some m)
  let ok := match r with
    | .any => true
    | .owner => isOwner
    | .operator f => isOwner ||
        (match d.paddock (f payload) with
         | some x => decide (x.operator = some m)
         | none => false)
    | .target => decide (d.own.offerTarget = some m ∧ box.accepted ≤ d.own.offerEnd)
  require ok resNotOwner (masterCode box.ownerAt)

/-- A set that is OPEN or CHECKED and belongs to a master. -/
def Device.openSet (d : Device) (id : Nat) (m : Master) : Option StageSet :=
  match Table.find d.staging.sets id with
  | some s => if (s.state = .open ∨ s.state = .checked) ∧ s.owner = m then some s else none
  | none => none

/-- Step 4: header fields. -/
def Device.headerStep (d : Device) (k : Kind) (path : Path) (header : List Byte) : Check :=
  let set := fieldU16 header 12
  firstFail [require (decide (fieldU16 header 2 ≤ 1)) resBadArgument (headerField 2),
    (match k with
     | .immediate _ => require (decide (set = 0xFFFF)) resBadArgument (headerField 12)
     | .staged _ => require (d.openSet set (pathMaster path)).isSome resBadArgument (headerField 12)),
    require (decide (fieldU16 header 14 = 0)) resBadArgument (headerField 14)]

/-- Step 5: the deadline, judged by the stamp at which execution begins (R85). -/
def Device.deadlineStep (d : Device) (header : List Byte) (begun : Nat) : Check :=
  require (decide (fieldU64 header 16 = 0 ∨ begun ≤ fieldU64 header 16)) resTimedOut d.now

/-- Step 6 for the header: the payload's length against the command's range, the path's inline limit, and 16 with
`INDIRECT` (R84). -/
def lengthStep (k : Kind) (path : Path) (header : List Byte) : Check :=
  let n := fieldU32 header 8
  if isIndirect header then require (decide (n = 16)) resBadLength (headerField 8)
  else require (decide (k.range.1 ≤ n ∧ n ≤ k.range.2 ∧ n ≤ inlineLimit path)) resBadLength (headerField 8)

/-- The checks of the indirect reference, in their order (R82). -/
def Device.referenceStep (d : Device) (k : Kind) (path : Path) (p : List Byte) : Check :=
  let a := fieldU64 p 0
  let n := fieldU32 p 8
  let onHost := pathMaster path == .host
  firstFail [require (!(pathMaster path == .board) && decide (d.state ≠ .safe)) resBadArgument (headerField 2),
    require (decide (1 ≤ n ∧ n ≤ 67108864 ∧ k.range.1 ≤ n ∧ n ≤ k.range.2)) resBadLength 8,
    require (!onHost || decide (fieldU32 p 12 = 0)) resBadArgument 12,
    require (!onHost || d.rangeOk a n) resBadArgument 0,
    require (!(onHost && d.pathWorld path == .nonsecure && d.touchesSecure a n)) resWorldDenied 0]

/-! ### Staging (R99, R100) -/

/-- Bytes a command counts toward the payload of its set; a fold map counts against the map store instead. -/
def StagedCommand.counted (c : StagedCommand) : Nat :=
  if c.opcode = 0x0402 then 0 else if c.opcode = gpioOpcode then 8 else c.payload.length

/-- Payload bytes of a set. -/
def StageSet.bytes (s : StageSet) : Nat := (s.commands.map (·.counted)).sum

/-- Bytes of the map store in use: maps of OPEN, CHECKED and COMMITTED sets. -/
def Device.mapStore (d : Device) : Nat :=
  (d.staging.sets.map fun e =>
    if e.2.state = .open ∨ e.2.state = .checked ∨ e.2.state = .committed then
      (e.2.commands.map fun c => if c.opcode = 0x0402 then c.payload.length else 0).sum else 0).sum

/-- A set has room for one more command. -/
def Device.setHasRoom (d : Device) (s : StageSet) (c : StagedCommand) : Bool :=
  decide (s.commands.length < 256 ∧ s.bytes + c.counted ≤ 2 ^ 20) &&
    (decide (c.opcode ≠ 0x0402) || decide (d.mapStore + c.payload.length ≤ 32 * 2 ^ 20))

/-- A command joins a set: a CHECKED set is OPEN again (R98). -/
def Device.joinSet (d : Device) (id : Nat) (c : StagedCommand) : Device :=
  d.mapStaging fun s => { s with sets := Table.update s.sets id fun x =>
    { x with state := .open, commands := x.commands ++ [c] } }

/-- A staged command from step 6 on: checked by itself and against the configuration with the set's earlier commands
applied, then held in its set. -/
def Device.stage (d : Device) (s : Staged) (opcode : Nat) (c : Call) : Device :=
  let id := fieldU16 c.header 12
  match Table.find d.staging.sets id with
  | none => d.respond c.path { result := resBadArgument, detail := headerField 12 }
  | some x =>
    let held : StagedCommand := { opcode := opcode, header := c.header, payload := c.payload, world := d.callWorld c }
    let projected := d.applyCommands x.commands
    let j : Judging := { staging := true, world := held.world, before := projected, after := projected }
    match firstFail [s.form d c.payload, s.judge j c.payload, require (d.setHasRoom x held) resNoResource] with
    | some r => d.respond c.path r
    | none => (d.joinSet id held).respond c.path { result := resAccepted, detail := 65536 * id + x.commands.length }

/-! ### Execution -/

/-- Steps 6 (fields) to 12 and the effect, on the payload the device holds. -/
def Device.finishCall (d : Device) (k : Kind) (opcode : Nat) (c : Call) : Device :=
  match k with
  | .staged s => d.stage s opcode c
  | .immediate m =>
    match m.check d c with
    | some r => d.respond c.path r
    | none => m.run d c

/-- A command whose right is judged on its indirect copy: marked P, and not from the owner (R83). -/
def Device.defersRight (d : Device) (k : Kind) (path : Path) (header : List Byte) : Bool :=
  match k.right with
  | .operator _ => isIndirect header && decide ((d.paths.box path).ownerAt ≠ some (pathMaster path))
  | _ => false

/-- A command goes on with its copy of an indirect buffer: a right that waited for it, then steps 4 and 5 as they stood
when execution began, then the rest. -/
def Device.finishIndirect (d : Device) (k : Kind) (opcode : Nat) (c : Call) : Device :=
  let late := if d.defersRight k c.path c.header then
      firstFail [d.rightStep k.right c.path c.payload, d.headerStep k c.path c.header, d.deadlineStep c.header (d.begunAt c)]
    else none
  match late with
  | some f => d.respond c.path f
  | none => d.finishCall k opcode c

/-- Chunk of a remote read of an indirect buffer: one READ_REQ may name 16 MiB (R312). -/
def readChunk : Nat := 16777216

/-- READ_REQs for a buffer on the fabric manager's device. -/
def indirectReads (address key entry cls : Nat) : Nat → Nat → Nat → List Outgoing
  | 0, _, _ => []
  | fuel + 1, off, left =>
    if left = 0 then [] else
      let n := Nat.min left readChunk
      { opcode := 3, ext := accessExt (address % 2 ^ 46 + off) key noBell 0 0 off n, cls := cls, wants := true,
        origin := .indirect entry } :: indirectReads address key entry cls fuel (off + n) (left - n)

/-- The device's copy of an indirect buffer: read at once for HOST, by remote reads for FABRIC, whose answers end it. -/
def Device.readIndirect (d : Device) (k : Kind) (opcode : Nat) (path : Path) (header p : List Byte) : Device :=
  let a := fieldU64 p 0
  let n := fieldU32 p 8
  match path with
  | .fabric e =>
    match d.security.bound with
    | none => d
    | some b =>
      (d.updBox path fun x => { x with begun := true, beganAt := d.now, fetch := some (zeros n, n) }).post b.2.1
        (indirectReads a (fieldU32 p 12) e.val 1 5 0 n)
  | _ =>
    let r := d.checkedRead a n (d.src srcFirmware) 0xFF
    match r.2 with
    | some report =>
      (r.1.record { report with addr := fieldU64 header 24 }).respond path { result := resFaulted, detail := d.src srcFirmware }
    | none => r.1.finishIndirect k opcode { path := path, header := header, payload := d.load a n, indirect := true }

/-- A command executes: the checks of R83 in order. -/
def Device.executeCall (d : Device) (k : Kind) (opcode : Nat) (path : Path) : Device :=
  let cmd := (d.paths.box path).cmd
  let header := padTo 32 (cmd.take 32)
  let p := padTo (fieldU32 header 8 % 0x4000) (cmd.drop 32)
  match d.stateStep k opcode with
  | some f => d.respond path f
  | none =>
    let deferRight := d.defersRight k path header
    let right := if deferRight then none else d.rightStep k.right path p
    match right with
    | some f => d.respond path f
    | none =>
      let early := if deferRight then [] else [d.headerStep k path header, d.deadlineStep header d.now]
      match firstFail (early ++ [lengthStep k path header]) with
      | some f => d.respond path f
      | none =>
        if isIndirect header then
          match d.referenceStep k path p with
          | some f => d.respond path f
          | none => d.readIndirect k opcode path header p
        else d.finishCall k opcode { path := path, header := header, payload := p }

/-- The kept command a header repeats (R77). -/
def Device.keptFor (d : Device) (m : Master) (header : List Byte) : Option KeptCommand :=
  (d.paths.kept m).find? fun k => decide (k.header = header)

/-- A command whose mailbox is BUSY and has not begun is executed: a repeated header draws the kept response, a repeated
`sequence` under another header is refused, and any other command runs; its stamp and owner are fixed here when it was
held since before READY (R77, R487). -/
def Device.execute (d : Device) (k : Kind) (opcode : Nat) (path : Path) : Device :=
  let m := pathMaster path
  let header := padTo 32 ((d.paths.box path).cmd.take 32)
  match d.keptFor m header with
  | some kept => d.deliver path kept.response kept.rest
  | none =>
    if (d.paths.kept m).any fun x => decide (fieldU32 x.header 4 = fieldU32 header 4) then
      d.deliver path (responseBytes header { result := resBadArgument, detail := headerField 4 } [] 0 d.now) []
    else d.executeCall k opcode path

/-- The path is served in the device's present state: all of them in READY and RUN, the BOARD path in STANDBY, HOST and
BOARD in SAFE (R451, R484); HOST and FABRIC not while the Shepherd's stile is DOWN (R424). -/
def Device.serves (d : Device) (path : Path) : Bool :=
  let m := pathMaster path
  (match d.state with
   | .ready => true
   | .run => true
   | .standby => m == .board
   | .leaving => m == .board
   | .safe => m == .board || (m == .host && d.boot.hostInSafe)
   | _ => false) && (m == .board || !d.faults.shepherdStile)

/-- A mailbox accepts the command in its command half: BUSY, stamped now; the owner at that stamp judges its right, and
the owner's own command renews its lease (R73, R90, R91). The rest of a long response goes, but for MBX_NEXT (R79). -/
def Device.acceptBox (d : Device) (path : Path) (opcode : Nat) : Device :=
  let d1 := d.settleOwnership
  let m := pathMaster path
  let d2 := d1.updBox path fun b =>
    { b with status := .busy, begun := false, accepted := d.now, ownerAt := d1.own.owner,
             rest := if opcode = 1 then b.rest else [], restOf := if opcode = 1 then b.restOf else 0 }
  if d1.own.owner = some m then d2.renew else d2

/-- A row of the command index, as it meets its mailbox: an IDLE mailbox takes the bytes and executes them; a BUSY one
executes what it holds if that is this command; for a DONE one the doorbell is ignored and its error bit set (R75). A
device that has not reached READY or SAFE holds the command (R487); a path that is not served takes none. -/
def Device.runRow (d : Device) (k : Kind) (opcode : Nat) (c : Cmd) : Device :=
  let path := c.path
  let box := d.paths.box path
  let isFabric := pathMaster path == .fabric
  if isFabric && (d.security.bound).isNone then d
  else
    match box.status with
    | .done => d.updPage (pathMaster path) fun g => { g with mbxError := g.mbxError ||| BitVec.ofNat 8 (2 ^ pathBox path) }
    | .busy =>
      if box.begun || decide (fieldU16 (padTo 32 box.cmd) 0 ≠ opcode) || !d.serves path then d else d.execute k opcode path
    | .idle =>
      let written := d.updBox path fun b => { b with cmd := cmdHeader c opcode ++ c.payload }
      if d.serves path then (written.acceptBox path opcode).execute k opcode path
      else if d.state = .booting && !isFabric then written.updBox path fun b => { b with status := .busy } else d

end Sys2Proof.Machine
end

