-- ==== Sys2Proof/Machine/ControlCommands.lean ====
section
/-! DEFINITION. The immediate commands of the control plane: identity, long responses, ownership and stage sets
(R79, R87 to R104). -/

namespace Sys2Proof.Machine

/-- A command without payload that any master may issue. -/
def plainCommand (who : Right) (check : Device → Call → Check) (run : Device → Call → Device) : Immediate :=
  { minLen := 0, maxLen := 0, who := who, check := check, run := run }

/-- A check that passes. -/
def checkNothing (_ : Device) (_ : Call) : Check := none

/-! ### Identity and long responses -/

/-- Bits of the device id as IDENTIFY shows it. -/
def Device.idWord (d : Device) : Nat :=
  match d.deviceId with
  | some i => i + 2 ^ 31
  | none => 0

/-- IDENTIFY (R94). -/
def immIdentify : Immediate :=
  plainCommand .any checkNothing fun d c =>
    d.answerOk c (leBytes 2 0xE032 ++ [0x41, 0x31] ++ leBytes 4 d.idWord ++ leBytes 8 d.boot.serial ++
      leBytes 1 d.stateCode ++ leBytes 1 d.boot.fwSlot ++ leBytes 2 0x0100 ++ leBytes 4 d.boot.fwVersion ++
      leBytes 4 d.security.fusedStep ++ zeros 4 ++ padTo 64 d.boot.fwDigest)

/-- MBX_NEXT: the next part of the mailbox's long response (R79). -/
def immMbxNext : Immediate :=
  plainCommand .any
    (fun d c => require (!(d.paths.box c.path).rest.isEmpty) resBadState (d.stateDetail 0))
    fun d c => d.answerOk c (d.paths.box c.path).rest

/-! ### Ownership -/

/-- A claim joins the window, and its response waits for the window's end (R88). -/
def Device.joinClaims (d : Device) (c : Call) : Device :=
  let m := pathMaster c.path
  let stamp := (d.paths.box c.path).accepted
  (d.mapOwn fun o =>
    { o with claimEnd := some (o.claimEnd.getD (stamp + 40000000)), claims := o.claims ++ [(m, pathBox c.path, stamp)] }).updBox
    c.path fun b => { b with begun := true }

/-- OWN_CLAIM (R88, R89). -/
def immOwnClaim : Immediate :=
  plainCommand .any
    (fun d c =>
      let m := pathMaster c.path
      match (d.paths.box c.path).ownerAt with
      | some o => require (decide (o = m)) resConflict (masterCode (some o))
      | none => require (!d.own.claims.any fun x => decide (x.1 = m)) resBusy)
    fun d c =>
      match (d.paths.box c.path).ownerAt with
      | some _ => d.answerOk c []
      | none => d.joinClaims c

/-- OWN_RENEW: its acceptance has renewed the lease (R90). -/
def immOwnRenew : Immediate := plainCommand .owner checkNothing fun d c => d.answerOk c []

/-- OWN_RELEASE (R93). -/
def immOwnRelease : Immediate := plainCommand .owner checkNothing fun d c => (d.setOwner none d.now c.tag).answerOk c []

/-- OWN_HANDOVER (R92). -/
def immOwnHandover : Immediate :=
  { minLen := 8, maxLen := 8, who := .owner,
    check := fun d c => firstFail [
      require (decide (1 ≤ fieldU8 c.payload 0 ∧ fieldU8 c.payload 0 ≤ 3 ∧
        fieldU8 c.payload 0 ≠ masterCode (some (pathMaster c.path)))) resBadArgument 0,
      reserved c.payload 1 1, inRange 2 0 10000 (fieldU16 c.payload 2), reserved c.payload 4 4,
      require d.own.offerTarget.isNone resBusy],
    run := fun d c =>
      let ms := if fieldU16 c.payload 2 = 0 then 1000 else fieldU16 c.payload 2
      let target := match fieldU8 c.payload 0 with
        | 1 => Master.host
        | 2 => .fabric
        | _ => .board
      (d.mapOwn fun o =>
        { o with offerTarget := some target, offerEnd := (d.paths.box c.path).accepted + 800000 * ms }).answerOk c [] }

/-- OWN_ACCEPT (R92). -/
def immOwnAccept : Immediate :=
  plainCommand .target checkNothing fun d c =>
    (d.setOwner (some (pathMaster c.path)) (d.paths.box c.path).accepted c.tag).answerOk c []

/-- Stage sets in some states, of a master or of any. -/
def Device.countSets (d : Device) (test : StageSet → Bool) : Nat := (d.staging.sets.filter fun e => test e.2).length

/-- A set is OPEN or CHECKED. -/
def StageSet.pending (s : StageSet) : Bool := decide (s.state = .open ∨ s.state = .checked)

/-- OWN_STATUS (R91, its response table). -/
def immOwnStatus : Immediate :=
  plainCommand .any checkNothing fun d c =>
    let m := pathMaster c.path
    let o := d.own
    let isOperator := d.paddocks.any fun e => decide (e.2.operator = some m)
    let flags := b2n o.claimEnd.isSome + 2 * b2n o.offerTarget.isSome + 4 * b2n isOperator
    let timer := if o.claimEnd.isSome then o.claimEnd.getD 0 else if o.offerTarget.isSome then o.offerEnd else 0
    d.answerOk c (leBytes 1 (masterCode o.owner) ++ leBytes 1 (masterCode (some m)) ++ leBytes 1 d.boot.ownPrio.toNat ++
      leBytes 1 flags ++ leBytes 1 (masterCode o.offerTarget) ++ zeros 3 ++
      leBytes 8 (if o.owner.isSome then o.leaseExpiry else 0) ++ leBytes 8 (if o.owner.isSome then o.ownerSince else 0) ++
      leBytes 8 timer ++ leBytes 4 (d.countSets fun s => s.pending && decide (some s.owner = o.owner)) ++
      leBytes 4 (d.countSets fun s => decide (s.state = .committed)))

/-! ### Stage sets -/

/-- Code of a stage set's state (R98). -/
def setStateCode : SetState → Nat
  | .open => 0
  | .checked => 1
  | .committed => 2
  | .applied => 3
  | .aborted => 4

/-- An id that no live set has, from the next one on; at most 40 sets are live, so one of 48 is free. -/
def Device.freeSetId (d : Device) : Nat :=
  (((List.range 48).map fun i => (d.staging.nextId + i) % 65535).find? fun i =>
    match Table.find d.staging.sets i with
    | none => true
    | some s => decide (s.state = .applied ∨ s.state = .aborted)).getD 0

/-- STAGE_OPEN (R99). -/
def immStageOpen : Immediate :=
  plainCommand .owner
    (fun d _ => require (decide (d.countSets StageSet.pending < 8)) resNoResource)
    fun d c =>
      let id := d.freeSetId
      (d.mapStaging fun s =>
        { s with sets := Table.put s.sets id { owner := pathMaster c.path }, nextId := (id + 1) % 65535 }).answerOk c
        (leBytes 2 id ++ zeros 2)

/-- The set a payload names: kept by the device, else BAD_ARGUMENT. -/
def Device.setNamed (d : Device) (c : Call) : Check :=
  require (Table.find d.staging.sets (fieldU16 c.payload 0)).isSome resBadArgument 0

/-- State of the set a payload names. -/
def Device.setState (d : Device) (c : Call) : SetState :=
  ((Table.find d.staging.sets (fieldU16 c.payload 0)).map (·.state)).getD .aborted

/-- The commands of the set a payload names. -/
def Device.setCommands (d : Device) (c : Call) : List StagedCommand :=
  ((Table.find d.staging.sets (fieldU16 c.payload 0)).map (·.commands)).getD []

/-- BAD_STATE unless the named set's state passes a test. -/
def Device.setIn (d : Device) (c : Call) (test : SetState → Bool) : Check :=
  require (test (d.setState c)) resBadState (d.stateDetail (setStateCode (d.setState c)))

/-- A set changed. -/
def Device.updSet (d : Device) (id : Nat) (f : StageSet → StageSet) : Device :=
  d.mapStaging fun s => { s with sets := Table.update s.sets id f }

/-- STAGE_CHECK (R101). -/
def immStageCheck : Immediate :=
  { minLen := 8, maxLen := 8, who := .owner,
    check := fun d c => firstFail [d.setNamed c, reserved c.payload 2 6,
      d.setIn c fun s => decide (s = .open ∨ s = .checked),
      checkSet (d.project d.committed) (fieldU16 c.payload 0) (d.setCommands c)],
    run := fun d c => (d.updSet (fieldU16 c.payload 0) fun s => { s with state := .checked }).answerOk c [] }

/-- STAGE_COMMIT's check against the projection at T, and of the later sets with this one applied (R101). -/
def Device.commitCheck (d : Device) (c : Call) : Check :=
  let id := fieldU16 c.payload 0
  let t := fieldU64 c.payload 8
  let earlier := d.committed.filter fun e => decide (e.2.instant ≤ t)
  let later := d.committed.filter fun e => decide (t < e.2.instant)
  let at_ := (d.project earlier).mapTally fun x => { x with now := max x.now t }
  match checkSet at_ id (d.setCommands c) with
  | some r => some r
  | none => checkLater (at_.applyCommands (d.setCommands c)) later

/-- STAGE_COMMIT (R69, R101). -/
def immStageCommit : Immediate :=
  { minLen := 16, maxLen := 16, who := .owner,
    check := fun d c => firstFail [d.setNamed c, reserved c.payload 2 6, d.setIn c fun s => decide (s = .checked),
      require (decide (fieldU64 c.payload 8 ≤ d.begunAt c + 800000000000)) resBadArgument 8,
      require (decide (d.committed.length < 32)) resNoResource,
      require (decide (d.begunAt c + 40000 ≤ fieldU64 c.payload 8)) resLate (d.begunAt c), d.commitCheck c],
    run := fun d c =>
      ((d.updSet (fieldU16 c.payload 0) fun s =>
        { s with state := .committed, instant := fieldU64 c.payload 8, order := d.staging.commits, tag := c.tag }).mapStaging
        fun s => { s with commits := s.commits + 1 }).answerOk c [] }

/-- STAGE_ABORT (R102). -/
def immStageAbort : Immediate :=
  { minLen := 8, maxLen := 8, who := .owner,
    check := fun d c => firstFail [d.setNamed c, reserved c.payload 2 6,
      d.setIn c fun s => decide (s ≠ .applied ∧ s ≠ .aborted),
      (match Table.find d.staging.sets (fieldU16 c.payload 0) with
       | none => none
       | some s => require (decide (s.state ≠ .committed ∨ d.begunAt c + 40000 ≤ s.instant)) resLate (d.begunAt c))],
    run := fun d c => (d.updSet (fieldU16 c.payload 0) fun s => { s with state := .aborted }).answerOk c [] }

/-- STAGE_STATUS (R98). -/
def immStageStatus : Immediate :=
  { minLen := 8, maxLen := 8, who := .any,
    check := fun d c => firstFail [d.setNamed c, reserved c.payload 2 6],
    run := fun d c =>
      match Table.find d.staging.sets (fieldU16 c.payload 0) with
      | none => d
      | some s => d.answerOk c (leBytes 1 (setStateCode s.state) ++ leBytes 1 (masterCode (some s.owner)) ++
          leBytes 2 s.commands.length ++ leBytes 4 s.bytes ++
          leBytes 8 (if s.state = .committed ∨ s.state = .applied then s.instant else 0)) }

/-! ### The rows -/

/-- The command meets its mailbox and executes (R75, R83). -/
def execIdentify (c : Cmd) (s : State) : Outcome := .next (s.on (·.runRow (.immediate immIdentify) 0x0000 c))

/-- The command meets its mailbox and executes (R75, R83). -/
def execMbxNext (c : Cmd) (s : State) : Outcome := .next (s.on (·.runRow (.immediate immMbxNext) 0x0001 c))

/-- The command meets its mailbox and executes (R75, R83). -/
def execOwnClaim (c : Cmd) (s : State) : Outcome := .next (s.on (·.runRow (.immediate immOwnClaim) 0x0010 c))

/-- The command meets its mailbox and executes (R75, R83). -/
def execOwnRenew (c : Cmd) (s : State) : Outcome := .next (s.on (·.runRow (.immediate immOwnRenew) 0x0011 c))

/-- The command meets its mailbox and executes (R75, R83). -/
def execOwnRelease (c : Cmd) (s : State) : Outcome := .next (s.on (·.runRow (.immediate immOwnRelease) 0x0012 c))

/-- The command meets its mailbox and executes (R75, R83). -/
def execOwnHandover (c : Cmd) (s : State) : Outcome := .next (s.on (·.runRow (.immediate immOwnHandover) 0x0013 c))

/-- The command meets its mailbox and executes (R75, R83). -/
def execOwnAccept (c : Cmd) (s : State) : Outcome := .next (s.on (·.runRow (.immediate immOwnAccept) 0x0014 c))

/-- The command meets its mailbox and executes (R75, R83). -/
def execOwnStatus (c : Cmd) (s : State) : Outcome := .next (s.on (·.runRow (.immediate immOwnStatus) 0x0015 c))

/-- The command meets its mailbox and executes (R75, R83). -/
def execStageOpen (c : Cmd) (s : State) : Outcome := .next (s.on (·.runRow (.immediate immStageOpen) 0x0100 c))

/-- The command meets its mailbox and executes (R75, R83). -/
def execStageCheck (c : Cmd) (s : State) : Outcome := .next (s.on (·.runRow (.immediate immStageCheck) 0x0101 c))

/-- The command meets its mailbox and executes (R75, R83). -/
def execStageCommit (c : Cmd) (s : State) : Outcome := .next (s.on (·.runRow (.immediate immStageCommit) 0x0102 c))

/-- The command meets its mailbox and executes (R75, R83). -/
def execStageAbort (c : Cmd) (s : State) : Outcome := .next (s.on (·.runRow (.immediate immStageAbort) 0x0103 c))

/-- The command meets its mailbox and executes (R75, R83). -/
def execStageStatus (c : Cmd) (s : State) : Outcome := .next (s.on (·.runRow (.immediate immStageStatus) 0x0104 c))

end Sys2Proof.Machine
end

