-- ==== Sys2Proof/Machine/StatusCommands.lean ====
section
/-! DEFINITION. The immediate commands on paddocks, rings, connections, exposures, ports, traffic, folds, droves, bells
and hurdles (R203, R303 to R305, R308, R315, R326, R331, R365, R390 to R392). -/

namespace Sys2Proof.Machine

/-- A paddock that an immediate command names exists and is of the path's world (R97, R528). -/
def Device.paddockNamed (d : Device) (c : Call) (off : Nat) : List Check :=
  let n := fieldU8 c.payload off
  [require (decide (n ≤ 63)) resBadArgument off, require (d.paddock n).isSome resBadArgument off]

/-- World of a paddock that a command names (step 8). -/
def Device.paddockWorld (d : Device) (c : Call) (off : Nat) : Check :=
  d.worldOf (d.callWorld c) (fieldU8 c.payload off) off

/-- State of a paddock, VACANT where it does not exist. -/
def Device.paddockState (d : Device) (p : Nat) : PaddockState := ((d.paddock p).map (·.state)).getD .vacant

/-- A command whose payload is a paddock and reserved bytes up to eight. -/
def paddockCommand (who : Right) (more : Device → Call → Check) (run : Device → Call → Device) : Immediate :=
  { minLen := 8, maxLen := 8, who := who,
    check := fun d c => firstFail (d.paddockNamed c 0 ++ [reserved c.payload 1 7, d.paddockWorld c 0, more d c]),
    run := run }

/-- The right P of a command whose first payload byte is a paddock. -/
def operatorRight : Right := .operator fun p => fieldU8 p 0

/-! ### Paddocks (R390 to R392) -/

/-- PADDOCK_PREEMPT (R390); a paddock whose image keeps state in its blocks stops with IMMEDIATE whatever mode is asked (R381,
DEDUCED, log entry 109). -/
def immPaddockPreempt : Immediate :=
  { minLen := 8, maxLen := 8, who := operatorRight,
    check := fun d c =>
      let p := c.payload
      let st := d.paddockState (fieldU8 p 0)
      firstFail (d.paddockNamed c 0 ++ [inRange 1 0 1 (fieldU8 p 1), reserved p 2 2,
        require (decide (fieldU32 p 4 = 0 ∨ (40000 ≤ fieldU32 p 4 ∧ fieldU32 p 4 ≤ 800000000))) resBadArgument 4,
        d.paddockWorld c 0,
        require (decide (st ≠ .vacant ∧ st ≠ .faulted)) resBadState (d.stateDetail (paddockStateCode st)),
        require (decide (st ≠ .stopping ∧ st ≠ .saving ∧ st ≠ .restoring)) resBusy]),
    run := fun d c =>
      let n := fieldU8 c.payload 0
      match d.paddock n with
      | none => d
      | some x =>
        if x.state = .running then
          let budget := if fieldU32 c.payload 4 = 0 then x.budget else fieldU32 c.payload 4
          let waiter := some (pathMaster c.path, pathBox c.path)
          let d1 := d.updBox c.path fun b => { b with begun := true }
          if fieldU8 c.payload 1 = 0 ∧ d.maxStep n ≠ 0 then
            d1.beginPreempt n .boundary (some ((d.paths.box c.path).accepted + budget)) true waiter
          else d1.beginPreempt n .immediate none true waiter
        else if x.state = .held then d.answerOk c []
        else (((d.updPaddock n fun y => { y with suspended := y.suspended || decide (x.state = .saved) }).setPaddockState n
          .held c.tag).schedule).answerOk c [] }

/-- A paddock is released from HELD by a command of some tag (R80, R391). -/
def Device.resumePaddock (d : Device) (n tag : Nat) : Device :=
  match d.paddock n with
  | none => d
  | some x =>
    let next := if x.suspended then PaddockState.saved else if d.hasWork n then .waiting else .vacant
    (d.setPaddockState n next tag).schedule

/-- PADDOCK_RESUME (R391). -/
def immPaddockResume : Immediate :=
  paddockCommand operatorRight
    (fun d c =>
      let st := d.paddockState (fieldU8 c.payload 0)
      require (decide (st = .held)) resBadState (d.stateDetail (paddockStateCode st)))
    fun d c => (d.resumePaddock (fieldU8 c.payload 0) c.tag).answerOk c []

/-- PADDOCK_STATUS (R392). -/
def immPaddockStatus : Immediate :=
  paddockCommand .any checkNothing fun d c =>
    let n := fieldU8 c.payload 0
    match d.paddock n with
    | none => d
    | some x =>
      let work := d.hasWork n
      let flags := b2n (x.world == .secure) + 2 * b2n work +
        4 * b2n (decide (x.state = .running ∧ x.tookAt + x.slice ≤ d.now))
      let blocks := x.blockList.length
      let s := d.serving n
      d.answerOk c (leBytes 1 (paddockStateCode x.state) ++ leBytes 1 x.lastMode ++ leBytes 1 x.priority ++ leBytes 1 flags ++
        leBytes 2 blocks ++ leBytes 2 (if x.holds then blocks else 0) ++ leBytes 8 x.stateSince ++
        leBytes 8 (if work then x.demand else 0) ++ leBytes 4 (s.pastBoundary + x.nBoundary) ++
        leBytes 4 (s.pastImmediate + x.nImmediate) ++ leBytes 4 (s.pastEscalated + x.nEscalated) ++ zeros 4 ++
        leBytes 8 (s.pastSaved + x.savedBytes) ++ leBytes 8 x.lastSwitch ++ leBytes 8 d.now)

/-! ### Rings, connections, exposures, ports -/

/-- Code of a ring's state (R326). -/
def ringStateCode : RingState → Nat
  | .free => 0
  | .live => 1
  | .stalled => 2
  | .draining => 3

/-- QUEUE_STATUS (R326). -/
def immQueueStatus : Immediate :=
  { minLen := 8, maxLen := 8, who := .any,
    check := fun d c => firstFail [inRange 0 0 16383 (fieldU16 c.payload 0), reserved c.payload 2 6,
      (match d.ring (fieldU16 c.payload 0) with
       | some r => d.worldOf (d.callWorld c) r.paddock 0
       | none => none)],
    run := fun d c =>
      match d.ring (fieldU16 c.payload 0) with
      | none => d.answerOk c (zeros 32)
      | some r => d.answerOk c (leBytes 1 (ringStateCode r.state) ++ zeros 7 ++ leBytes 4 r.produced ++ leBytes 4 r.taken ++
          leBytes 4 r.completed ++ leBytes 4 r.consumed ++ leBytes 8 r.stallAddr) }

/-- Code of a connection's state (R314). -/
def connStateCode : ConnState → Nat
  | .idle => 0
  | .open => 1
  | .closing => 2
  | .error => 3

/-- Least owd of the current and the previous epoch (R325). -/
def Conn.baseOwd (c : Conn) : Option Int :=
  match c.owdNow, c.owdPrev with
  | some a, some b => some (min a b)
  | some a, none => some a
  | none, b => b

/-- The 8-byte counters of a vector. -/
def counterBytes {n : Nat} (v : Vector Nat n) : List Byte := v.toList.flatMap fun x => leBytes 8 x

/-- CONN_STATUS (R315). -/
def immConnStatus : Immediate :=
  { minLen := 8, maxLen := 8, who := .any,
    check := fun d c => firstFail [inRange 0 0 1048575 (fieldU32 c.payload 0), reserved c.payload 4 4,
      (match d.conn (fieldU32 c.payload 0) with
       | some x => d.worldOf (d.callWorld c) x.paddock 0
       | none => none)],
    run := fun d c =>
      match d.conn (fieldU32 c.payload 0) with
      | none => d.answerOk c (zeros 92)
      | some x => d.answerOk c (leBytes 1 (connStateCode x.state) ++ leBytes 1 x.home ++ zeros 2 ++ leBytes 4 x.cwnd ++
          leBytes 4 x.srtt ++ leBytes 4 (unsigned 32 (x.baseOwd.getD 0)) ++ leBytes 4 x.nextPsn ++
          leBytes 4 (x.ackedTo + 0xFFFFFFFF) ++ leBytes 4 x.rxNext ++ counterBytes x.counters) }

/-- Code of an exposure's state (R331). -/
def exposureStateCode : ExposureState → Nat
  | .free => 0
  | .live => 1
  | .revoking => 2
  | .draining => 3

/-- The exposure that holds, or last held, a key. -/
def Device.exposureOf (d : Device) (key : Nat) : Option Exposure :=
  (d.exposure (key % 0x100000)).bind fun e => if e.key = key then some e else none

/-- EXPOSE_STATUS (R331). -/
def immExposeStatus : Immediate :=
  { minLen := 8, maxLen := 8, who := .any,
    check := fun d c => firstFail [reserved c.payload 4 4,
      (match d.exposureOf (fieldU32 c.payload 0) with
       | some e => require (!(d.callWorld c == .nonsecure && e.world == .secure)) resWorldDenied 0
       | none => none)],
    run := fun d c =>
      match d.exposureOf (fieldU32 c.payload 0) with
      | none => d.answerOk c (zeros 48)
      | some e => d.answerOk c (leBytes 1 (exposureStateCode e.state) ++ zeros 7 ++ leBytes 8 e.revokeAt ++
          leBytes 8 e.freeAt ++ leBytes 8 e.accesses ++ leBytes 8 e.pageWaits ++ leBytes 8 e.lastWait) }

/-- Code of a link's state (R308). -/
def linkStateCode : LinkState → Nat
  | .absent => 0
  | .down => 1
  | .training => 2
  | .up => 3

/-- A link's counters at an instant: no row brings a codeword, so what its FEC has counted is free (log entry 111). -/
def Link.countersAt (l : Link) (link now : Nat) : Vector Nat 8 :=
  if l.state = .absent then l.counters
  else bump (bump l.counters 0 (Config.fecCount link 0 now)) 1 (Config.fecCount link 1 now)

/-- One link's entry of PORT_STATUS: every field the rule names (log entry 18). -/
def Link.statusBytes (l : Link) (link now : Nat) : List Byte :=
  leBytes 1 (linkStateCode l.state) ++ zeros 7 ++ leBytes 8 l.upSince ++ counterBytes (l.countersAt link now)

/-- PORT_STATUS (R308). -/
def immPortStatus : Immediate :=
  { minLen := 8, maxLen := 8, who := .any,
    check := fun _ c => firstFail [inRange 0 0 31 (fieldU8 c.payload 0), reserved c.payload 1 7],
    run := fun d c =>
      let n := fieldU8 c.payload 0
      let p := d.port n
      d.answerOk c (p.link0.statusBytes (2 * n) d.now ++ p.link1.statusBytes (2 * n + 1) d.now) }

/-! ### Traffic (R365) -/

/-- A class's entry of TRAFFIC_STATUS for a port link. -/
def Link.classBytes (l : Link) (p : Port) (t k : Nat) : List Byte :=
  let credit := Int.fdiv ((l.credit[k]?).getD 0) 6400
  leBytes 8 ((l.frames[k]?).getD 0) ++ leBytes 8 ((l.bytes[k]?).getD 0) ++ leBytes 4 (unsigned 32 credit) ++
    leBytes 4 (if 3 ≤ k then (l.deficit[k - 3]?).getD 0 else 0) ++ leBytes 4 (l.queuedBytes k) ++
    leBytes 1 (b2n ((p.gatesAt t).getLsbD k) + 2 * b2n (Table.find p.shapers k).isSome) ++ zeros 3

/-- Bytes of a class that wait for the windows of a die. -/
def Device.arbiterQueued (d : Device) (die k : Nat) : Nat :=
  (d.net.windows.map fun e =>
    if (d.windowsOf (e.1 / 256)).any fun w => decide (w.window = e.1 % 256 ∧ w.edge = die ∧ w.dir = 0) then
      ((e.2.fifo ++ e.2.queue).map fun x => if x.cls = k then x.size else 0).sum else 0).sum

/-- TRAFFIC_STATUS (R365). -/
def immTrafficStatus : Immediate :=
  { minLen := 8, maxLen := 8, who := .any,
    check := fun d c =>
      let scope := fieldU8 c.payload 0
      firstFail [inRange 0 0 2 scope, reserved c.payload 1 1,
        inRange 2 0 (if scope = 0 then 31 else if scope = 1 then 16383 else 3) (fieldU16 c.payload 2),
        reserved c.payload 4 4,
        (if scope = 1 then
          match d.ring (fieldU16 c.payload 2) with
          | some r => d.worldOf (d.callWorld c) r.paddock 2
          | none => none
         else none)],
    run := fun d c =>
      let i := fieldU16 c.payload 2
      match fieldU8 c.payload 0 with
      | 0 =>
        let d1 := (d.runCredits (2 * i)).runCredits (2 * i + 1)
        let p := d1.port i
        d1.answerOk c (leBytes 8 d.now ++ ((List.range 16).flatMap fun k => p.link0.classBytes p d.now k) ++
          ((List.range 16).flatMap fun k => p.link1.classBytes p d.now k))
      | 1 =>
        match d.ring i with
        | none => d.answerOk c (leBytes 8 d.now ++ zeros 32)
        | some r => d.answerOk c (leBytes 8 d.now ++ leBytes 8 r.green ++ leBytes 8 r.yellow ++ leBytes 8 r.red ++
            leBytes 4 (r.tc / 6400) ++ leBytes 4 (r.tp / 6400))
      | _ =>
        let a := (d.net.arbiters[i]?).getD {}
        d.answerOk c (leBytes 8 d.now ++ (List.range 16).flatMap fun k =>
          leBytes 8 ((a.deliveries[k]?).getD 0) ++ leBytes 4 (d.arbiterQueued i k) ++
            leBytes 4 (if 3 ≤ k then (a.deficit[k - 3]?).getD 0 else 0)) }

/-! ### Folds, droves and the prefix tree (R303 to R305) -/

/-- FOLD_STATUS (R305). -/
def immFoldStatus : Immediate :=
  { minLen := 8, maxLen := 8, who := .any,
    check := fun d c => firstFail [require (d.fold (fieldU16 c.payload 0)).isSome resBadArgument 0, reserved c.payload 2 6],
    run := fun d c =>
      match d.fold (fieldU16 c.payload 0) with
      | none => d
      | some f =>
        let m := f.current
        let members := f.members.foldl (fun n e => n + 2 ^ e.1) 0
        d.answerOk c (leBytes 4 ((m.map (·.version)).getD 0) ++ leBytes 4 ((f.previous.map (·.version)).getD 0) ++
          leBytes 8 f.drainEnd ++ leBytes 4 ((m.map (·.devices)).getD 0) ++ leBytes 4 f.founded ++
          leBytes 1 (b2n (decide (1024 < f.founded))) ++ zeros 7 ++ leBytes 8 members) }

/-- A paddock's entry of FOLD_METER. -/
def meterBytes (fold paddock now : Nat) (m : Meter) : List Byte :=
  let until_ := if m.endAt = 0 then now else Nat.min now m.endAt
  leBytes 2 fold ++ leBytes 1 paddock ++ zeros 5 ++ leBytes 8 (until_ - m.since) ++ leBytes 8 m.active ++ leBytes 8 m.since ++
    leBytes 8 now ++ leBytes 4 m.drovesOut ++ leBytes 4 m.drovesIn ++ leBytes 8 m.bytesOut ++ leBytes 8 m.bytesIn

/-- The fold's own entry of FOLD_METER: ticks that any local paddock counts, and the sums of the counters. -/
def foldMeterBytes (fold now : Nat) (f : Fold) : List Byte :=
  let all := (f.members ++ f.former).map (·.2)
  let sum := fun (g : Meter → Nat) => (all.map g).sum
  let first := ((leastBy (fun (m : Meter) => m.since) all).map (·.since)).getD 0
  leBytes 2 fold ++ [0xFF] ++ zeros 5 ++ leBytes 8 f.resident ++ leBytes 8 f.active ++ leBytes 8 first ++ leBytes 8 now ++
    leBytes 4 (sum (·.drovesOut)) ++ leBytes 4 (sum (·.drovesIn)) ++ leBytes 8 (sum (·.bytesOut)) ++ leBytes 8 (sum (·.bytesIn))

/-- Figures of a paddock in a fold. -/
def Fold.meterOf (f : Fold) (p : Nat) : Option Meter :=
  match Table.find f.members p with
  | some m => some m
  | none => Table.find f.former p

/-- FOLD_METER (R304). A paddock that is a member or has left is named while it exists (R528); the fold's entries are
refused to a NONSECURE path where one of its member paddocks is SECURE, since they read it (R97). -/
def immFoldMeter : Immediate :=
  { minLen := 8, maxLen := 8, who := .any,
    check := fun d c =>
      let p := fieldU8 c.payload 2
      firstFail [require (d.fold (fieldU16 c.payload 0)).isSome resBadArgument 0,
        require (decide (p = 0xFF) || decide (p ≤ 63) &&
          ((d.fold (fieldU16 c.payload 0)).bind fun f => f.meterOf p).isSome) resBadArgument 2,
        require (decide (p = 0xFF) || (d.paddock p).isSome) resBadArgument 2, reserved c.payload 3 5,
        if p = 0xFF then firstFail (((d.fold (fieldU16 c.payload 0)).map (·.members.map (·.1))).getD [] |>.map fun m =>
          d.worldOf (d.callWorld c) m 2) else d.paddockWorld c 2],
    run := fun d c =>
      let n := fieldU16 c.payload 0
      let p := fieldU8 c.payload 2
      match d.fold n with
      | none => d
      | some f =>
        if p = 0xFF then
          d.answerOk c (foldMeterBytes n d.now f ++ f.members.flatMap fun e => meterBytes n e.1 d.now e.2)
        else match f.meterOf p with
          | none => d
          | some m => d.answerOk c (meterBytes n p d.now m) }

/-- A record at an address is OWNED with SETTLING. -/
def Device.isSettling (d : Device) (a : Nat) : Bool := decide (d.loadLe a 1 = 1) && bitOf (d.loadLe (a + 1) 1) 0

/-- DROVE_STATUS (R303). -/
def immDroveStatus : Immediate :=
  paddockCommand .any checkNothing fun d c =>
    let n := fieldU8 c.payload 0
    let s := d.droveState n
    let rs := d.recordsOf n
    d.answerOk c (leBytes 4 (rs.filter fun a => decide (d.loadLe a 1 = 2)).length ++
      leBytes 4 (rs.filter d.isSettling).length ++ leBytes 4 (s.unsettled.filter d.isSettling).length ++ zeros 4 ++
      leBytes 8 s.voided ++ s.pageStacks.flatMap fun k => leBytes 4 k.2.2)

/-- A node is VALID. -/
def nodeValid (b : List Byte) : Bool := bitOf (fieldU8 b 14) 0
/-- A node is TOMB. -/
def nodeTomb (b : List Byte) : Bool := bitOf (fieldU8 b 14) 1

/-- PREFIX_STATUS (R303). -/
def immPrefixStatus : Immediate :=
  paddockCommand .any checkNothing fun d c =>
    let s := d.droveState (fieldU8 c.payload 0)
    match s.prefixCfg with
    | none => d.answerOk c (zeros 24)
    | some t =>
      let count := d.countNodes t.2.2.2.1 t.1
      d.answerOk c (leBytes 4 (count nodeValid) ++ leBytes 4 (count nodeTomb) ++
        leBytes 4 (count fun b => nodeValid b && decide (fieldU32 b 24 ≠ 0)) ++ zeros 4 ++ leBytes 8 s.evicted)

/-! ### Bells and hurdles (R203) -/

/-- The paddock whose bell BELL_READ shows: the one asked for, the owner of a network bell, the block's occupant, or the
lowest-numbered paddock that names the block. -/
def Device.bellPaddock (d : Device) (bell asked : Nat) : Option Nat :=
  if 65536 ≤ bell then (d.netBellOwner ((bell - 65536) / 1024) ((bell - 65536) % 1024)).map (·.1)
  else if asked ≠ 0xFF then some asked
  else match d.occupant (bell / 64) with
    | some e => some e.1
    | none => (d.paddocks.find? fun e => e.2.names (bell / 64)).map (·.1)

/-- One entry of BELL_READ. -/
def Device.bellEntry (d : Device) (bell asked : Nat) : List Byte :=
  match d.bellPaddock bell asked with
  | none => leBytes 4 bell ++ zeros 4 ++ [0xFF] ++ zeros 31 ++ leBytes 8 d.now
  | some p =>
    let b := d.bell p bell
    let holds := ((d.paddock p).map (·.holds)).getD false
    let flags := b2n (d.isSecure p) + 2 * b2n b.saturated + 4 * b2n (d.isFaulted p) +
      8 * b2n (decide (bell < 65536) && !holds)
    let mask := if bell < 65536 then (b.waiters.filter fun w => decide (w.1 < 2 ^ 20)).foldl (fun m w => m ||| 2 ^ (w.1 % 16)) 0
      else 0
    leBytes 4 bell ++ leBytes 4 b.value ++ leBytes 1 p ++ leBytes 1 flags ++ leBytes 2 b.waiters.length ++
      leBytes 4 ((b.waiters.head?.map (·.2.1)).getD 0) ++ leBytes 2 mask ++ leBytes 2 b.lastInc ++ leBytes 4 b.rings ++
      leBytes 8 b.lastStamp ++ leBytes 8 b.lastSource ++ leBytes 8 d.now

/-- BELL_READ (R203). -/
def immBellRead : Immediate :=
  { minLen := 8, maxLen := 8, who := .any,
    check := fun d c =>
      let first := fieldU32 c.payload 0
      let count := fieldU16 c.payload 4
      let p := fieldU8 c.payload 6
      let bells := (List.range (Nat.min count 64)).map (first + ·)
      firstFail [inRange 0 0 69631 first,
        require (decide (1 ≤ count ∧ count ≤ 64 ∧ first + count ≤ 69632)) resBadLength 4,
        require (decide (p = 0xFF) || (decide (p ≤ 63) && bells.all fun b =>
          decide (b < 65536) && ((d.paddock p).map fun x => x.names (b / 64)).getD false)) resBadArgument 6,
        reserved c.payload 7 1,
        require (!(d.callWorld c == .nonsecure && bells.any fun b =>
          match d.bellPaddock b p with
          | some q => d.isSecure q
          | none => false)) resWorldDenied 0],
    run := fun d c =>
      d.answerOk c ((List.range (fieldU16 c.payload 4)).flatMap fun i =>
        d.bellEntry (fieldU32 c.payload 0 + i) (fieldU8 c.payload 6)) }

/-- Threads that wait in HWAIT, or in HPASS after their arrival has been answered, at a hurdle. -/
def Device.hurdleWaiters (d : Device) (h : Nat) : Nat :=
  (d.fabric.blocks.map fun e => (e.2.threads.toList.filter fun t =>
    match t.waits with
    | .hurdle k r _ => decide (k = h ∧ r ≠ answerOut)
    | _ => false).length).sum

/-- One entry of HURDLE_READ. -/
def Device.hurdleEntry (d : Device) (h : Nat) : List Byte :=
  let x := d.hurdle h
  let owner := (d.hurdleOwner h).map (·.1)
  let flags := b2n ((owner.map d.isSecure).getD false) + 2 * b2n x.n.isSome + 4 * b2n x.overrun + 8 * b2n x.mismatch
  leBytes 1 h ++ leBytes 1 (owner.getD 0xFF) ++ leBytes 1 flags ++ zeros 1 ++ leBytes 2 (x.n.getD 0) ++
    leBytes 2 x.current.length ++ leBytes 2 x.nextSet.length ++ leBytes 2 (d.hurdleWaiters h) ++ zeros 4 ++
    leBytes 8 x.round ++ leBytes 8 x.lastStamp ++ leBytes 8 x.lastSource ++ leBytes 8 x.completedAt ++ leBytes 8 d.now

/-- HURDLE_READ (R203). -/
def immHurdleRead : Immediate :=
  { minLen := 8, maxLen := 8, who := .any,
    check := fun d c =>
      let first := fieldU8 c.payload 0
      let count := fieldU8 c.payload 1
      firstFail [require (decide (1 ≤ count ∧ count ≤ 16 ∧ first + count ≤ 256)) resBadLength 1, reserved c.payload 2 6,
        require (!(d.callWorld c == .nonsecure && (List.range (Nat.min count 16)).any fun i =>
          match d.hurdleOwner (first + i) with
          | some e => d.isSecure e.1
          | none => false)) resWorldDenied 0],
    run := fun d c => d.answerOk c ((List.range (fieldU8 c.payload 1)).flatMap fun i => d.hurdleEntry (fieldU8 c.payload 0 + i)) }

/-! ### The rows -/

/-- The command meets its mailbox and executes (R75, R83). -/
def execPaddockPreempt (c : Cmd) (s : State) : Outcome := .next (s.on (·.runRow (.immediate immPaddockPreempt) 0x0204 c))

/-- The command meets its mailbox and executes (R75, R83). -/
def execPaddockResume (c : Cmd) (s : State) : Outcome := .next (s.on (·.runRow (.immediate immPaddockResume) 0x0205 c))

/-- The command meets its mailbox and executes (R75, R83). -/
def execPaddockStatus (c : Cmd) (s : State) : Outcome := .next (s.on (·.runRow (.immediate immPaddockStatus) 0x0206 c))

/-- The command meets its mailbox and executes (R75, R83). -/
def execFoldStatus (c : Cmd) (s : State) : Outcome := .next (s.on (·.runRow (.immediate immFoldStatus) 0x0403 c))

/-- The command meets its mailbox and executes (R75, R83). -/
def execFoldMeter (c : Cmd) (s : State) : Outcome := .next (s.on (·.runRow (.immediate immFoldMeter) 0x0404 c))

/-- The command meets its mailbox and executes (R75, R83). -/
def execQueueStatus (c : Cmd) (s : State) : Outcome := .next (s.on (·.runRow (.immediate immQueueStatus) 0x0502 c))

/-- The command meets its mailbox and executes (R75, R83). -/
def execConnStatus (c : Cmd) (s : State) : Outcome := .next (s.on (·.runRow (.immediate immConnStatus) 0x0512 c))

/-- The command meets its mailbox and executes (R75, R83). -/
def execExposeStatus (c : Cmd) (s : State) : Outcome := .next (s.on (·.runRow (.immediate immExposeStatus) 0x0522 c))

/-- The command meets its mailbox and executes (R75, R83). -/
def execPortStatus (c : Cmd) (s : State) : Outcome := .next (s.on (·.runRow (.immediate immPortStatus) 0x0531 c))

/-- The command meets its mailbox and executes (R75, R83). -/
def execTrafficStatus (c : Cmd) (s : State) : Outcome := .next (s.on (·.runRow (.immediate immTrafficStatus) 0x0605 c))

/-- The command meets its mailbox and executes (R75, R83). -/
def execDroveStatus (c : Cmd) (s : State) : Outcome := .next (s.on (·.runRow (.immediate immDroveStatus) 0x0701 c))

/-- The command meets its mailbox and executes (R75, R83). -/
def execPrefixStatus (c : Cmd) (s : State) : Outcome := .next (s.on (·.runRow (.immediate immPrefixStatus) 0x0711 c))

/-- The command meets its mailbox and executes (R75, R83). -/
def execBellRead (c : Cmd) (s : State) : Outcome := .next (s.on (·.runRow (.immediate immBellRead) 0x0A00 c))

/-- The command meets its mailbox and executes (R75, R83). -/
def execHurdleRead (c : Cmd) (s : State) : Outcome := .next (s.on (·.runRow (.immediate immHurdleRead) 0x0A01 c))

end Sys2Proof.Machine
end

