-- ==== Sys2Proof/Machine/ImageCommands.lean ====
section
/-! DEFINITION. The commands on schedule images: registration with its checks, information and retirement
(R162 to R180, R239, R336, R424, R458). -/

namespace Sys2Proof.Machine

/-! ### Checks of an image -/

/-- A failure in a buffer that the command names carries bit 33 in `detail` (R531). -/
def inBuffer (c : Check) : Check :=
  match c with
  | none => none
  | some r =>
    if r.result = resBadLength ∨ r.result = resBadArgument ∨ r.result = resWorldDenied then
      some { r with detail := bufferField r.detail }
    else some { r with detail := 0 }

/-- Place of a result in the order of R83. -/
def stepRank (result : Nat) : Nat :=
  if result = resBadLength then 6 else if result = resBadArgument ∨ result = resVersion then 7
  else if result = resWorldDenied then 8 else if result = resAuthFailed then 8 else if result = resBadState then 9
  else if result = resNoResource ∨ result = resBusy then 10 else 12

/-- The failure that comes first in the order of R83, the earliest in the list among those of one step. -/
def byStep (cs : List Check) : Check := leastBy (fun r => stepRank r.result) (cs.filterMap id)

/-- Sections that are used by their layout: a kind of the table, and the kinds whose entries have a fixed size. -/
def entrySize (kind : Nat) : Nat :=
  if kind = 2 then 34 else if kind = 4 then 16 else if kind = 5 ∨ kind = 6 ∨ kind = 7 then 32 else 0

/-- Greatest count of a section kind that R170, R336 bound. -/
def entryLimit (kind : Nat) : Nat := if kind = 5 then 255 else if kind = 7 then 256 else 2 ^ 32 - 2

/-- Header and directory (R162): what must hold before the sections can be read. -/
def imageFrameCheck (im : List Byte) (length : Nat) : Check :=
  let n := fieldU16 im 8
  firstFail [require (decide (fieldU32 im 24 = length)) resBadLength 24,
    require (decide (fieldU32 im 0 = 0x32454D58)) resBadArgument 0,
    require (decide (fieldU16 im 4 = 0x0100)) resVersion,
    sizeIn 8 1 32 n, sizeIn 14 1 1024 (fieldU16 im 14),
    require (decide (128 + 16 * n ≤ length)) resBadLength 8]

/-- Bounds of the sections: clear of the header and directory, of each other and of the end (R162). -/
def sectionBounds (im : List Byte) (length : Nat) : List Check :=
  let n := fieldU16 im 8
  let ss := imageSections im
  (List.range n).map fun i =>
    match ss[i]? with
    | none => none
    | some s =>
      let o := 128 + 16 * i
      let meets := (List.range i).any fun j =>
        match ss[j]? with
        | none => false
        | some t => decide (0 < s.len ∧ 0 < t.len ∧ s.off < t.off + t.len ∧ t.off < s.off + s.len)
      firstFail [require (decide (128 + 16 * n ≤ s.off) && !meets) resBadLength (o + 8),
        require (decide (s.off + s.len ≤ length)) resBadLength (o + 12),
        require (decide (entrySize s.kind = 0 ∨ s.len = entrySize s.kind * s.count)) resBadLength (o + 4),
        require (decide (s.count ≤ entryLimit s.kind)) resBadLength (o + 4),
        require (decide (s.kind ≠ 15 ∨ s.len = 1288)) resBadLength (o + 12)]

/-- Items of a `CODE` or `BLOCK_SLOTS` section follow one another and fill it: the first item that does not. -/
def itemsCheck (im : List Byte) (limit last entry : Nat) : Nat → Nat → Check
  | 0, o => require (decide (o = last)) resBadLength (entry + 12)
  | n + 1, o =>
    let words := fieldU32 im (o + 4)
    if o + 8 ≤ last then
      if 1 ≤ words ∧ words ≤ limit ∧ o + 8 + 8 * words ≤ last then itemsCheck im limit last entry n (o + 8 + 8 * words)
      else some { result := resBadLength, detail := o + 4 }
    else some { result := resBadLength, detail := entry + 4 }

/-- Item counts of the sections of blocks: an item takes 16 bytes at least, so a count that cannot fit is refused first. -/
def itemBounds (im : List Byte) : List Check :=
  (List.range (fieldU16 im 8)).map fun i =>
    match (imageSections im)[i]? with
    | none => none
    | some s =>
      let o := 128 + 16 * i
      if s.kind = 1 ∨ s.kind = 3 then
        if s.len < 16 * s.count then some { result := resBadLength, detail := o + 4 }
        else itemsCheck im (if s.kind = 1 then 8192 else 2048) (s.off + s.len) o s.count s.off
      else none

/-- Blocks of a list of items. -/
def itemBlocks (items : List (Nat × Nat × Nat)) : List Nat := items.map (·.1)

/-- Exactly one element of a list is a block. -/
def onlyOnce (b : Nat) (bs : List Nat) : Bool := decide ((bs.filter fun x => decide (x = b)).length = 1)

/-- Values of the header and directory (R162, R163, R178). -/
def headerValues (im : List Byte) : List Check :=
  let n := fieldU16 im 8
  let ss := imageSections im
  let mhz := imageMhz im
  let top := 2 ^ fieldU8 im 10 * (512 * mhz / 100) - 8
  [require (decide (fieldU16 im 6 ≤ 1)) resBadArgument 6, inRange 10 0 5 (fieldU8 im 10),
   require (decide (fieldU8 im 11 ≤ 15 ∧ 1 ≤ fieldU8 im 11)) resBadArgument 11, inRange 12 1000 3300 mhz,
   inRange 16 64 top (imageFrame im), reserved im 30 2, reserved im 104 24] ++
  ((List.range n).flatMap fun i =>
    match ss[i]? with
    | none => []
    | some s =>
      let o := 128 + 16 * i
      let again := (List.range i).any fun j => decide ((ss[j]?.map (·.kind)) = some s.kind)
      [require (decide (((1 ≤ s.kind ∧ s.kind ≤ 8) ∨ s.kind = 15) ∧ (again = false ∨ s.kind ≤ 3))) resBadArgument o,
       reserved im (o + 2) 2, require (decide (s.off % 64 = 0)) resBadArgument (o + 8)]) ++
  [require ([1, 2, 3, 4].all fun k => ss.any fun s => decide (s.kind = k)) resBadArgument 8,
   require (!bitOf (fieldU8 im 6) 0 || ss.any fun s => decide (s.kind = 15)) resBadArgument 8]

/-- Blocks, entry PCs and instruction words (R155, R162, R177). -/
def codeValues (x : Paddock) (im : List Byte) : List Check :=
  let code := itemBlocks (imageCode im)
  let slots := itemBlocks (imageSlots im)
  let entries := (imageEntries im).map (·.1)
  [require (decide (fieldU16 im 14 = code.length)) resBadArgument 14] ++
  ((imageCode im).flatMap fun e =>
    [require (onlyOnce e.1 code && onlyOnce e.1 slots && onlyOnce e.1 entries) resBadArgument (e.2.1 - 8),
     require (decide (e.1 < 1024) && x.names e.1 && bitOf (fieldU16 im 28) (regionOf e.1)) resBadArgument (e.2.1 - 8),
     reserved im (e.2.1 - 6) 2] ++
    (List.range e.2.2).map fun i =>
      let w := splitWord (fieldU64 im (e.2.1 + 8 * i))
      require (wordLegal w.1 w.2) resBadArgument (e.2.1 + 8 * i)) ++
  ((imageSlots im).flatMap fun e => [require (code.contains e.1) resBadArgument (e.2.1 - 8), reserved im (e.2.1 - 6) 2]) ++
  ((imageEntries im).flatMap fun e =>
    require (code.contains e.1) resBadArgument (e.2 - 2) ::
      (List.range 16).map fun t =>
        require (decide (fieldU16 im (e.2 + 2 * t) < 8192 ∨ fieldU16 im (e.2 + 2 * t) = 0xFFFF)) resBadArgument (e.2 + 2 * t))

/-- A block slot table is sorted, its runs lie in the frame and those of one resource do not overlap (R164, R165). -/
def slotTableCheck (im : List Byte) (frame : Nat) : Nat → Nat → Nat → Nat → Nat → List Check
  | 0, _, _, _, _ => []
  | n + 1, o, prev, matrixEnd, portEnd =>
    let r := slotRunAt im o
    let isMatrix := decide (r.res = 0)
    let free := if isMatrix then matrixEnd else portEnd
    require (decide (prev ≤ r.start ∧ 1 ≤ r.len ∧ r.res ≠ 3 ∧ r.start + r.len ≤ frame ∧ free ≤ r.start ∧
      (r.res = 2 ∨ r.window = 0) ∧ r.window ≤ 254) && decide (fieldU64 im o % 1024 = 0)) resBadArgument o ::
    slotTableCheck im frame n (o + 8) r.start (if isMatrix then r.start + r.len else matrixEnd)
      (if isMatrix then portEnd else r.start + r.len)

/-- Block slot tables of an image. -/
def slotValues (im : List Byte) : List Check :=
  (imageSlots im).flatMap fun e => slotTableCheck im (imageFrame im) e.2.2 e.2.1 0 0 0

/-- Claims of an image (R161, R166, R167). -/
def claimValues (im : List Byte) : List Check :=
  let cs := imageClaims im
  cs.map fun c =>
    let last := if c.hop.table = 0 then 15 else if c.hop.table = 1 then 23 else 15
    let overlaps := cs.any fun e => decide (e.at_ < c.at_) && e.meets c
    firstFail [require (inOneSpan c.start c.len && !overlaps) resBadArgument c.at_,
      inRange (c.at_ + 4) 0 2 c.hop.table,
      require (decide (c.hop.index ≤ last ∧ ¬ (c.hop.table = 2 ∧ c.hop.index = 10))) resBadArgument (c.at_ + 5),
      require (decide (c.hop.dir ≤ if c.hop.table = 0 then 0 else 1)) resBadArgument (c.at_ + 6),
      inRange (c.at_ + 7) 0 2 c.use,
      require (decide (c.hop.table ≠ 0 ∨ c.src ≤ 83)) resBadArgument (c.at_ + 8),
      require (decide (c.hop.table ≠ 0 ∨ c.dst ≤ 83)) resBadArgument (c.at_ + 9),
      require (decide (c.use ≠ 1 ∨ c.window ≤ 254)) resBadArgument (c.at_ + 10), reserved im (c.at_ + 11) 5]

/-- Every block a BLOCK window names has a run of the block port for it in each frame (R171). -/
def Win.hasRuns (w : Win) (im : List Byte) : Bool :=
  (List.range 64).all fun i => !bitOf w.blocks i || (imageSlots im).any fun e =>
    decide (e.1 = 64 * w.region + i) && (slotRuns im e).any fun r => decide (r.res = 2 ∧ r.window = w.window)

/-- One edge window (R170, R171). -/
def windowCheck (im : List Byte) (o : Nat) (again : Bool) : Check :=
  let w := winAt im o
  let bad := fun (ok : Bool) (at_ : Nat) => require ok resBadArgument (o + at_)
  let values := firstFail [bad (decide (w.window ≤ 254) && !again) 0, bad (decide (w.dir ≤ 1 ∧ (w.kind ≠ 2 ∨ w.dir = 0))) 1,
    bad (decide (w.edge ≤ 6)) 2, bad (decide (w.stile ≤ 15 ∧ stileDie w.stile = w.edge)) 3, bad (decide (w.kind ≤ 2)) 4,
    bad (decide (w.region ≤ 15)) 5, bad (decide (17 ≤ w.len ∧ w.len ≤ 1040)) 8,
    bad (decide (1 ≤ w.openings ∧ w.openings ≤ 64)) 12,
    bad (if w.openings = 1 then decide (w.stride = 0) else decide (w.len ≤ w.stride)) 10,
    bad (decide (w.start + (w.openings - 1) * w.stride + w.len ≤ 8448)) 6,
    bad (if w.kind = 2 then decide (w.toEdge ≤ 6 ∧ w.toEdge ≠ w.edge) else decide (w.toEdge = 0)) 14,
    bad (if w.kind = 2 then decide (w.toStile ≤ 15 ∧ stileDie w.toStile = w.toEdge ∧ stileRegion w.toStile = w.region)
      else decide (w.toStile = 0)) 15,
    bad (decide (w.kind = 0 ∨ w.blocks = 0)) 16, bad (decide (w.classes % 2 = 0)) 24, reserved im (o + 26) 6]
  match values with
  | some r => some r
  | none => firstFail [bad (w.claimed (imageClaims im)) 0, bad (decide (w.kind ≠ 0) || w.hasRuns im) 16]

/-- Edge windows of an image. -/
def windowValues (im : List Byte) : List Check :=
  (sectionsOf im 5).flatMap fun s => (List.range s.count).map fun i =>
    windowCheck im (s.off + 32 * i)
      ((List.range i).any fun j => decide (fieldU8 im (s.off + 32 * j) = fieldU8 im (s.off + 32 * i)))

/-- Tensor bindings of an image (R238, R239). -/
def Device.tensorValues (d : Device) (p : Nat) (im : List Byte) : List Check :=
  (sectionsOf im 6).flatMap fun s => (List.range s.count).flatMap fun i =>
    let o := s.off + 32 * i
    let b := bytesAt im o 32
    [require (decide (fieldU16 b 0 ≤ 2047)) resBadArgument o, bindingCount b o, bindingForm b o, d.bindingJudge p b o]

/-- Remote contexts of an image (R335, R336). -/
def contextValues (im : List Byte) : List Check :=
  (sectionsOf im 7).flatMap fun s => (List.range s.count).flatMap fun i =>
    let o := s.off + 32 * i
    let c := ctxAt im o
    let again := (List.range i).any fun j => decide (fieldU8 im (s.off + 32 * j) = c.ctx)
    [require (!again) resBadArgument o, flagsIn im (o + 1) 7,
     inRange (o + 2) 0 (if c.isLocal then 3 else 0) c.home,
     require (decide ((1 ≤ c.cls ∧ c.cls ≤ 15) ∨ c.cls = 0xFF)) resBadArgument (o + 3),
     inRange (o + 4) 0 (if c.isLocal then 0 else 1048575) c.conn,
     require (c.fromValue || decide (c.bell < 2 ^ 17 ∨ c.bell = noBell)) resBadArgument (o + 12),
     require (c.fromValue || (decide (c.bell = noBell) == decide (c.inc = 0))) resBadArgument (o + 16),
     require (decide (c.boundUs = 0 ∨ (10 ≤ c.boundUs ∧ c.boundUs ≤ 1000))) resBadArgument (o + 18), reserved im (o + 20) 12,
     require (c.secure == bitOf (fieldU8 im 6) 0) resWorldDenied (o + 1)]

/-- The digest of an image: its field zeroed, up to the start of its signature (R162, R179). -/
def imageDigest (im : List Byte) : List Byte :=
  let n := match sectionsOf im 15 with
    | s :: _ => s.off
    | [] => im.length
  digest ((overwrite im 32 (zeros 64)).take n)

/-- Digest and signature (R179, R458). -/
def Device.imageAuthentic (d : Device) (im : List Byte) : Bool :=
  (bytesAt im 32 64 == imageDigest im) &&
    (!bitOf (fieldU8 im 6) 0 ||
      (match sectionsOf im 15 with
       | s :: _ =>
         let i := fieldU8 im s.off
         let key := bytesAt d.security.boardConfig (576 + 1800 * i) 1793
         decide (i < fieldU8 d.security.boardConfig 6) &&
           Config.falconVerifies key (im.take s.off) (bytesAt im (s.off + 8) 1280)
       | [] => false))

/-- Claims that meet those of another registered image (R167). -/
def Device.claimsTaken (d : Device) (im : List Byte) : Bool :=
  let mine := imageClaims im
  d.images.any fun e => (imageClaims e.2.bytes).any fun c => mine.any c.meets

/-- Worlds, resources and consistency of an image with the configuration in effect (R177 to R179, R336, R424). -/
def Device.imageConsistent (d : Device) (p : Nat) (x : Paddock) (im : List Byte) : List Check :=
  [require (bitOf (fieldU8 im 6) 0 == (x.world == .secure)) resWorldDenied 6,
   require (d.imageAuthentic im) resAuthFailed, require (decide ((d.imagesOf p).length < 4)) resNoResource,
   require (bitOf (fieldU8 im 11) x.role) resConflict,
   require ((List.range 16).all fun n => !bitOf (fieldU16 im 28) n ||
     decide (imageMhz im ≤ ((d.power.regions[n]?).map (·.setMhz)).getD 0)) resConflict,
   require (!(imageClaims im).any fun c => d.hopDown c.hop) resConflict,
   require (!d.claimsTaken im) resConflict]

/-- Every check of an image at its registration (R177), offsets counted in the image. -/
def Device.imageCheck (d : Device) (p : Nat) (x : Paddock) (im : List Byte) (length : Nat) : Check :=
  match imageFrameCheck im length with
  | some r => some r
  | none =>
    match firstFail (sectionBounds im length) with
    | some r => some r
    | none =>
      match firstFail (itemBounds im) with
      | some r => some r
      | none => byStep (headerValues im ++ codeValues x im ++ slotValues im ++ claimValues im ++ windowValues im ++
          d.tensorValues p im ++ contextValues im ++
          (sectionsOf im 15).map (fun s => reserved im (s.off + 1) 7) ++ d.imageConsistent p x im)

/-! ### The commands -/

/-- Paddock that an IMAGE_REGISTER names. -/
def registerPaddock (p : List Byte) : Nat := fieldU8 p 12

/-- An image that passed its checks is registered under a new handle, and its claims are reserved (R178). -/
def Device.registerImage (d : Device) (c : Call) (p : Nat) (x : Paddock) (im : List Byte) : Device :=
  let handle := 0x4000000 * p + x.nextSerial % 0x4000000
  let d1 := { d with images := Table.put d.images handle { bytes := im, address := fieldU64 c.payload 0 } }
  (d1.updPaddock p fun y => { y with nextSerial := y.nextSerial + 1 }).answerOk c
    (leBytes 4 handle ++ zeros 4 ++ bytesAt im 32 64)

/-- IMAGE_REGISTER (R178). -/
def immImageRegister : Immediate :=
  { minLen := 16, maxLen := 16, who := .operator registerPaddock,
    check := fun d c =>
      let a := fieldU64 c.payload 0
      let n := fieldU32 c.payload 8
      let covers := fun (k : Nat) =>
        match d.paddock (registerPaddock c.payload) with
        | some x => x.covers a k
        | none => false
      firstFail ([sizeIn 8 256 268435456 n, require (!covers 1 || covers n) resBadLength 8] ++ d.paddockNamed c 12 ++
        [require (covers 1) resBadArgument 0, reserved c.payload 13 3, d.paddockWorld c 12]),
    run := fun d c =>
      let p := registerPaddock c.payload
      let a := fieldU64 c.payload 0
      let n := fieldU32 c.payload 8
      match d.paddock p with
      | none => d
      | some x =>
        let r := d.checkedRead a n (d.src srcFirmware) 0xFF
        match r.2 with
        | some report =>
          (r.1.record { report with addr := c.tag }).respond c.path { result := resFaulted, detail := d.src srcFirmware }
        | none =>
          let im := d.load a n
          match inBuffer (r.1.imageCheck p x im n) with
          | some f => r.1.respond c.path f
          | none => r.1.registerImage c p x im }

/-- A handle that a payload names is registered, and its paddock of the path's world. -/
def Device.imageNamed (d : Device) (c : Call) : List Check :=
  let h := fieldU32 c.payload 0
  [require (Table.find d.images h).isSome resBadArgument 0, reserved c.payload 4 4,
   d.worldOf (d.callWorld c) (h / 0x4000000) 0]

/-- Code of an image's state (R180). -/
def imageStateCode : ImageState → Nat
  | .registered => 0
  | .loading => 1
  | .resident => 2

/-- IMAGE_INFO (R180). -/
def immImageInfo : Immediate :=
  { minLen := 8, maxLen := 8, who := .any, check := fun d c => firstFail (d.imageNamed c),
    run := fun d c =>
      match Table.find d.images (fieldU32 c.payload 0) with
      | none => d
      | some x =>
        let ws := imageWindows x.bytes
        d.answerOk c (x.bytes.take 128 ++ leBytes 1 (imageStateCode x.state) ++ leBytes 1 ws.length ++ zeros 6 ++
          leBytes 8 (if x.state = .resident then x.residentAt else 0) ++
          ws.flatMap fun w => leBytes 4 w.window ++ leBytes 4 w.gapTicks) }

/-- IMAGE_RETIRE (R180). -/
def immImageRetire : Immediate :=
  { minLen := 8, maxLen := 8, who := .operator fun p => fieldU32 p 0 / 0x4000000,
    check := fun d c => firstFail (d.imageNamed c ++
      [match Table.find d.images (fieldU32 c.payload 0) with
       | none => none
       | some x => require (decide (x.state = .registered)) resBusy]),
    run := fun d c => ({ d with images := Table.del d.images (fieldU32 c.payload 0) }).answerOk c [] }

/-! ### The rows -/

/-- The command meets its mailbox and executes (R75, R83). -/
def execImageRegister (c : Cmd) (s : State) : Outcome := .next (s.on (·.runRow (.immediate immImageRegister) 0x0300 c))

/-- The command meets its mailbox and executes (R75, R83). -/
def execImageInfo (c : Cmd) (s : State) : Outcome := .next (s.on (·.runRow (.immediate immImageInfo) 0x0301 c))

/-- The command meets its mailbox and executes (R75, R83). -/
def execImageRetire (c : Cmd) (s : State) : Outcome := .next (s.on (·.runRow (.immediate immImageRetire) 0x0302 c))

end Sys2Proof.Machine
end

