-- ==== Sys2Proof/Machine/Deliver.lean ====
section
/-! DEFINITION. Deliveries join the queues of their edge windows, and the window arbiters of the network dies choose among
them (R172, R174, R176, R362). -/

namespace Sys2Proof.Machine

/-- A paddock's window queue changed. -/
def Device.updWindow (d : Device) (p w : Nat) (f : WinQueue → WinQueue) : Device :=
  d.mapNet fun n => { n with windows := Table.put n.windows (256 * p + w) (f ((Table.find n.windows (256 * p + w)).getD {})) }

/-- Slots a delivery needs at every hop (R172). -/
def WinDelivery.need (x : WinDelivery) : Nat := deliverySlots x.size

/-- Deliveries of a class in a list. -/
def ofClass (k : Nat) (xs : List WinDelivery) : List WinDelivery := xs.filter fun x => decide (x.cls = k)

/-- The list without its first delivery of a class. -/
def dropClass (k : Nat) : List WinDelivery → List WinDelivery
  | [] => []
  | x :: xs => if x.cls = k then xs else x :: dropClass k xs

/-- The class whose FIFO the arbiter of a die serves next, and the arbiter moved on: S0, S1, S2 in that order, then the W
classes by deficit round robin (R360, R362). -/
def Arbiter.choose (a : Arbiter) (fifo : List WinDelivery) : Option Nat × Arbiter :=
  match [0, 1, 2].find? fun k => !(ofClass k fifo).isEmpty with
  | some k => (some k, { a with deliveries := bump a.deliveries k 1 })
  | none =>
    let queue := fun w => ofClass (3 + w) fifo
    if fifo.isEmpty then (none, a) else
      let r := drr (fun w => !(queue w).isEmpty) (fun w => (queue w).isEmpty)
        (fun w => ((queue w).head?.map fun x => x.size + 64).getD 0) (fun w => (queue w).length)
        (fun w => (a.weights[w]?).getD 1) 200 a.deficit a.cur a.fresh
      (r.1.map (3 + ·),
       { a with deficit := r.2.1, cur := r.2.2.1, fresh := r.2.2.2,
                deliveries := match r.1 with
                  | some w => bump a.deliveries (3 + w) 1
                  | none => a.deliveries })

/-- The arbiter of a die fills a window's queue to two deliveries; `fuel` bounds the moves. -/
def Device.arbitrate (p w die : Nat) : Nat → Device → Device
  | 0, d => d
  | fuel + 1, d =>
    let q := d.winQueue p w
    if 2 ≤ q.queue.length then d else
      let a := (d.net.arbiters[die]?).getD {}
      let r := a.choose q.fifo
      match r.1 with
      | none => d
      | some k =>
        match (ofClass k q.fifo).head? with
        | none => d
        | some x =>
          let d1 := d.mapNet fun n => { n with arbiters := n.arbiters.setIfInBounds die r.2 }
          Device.arbitrate p w die fuel
            (d1.updWindow p w fun q => { q with queue := q.queue ++ [x], fifo := dropClass k q.fifo })

/-- A delivery joins the queue of a window: through the FIFO of its class at a network die's IN window, first come, first
served at any other (R362). -/
def Device.joinWindow (d : Device) (p : Nat) (w : Win) (x : WinDelivery) : Device :=
  if w.dir = 0 ∧ w.edge < 4 then
    Device.arbitrate p w.window w.edge 2 (d.updWindow p w.window fun q => { q with fifo := q.fifo ++ [x] })
  else d.updWindow p w.window fun q => { q with queue := q.queue ++ [x] }

/-- A delivery takes the lowest-numbered window of a direction and edge die that serves its address, for a class where it is
bound to one (16: any); where there is none, or the route runs over a DOWN link, it is refused (R174, R362, R424). Where a
delivery's bytes run into another window's target, the window of the first byte carries it (log entry 101). -/
def Device.sendThrough (d : Device) (p dir edge cls : Nat) (x : WinDelivery) (refuse : Device → Device) : Device :=
  match d.windowFor p dir edge x.address cls with
  | none => refuse d
  | some w => if d.routeDown w then refuse d else d.joinWindow p w x

/-- Data of a paddock at an address has an OUT window to a die for each packet it is cut into (R174, R175, log entry 101). -/
def Device.outCarries (d : Device) (p home a n : Nat) : Bool :=
  (List.range (ceilDiv n maxPayload)).all fun i =>
    match d.windowFor p 1 home (a + maxPayload * i) 16 with
    | none => false
    | some w => !d.routeDown w

/-- A ring of a block bell as a delivery with no payload through the lowest-numbered IN window from an edge die whose
target includes the bell's block; it is lost where there is none (R190, R341, R400). -/
def Device.ringThrough (d : Device) (p edge bell inc source : Nat) : Device :=
  d.sendThrough p 0 edge 16
    { size := 0, cls := 1, link := none, address := bellAddress bell, data := [], kind := .ring bell inc source d.now } id

/-- A ring of a block bell by the host die: through a window while the paddock holds its blocks, else added to
the saved value (R190, R382, R529). -/
def Device.ringBlock (d : Device) (p edge bell inc source : Nat) : Device :=
  if ((d.paddock p).map (·.holds)).getD false then d.ringThrough p edge bell inc source
  else d.perform [.ring p bell inc source]

/-- A packet of a descriptor or drove leaves the paddock's memory at an address, through the OUT window to its connection's die
(R175, R347). -/
def Device.postThrough (d : Device) (p conn address : Nat) (o : Outgoing) (refuse : Device → Device) : Device :=
  match d.conn conn with
  | none => refuse d
  | some c =>
    d.sendThrough p 1 c.home 16
      { size := o.payload.length, cls := o.cls, link := none, address := address, data := [], kind := .post conn o } refuse

end Sys2Proof.Machine
end

