-- ==== Sys2Proof/Machine/Bales.lean ====
section
/-! DEFINITION. Bales: bindings, canonical prefix codes, expansion with its checks, baling with its spill area, and the
first-pass build of a codebook (R238 to R262). -/

namespace Sys2Proof.Machine

/-! ### Bindings and codebook records (R238, R243, R244) -/

/-- A tensor binding (R238). -/
structure Binding where
  /-- `tensor`. -/
  tensor : Nat
  /-- `lanes`. -/
  lanes : Nat
  /-- `STORED`. -/
  stored : Bool
  /-- `bale_size` B. -/
  size : Nat
  /-- `book`: slot in bits [7:6], generation in bits [5:0]. -/
  book : Nat
  /-- `annex`. -/
  annex : Nat
  /-- `spill_base`. -/
  spillBase : Nat
  /-- `spill_slots`. -/
  spillSlots : Nat
  deriving DecidableEq, Repr

/-- The binding of 32 bytes. -/
def bindingOf (b : List Byte) : Binding :=
  { tensor := fieldU16 b 0, lanes := fieldU8 b 2, stored := bitOf (fieldU8 b 3) 0, size := fieldU16 b 4, book := fieldU8 b 6,
    annex := fieldU8 b 7, spillBase := fieldU64 b 8, spillSlots := fieldU32 b 16 }

/-- Bytes of a raw block. -/
def rawBlock : Nat := 4096

/-- Bytes of a codebook record. -/
def recordSize (lanes : Nat) : Nat := 64 + 128 * lanes

/-- Code length of a symbol in a lane of a record, 0 for none. -/
def codeLength (rec : List Byte) (lane sym : Nat) : Nat :=
  let b := fieldU8 rec (64 + 128 * lane + sym / 2)
  if sym % 2 = 0 then b % 16 else b / 16

/-- The code lengths of a lane. -/
def laneLengths (rec : List Byte) (lane : Nat) : List Nat := (List.range 256).map (codeLength rec lane)

/-- Number of symbols of a code length. -/
def lengthCount (ls : List Nat) (n : Nat) : Nat := (ls.filter fun l => decide (l = n)).length

/-- The lengths of a lane make a code (R244). -/
def lengthsFit (ls : List Nat) : Bool :=
  decide ((ls.map fun l => if l = 0 then 0 else 2 ^ (15 - l)).sum ≤ 2 ^ 15) && ls.any fun l => decide (l ≠ 0)

/-- A record's contents are right: `crc` and every lane's lengths (R243, R244, R247). -/
def recordFits (rec : List Byte) : Bool :=
  let lanes := fieldU8 rec 0
  decide (1 ≤ fieldU8 rec 1 ∧ fieldU8 rec 1 ≤ 63) && allZero (bytesAt rec 2 2) && allZero (bytesAt rec 12 52) &&
    decide (fieldU32 rec 8 = crc32c (bytesAt rec 64 (128 * lanes))) &&
    (List.range lanes).all fun k => lengthsFit (laneLengths rec k)

/-! ### Canonical codes (R244, R245) -/

/-- The first code of each length from 1 on: RFC 1951, section 3.2.2. -/
def firstCode (ls : List Nat) : Nat → Nat
  | 0 => 0
  | n + 1 => (firstCode ls n + (if n = 0 then 0 else lengthCount ls n)) * 2

/-- The code of a symbol, most significant bit first; none when it has no code. -/
def symbolCode (ls : List Nat) (sym : Nat) : Option (List Bool) :=
  let n := ls.getD sym 0
  if n = 0 then none
  else
    let c := firstCode ls n + ((ls.take sym).filter fun l => decide (l = n)).length
    some ((List.range n).map fun i => c.testBit (n - 1 - i))

/-- The codes of every lane of a record. -/
def codeTables (rec : List Byte) : List (List (Option (List Bool))) :=
  (List.range (fieldU8 rec 0)).map fun k =>
    let ls := laneLengths rec k
    (List.range 256).map (symbolCode ls)

/-- Raw bytes coded in order; none when a byte has no code in its lane. -/
def encodeBytes (tables : List (List (Option (List Bool)))) : Nat → List Byte → Option (List Bool)
  | _, [] => some []
  | i, b :: bs =>
    match ((tables.getD (i % max tables.length 1) []).getD b.toNat none), encodeBytes tables (i + 1) bs with
    | some c, some rest => some (c ++ rest)
    | _, _ => none

/-- Bits of bytes, each byte from bit 0 upwards. -/
def bitsOfBytes (bs : List Byte) : List Bool := bs.flatMap fun b => (List.range 8).map fun i => b.getLsbD i

/-- A byte of eight bits, bit 0 first; missing bits are zero. -/
def byteOfBits (bits : List Bool) : Byte :=
  BitVec.ofNat 8 (((List.range 8).map fun i => if bits.getD i false then 2 ^ i else 0).sum)

/-- Bytes of bits, filled from bit 0 upwards; `n` bytes. -/
def bytesOfBits : Nat → List Bool → List Byte
  | 0, _ => []
  | n + 1, bits => byteOfBits (bits.take 8) :: bytesOfBits n (bits.drop 8)

/-- One symbol met in a bit stream. -/
inductive Decoded where
  /-- A symbol, and the bits after it. -/
  | symbol (s : Nat) (rest : List Bool)
  /-- An invalid bit pattern. -/
  | invalid
  /-- The bits end inside a code. -/
  | short
  deriving DecidableEq, Repr

/-- The symbols of a lane in the order of their codes. -/
def codeOrder (ls : List Nat) : List Nat :=
  (List.range 15).flatMap fun n => (List.range 256).filter fun s => decide (ls.getD s 0 = n + 1)

/-- One symbol decoded: `len` lengths still to try, the length tried last, the code so far, the first code of that length
and the symbols of shorter codes. -/
def decodeSymbol (counts : List Nat) (order : List Nat) : Nat → Nat → Nat → Nat → Nat → List Bool → Decoded
  | 0, _, _, _, _, _ => .invalid
  | _ + 1, _, _, _, _, [] => .short
  | fuel + 1, n, code, first, index, b :: bs =>
    let c := code + b2n b
    let k := counts.getD n 0
    if c < first + k then .symbol (order.getD (index + (c - first)) 0) bs
    else decodeSymbol counts order fuel (n + 1) (2 * c) (2 * (first + k)) (index + k) bs

/-- What a lane decodes with: symbols per length from 1 on, symbols in code order, longest length. -/
structure LaneCode where
  /-- Symbols of length 1, 2, …. -/
  counts : List Nat
  /-- Symbols in the order of their codes. -/
  order : List Nat
  /-- Longest code. -/
  longest : Nat
  deriving DecidableEq, Repr

/-- The decoders of a record's lanes. -/
def laneCodes (rec : List Byte) : List LaneCode :=
  (List.range (fieldU8 rec 0)).map fun k =>
    let ls := laneLengths rec k
    { counts := (List.range 15).map fun n => lengthCount ls (n + 1), order := codeOrder ls, longest := ls.foldl Nat.max 0 }

/-- A coded stream decoded to raw bytes: failure code (R261), 0 for none, and the bytes. -/
def decodeStream (lanes : List LaneCode) : Nat → Nat → List Bool → Nat × List Byte
  | 0, _, bits => (if bits.isEmpty then 0 else 0x09, [])
  | n + 1, i, bits =>
    let l := lanes.getD (i % max lanes.length 1) { counts := [], order := [], longest := 0 }
    if bits.isEmpty then (0x0A, [])
    else
      match decodeSymbol l.counts l.order l.longest 0 0 0 0 bits with
      | .invalid => (0x08, [])
      | .short => (0x0A, [])
      | .symbol s rest =>
        let r := decodeStream lanes n (i + 1) rest
        (r.1, BitVec.ofNat 8 s :: r.2)

/-! ### Checks and expansion (R241, R242, R259, R261) -/

/-- The codebook record a binding or bale names, where the slot holds that generation. -/
def Device.bookRecord (d : Device) (p book : Nat) : Option (List Byte) :=
  let b := d.book p (book / 64)
  if b.state = .ready ∧ b.generation = book % 64 then some b.record else none

/-- Header checks: the failure code, 0 for none (R261). -/
def Device.headerCode (d : Device) (p : Nat) (b : Binding) (inBlock : Bool) (h : List Byte) : Nat :=
  let kind := fieldU8 h 0
  let tensor := fieldU16 h 2
  if kind = 0 then (if allZero (h.take 16) then 0 else 0x01)
  else if kind ≠ 0xB1 ∧ kind ≠ 0xB2 ∧ kind ≠ 0xB3 then 0x01
  else if kind = 0xB3 ∧ inBlock = false then 0x01
  else if bitsOf tensor 14 12 ≠ 0 ∨ fieldU16 h 6 ≠ 0 ∨ (kind ≠ 0xB1 ∧ (fieldU8 h 1 ≠ 0 ∨ fieldU16 h 4 ≠ 0)) ∨
      (kind = 0xB1 ∧ fieldU32 h 8 ≠ 0) ∨ (kind = 0xB3 ∧ 2 ^ 20 ≤ fieldU32 h 8) ∨
      (bitOf tensor 15 = false ∧ fieldU32 h 12 ≠ 0) then 0x02
  else if tensor % 4096 ≠ b.tensor then 0x03
  else if bitOf tensor 15 ≠ b.stored then 0x04
  else if kind = 0xB1 ∧ (fieldU8 h 1 ≠ b.book ∨ (d.bookRecord p b.book).isNone) then 0x05
  else if kind = 0xB1 ∧ (fieldU16 h 4 = 0 ∨ (b.size - 16) * 8 < fieldU16 h 4) then 0x06
  else 0

/-- Raw blocks of a spill area's bitmap (R254). -/
def Binding.mapBlocks (b : Binding) : Nat := ceilDiv b.spillSlots 32768

/-- Address of a spill slot. -/
def Binding.slotAddress (b : Binding) (j : Nat) : Nat := b.spillBase + (b.mapBlocks + j) * rawBlock

/-- A slot's bit in the bitmap is set. -/
def Device.spillBit (d : Device) (b : Binding) (j : Nat) : Bool := bitOf (d.loadLe (b.spillBase + j / 8) 1) (j % 8)

/-- A slot's bit in the bitmap written. -/
def Device.setSpillBit (d : Device) (b : Binding) (j : Nat) (v : Bool) : Device :=
  let a := b.spillBase + j / 8
  let old := d.loadLe a 1
  let bit := 2 ^ (j % 8)
  d.storeLe a 1 (if v then old ||| bit else if bitOf old (j % 8) then old - bit else old)

/-- The spill check of a SPILL bale (R261). -/
def Device.spillCode (d : Device) (b : Binding) (h : List Byte) : Nat :=
  if fieldU8 h 0 = 0xB2 then
    if fieldU32 h 8 < b.spillSlots && d.spillBit b (fieldU32 h 8) then 0 else 0x07
  else 0

/-- The CRC check of a raw block under a header of class STORED. -/
def crcCode (b : Binding) (h raw : List Byte) : Nat := if b.stored ∧ fieldU32 h 12 ≠ crc32c raw then 0x0C else 0

/-- A bale of a buffer expanded with every check: failure code and raw bytes. `raw` is the block that an ANNEX or SPILL header
names. -/
def Device.expandBale (d : Device) (p : Nat) (b : Binding) (bale raw : List Byte) : Nat × List Byte :=
  let head := d.headerCode p b true bale
  let spill := d.spillCode b bale
  if head ≠ 0 then (head, [])
  else if spill ≠ 0 then (spill, [])
  else
    let kind := fieldU8 bale 0
    if kind = 0 then (0, zeros rawBlock)
    else if kind = 0xB1 then
      let n := fieldU16 bale 4
      let bits := bitsOfBytes ((bale.take b.size).drop 16)
      let r := decodeStream (laneCodes ((d.bookRecord p b.book).getD [])) rawBlock 0 (bits.take n)
      if r.1 ≠ 0 then r
      else if (bits.drop n).any id then (0x0B, [])
      else (crcCode b bale r.2, r.2)
    else (crcCode b bale raw, raw)

/-- The record of a bale that fails its checks. -/
def baleReport (source paddock code tensor addr : Nat) (lasting isInjected : Bool) : Report :=
  { source := source, paddock := paddock, cls := (if lasting then 2 else 1) + (if isInjected then 8 else 0), level := 2,
    code := 0x10, sub := code, aux := tensor, addr := addr }

/-- The outcome of a bale's checks: a failure fails its retry as well, which reads the same bytes; an injected one is
transient or lasting as it was armed (R262, R440). -/
def Device.judgeBale (d : Device) (p source tensor addr code : Nat) : Device × Option Report :=
  if code ≠ 0 then (d, some (baleReport source p code tensor addr true false))
  else
    match d.injected 1 p fun t => decide (t = addr) with
    | none => (d, none)
    | some i =>
      let d1 := d.mapFaults fun f => { f with injection := none }
      if i.persist then (d1, some (baleReport source p 0x0A tensor addr true true))
      else (d1.record (baleReport source p 0x0A tensor addr false true), none)

/-! ### Baling (R252 to R255) -/

/-- The spill slot an old bale holds, none when its header would fail (R254). -/
def Device.heldSlot (d : Device) (b : Binding) (addr : Nat) : Option Nat :=
  let h := d.load addr 16
  if fieldU8 h 0 = 0xB2 ∧ fieldU32 h 8 < b.spillSlots ∧ d.spillBit b (fieldU32 h 8) then some (fieldU32 h 8) else none

/-- The lowest clear bit of a spill bitmap. -/
def Device.clearSlot (d : Device) (b : Binding) : Option Nat := (List.range b.spillSlots).find? fun j => !d.spillBit b j

/-- `tensor` field of a bale header. -/
def Binding.tensorField (b : Binding) : Nat := b.tensor + (if b.stored then 2 ^ 15 else 0)

/-- `crc` field of a header over a raw block. -/
def Binding.crcField (b : Binding) (raw : List Byte) : Nat := if b.stored then crc32c raw else 0

/-- A CODED bale of a raw block, none when it does not fit (R252). -/
def Device.codedBale (d : Device) (p : Nat) (b : Binding) (raw : List Byte) : Option (List Byte) :=
  match d.bookRecord p b.book with
  | none => none
  | some rec =>
    match encodeBytes (codeTables rec) 0 raw with
    | none => none
    | some bits =>
      if bits.length ≤ (b.size - 16) * 8 then
        some ([0xB1, BitVec.ofNat 8 b.book] ++ leBytes 2 b.tensorField ++ leBytes 2 bits.length ++ zeros 2 ++ zeros 4 ++
          leBytes 4 (b.crcField raw) ++ bytesOfBits (b.size - 16) bits)
      else none

/-- A raw block is baled to an address; none when no spill slot is left (SPILL_FULL). -/
def Device.baleTo (d : Device) (p : Nat) (b : Binding) (addr : Nat) (raw : List Byte) : Option Device :=
  let held := d.heldSlot b addr
  let free := fun (d : Device) =>
    match held with
    | some j => d.setSpillBit b j false
    | none => d
  if allZero raw then some (free (d.store addr (zeros 16)))
  else
    match d.codedBale p b raw with
    | some bale => some (free (d.store addr bale))
    | none =>
      let slot := match held with
        | some j => some j
        | none => d.clearSlot b
      match slot with
      | none => none
      | some j =>
        some (((d.setSpillBit b j true).store (b.slotAddress j) raw).store addr
          ([0xB2, 0] ++ leBytes 2 b.tensorField ++ zeros 4 ++ leBytes 4 j ++ leBytes 4 (b.crcField raw)))

/-- The record of a bale space fault: ANNEX_FULL 0x0D or SPILL_FULL 0x0E. -/
def spaceReport (source paddock code tensor addr : Nat) : Report :=
  { source := source, paddock := paddock, cls := 2, level := 2, code := 0x11, sub := code, aux := tensor, addr := addr }

/-! ### Building a codebook (R249) -/

/-- A node of the tree being built: weight, key and its leaves with their depths. -/
structure TreeNode where
  /-- Weight. -/
  weight : Nat
  /-- Key. -/
  key : Nat
  /-- Leaves: symbol and depth. -/
  leaves : List (Nat × Nat)
  deriving DecidableEq, Repr

/-- A node put in its place by weight, then key. -/
def nodeInsert (x : TreeNode) : List TreeNode → List TreeNode
  | [] => [x]
  | y :: ys =>
    if x.weight < y.weight ∨ (x.weight = y.weight ∧ x.key < y.key) then x :: y :: ys else y :: nodeInsert x ys

/-- The two least nodes are merged until one is left; `made` counts the nodes made. -/
def mergeNodes : Nat → Nat → List TreeNode → List (Nat × Nat)
  | 0, _, ns => (ns.head?.map (·.leaves)).getD []
  | fuel + 1, made, ns =>
    match ns with
    | a :: b :: rest =>
      let deeper := (a.leaves ++ b.leaves).map fun e => (e.1, e.2 + 1)
      mergeNodes fuel (made + 1) (nodeInsert { weight := a.weight + b.weight, key := 256 + made, leaves := deeper } rest)
    | [a] => a.leaves
    | [] => []

/-- Depths of the 256 symbols under given weights. -/
def treeDepths (weights : List Nat) : List Nat :=
  let leaves := (List.range 256).foldr
    (fun s ns => nodeInsert { weight := weights.getD s 1, key := s, leaves := [(s, 0)] } ns) []
  let ends := mergeNodes 256 0 leaves
  (List.range 256).map fun s => ((ends.find? fun e => decide (e.1 = s)).map (·.2)).getD 0

/-- Code lengths of a lane: weights are halved until no code exceeds 15; `fuel` bounds the rounds. -/
def buildLengths : Nat → List Nat → List Nat
  | 0, w => treeDepths w
  | fuel + 1, w =>
    let ls := treeDepths w
    if ls.foldl Nat.max 0 ≤ 15 then ls else buildLengths fuel (w.map fun c => (c + 1) / 2)

/-- Occurrences of each byte value in a list, by value. -/
def byteCounts (bs : List Byte) : List Nat := (List.range 256).map fun s => (bs.filter fun b => decide (b.toNat = s)).length

/-- The bytes of a lane of raw blocks, whose length the number of lanes divides. -/
def laneBytes (lanes k : Nat) (bs : List Byte) : List Byte :=
  (List.range (bs.length / max lanes 1)).map fun i => bs.getD (lanes * i + k) 0

/-- The codebook record built over raw sample blocks (R249). -/
def buildRecord (lanes generation count : Nat) (samples : List Byte) : List Byte :=
  let tables := (List.range lanes).flatMap fun k =>
    let ls := buildLengths 32 ((byteCounts (laneBytes lanes k samples)).map (· + 1))
    (List.range 128).map fun j => BitVec.ofNat 8 (ls.getD (2 * j) 0 + 16 * ls.getD (2 * j + 1) 0)
  [BitVec.ofNat 8 lanes, BitVec.ofNat 8 generation] ++ zeros 2 ++ leBytes 4 count ++ leBytes 4 (crc32c tables) ++ zeros 52 ++
    tables

end Sys2Proof.Machine
end

