-- ==== Sys2Proof/Machine/Share.lean ====
section
/-! DEFINITION. The service share: work that moves through the service runs of a region, begun at the present Tally (R161, R530),
and the CCLK of a deep-sleeping region that such work restarts (R474). A region's work takes its runs in the order in which it
begins (log entry 105). -/

namespace Sys2Proof.Machine

/-- Number by which the service share of tier die 0's balers is kept, after the sixteen regions (R248). -/
def tierShare : Nat := 16

/-- Number of the first service run that begins after a Tally value: eight runs to a period, one every 512 ticks. -/
def runAfter (t : Nat) : Nat := t / 512 + 1

/-- Tick at which the run ends in which a byte of the share lies, 8,192 bytes to a run; its 16 slots take 8 ticks. -/
def runEnd (at' : Nat) : Nat := 512 * (at' / 8192) + 8

/-- Work of so many bytes begins in a region's share at a Tally value: the device with its runs taken, and the tick at which the
work ends. -/
def Device.bookShare (d : Device) (n start bytes : Nat) : Device × Nat :=
  if bytes = 0 then (d, start)
  else
    let pos := max ((d.fabric.service[n]?).getD 0) (8192 * runAfter start) + bytes
    (d.mapFabric fun f => { f with service := f.service.setIfInBounds n pos }, runEnd (pos - 1))

/-- A unit of a region needs its CCLK: a region in deep sleep restarts it, which takes 25 µs; the Tally value from which it runs
(R474). -/
def Device.wakeClock (d : Device) (n : Nat) : Device × Nat :=
  if n < 16 ∧ (d.clock n).deep then
    ((d.updClock n fun r => { r with deep := false, runningMhz := r.targetMhz }).settleThrottle, d.now + 20000)
  else (d, d.now)

/-- Work of units that run on CCLK begins: regions and bytes; the tick at which the last of it ends. -/
def Device.bookWork (d : Device) (loads : List (Nat × Nat)) : Device × Nat :=
  loads.foldl (fun acc e =>
    let woken := acc.1.wakeClock e.1
    let r := woken.1.bookShare e.1 woken.2 e.2
    (r.1, max acc.2 r.2)) (d, d.now)

/-- Work through the service share, and what it does when it ends. -/
def Device.throughShare (d : Device) (loads : List (Nat × Nat)) (f : Device → Device) : Device :=
  let r := d.bookWork loads
  r.1.atInstant r.2 f

/-- Bytes of a range that lie in another. -/
def bytesWithin (a n lo hi : Nat) : Nat := Nat.min (a + n) hi - max a lo

/-- The shares that a range of memory is read through: its regions' (R248), and tier die 0's for the tier. -/
def rangeShares (a n : Nat) : List (Nat × Nat) :=
  ((List.range 16).map fun r => (r, bytesWithin a n (r * 0x1000000000) ((r + 1) * 0x1000000000))) ++
    [(tierShare, (a + n) - max a hbmEnd)]

end Sys2Proof.Machine
end

