-- ==== Sys2Proof/Machine/BookCommands.lean ====
section
/-! DEFINITION. The commands on codebooks and grammars (R246 to R250, R404, R407, R418). -/

namespace Sys2Proof.Machine

/-! ### Codebooks (R246 to R250) -/

/-- A 32-byte binding names a codebook slot. -/
def namesSlot (slot : Nat) (b : List Byte) : Bool := decide (fieldU8 b 6 / 64 = slot)

/-- Bindings of a committed BALE_TENSOR_SET that name a slot of a paddock. -/
def stagedRefs (p slot : Nat) (c : StagedCommand) : Nat :=
  if c.opcode = 0x0803 ∧ fieldU8 c.payload 0 = p then
    ((tensorEntries c.payload).filter fun e => !bindingRemoves e.2 && namesSlot slot e.2).length
  else 0

/-- Reference count of a codebook slot (R246). -/
def Device.bookRefs (d : Device) (p slot : Nat) : Nat :=
  let images := ((d.imagesOf p).map fun e => ((imageTensors e.2.bytes).filter (namesSlot slot)).length).sum
  let own := match d.paddock p with
    | some x => (x.tensors.filter fun e => namesSlot slot e.2).length
    | none => 0
  let committed := (d.committed.map fun e => (e.2.commands.map (stagedRefs p slot)).sum).sum
  let transfers := match d.paddock p with
    | some x => (x.blockList.map fun b =>
        if x.holds then ((d.block b).bales.filter fun t => !t.binding.isEmpty && namesSlot slot t.binding).length else 0).sum
    | none => 0
  images + own + committed + transfers

/-- A codebook slot put in place. -/
def Device.putBook (d : Device) (p slot : Nat) (b : Codebook) : Device :=
  d.mapService fun s => { s with books := Table.put s.books (4 * p + slot) b }

/-- A slot may take a new record: not BUILDING, and nothing refers to it. -/
def Device.bookFree (d : Device) (p slot : Nat) : Check :=
  require (decide ((d.book p slot).state ≠ .building ∧ d.bookRefs p slot = 0)) resBusy

/-- A generation from 1 to 63 that differs from the slot's. -/
def Device.newGeneration (d : Device) (p slot g off : Nat) : Check :=
  require (decide (1 ≤ g ∧ g ≤ 63 ∧ g ≠ (d.book p slot).generation)) resBadArgument off

/-- A count of lanes. -/
def lanesValue (n : Nat) : Bool := decide (n = 1 ∨ n = 2 ∨ n = 4)

/-- BALE_CODEBOOK_LOAD (R247). -/
def immCodebookLoad : Immediate :=
  { minLen := 9, maxLen := 67108864, who := operatorRight,
    check := fun d c =>
      let p := c.payload
      let n := fieldU8 p 0
      let rec' := p.drop 8
      let lanes := fieldU8 rec' 0
      match require (lanesValue lanes) resBadArgument 8 with
      | some r => some r
      | none =>
        match lengthIs (8 + recordSize lanes) p with
        | some r => some r
        | none => firstFail (d.paddockNamed c 0 ++ [inRange 1 0 3 (fieldU8 p 1), reserved p 2 6,
            d.newGeneration n (fieldU8 p 1) (fieldU8 rec' 1) 9, reserved p 10 2,
            require (decide (fieldU32 rec' 8 = crc32c (bytesAt rec' 64 (128 * lanes)))) resBadArgument 16, reserved p 20 52,
            require (recordFits rec') resBadArgument 72, d.paddockWorld c 0, d.bookFree n (fieldU8 p 1)]),
    run := fun d c =>
      let p := c.payload
      let rec' := p.drop 8
      (d.putBook (fieldU8 p 0) (fieldU8 p 1)
        { state := .ready, generation := fieldU8 rec' 1, record := rec', since := d.now }).answerOk c [] }

/-- BALE_CODEBOOK_BUILD (R248): the slot is BUILDING, and the response waits for the build. -/
def immCodebookBuild : Immediate :=
  { minLen := 16, maxLen := 16, who := operatorRight,
    check := fun d c =>
      let p := c.payload
      let n := fieldU8 p 0
      let a := fieldU64 p 8
      let covers := fun (k : Nat) =>
        match d.paddock n with
        | some x => x.covers a k
        | none => false
      firstFail ([sizeIn 4 1 16384 (fieldU32 p 4), require (!covers 1 || covers (rawBlock * fieldU32 p 4)) resBadLength 4] ++
        d.paddockNamed c 0 ++ [inRange 1 0 3 (fieldU8 p 1), require (lanesValue (fieldU8 p 2)) resBadArgument 2,
        d.newGeneration n (fieldU8 p 1) (fieldU8 p 3) 3, addressAligned 8 4096 a, require (covers 1) resBadArgument 8,
        d.paddockWorld c 0, d.bookFree n (fieldU8 p 1)]),
    run := fun d c =>
      let p := c.payload
      let old := d.book (fieldU8 p 0) (fieldU8 p 1)
      let w := d.bookWork ((rangeShares (fieldU64 p 8) (rawBlock * fieldU32 p 4)).filter fun e => decide (0 < e.2))
      (w.1.putBook (fieldU8 p 0) (fieldU8 p 1)
        { old with state := .building, build := some (pathMaster c.path, pathBox c.path, p),
                   before := some (old.state, old.generation, old.record), ends := w.2 }).updBox c.path fun b =>
                     { b with begun := true } }

/-- Code of a slot's state (R250). -/
def bookStateCode : BookState → Nat
  | .empty => 0
  | .building => 1
  | .ready => 2

/-- The 16-byte entry of a slot (R250). -/
def Device.bookEntry (d : Device) (p slot : Nat) : List Byte :=
  let b := d.book p slot
  let lanes := match b.build with
    | some w => fieldU8 w.2.2 2
    | none => fieldU8 b.record 0
  leBytes 1 slot ++ leBytes 1 (bookStateCode b.state) ++ leBytes 1 b.generation ++
    leBytes 1 (if b.state = .empty then 0 else lanes) ++ leBytes 4 (d.bookRefs p slot) ++ leBytes 8 b.since

/-- BALE_CODEBOOK_STATUS (R250). -/
def immCodebookStatus : Immediate :=
  { minLen := 8, maxLen := 8, who := .any,
    check := fun d c => firstFail (d.paddockNamed c 0 ++
      [require (decide (fieldU8 c.payload 1 ≤ 3 ∨ fieldU8 c.payload 1 = 0xFF)) resBadArgument 1,
       inRange 2 0 1 (fieldU8 c.payload 2), reserved c.payload 3 5, d.paddockWorld c 0]),
    run := fun d c =>
      let p := fieldU8 c.payload 0
      let slots := if fieldU8 c.payload 1 = 0xFF then [0, 1, 2, 3] else [fieldU8 c.payload 1]
      let records := slots.flatMap fun s => if (d.book p s).state = .ready then (d.book p s).record else []
      d.answerOk c ((slots.flatMap fun s => d.bookEntry p s) ++ if fieldU8 c.payload 2 = 1 then records else []) }

/-- A build ends: the record, or FAULTED with the slot as before (R248). -/
def Device.endBuild (d : Device) (p slot : Nat) (report : Option Report) : Device :=
  let b := d.book p slot
  match b.build with
  | none => d
  | some w =>
    let path := pathOf w.1 w.2.1
    let payload := w.2.2
    match report with
    | some r =>
      let old := b.before.getD (.empty, 0, [])
      let d1 := d.putBook p slot { b with state := old.1, generation := old.2.1, record := old.2.2, build := none, before := none }
      d1.respond path { result := resFaulted, detail := r.source }
    | none =>
      let count := fieldU32 payload 4
      let rec' := buildRecord (fieldU8 payload 2) (fieldU8 payload 3) count (d.load (fieldU64 payload 8) (rawBlock * count))
      (d.putBook p slot { state := .ready, generation := fieldU8 payload 3, record := rec', since := d.now }).respond path
        { payload := rec' }

/-- Source number of the baler that reads samples at an address (R62, R248). -/
def Device.bookBaler (d : Device) (a : Nat) : Nat :=
  d.src (if a < hbmEnd then srcRegion (a / 0x1000000000) 2
    else if a < bufferEnd then srcRegion (regionOf ((a - bufferBase) / 0x100000)) 2 else srcTier 0 2)

/-- CODEBOOK_BUILD_DONE: the sample reads finish (R248, R530), and a region that woke for them alone sleeps again; a lasting
error of a read strikes no paddock (R423, any other reader). -/
def Device.codebookDone (d : Device) (p slot : Nat) : Device :=
  let b := d.book p slot
  match b.build with
  | none => d
  | some w =>
    d.atInstant b.ends fun d =>
      let a := fieldU64 w.2.2 8
      let r := d.checkedRead a (rawBlock * fieldU32 w.2.2 4) (d.bookBaler a) 0xFF
      (match r.2 with
        | some report => (r.1.record report).endBuild p slot (some report)
        | none => r.1.endBuild p slot none).restRegions

/-! ### The rows -/

/-- The command meets its mailbox and executes (R75, R83). -/
def execBaleCodebookLoad (c : Cmd) (s : State) : Outcome := .next (s.on (·.runRow (.immediate immCodebookLoad) 0x0800 c))

/-- The command meets its mailbox and executes (R75, R83). -/
def execBaleCodebookBuild (c : Cmd) (s : State) : Outcome := .next (s.on (·.runRow (.immediate immCodebookBuild) 0x0801 c))

/-- The command meets its mailbox and executes (R75, R83). -/
def execBaleCodebookStatus (c : Cmd) (s : State) : Outcome := .next (s.on (·.runRow (.immediate immCodebookStatus) 0x0802 c))

/-- A codebook build finishes (R248). -/
def execCodebookBuildDone (paddock : Fin 64) (slot : Fin 4) (s : State) : Outcome :=
  .next (s.on (·.codebookDone paddock.val slot.val))

end Sys2Proof.Machine
end

