-- ==== Sys2Proof/Machine/Rings.lean ====
section
/-! DEFINITION. Queue rings take descriptors, and the transport descriptors: NOP, WRITE, READ, ATOMIC, SEND, RECV and
WAIT (R326 to R329). -/

namespace Sys2Proof.Machine

/-! ### The form of a descriptor type -/

/-- How a descriptor ends before it has had any effect. -/
structure Ending where
  /-- Result code (R105). -/
  result : Nat
  /-- `code` of the completion record. -/
  code : Nat := 0
  /-- `detail` of the completion record. -/
  detail : Nat := 0
  deriving DecidableEq, Repr

/-- A descriptor as its ring takes it. -/
structure Job where
  /-- Ring. -/
  ring : Nat
  /-- Ring position. -/
  index : Nat
  /-- Paddock of the ring. -/
  paddock : Nat
  /-- The 64 bytes. -/
  bytes : List Byte
  deriving DecidableEq, Repr

/-- A descriptor type: its local buffer, which may lie in an unmapped on-demand page; the connection whose context it
needs; its checks from R83's step 6 on; and what it starts. -/
structure DescKind where
  /-- `type`. -/
  type : Nat
  /-- Local buffer: address and length. -/
  buffer : List Byte → Option (Nat × Nat) := fun _ => none
  /-- Connection it names. -/
  conn : List Byte → Option Nat := fun _ => none
  /-- Its checks: none when it runs. -/
  check : Device → Job → Option Ending
  /-- What it starts, once its checks have passed. -/
  run : Device → Job → Device

/-- A check's failure as a descriptor's ending. -/
def endingOf (r : Reply) : Ending := { result := r.result, detail := r.detail }

/-- Checks of a descriptor in the order of R83's steps. -/
def endIn (cs : List Check) : Option Ending := (firstFail cs).map endingOf

/-- A descriptor completes. -/
def Device.finish (d : Device) (j : Job) (result : Nat) (code : Nat := 0) (detail : Nat := 0) : Device :=
  d.perform [.done j.ring j.index result code detail]

/-- Network die of a ring (R326). -/
def ringDie (q : Nat) : Nat := q / 4096

/-- A descriptor's transfer meets a lasting memory error: its paddock goes to FAULTED and it completes (R423). -/
def Device.failTransfer (d : Device) (j : Job) (r : Report) : Device :=
  (d.strike j.paddock r).finish j resFaulted 0 (d.src (srcRing j.ring))

/-! ### Taking (R328, R382, R383, R389) -/

/-- Descriptor types of R328. -/
def knownType (t : Nat) : Bool :=
  decide (t ≤ 0x06 ∨ t = 0x10 ∨ (0x20 ≤ t ∧ t ≤ 0x28) ∨ t = 0x30 ∨ t = 0x40)

/-- The completion ring has room for one descriptor more than those in flight. -/
def Ring.room (r : Ring) : Bool :=
  decide ((r.completed + 2 ^ 32 - r.consumed) % 2 ^ 32 + r.inFlight.length + 1 ≤ r.cqEntries ∧ r.inFlight.length < 256)

/-- A WAIT of the ring is in flight: later descriptors wait behind it (R329). -/
def Ring.waits (r : Ring) : Bool := r.inFlight.any fun i => decide (fieldU8 i.bytes 0 = 6)

/-- A ring of the paddock may take a STEP or IMAGE_LOAD: the paddock runs and is not being preempted, or it is FAULTED and
the descriptor ends at once (R382 to R384, R432). -/
def Device.takesBlockWork (d : Device) (p : Nat) : Bool :=
  match d.paddock p with
  | none => false
  | some x => decide (x.state = .running ∨ x.state = .faulted)

/-- Bytes of the first packet that a transport descriptor would put in its die's retransmission store, none for a descriptor
that sends nothing. -/
def descPacket (bytes : List Byte) : Option Nat :=
  match fieldU8 bytes 0 with
  | 1 => some (Nat.min maxPayload (fieldU32 bytes 40))
  | 2 => some 0
  | 3 => some 16
  | 4 => some (Nat.min maxPayload (fieldU32 bytes 40))
  | _ => none

/-- A paddock whose ring or completion ring lies in the tier has EDGE windows both ways between its tier die and the ring's
network die; without them the ring takes nothing (R174, R175). -/
def Device.ringReached (d : Device) (q : Nat) (r : Ring) : Bool :=
  let open' := fun (dir a : Nat) => match d.windowFor r.paddock dir (ringDie q) a 16 with
    | none => false
    | some w => !d.routeDown w
  (decide (r.base < tierBase) || open' 1 r.base) && (decide (r.cqBase < tierBase) || open' 0 r.cqBase)

/-- A full retransmission store holds a ring whose head would send (R320). -/
def Device.storeHolds (d : Device) (q : Nat) (bytes : List Byte) : Bool :=
  match descPacket bytes with
  | some n => d.storeFull (ringDie q) n
  | none => false

/-- The ring may take the descriptor at its head. -/
def Device.mayTake (d : Device) (q : Nat) (r : Ring) (bytes : List Byte) : Bool :=
  decide (r.state = .live ∧ (d.state = .ready ∨ d.state = .run)) && r.room && !r.waits && !d.storeHolds q bytes && d.ringReached q r &&
    (!bitOf (fieldU8 bytes 1) 0 || r.inFlight.isEmpty) &&
    (!blockWork (fieldU8 bytes 0) || d.takesBlockWork r.paddock)

/-- The ring has taken the descriptor at its head: it is in flight (R524: kind 5). -/
def Device.takeHead (d : Device) (q : Nat) (r : Ring) (bytes : List Byte) : Device :=
  (d.updRing q fun r => { r with taken := (r.taken + 1) % 2 ^ 32,
                                 inFlight := r.inFlight ++ [{ index := r.taken, bytes := bytes, taken := d.now }] }).traced 5 q r.taken
    (fieldU64 bytes 8) r.paddock (d.src (srcRing q))

/-- Heads of a type that R328 does not list are taken and complete with UNKNOWN_COMMAND; `fuel` bounds them: a ring has 65,536
descriptors at most. -/
def Device.dropUnknown : Nat → Nat → Device → Device
  | 0, _, d => d
  | fuel + 1, q, d =>
    match d.ring q with
    | none => d
    | some r =>
      match d.headOf r with
      | none => d
      | some bs =>
        if knownType (fieldU8 bs 0) = false ∧ d.mayTake q r bs then
          Device.dropUnknown fuel q ((d.takeHead q r bs).perform [.done q r.taken resUnknown 0 0])
        else d

/-- Offset of the first reserved field of the common header that is not zero (R328). -/
def headerEnding (bytes : List Byte) : Option Ending :=
  endIn [flagsIn bytes 1 1, reserved bytes 2 6]

/-- An unmapped page of an on-demand exposure of this device that a range touches: its address (R328, R330). -/
def Device.unmapped (d : Device) (a n : Nat) : Option Nat :=
  d.net.exposures.findSome? fun e =>
    let x := e.2
    if x.state ≠ .free ∧ x.onDemand ∧ x.base < a + n ∧ a < x.base + x.length then
      let lo := (Nat.max a x.base - x.base) / 65536
      let hi := (Nat.min (a + n) (x.base + x.length) - 1 - x.base) / 65536
      ((List.range (hi - lo + 1)).find? fun i => !bitOf (d.loadLe (x.present + (lo + i) / 8) 1) ((lo + i) % 8)).map
        fun i => Nat.max a (x.base + 65536 * (lo + i))
    else none

/-- A STEP or IMAGE_LOAD of a FAULTED paddock ends at once, with the fault's source (R432). -/
def Device.faultEnding (d : Device) (k : DescKind) (p : Nat) : Option Ending :=
  if blockWork k.type && d.isFaulted p then
    some { result := resFaulted, detail := ((d.paddock p).map fun x => leValue (bytesAt x.faultRecord 8 5)).getD 0 }
  else none

/-- The slot is read and the descriptor taken, checked and started. -/
def Device.takeChecked (d : Device) (k : DescKind) (j : Job) (slot : Nat) (r : Ring) : Device :=
  let read := d.checkedRead slot 64 (d.src (srcRing j.ring)) j.paddock
  let d1 := read.1.takeHead j.ring r j.bytes
  match read.2 with
  | some report => d1.failTransfer j report
  | none =>
    match d1.faultEnding k j.paddock with
    | some e => d1.finish j e.result e.code e.detail
    | none =>
      match headerEnding j.bytes with
      | some e => d1.finish j e.result e.code e.detail
      | none =>
        match k.check d1 j with
        | some e => d1.finish j e.result e.code e.detail
        | none => k.run d1 j

/-- The ring takes a descriptor of the kind at its head, unless something keeps it from doing so; the descriptor is checked
and starts, or ends with its failure. -/
def Device.takeDescriptor (d : Device) (k : DescKind) (q : Nat) : Device :=
  match d.ring q with
  | none => d
  | some r =>
    match d.headOf r with
    | none => d
    | some bs =>
      if fieldU8 bs 0 ≠ k.type ∨ d.mayTake q r bs = false then d
      else
        let j : Job := { ring := q, index := r.taken, paddock := r.paddock, bytes := bs }
        let slot := r.base + 64 * (r.taken % max r.entries 1)
        match (k.buffer bs).bind fun e => d.unmapped e.1 e.2 with
        | some a => d.updRing q fun r => { r with state := .stalled, stallAddr := a }
        | none =>
          match (k.conn bs).bind d.conn with
          | some c =>
            if c.cached = false then d.fetchContext ((k.conn bs).getD 0) else d.takeChecked k j slot r
          | none => d.takeChecked k j slot r
/-- The 64 bytes of a descriptor row. -/
def rowBytes (k : DescKind) (x : Desc) : List Byte := padTo 64 (BitVec.ofNat 8 k.type :: x.bytes)

/-- A descriptor row: where its ring stands empty, the descriptor is posted; the ring then takes the head if it is this
descriptor (R328). -/
def Device.runDescriptor (d : Device) (k : DescKind) (x : Desc) : Device :=
  let q := x.ring.val
  let bs := rowBytes k x
  let d0 := d.dropUnknown 65536 q
  match d0.ring q with
  | none => d0
  | some r =>
    match d0.headOf r with
    | none =>
      if r.state = .live then
        let d1 := (d0.store (r.base + 64 * (r.taken % max r.entries 1)) bs).updRing q fun r =>
          { r with produced := (r.taken + 1) % 2 ^ 32 }
        (d1.takeDescriptor k q).dropUnknown 65536 q
      else d0
    | some head => if head = bs then (d0.takeDescriptor k q).dropUnknown 65536 q else d0

/-! ### Transport descriptors (R329) -/

/-- `conn` of a transport descriptor. -/
def descConn (b : List Byte) : Nat := fieldU32 b 16

/-- The connection of a transport descriptor: of the ring's paddock and die, and OPEN. -/
def Device.connEnding (d : Device) (j : Job) : Option Ending :=
  match d.conn (descConn j.bytes) with
  | none => some { result := resBadState, code := 0x0A }
  | some c =>
    match c.state with
    | .open => none
    | .error => some { result := resTimedOut, code := 0x20 }
    | _ => some { result := resBadState, code := 0x0A }

/-- The connection named exists for another paddock or on another die, or the field has reserved bits. -/
def Device.connNamed (d : Device) (j : Job) : Check :=
  require (decide (descConn j.bytes < 2 ^ 20) &&
    (match d.conn (descConn j.bytes) with
     | none => true
     | some c => decide (c.paddock = j.paddock ∧ c.home = ringDie j.ring))) resBadArgument 16

/-- `remote` names the connection's peer device. -/
def Device.remoteNamed (d : Device) (j : Job) (align : Nat) : Check :=
  let a := fieldU64 j.bytes 32
  require (decide (a % align = 0) &&
    (match d.conn (descConn j.bytes) with
     | none => true
     | some c => decide (a / 2 ^ 46 = c.peer))) resBadArgument 32

/-- A local range of a descriptor lies in the paddock's windows: BAD_LENGTH at the length's field when only its end does
not, BAD_ARGUMENT at the address's otherwise. -/
def Device.localEnd (d : Device) (j : Job) (a n lengthAt : Nat) : Check :=
  match d.paddock j.paddock with
  | none => none
  | some x => require (!x.covers a 1 || x.covers a n) resBadLength lengthAt

/-- The start of a local range lies in the paddock's windows and is aligned. -/
def Device.localStart (d : Device) (j : Job) (a align addressAt : Nat) : Check :=
  match d.paddock j.paddock with
  | none => none
  | some x => require (decide (a % align = 0) && x.covers a 1) resBadArgument addressAt

/-- The destination of a connection's packets is in the current map of its fold, or in the previous one while it is held
(R293). -/
def Device.inMap (d : Device) (c : Conn) : Bool := d.pairInMap c.fold c.peer c.peerPaddock

/-- A descriptor whose destination the fold maps no longer hold completes with STALE_MAP (R293). -/
def Device.staleEnding (d : Device) (j : Job) : Option Ending :=
  match d.conn (descConn j.bytes) with
  | none => none
  | some c => if d.inMap c then none else some { result := resConflict, code := 8 }

/-- Checks, then the connection's state, then the fold map. -/
def Device.transportCheck (d : Device) (j : Job) (cs : List Check) : Option Ending :=
  match endIn cs with
  | some e => some e
  | none =>
    match d.connEnding j with
    | some e => some e
    | none => d.staleEnding j

/-- Data of a descriptor leaves memory through OUT windows to its connection's die, one for each of its packets; where one is
missing it completes with NO_ADDRESS (R174, R175, log entry 101). -/
def Device.outEnding (d : Device) (j : Job) : Option Ending :=
  if d.outCarries j.paddock (ringDie j.ring) (fieldU64 j.bytes 24) (fieldU32 j.bytes 40) then none
  else some { result := resConflict, code := 1 }

/-- Checks of a descriptor that sends data: those of any transport descriptor, then its windows. -/
def Device.sendCheck (d : Device) (j : Job) (cs : List Check) : Option Ending :=
  match d.transportCheck j cs with
  | some e => some e
  | none => d.outEnding j

/-- Packets of a descriptor leave its local buffer for its connection. -/
def Device.sendPackets (d : Device) (j : Job) (os : List Outgoing) : Device :=
  os.foldl (fun d o =>
    d.postThrough j.paddock (descConn j.bytes) (fieldU64 j.bytes 24 + (if o.ext.isEmpty then 0 else fieldBe o.ext 20 4)) o
      fun d => d.finish j resConflict 1) d

/-- Class of a ring. -/
def Device.ringClass (d : Device) (q : Nat) : Nat := ((d.ring q).map (·.cls)).getD 1

/-- The descriptor in flight expects `n` more packets or bytes. -/
def Device.expect (d : Device) (j : Job) (n : Nat) : Device :=
  d.updRing j.ring fun r =>
    { r with inFlight := r.inFlight.map fun i => if i.index = j.index then { i with left := n } else i }

/-- What the packets of a descriptor share. -/
def Device.descOutgoing (d : Device) (j : Job) (opcode : Nat) : Outgoing :=
  { opcode := opcode, cls := d.ringClass j.ring, ring := some j.ring, origin := .descriptor j.ring j.index }

/-- NOP: it completes OK. The spec gives it no body: bytes 16 to 63 count as reserved (R8, DESIGN CHOICE, log entry 94). -/
def kindNop : DescKind :=
  { type := 0x00, check := fun _ j => endIn [reserved j.bytes 16 48], run := fun d j => d.finish j resOk }

/-- WRITE: its data goes to the peer as WRITE packets, and WRITE_FLAG for the last bytes with FLAG, which a message of less
than 8 bytes does not have (R312, R329, log entry 17). -/
def kindWrite : DescKind :=
  { type := 0x01,
    buffer := fun b => some (fieldU64 b 24, fieldU32 b 40),
    conn := fun b => some (descConn b),
    check := fun d j =>
      let b := j.bytes
      let bell := fieldU32 b 44
      d.sendCheck j [sizeIn 40 (if bitOf (fieldU8 b 51) 0 then 8 else 1) 16777216 (fieldU32 b 40),
        d.localEnd j (fieldU64 b 24) (fieldU32 b 40) 40,
        d.connNamed j, d.localStart j (fieldU64 b 24) 64 24, d.remoteNamed j 64,
        require (decide (bell < 0x20000 ∨ bell = noBell)) resBadArgument 44,
        require (decide ((bell = noBell) = (fieldU16 b 48 = 0))) resBadArgument 48,
        flagsIn b 51 1, reserved b 52 4],
    run := fun d j =>
      let b := j.bytes
      let a := fieldU64 b 24
      let n := fieldU32 b 40
      let r := d.checkedRead a n (d.src (srcRing j.ring)) j.paddock
      match r.2 with
      | some report => r.1.failTransfer j report
      | none =>
        let packets := writePackets (fieldU64 b 32 % 2 ^ 46) (fieldU32 b 20) (fieldU32 b 44) (fieldU16 b 48) (r.1.load a n)
          (bitOf (fieldU8 b 51) 0) (r.1.descOutgoing j 1)
        (r.1.expect j packets.length).sendPackets j packets }

/-- READ: one READ_REQ; the answers bring its data. -/
def kindRead : DescKind :=
  { type := 0x02,
    buffer := fun b => some (fieldU64 b 24, fieldU32 b 40),
    conn := fun b => some (descConn b),
    check := fun d j =>
      let b := j.bytes
      d.transportCheck j [sizeIn 40 1 16777216 (fieldU32 b 40), d.localEnd j (fieldU64 b 24) (fieldU32 b 40) 40,
        d.connNamed j, d.localStart j (fieldU64 b 24) 64 24, d.remoteNamed j 64, flagsIn b 51 1, reserved b 52 4],
    run := fun d j =>
      let b := j.bytes
      (d.expect j (fieldU32 b 40)).post (descConn b)
        [{ d.descOutgoing j 3 with
            ext := accessExt (fieldU64 b 32 % 2 ^ 46) (fieldU32 b 20) noBell 0 0 0 (fieldU32 b 40), wants := true }] }

/-- ATOMIC: one ATOMIC; the answer brings the old value. -/
def kindAtomic : DescKind :=
  { type := 0x03,
    buffer := fun b => some (fieldU64 b 24, 8),
    conn := fun b => some (descConn b),
    check := fun d j =>
      let b := j.bytes
      d.transportCheck j [d.connNamed j, d.localStart j (fieldU64 b 24) 8 24, d.remoteNamed j 8,
        inRange 50 0 6 (fieldU8 b 50), flagsIn b 51 1, reserved b 52 4],
    run := fun d j =>
      let b := j.bytes
      (d.expect j 1).post (descConn b)
        [{ d.descOutgoing j 5 with
            ext := accessExt (fieldU64 b 32 % 2 ^ 46) (fieldU32 b 20) noBell 0 (fieldU8 b 50) 0 8,
            payload := bytesAt b 56 8 ++ bytesAt b 40 8, wants := true }] }

/-- SEND: one SEND of up to 8,192 bytes. -/
def kindSend : DescKind :=
  { type := 0x04,
    buffer := fun b => some (fieldU64 b 24, fieldU32 b 40),
    conn := fun b => some (descConn b),
    check := fun d j =>
      let b := j.bytes
      d.sendCheck j [sizeIn 40 1 8192 (fieldU32 b 40), d.localEnd j (fieldU64 b 24) (fieldU32 b 40) 40,
        d.connNamed j, reserved b 20 4, d.localStart j (fieldU64 b 24) 1 24, reserved b 32 8, flagsIn b 51 1, reserved b 52 4],
    run := fun d j =>
      let b := j.bytes
      let a := fieldU64 b 24
      let n := fieldU32 b 40
      let r := d.checkedRead a n (d.src (srcRing j.ring)) j.paddock
      match r.2 with
      | some report => r.1.failTransfer j report
      | none => (r.1.expect j 1).sendPackets j [{ r.1.descOutgoing j 7 with payload := r.1.load a n }] }

/-- RECV: its buffer waits for a SEND. -/
def kindRecv : DescKind :=
  { type := 0x05,
    buffer := fun b => some (fieldU64 b 24, fieldU32 b 40),
    check := fun d j =>
      let b := j.bytes
      endIn [sizeIn 40 64 8192 (fieldU32 b 40), d.localEnd j (fieldU64 b 24) (fieldU32 b 40) 40,
        d.localStart j (fieldU64 b 24) 1 24],
    run := fun d j =>
      d.updRing j.ring fun r => { r with recvs := r.recvs ++ [(j.index, fieldU64 j.bytes 24, fieldU32 j.bytes 40)] } }

/-- A WAIT's target is a ring or a network bell of its paddock (R329). -/
def Device.waitNamed (d : Device) (j : Job) : Bool :=
  let target := fieldU32 j.bytes 20
  if fieldU8 j.bytes 16 = 0 then
    match d.ring target with
    | some r => decide (r.paddock = j.paddock)
    | none => false
  else decide (target ≤ 1023 ∧ (d.netBellOwner (ringDie j.ring) target).map (·.1) = some j.paddock)

/-- WAIT: for a ring's completion count, or to consume from a network bell. -/
def kindWait : DescKind :=
  { type := 0x06,
    check := fun d j =>
      let b := j.bytes
      endIn [inRange 16 0 1 (fieldU8 b 16), reserved b 17 3, require (d.waitNamed j) resBadArgument 20,
        require (decide (fieldU8 b 16 = 0 ∨ (1 ≤ fieldU32 b 24 ∧ fieldU32 b 24 < 2 ^ 31))) resBadArgument 24, reserved b 28 36],
    run := fun d j =>
      let target := fieldU32 j.bytes 20
      let value := fieldU32 j.bytes 24
      if fieldU8 j.bytes 16 = 0 then
        match d.ring target with
        | none => d
        | some r => if 0 ≤ signed 32 (r.completed + 2 ^ 32 - value) then d.finish j resOk else d
      else
        let bell := 65536 + 1024 * ringDie j.ring + target
        let b := d.bell j.paddock bell
        let r := (d.setBell j.paddock bell { b with waiters := b.waiters ++ [(2 ^ 20 + j.ring, value, 0)] }).examine
          j.paddock bell (d.src (srcRing j.ring))
        r.1.perform r.2 }

/-! ### The rows -/

/-- The ring takes a NOP at its head. -/
def execNopDescriptor (x : Desc) (s : State) : Outcome := .next (s.on (·.runDescriptor kindNop x))

/-- The ring takes a WRITE at its head. -/
def execWriteDescriptor (x : Desc) (s : State) : Outcome := .next (s.on (·.runDescriptor kindWrite x))

/-- The ring takes a READ at its head. -/
def execReadDescriptor (x : Desc) (s : State) : Outcome := .next (s.on (·.runDescriptor kindRead x))

/-- The ring takes an ATOMIC at its head. -/
def execAtomicDescriptor (x : Desc) (s : State) : Outcome := .next (s.on (·.runDescriptor kindAtomic x))

/-- The ring takes a SEND at its head. -/
def execSendDescriptor (x : Desc) (s : State) : Outcome := .next (s.on (·.runDescriptor kindSend x))

/-- The ring takes a RECV at its head. -/
def execRecv (x : Desc) (s : State) : Outcome := .next (s.on (·.runDescriptor kindRecv x))

/-- The ring takes a WAIT at its head. -/
def execWait (x : Desc) (s : State) : Outcome := .next (s.on (·.runDescriptor kindWait x))

end Sys2Proof.Machine
end

