-- ==== Sys2Proof/Machine/Records.lean ====
section
/-! DEFINITION. Pages, page tables, free-set stacks and request-state records: what the drove engine, the prefix-tree walker
and the serving steps read and write (R204 to R213, R266 to R269, R287, R300). -/

namespace Sys2Proof.Machine

/-! ### Page references (R204 to R209) -/

/-- A global address of this device (R24). -/
def Device.globalOf (d : Device) (a : Nat) : Nat := d.deviceId.getD 0 * 2 ^ 46 + a

/-- The page reference of a page id of a paddock of this device (R208). -/
def Device.pageRef (d : Device) (p pageId : Nat) : Nat := d.deviceId.getD 0 * 2 ^ 46 + p * 2 ^ 40 + pageId * 2 ^ 8

/-- Page id of a pool and slot. -/
def pageIdOf (pool slot : Nat) : Nat := 2 ^ 28 * pool + slot
/-- Pool of a page id. -/
def pagePool (pageId : Nat) : Nat := pageId / 2 ^ 28 % 16
/-- Slot of a page id. -/
def pageSlot (pageId : Nat) : Nat := pageId % 2 ^ 28

/-- Device of a page reference. -/
def refDevice (r : Nat) : Nat := r / 2 ^ 46
/-- Paddock of a page reference. -/
def refPaddock (r : Nat) : Nat := r / 2 ^ 40 % 64
/-- Page id of a page reference. -/
def refPage (r : Nat) : Nat := r / 2 ^ 8 % 2 ^ 32

/-- Pages of a set (R209). -/
def ServeConfig.setPages (c : ServeConfig) : Nat := c.layers * c.groups

/-- A pool of a layout. -/
def ServeConfig.pool (c : ServeConfig) (i : Nat) : Pool := (c.pools[i]?).getD { base := 0, slots := 0, summary := 0 }

/-- A page id names a page of a layout (R208). -/
def ServeConfig.namesPage (c : ServeConfig) (pageId : Nat) : Bool :=
  decide (pagePool pageId < c.pools.length ∧ pageSlot pageId < (c.pool (pagePool pageId)).slots)

/-- Bytes of a page slot of a paddock (R207). -/
def Device.pageStride (d : Device) (p : Nat) (c : ServeConfig) : Nat := c.blocksPerPage * d.baleSize p c.kvTensor

/-- Local address of a page (R207). -/
def Device.pageAddress (d : Device) (p : Nat) (c : ServeConfig) (pageId : Nat) : Nat :=
  (c.pool (pagePool pageId)).base + pageSlot pageId * d.pageStride p c

/-- Local address of a page's summary (R231). -/
def ServeConfig.summaryAddress (c : ServeConfig) (pageId : Nat) : Nat :=
  (c.pool (pagePool pageId)).summary + pageSlot pageId * (2 * c.headDim)

/-! ### Page tables (R210, R211, R213) -/

/-- Greatest number of entries of a table. -/
def tableLimit : Nat := 1048576

/-- Address of entry i of a table. -/
def entryAt (table i : Nat) : Nat := table + 64 + 16 * i

/-- `entries` of a table. -/
def Device.tableEntries (d : Device) (t : Nat) : Nat := d.loadLe t 4
/-- `epoch` of a table. -/
def Device.tableEpoch (d : Device) (t : Nat) : Nat := d.loadLe (t + 4) 4
/-- `capacity` of a table. -/
def Device.tableCapacity (d : Device) (t : Nat) : Nat := d.loadLe (t + 12) 4

/-- A page-set entry (R210). -/
def setEntry (base firstPos tokens flags : Nat) : List Byte :=
  leBytes 8 base ++ leBytes 4 firstPos ++ leBytes 1 tokens ++ leBytes 1 flags ++ zeros 2

/-- A page table's header (R211). -/
def tableHeader (entries epoch capacity recordAt : Nat) (c : ServeConfig) : List Byte :=
  leBytes 4 entries ++ leBytes 4 epoch ++ leBytes 2 c.layers ++ leBytes 1 c.groups ++ zeros 1 ++ leBytes 4 capacity ++
    leBytes 8 recordAt ++ zeros 40

/-- `epoch` of a table written. -/
def Device.setTableEpoch (d : Device) (t e : Nat) : Device := d.storeLe (t + 4) 4 e

/-! ### Free-set stacks (R287) -/

/-- The stack of a pool: address, capacity and sets present. -/
def Device.stack (d : Device) (p pool : Nat) : Nat × Nat × Nat := ((d.droveState p).pageStacks[pool]?).getD (0, 0, 0)

/-- The sets present on a pool's stack. -/
def Device.setCount (d : Device) (p pool n : Nat) : Device :=
  d.updDrove p fun s => { s with pageStacks := s.pageStacks.modify pool fun e => (e.1, e.2.1, n) }

/-- The page id on top of a pool's stack, taken off it; none when the stack is empty. -/
def Device.popSet (d : Device) (p pool : Nat) : Option (Nat × Device) :=
  let s := d.stack p pool
  if s.2.2 = 0 then none else some (d.loadLe (s.1 + 4 * (s.2.2 - 1)) 4, d.setCount p pool (s.2.2 - 1))

/-- Local source of the drove engine that runs a ring's descriptors (R326). -/
def droveSource (q : Nat) : Nat := srcTier (q % 2) 0
/-- Local source of the prefix-tree walker that runs a ring's descriptors. -/
def walkerSource (q : Nat) : Nat := srcTier (q % 2) 1
/-- Local source of the tier balers that run a ring's descriptors. -/
def balerSource (q : Nat) : Nat := srcTier (q % 2) 2

/-- A set is pushed onto its pool's stack; a full stack is a double free (R287). -/
def Device.pushSet (d : Device) (p pageId source : Nat) : Device :=
  let pool := pagePool pageId
  let s := d.stack p pool
  if s.2.1 ≤ s.2.2 then
    d.strike p { source := d.src source, paddock := p, cls := 2, level := 4, code := 0x35, sub := pool, aux := pageId, addr := s.1 }
  else (d.storeLe (s.1 + 4 * s.2.2) 4 pageId).setCount p pool (s.2.2 + 1)

/-- `n` sets taken off a stack; none when it holds fewer. -/
def Device.popSets (d : Device) (p pool : Nat) : Nat → Option (List Nat × Device)
  | 0 => some ([], d)
  | n + 1 =>
    match d.popSet p pool with
    | none => none
    | some r =>
      match Device.popSets r.2 p pool n with
      | none => none
      | some rest => some (r.1 :: rest.1, rest.2)

/-! ### The prefix tree's owner array (R296, R300) -/

/-- No node. -/
def noNode : Nat := 0xFFFFFFFF

/-- Address of the owner word of a set of the prefix pool: one word per set, in slot order. -/
def Device.ownerWordAt (d : Device) (p pageId : Nat) : Option Nat :=
  match (d.droveState p).prefixCfg, (d.serving p).cfg with
  | some cfg, some c =>
    if cfg.2.2.1 = pagePool pageId then some (cfg.2.2.2.2 + 4 * (pageSlot pageId / max c.setPages 1)) else none
  | _, _ => none

/-- A set belongs to the prefix tree. -/
def Device.inTree (d : Device) (p pageId : Nat) : Bool :=
  match d.ownerWordAt p pageId with
  | none => false
  | some a => decide (d.loadLe a 4 ≠ noNode)

/-! ### Freeing (R213, R254, R300) -/

/-- The spill slots of a set's bales are free. -/
def Device.clearSpills (d : Device) (p : Nat) (c : ServeConfig) (pageId : Nat) : Device :=
  match d.binding p c.kvTensor with
  | none => d
  | some bs =>
    let b := bindingOf bs
    (List.range (c.setPages * c.blocksPerPage)).foldl (fun d k =>
      match d.heldSlot b (d.pageAddress p c pageId + k * b.size) with
      | some j => d.setSpillBit b j false
      | none => d) d

/-- A set goes back to its stack, unless the prefix tree owns it. -/
def Device.freeSet (d : Device) (p pageId source : Nat) : Device :=
  match (d.serving p).cfg with
  | none => d
  | some c =>
    if d.inTree p pageId ∨ c.namesPage pageId = false then d
    else (d.clearSpills p c pageId).pushSet p pageId source

/-- The page ids of a table's entries that this device's paddock holds. -/
def Device.ownSets (d : Device) (p table : Nat) : List Nat :=
  (List.range (Nat.min (d.tableEntries table) tableLimit)).filterMap fun i =>
    let r := d.loadLe (entryAt table i) 8
    if refDevice r = d.deviceId.getD 0 ∧ refPaddock r = p then some (refPage r) else none

/-- A table lies in its paddock's windows, header and entries. -/
def Device.tableCovered (d : Device) (p table : Nat) : Bool :=
  match d.paddock p with
  | none => false
  | some x => x.covers table 64 && x.covers table (64 + 16 * Nat.min (d.tableEntries table) tableLimit)

/-- The pages of a table are released: its epoch is 0 first, then its sets are free (R213). -/
def Device.freeTable (d : Device) (p table source : Nat) : Device :=
  if table = 0 ∨ d.tableCovered p table = false then d
  else
    let ids := d.ownSets p table
    ids.foldl (fun d id => d.freeSet p id source) (d.setTableEpoch table 0)

/-! ### Request-state records (R266, R269) -/

/-- `state` of a record. -/
def Device.recState (d : Device) (r : Nat) : Nat := d.loadLe r 1
/-- `flags` of a record. -/
def Device.recFlags (d : Device) (r : Nat) : Nat := d.loadLe (r + 1) 1
/-- `SETTLING` of a record. -/
def Device.settling (d : Device) (r : Nat) : Bool := bitOf (d.recFlags r) 0
/-- `epoch` of a record. -/
def Device.recEpoch (d : Device) (r : Nat) : Nat := d.loadLe (r + 4) 4
/-- `void_epoch` of a record. -/
def Device.recVoid (d : Device) (r : Nat) : Nat := d.loadLe (r + 8) 4
/-- `local_table` of a record. -/
def Device.recTable (d : Device) (r : Nat) : Nat := d.loadLe (r + 72) 8
/-- `shadow_table` of a record. -/
def Device.recShadow (d : Device) (r : Nat) : Nat := d.loadLe (r + 80) 8
/-- The content of a record, bytes 64 to 247. -/
def Device.recContent (d : Device) (r : Nat) : List Byte := d.load (r + 64) 184

/-- Remote tables of a content: global address, first position, entries. -/
def remotesOf (content : List Byte) : List (Nat × Nat × Nat) :=
  (List.range (Nat.min (fieldU8 content 33) 4)).map fun i =>
    (fieldU64 content (40 + 16 * i), fieldU32 content (48 + 16 * i), fieldU32 content (52 + 16 * i))

/-- A content with other remote tables. -/
def withRemotes (content : List Byte) (rs : List (Nat × Nat × Nat)) : List Byte :=
  let entries := (rs.take 4).flatMap fun e => leBytes 8 e.1 ++ leBytes 4 e.2.1 ++ leBytes 4 e.2.2
  overwrite (overwrite content 33 (leBytes 1 (Nat.min rs.length 4))) 40 (padTo 64 entries)

/-- `state` and `SETTLING` of a record change: their stamp is now. -/
def Device.setRecState (d : Device) (r state : Nat) (settling : Bool) : Device :=
  let flags := d.recFlags r / 2 * 2 + b2n settling
  ((d.storeLe r 1 state).storeLe (r + 1) 1 flags).storeLe (r + 16) 8 d.now

/-- A record has reached HANDING, or left it: `deadline` and `plan`. -/
def Device.setHanding (d : Device) (r deadline plan : Nat) : Device :=
  (d.storeLe (r + 24) 8 deadline).storeLe (r + 40) 8 plan

/-- The drove engine has written a record for a paddock. -/
def Device.trackRecord (d : Device) (p r : Nat) : Device :=
  d.updDrove p fun s => { s with records := if s.records.contains r then s.records else s.records ++ [r] }

/-- A record's copy header as written for a new copy (R266); how an earlier offer of the record ended counts no more. -/
def Device.newRecord (d : Device) (p r epoch peer : Nat) (settling : Bool) (content : List Byte) : Device :=
  let header := [1, BitVec.ofNat 8 (b2n settling), BitVec.ofNat 8 p, 1] ++ leBytes 4 epoch ++ zeros 4 ++
    leBytes 2 (d.foldNumber p) ++ zeros 2 ++ leBytes 8 d.now ++ zeros 8 ++ leBytes 8 peer ++ zeros 8 ++ zeros 16
  ((d.store r (header ++ content ++ leBytes 4 (crc32c content) ++ zeros 4)).mapService fun s =>
    { s with ended := Table.del s.ended r }).trackRecord p r

/-- Records of the device that are HANDING, or OWNED with SETTLING (the limit of R282's section). -/
def Device.handingCount (d : Device) : Nat :=
  (d.paddocks.map fun e => ((d.recordsOf e.1).filter fun r =>
    decide (d.recState r = 2) || (decide (d.recState r = 1) && d.settling r)).length).sum

/-- Most records that may be HANDING or settling. -/
def handingLimit : Nat := 8192

/-- A record may be written anew: FREE, VOID or RELEASED. -/
def Device.recVacant (d : Device) (r : Nat) : Bool := decide (d.recState r = 0 ∨ d.recState r = 3 ∨ d.recState r = 4)

/-- A STEP of the paddock holds a record: it has begun and the slot runs (R398). -/
def Device.recordHeld (d : Device) (p r : Nat) : Bool :=
  (d.serving p).steps.any fun s => decide (s.phase ≠ .queued) && s.lanes.any fun l =>
    l.run && decide (fieldU64 l.entry 8 = r)

/-! ### Checks the drove descriptors share -/

/-- An address of a descriptor lies in its ring's paddock's windows, with the given alignment and extent. -/
def Device.droveAddress (d : Device) (j : Job) (off n align : Nat) : Check :=
  let a := fieldU64 j.bytes off
  match d.paddock j.paddock with
  | none => none
  | some x => require (decide (a % align = 0) && x.covers a n) resBadArgument off

/-- An address of a descriptor that may be 0 for none. -/
def Device.droveOptional (d : Device) (j : Job) (off n align : Nat) : Check :=
  if fieldU64 j.bytes off = 0 then none else d.droveAddress j off n align

/-- The record of a descriptor: 256-byte aligned, in HBM or the tier, in the windows. -/
def Device.recordNamed (d : Device) (j : Job) (off : Nat) : Check :=
  let a := fieldU64 j.bytes off
  firstFail [d.droveAddress j off 256 256, require (inHbm a 256 || d.inTier a 256) resBadArgument off]

end Sys2Proof.Machine
end

