-- ==== Sys2Proof/Machine/Droves.lean ====
section
/-! DEFINITION. Droves: offers, pulls and releases, their messages, the pull deadline, and what a lost connection does
to them (R264 to R289). -/

namespace Sys2Proof.Machine

/-! ### Drove codes and messages (R281, R282) -/

/-- NOT_NAMED. -/
def droveNotNamed : Nat := 0x01
/-- WRONG_EPOCH. -/
def droveWrongEpoch : Nat := 0x02
/-- ABORTED. -/
def droveAborted : Nat := 0x03
/-- BOOK_MISMATCH. -/
def droveBookMismatch : Nat := 0x04
/-- LAYOUT_MISMATCH. -/
def droveLayoutMismatch : Nat := 0x05
/-- NO_SETS. -/
def droveNoSets : Nat := 0x06
/-- WRITE_REFUSED. -/
def droveWriteRefused : Nat := 0x07
/-- SOURCE_LOST. -/
def droveSourceLost : Nat := 0x08
/-- VOIDED. -/
def droveVoided : Nat := 0x09
/-- HOLDER_LOST. -/
def droveHolderLost : Nat := 0x0A
/-- STALE_MAP. -/
def droveStaleMap : Nat := 0x0B
/-- DEADLINE. -/
def droveDeadline : Nat := 0x0C

/-- A drove message's header and what follows it. -/
structure DroveMsg where
  /-- `type`. -/
  type : Nat
  /-- `code`. -/
  code : Nat := 0
  /-- `flags`. -/
  flags : Nat := 0
  /-- `epoch`: the source's e. -/
  epoch : Nat
  /-- `record`: the source copy's global address. -/
  record : Nat
  /-- `table`: the sender's table or record. -/
  table : Nat := 0
  /-- `first_entry`. -/
  first : Nat := 0
  /-- `entry_count`. -/
  count : Nat := 0
  /-- `deadline`. -/
  deadline : Nat := 0
  /-- What follows the header. -/
  rest : List Byte := []
  deriving DecidableEq, Repr

/-- The bytes of a message. -/
def DroveMsg.bytes (m : DroveMsg) : List Byte :=
  leBytes 1 m.type ++ leBytes 1 m.code ++ leBytes 2 m.flags ++ leBytes 4 m.epoch ++ leBytes 8 m.record ++
    leBytes 8 m.table ++ leBytes 4 m.first ++ leBytes 4 m.count ++ leBytes 8 m.deadline ++ zeros 8 ++ m.rest

/-- The message of a payload. -/
def droveMsgOf (b : List Byte) : DroveMsg :=
  { type := fieldU8 b 0, code := fieldU8 b 1, flags := fieldU16 b 2, epoch := fieldU32 b 4, record := fieldU64 b 8,
    table := fieldU64 b 16, first := fieldU32 b 24, count := fieldU32 b 28, deadline := fieldU64 b 32, rest := b.drop 48 }

/-- OPEN connections of a paddock to a paddock of a device, in ascending id (R316). -/
def Device.droveConns (d : Device) (p device paddock : Nat) : List Nat :=
  (d.net.conns.filter fun c => decide (c.2.paddock = p ∧ c.2.peer = device ∧ c.2.peerPaddock = paddock ∧
    c.2.state = .open)).map (·.1)

/-- A drove message to a paddock of a device: on the lowest OPEN connection to it (R316). None is sent where there is none, or
where the fold's maps do not list it (R265, R293). -/
def Device.sendDrove (d : Device) (p device paddock cls : Nat) (m : DroveMsg) : Device :=
  if d.pairInMap (d.foldNumber p) device paddock then
    match d.droveConns p device paddock with
    | [] => d
    | c :: _ => d.post c [{ opcode := 0x23, payload := m.bytes, cls := cls }]
  else d

/-- A message answered to the far end of the connection it came on, in that connection's class. -/
def Device.answerDrove (d : Device) (conn : Nat) (m : DroveMsg) : Device :=
  match d.conn conn with
  | none => d
  | some c => d.sendDrove c.paddock c.peer c.peerPaddock c.cls m

/-- Paddock in whose memory a global address of another device lies (log entry 97). -/
def holderPaddock (ref : Nat) : Nat := Config.paddockAt ref % 64

/-- The lowest OPEN connection of a paddock to the holder of a global address that the fold's maps list. -/
def Device.holderConn (d : Device) (p ref : Nat) : Option Nat :=
  if d.pairInMap (d.foldNumber p) (refDevice ref) (holderPaddock ref) then
    (d.droveConns p (refDevice ref) (holderPaddock ref)).head?
  else none

/-- A paddock's figures in its fold changed (R304). -/
def Device.updMeter (d : Device) (p : Nat) (f : Meter → Meter) : Device :=
  d.mapService fun s =>
    { s with folds := Table.mapAll s.folds fun _ x =>
        { x with members := Table.update x.members p f,
                 former := Table.mapAll x.former fun q m =>
                   if q = p ∧ x.leaving.any (fun l => decide (l.1 = p ∧ d.now < l.2)) then f m else m } }

/-- A device is in the current map of the paddock's fold (R265, R284). -/
def Device.inCurrentMap (d : Device) (p device paddock : Nat) : Bool :=
  match (d.fold (d.foldNumber p)).bind (·.current) with
  | none => false
  | some m => m.entries.any fun e => decide (e.1 = device ∧ e.2.1 = paddock)

/-! ### Waiting for a record (R271, R398) -/

/-- A descriptor that names a settling or held record waits. -/
def Device.mustWait (d : Device) (p r : Nat) : Bool :=
  (decide (d.recState r = 1) && d.settling r) || d.recordHeld p r

/-- A descriptor joins those that wait for their record. -/
def Device.waitRecord (d : Device) (j : Job) : Device :=
  d.mapService fun s => { s with waitingDroves := s.waitingDroves ++ [(j.ring, j.index)] }

/-! ### DROVE_OFFER (R284) -/

/-- The plan of an offer as it stands in memory. -/
def Device.readPlan (d : Device) (a n : Nat) : List PlanEntry :=
  (List.range n).map fun i =>
    let o := a + 16 * i
    { device := d.loadLe o 4, paddock := d.loadLe (o + 4) 1, record := decide (d.loadLe (o + 5) 1 = 0),
      first := d.loadLe (o + 8) 4, count := d.loadLe (o + 12) 4 }

/-- Entries of a table counted once each by the ranges of a plan, all of them. -/
def planCovers (plan : List PlanEntry) (entries : Nat) : Bool :=
  let ranges := plan.filter fun e => decide (e.count ≠ 0)
  decide ((ranges.map (·.count)).sum = entries) &&
    (List.range ranges.length).all fun i => (List.range i).all fun k =>
      match ranges[i]?, ranges[k]? with
      | some x, some y => decide (x.first + x.count ≤ y.first ∨ y.first + y.count ≤ x.first)
      | _, _ => true

/-- Checks of a plan read from memory; offsets count from its first byte (R284, R531). -/
def Device.planCheck (d : Device) (p r a n : Nat) : Check :=
  let plan := d.readPlan a n
  let table := d.recTable r
  let entries := if table = 0 then 0 else d.tableEntries table
  let remotes := fieldU8 (d.recContent r) 33
  let at' := fun i off => bufferField (16 * i + off)
  firstFail (
    ((List.range n).map fun i =>
      match plan[i]? with
      | none => none
      | some e => require (decide (e.first + e.count ≤ entries ∧ (e.record = true ∨ e.count ≠ 0))) resBadLength (at' i 8)) ++
    ((List.range n).map fun i =>
      match plan[i]? with
      | none => none
      | some e => firstFail [
          require (d.inCurrentMap p e.device e.paddock) resBadArgument (at' i 0),
          require (decide (e.paddock ≤ 63)) resBadArgument (at' i 4),
          require (decide (d.loadLe (a + 16 * i + 5) 1 ≤ 1)) resBadArgument (at' i 5),
          require (decide (d.loadLe (a + 16 * i + 6) 2 = 0)) resBadArgument (at' i 6)]) ++
    [require (decide ((plan.filter (·.record)).length = 1)) resBadArgument (at' 0 5),
     require (planCovers plan entries) resBadArgument (at' 0 8),
     require (decide (remotes + (plan.filter fun e => !e.record).length ≤ 4)) resBadArgument (at' 0 5)])

/-- Stamp at which the ring took a descriptor that is in flight (R274). -/
def Device.takenAt (d : Device) (j : Job) : Nat :=
  (((d.ring j.ring).bind fun r => r.inFlight.find? fun i => decide (i.index = j.index)).map (·.taken)).getD d.now

/-- An offer starts, or waits for its record: the record goes HANDING with D, counted from the offer's taking stamp, and the
plan is fixed (R274). -/
def Device.startOffer (d : Device) (j : Job) : Device :=
  let r := fieldU64 j.bytes 16
  let a := fieldU64 j.bytes 24
  let n := fieldU8 j.bytes 36
  if d.mustWait j.paddock r then d.waitRecord j
  else
    let read := d.checkedRead a (16 * n) (d.src (droveSource j.ring)) j.paddock
    match read.2 with
    | some report => read.1.failTransfer j report
    | none =>
      let d := read.1
      if d.recState r ≠ 1 ∨ d.recEpoch r = 0xFFFFFFFF then d.finish j resBadState
      else if handingLimit ≤ d.handingCount then d.finish j resNoResource
      else
        match d.planCheck j.paddock r a n with
        | some f => d.finish j f.result 0 f.detail
        | none =>
          let ticks := if fieldU32 j.bytes 32 = 0 then (d.droveState j.paddock).deadline else fieldU32 j.bytes 32
          let offer : Offer := { ring := j.ring, index := j.index, paddock := j.paddock, epoch := d.recEpoch r,
                                 deadline := d.takenAt j + ticks, plan := d.readPlan a n }
          ((d.setRecState r 2 false).setHanding r (d.takenAt j + ticks) a).mapService fun s =>
            { s with offers := Table.put s.offers r offer, ended := Table.del s.ended r }

/-- DROVE_OFFER. -/
def kindOffer : DescKind :=
  { type := 0x21,
    check := fun d j =>
      let b := j.bytes
      let ticks := fieldU32 b 32
      endIn [sizeIn 36 1 8 (fieldU8 b 36), d.recordNamed j 16, d.droveAddress j 24 (16 * fieldU8 b 36) 1,
        require (decide (ticks = 0 ∨ (40000 ≤ ticks ∧ ticks ≤ 800000000))) resBadArgument 32, reserved b 37 27],
    run := fun d j => d.startOffer j }

/-! ### DROVE_CREATE (R283) -/

/-- DROVE_CREATE: a record OWNED at epoch 1. -/
def kindCreate : DescKind :=
  { type := 0x20,
    check := fun d j =>
      endIn [d.recordNamed j 16, d.droveOptional j 32 64 1, d.droveOptional j 40 184 1, reserved j.bytes 48 16,
        require (d.recVacant (fieldU64 j.bytes 16)) resBadState],
    run := fun d j =>
      let b := j.bytes
      let init := fieldU64 b 40
      let read := if init = 0 then (d, none) else d.checkedRead init 184 (d.src (droveSource j.ring)) j.paddock
      match read.2 with
      | some report => read.1.failTransfer j report
      | none =>
        let start := if init = 0 then zeros 184 else read.1.load init 184
        let content := overwrite (overwrite start 0 (leBytes 8 (fieldU64 b 24))) 8 (leBytes 8 (fieldU64 b 32))
        (read.1.newRecord j.paddock (fieldU64 b 16) 1 0 false content).finish j resOk }

/-! ### DROVE_RELEASE (R286) -/

/-- A release ends: the record is RELEASED and its descriptor completes, with HOLDER_LOST when a holder was lost. -/
def Device.endRelease (d : Device) (r : Nat) : Device :=
  match Table.find d.service.releases r with
  | none => d
  | some x =>
    if x.waiting.isEmpty then
      let d1 := (d.mapService fun s => { s with releases := Table.del s.releases r }).setRecState r 4 false
      match x.ring with
      | none => d1
      | some e => d1.perform [.done e.1 e.2 resOk 0 (if x.lost then droveHolderLost else 0)]
    else d

/-- The pages of an OWNED record are released: its own tables at once, its remote tables by message; `ring` is the
descriptor that waits, none for a RECLAIM cancellation (R286, R295). -/
def Device.releaseRecord (d : Device) (p r source : Nat) (cls : Nat) (ring : Option (Nat × Nat)) : Device :=
  let content := d.recContent r
  let remotes := remotesOf content
  let node := fieldU32 content 28
  let holder := fieldU8 content 32
  let reach := remotes.filterMap fun e => (d.holderConn p e.1).map fun c => (e.1, c)
  let d1 := (d.freeTable p (d.recTable r) source).freeTable p (d.recShadow r) source
  let release : Release :=
    { ring := ring, paddock := p, waiting := reach, lost := decide (reach.length ≠ remotes.length) }
  let d2 := d1.mapService fun s => { s with releases := Table.put s.releases r release }
  let d3 := (List.range remotes.length).foldl (fun d i =>
    match remotes[i]? with
    | none => d
    | some e =>
      let unpin := decide (i = holder ∧ node ≠ noNode)
      d.sendDrove p (refDevice e.1) (holderPaddock e.1) cls
        { type := 0x0B, flags := b2n unpin, epoch := d.recEpoch r, record := d.globalOf r, table := e.1,
          first := if unpin then node else 0 }) d2
  d3.endRelease r

/-- A release starts, or waits for its record; a holder that the fold's maps do not list ends it with STALE_MAP (R293). -/
def Device.startRelease (d : Device) (j : Job) : Device :=
  let r := fieldU64 j.bytes 16
  let fold := d.foldNumber j.paddock
  if d.mustWait j.paddock r then d.waitRecord j
  else if d.recState r ≠ 1 ∨ (Table.find d.service.releases r).isSome then d.finish j resBadState
  else if (remotesOf (d.recContent r)).any fun e => !d.pairInMap fold (refDevice e.1) (holderPaddock e.1) then
    d.finish j resConflict 0 droveStaleMap
  else d.releaseRecord j.paddock r (droveSource j.ring) (d.ringClass j.ring) (some (j.ring, j.index))

/-- DROVE_RELEASE. -/
def kindRelease : DescKind :=
  { type := 0x23,
    check := fun d j => endIn [d.recordNamed j 16, reserved j.bytes 24 40],
    run := fun d j => d.startRelease j }

/-- A descriptor that waited for its record goes on: it ends VOIDED when the record has become VOID (R271). -/
def Device.resumeOne (d : Device) (e : Nat × Nat) : Device :=
  match d.ring e.1 with
  | none => d
  | some x =>
    match x.inFlight.find? fun i => decide (i.index = e.2) with
    | none => d
    | some i =>
      let j : Job := { ring := e.1, index := e.2, paddock := x.paddock, bytes := i.bytes }
      if d.recState (fieldU64 i.bytes 16) = 3 then d.finish j resConflict 0 droveVoided
      else if fieldU8 i.bytes 0 = 0x21 then d.startOffer j
      else d.startRelease j

/-- Descriptors that wait for their records are tried again, oldest first; those whose record is not free wait on. -/
def Device.resumeDroves (d : Device) : Device :=
  let waiting := d.service.waitingDroves
  waiting.foldl Device.resumeOne (d.mapService fun s => { s with waitingDroves := [] })

/-! ### Serving pages (R274, R277, R278) -/

/-- One bale as it travels: a spilled block raw, any other as its bale; or the failure code of its checks (R260, R261, R277).
The receiver's drove engine writes the `tensor` field, which only it knows (DEDUCED, log entry 15). -/
def Device.travelling (d : Device) (p : Nat) (b : Binding) (address : Nat) : Nat × List Byte :=
  let bale := d.load address b.size
  let head := d.headerCode p b false bale
  let spill := d.spillCode b bale
  if head ≠ 0 then (head, [])
  else if spill ≠ 0 then (spill, [])
  else if fieldU8 bale 0 = 0xB2 then
    let raw := d.load (b.slotAddress (fieldU32 bale 8)) rawBlock
    (crcCode b bale raw, raw)
  else (0, bale)

/-- A page write of a drove: data to an address and key of the receiver. -/
def pageWrite (cls record epoch : Nat) (target : Nat × Nat) (data : List Byte) : Outgoing :=
  { opcode := 1, ext := accessExt (target.1 % 2 ^ 46) target.2 noBell 0 0 0 data.length, payload := data, cls := cls,
    origin := .drove record epoch }

/-- A page write of a served receiver was refused: the source, or the holder of a copied table, stops serving it on every
connection to it and says so (R278). -/
def Device.pageRefused (d : Device) (conn record epoch : Nat) : Device :=
  match d.conn conn with
  | none => d
  | some c =>
    let stop := fun (d : Device) k => d.updConn k fun c =>
      { c with tx := c.tx.filter fun t => decide (t.origin ≠ .drove record epoch) || t.released }
    let kept := fun (x : WinDelivery) => match x.kind with
      | .post _ o => decide (o.origin ≠ .drove record epoch)
      | _ => true
    let d0 := d.mapNet fun n =>
      { n with windows := Table.mapAll n.windows fun _ q => { q with queue := q.queue.filter kept, fifo := q.fifo.filter kept } }
    let d1 := (d.droveConns c.paddock c.peer c.peerPaddock).foldl stop d0
    d1.answerDrove conn
      { type := 8, code := droveWriteRefused, epoch := epoch, record := d1.globalOf record, table := d1.globalOf record,
        deadline := ((Table.find d1.service.offers record).map (·.deadline)).getD 0 }

/-- A page write leaves its source's memory through an OUT window to its connection's die; with none the source stops serving
the receiver (R174, R175, R278). -/
def Device.sendPage (d : Device) (p conn address record epoch : Nat) (o : Outgoing) : Device × Bool :=
  if d.outCarries p (((d.conn conn).map (·.home)).getD 0) address o.payload.length then (d.postThrough p conn address o id, true)
  else (d.pageRefused conn record epoch, false)

/-- Bales k of a set are read and sent on a connection, `left` of them; a lasting failure strikes the paddock and ends
the transfer. -/
def Device.serveBales (p : Nat) (b : Binding) (conn cls record receiver epoch set base source : Nat) :
    Nat → Nat → Device → Device × Bool
  | 0, _, d => (d, true)
  | left + 1, k, d =>
    let address := base + k * b.size
    let t := d.travelling p b address
    let judged := d.judgeBale p source b.tensor address t.1
    match judged.2 with
    | some report => (judged.1.strike p report, false)
    | none =>
      let sent := judged.1.sendPage p conn address record epoch
        (pageWrite cls record epoch (Config.pageTarget receiver record epoch set k) t.2)
      if sent.2 then
        Device.serveBales p b conn cls record receiver epoch set base source left (k + 1)
          (sent.1.updMeter p fun m => { m with bytesOut := m.bytesOut + t.2.length })
      else sent

/-- Summaries of a set's pages are sent, with their pages or, for a shadow table, without them (R232, R277, R288). -/
def Device.serveSummaries (d : Device) (p : Nat) (c : ServeConfig) (pageId conn cls record receiver epoch set : Nat) :
    Device × Bool :=
  if c.kvFlags.getLsbD 0 then
    (List.range c.setPages).foldl (fun (acc : Device × Bool) k =>
      let address := c.summaryAddress (pageId + k)
      if acc.2 then
        acc.1.sendPage p conn address record epoch
          (pageWrite cls record epoch (Config.pageTarget receiver record epoch set (2 ^ 32 + k)) (d.load address (2 * c.headDim)))
      else acc) (d, true)
  else (d, true)

/-- Page sets `first` to `first + n − 1` of a table are written into a receiver, a whole set on each OPEN connection to it in
turn (R316); with none OPEN nothing is sent. `shadow`: their summaries alone (R288). -/
def Device.serveSets (d : Device) (p table first n cls record : Nat) (receiver : Nat × Nat) (epoch source : Nat)
    (shadow : Bool := false) : Device :=
  let conns := d.droveConns p receiver.1 receiver.2
  match (d.serving p).cfg with
  | none => d
  | some c =>
    match d.binding p c.kvTensor with
    | none => d
    | some bs =>
      let b := bindingOf bs
      let to' := 64 * receiver.1 + receiver.2
      ((List.range n).foldl (fun (acc : Device × Bool) i =>
        match conns[i % max conns.length 1]? with
        | none => acc
        | some conn =>
          let id := refPage (acc.1.loadLe (entryAt table (first + i)) 8)
          if !acc.2 then acc
          else if shadow then acc.1.serveSummaries p c id conn cls record to' epoch (2 ^ 32 + first + i)
          else
            let r := Device.serveBales p b conn cls record to' epoch i (acc.1.pageAddress p c id) source
              (c.setPages * c.blocksPerPage) 0 acc.1
            if r.2 then r.1.serveSummaries p c id conn cls record to' epoch i else r) (d, true)).1

/-! ### DROVE_PULL (R285) -/

/-- Range a pull takes: what a COPY names, else what the plan gives its receiver (log entry 15). -/
def Job.pullRange (j : Job) : Nat × Nat :=
  if fieldU8 j.bytes 45 = 2 then (fieldU32 j.bytes 48, fieldU32 j.bytes 52)
  else Config.pullRange (fieldU64 j.bytes 16) (fieldU32 j.bytes 40)

/-- Source's table entries whose summaries a pull with SHADOW takes: those of the page receivers (R288, log entry 15). -/
def Job.shadowRange (j : Job) : Nat × Nat :=
  if bitOf (fieldU8 j.bytes 46) 0 then Config.pullRange (fieldU64 j.bytes 16) (2 ^ 32 + fieldU32 j.bytes 40) else (0, 0)

/-- `first_pos` and `tokens` of entry `i` of a source's table: in ascending order, each entry at or after the end of the one
before (R211, log entry 15). -/
def sourceEntry (source epoch : Nat) : Nat → Nat × Nat
  | 0 => ((Config.pullEntry source epoch 0).1 % 0xFF000000, (Config.pullEntry source epoch 0).2 % 16 + 1)
  | i + 1 =>
    let before := sourceEntry source epoch i
    let e := Config.pullEntry source epoch (i + 1)
    let near := before.1 + before.2
    (if near + e.1 < 0xFF000000 then near + e.1 else near, e.2 % 16 + 1)

/-- A page table written for sets just taken: its header, and for each set the `first_pos` and `tokens` of the source's entry
it stands for, from `first` on (R211, R288, R289). What was answered about the table before counts no more. -/
def Device.writeTable (d : Device) (p table : Nat) (c : ServeConfig) (ids : List Nat) (epoch recordAt source first : Nat)
    (shadow : Bool) : Device :=
  let entries := (List.range ids.length).flatMap fun i =>
    let e := sourceEntry source epoch (first + i)
    setEntry (d.pageRef p (ids.getD i 0)) e.1 e.2 (b2n (shadow || (c.kvFlags.getLsbD 0 && decide (e.2 = 16))))
  (d.store table (tableHeader ids.length epoch (d.tableCapacity table) recordAt c ++ entries)).mapService fun s =>
    { s with answers := s.answers.filter fun a => decide (a.table ≠ table) }

/-- Bales and summaries of `n` sets. -/
def ServeConfig.arrivals (c : ServeConfig) (n : Nat) : Nat :=
  n * c.setPages * (c.blocksPerPage + b2n (c.kvFlags.getLsbD 0))

/-- A message of a receiver to the source of its pull. -/
def Device.sendSource (d : Device) (x : Pull) (cls : Nat) (m : DroveMsg) : Device :=
  d.sendDrove x.paddock (refDevice x.source) (holderPaddock x.source) cls m

/-- A pull has all its pages: a page receiver says so and is done, a record receiver asks for the record, a copy is done. -/
def Device.pullArrived (d : Device) (x : Pull) : Device :=
  let cls := d.ringClass x.ring
  let done := fun (d : Device) (keep : Bool) =>
    (d.mapService fun s => { s with pulls := s.pulls.filterMap fun y =>
        if y.ring = x.ring ∧ y.index = x.index then (if keep then some { y with done := true } else none) else some y }).perform
      [.done x.ring x.index resOk 0 0]
  let tell := fun type =>
    d.sendSource x cls { type := type, epoch := x.epoch, record := x.source, table := d.globalOf x.table }
  if x.mode = 0 then tell 3
  else if x.mode = 1 then done (tell 2) true
  else done d false

/-- A pull starts: page sets are taken, the tables written, and the source is asked for the pages. PULL_PAGES says in bit 0 of
`flags` that it wants the shadow summaries, for which the rules name no field (PRESUMED, log entry 98). -/
def Device.startPull (d : Device) (j : Job) (c : ServeConfig) : Device :=
  let b := j.bytes
  let source := fieldU64 b 16
  let mode := fieldU8 b 45
  let table := fieldU64 b 32
  let epoch := fieldU32 b 40
  let n := j.pullRange.2
  let m := j.shadowRange.2
  match d.holderConn j.paddock source with
  | none => d.finish j resConflict 0 droveSourceLost
  | some conn =>
    match d.popSets j.paddock (fieldU8 b 44) n with
    | none => d.finish j resConflict 0 droveNoSets
    | some sets =>
      match sets.2.popSets j.paddock (fieldU8 b 47) m with
      | none => d.finish j resConflict 0 droveNoSets
      | some shades =>
        let shadow := if bitOf (fieldU8 b 46) 0 then fieldU64 b 56 else 0
        let recordAt := if mode = 0 then d.globalOf (fieldU64 b 24) else source
        let d1 := shades.2.writeTable j.paddock table c sets.1 epoch recordAt source j.pullRange.1 false
        let d2 := if shadow = 0 then d1
          else d1.writeTable j.paddock shadow c shades.1 epoch recordAt source j.shadowRange.1 true
        let pull : Pull :=
          { ring := j.ring, index := j.index, paddock := j.paddock, mode := mode, source := source,
            record := fieldU64 b 24, table := table, shadow := shadow, epoch := epoch,
            left := c.arrivals n + m * c.setPages, conn := conn }
        let d3 := d2.mapService fun s => { s with pulls := s.pulls ++ [pull] }
        let d4 := d3.sendSource pull (d3.ringClass j.ring)
          { type := 1, flags := b2n (decide (shadow ≠ 0)), epoch := epoch, record := source, table := d3.globalOf table,
            first := if mode = 2 then fieldU32 b 48 else 0, count := if mode = 2 then fieldU32 b 52 else 0 }
        if pull.left = 0 then d4.pullArrived pull else d4

/-- Checks of a DROVE_PULL. -/
def Device.pullCheck (d : Device) (j : Job) : Option Ending :=
  let b := j.bytes
  let mode := fieldU8 b 45
  let shadow := bitOf (fieldU8 b 46) 0
  let pools := (((d.serving j.paddock).cfg).map (·.pools.length)).getD 0
  let capacity := d.tableCapacity (fieldU64 b 32)
  let stale : Option Ending :=
    if d.pairInMap (d.foldNumber j.paddock) (refDevice (fieldU64 b 16)) (holderPaddock (fieldU64 b 16)) then none
    else some { result := resConflict, detail := droveStaleMap }
  match endIn [
      require (decide (mode ≠ 2) || decide (1 ≤ fieldU32 b 52 ∧ fieldU32 b 52 ≤ tableLimit)) resBadLength 52,
      require (decide (j.pullRange.2 ≤ capacity ∧ capacity ≤ tableLimit)) resBadLength 32,
      (if mode = 0 then d.recordNamed j 24 else require (decide (fieldU64 b 24 = 0)) resBadArgument 24),
      d.droveAddress j 32 (64 + 16 * Nat.min capacity tableLimit) 1,
      require (decide (fieldU8 b 44 < pools)) resBadArgument 44, inRange 45 0 2 mode, flagsIn b 46 1,
      require (!shadow || decide (mode = 0)) resBadArgument 46,
      require (!shadow || decide (fieldU8 b 47 < pools)) resBadArgument 47,
      (if shadow then d.droveAddress j 56 64 1 else require (decide (fieldU64 b 56 = 0)) resBadArgument 56),
      require (decide (mode ≠ 0) || d.recVacant (fieldU64 b 24)) resBadState,
      require (decide (mode ≠ 0) || decide (d.handingCount < handingLimit)) resNoResource] with
  | some e => some e
  | none => stale

/-- DROVE_PULL. -/
def kindPull : DescKind :=
  { type := 0x22,
    check := fun d j => d.pullCheck j,
    run := fun d j =>
      match (d.serving j.paddock).cfg with
      | none => d.finish j resBadArgument 0 44
      | some c => d.startPull j c }

/-! ### The end of a pull (R276, R278, R285) -/

/-- A pull is no more. -/
def Device.dropPull (d : Device) (x : Pull) : Device :=
  d.mapService fun s => { s with pulls := s.pulls.filter fun y => decide (y.ring ≠ x.ring ∨ y.index ≠ x.index) }

/-- What a pull received is discarded: its tables at epoch 0 and their sets free, its copy VOID (R276). -/
def Device.discardPull (d : Device) (x : Pull) : Device :=
  let source := droveSource x.ring
  let d1 := (d.freeTable x.paddock x.table source).freeTable x.paddock x.shadow source
  let d2 := if x.mode = 0 ∧ x.done then d1.setRecState x.record 3 false else d1
  d2.dropPull x

/-- A pull ends with a drove code: what it received is discarded and its descriptor, if still in progress, completes. -/
def Device.endPull (d : Device) (x : Pull) (code : Nat) : Device :=
  let d1 := (d.discardPull x).resumeDroves
  if x.done then d1 else d1.perform [.done x.ring x.index resConflict 0 code]

/-! ### The source's decisions (R269, R274, R275) -/

/-- Table entries of a plan range as a remote table of the new record. -/
def Device.remoteOf (d : Device) (table : Nat) (e : PlanEntry) : Nat × Nat × Nat :=
  (e.held, d.loadLe (entryAt table e.first + 8) 4, e.count)

/-- The plan entry that names a record receiver. -/
def Offer.recordEntry (o : Offer) : Option PlanEntry := o.plan.find? (·.record)

/-- RECORD is sent to the record receiver: the content with its tables rewritten, and its CRC (R274). -/
def Device.sendRecord (d : Device) (r : Nat) (o : Offer) (table : Nat) : Device :=
  let old := d.recContent r
  let remotes := remotesOf old ++ (o.plan.filter fun e => !e.record).map (d.remoteOf (d.recTable r))
  let content := withRemotes (overwrite old 8 (leBytes 8 (table % 2 ^ 46) ++ zeros 8)) remotes
  let d1 := d.mapService fun s =>
    { s with offers := Table.update s.offers r fun o => { o with recordSent := true, pullHeld := none } }
  match o.recordEntry with
  | none => d1
  | some e => d1.sendDrove o.paddock e.device e.paddock (d.ringClass o.ring)
      { type := 4, epoch := o.epoch, record := d.globalOf r, table := d.globalOf r, deadline := o.deadline,
        rest := content ++ leBytes 4 (crc32c content) ++ zeros 4 }

/-- Every page receiver of a plan holds its pages. -/
def Offer.allHeld (o : Offer) : Bool := o.plan.all fun e => e.record || decide (e.held ≠ 0)

/-- A held PULL_RECORD is answered once every page receiver holds its pages. -/
def Device.answerPullRecord (d : Device) (r : Nat) : Device :=
  match Table.find d.service.offers r with
  | none => d
  | some o =>
    match o.pullHeld with
    | none => d
    | some table => if o.allHeld then d.sendRecord r o table else d

/-- A message to every receiver of a plan. -/
def Device.tellReceivers (d : Device) (r : Nat) (o : Offer) (type : Nat) : Device :=
  o.plan.foldl (fun d e => d.sendDrove o.paddock e.device e.paddock (d.ringClass o.ring)
    { type := type, epoch := o.epoch, record := d.globalOf r, table := d.globalOf r, deadline := o.deadline }) d

/-- An offer is over, and how it ended is kept for the messages that still come. -/
def Device.dropOffer (d : Device) (r : Nat) (o : Offer) (released : Bool) : Device :=
  d.mapService fun s =>
    { s with offers := Table.del s.offers r,
             ended := Table.put s.ended r { epoch := o.epoch, deadline := o.deadline, released := released } }

/-- Every RETAG_DONE is in: RELEASED goes to every receiver and the offer completes. -/
def Device.endOffer (d : Device) (r : Nat) : Device :=
  match Table.find d.service.offers r with
  | none => d
  | some o =>
    if o.retags = some [] then
      let d1 := (d.dropOffer r o true).tellReceivers r o 6
      (d1.updMeter o.paddock fun m => { m with drovesOut := m.drovesOut + 1 }).perform
        [.done o.ring o.index resOk 0 (2 ^ 32 * (o.epoch + 1) + (if o.lost then 256 else 0))]
    else d

/-- A valid CONFIRM: the source is RELEASED, frees its own table's pages and retags the remote tables that stay. -/
def Device.releaseSource (d : Device) (r : Nat) (o : Offer) : Device :=
  let remotes := remotesOf (d.recContent r)
  let reach := remotes.filterMap fun e => (d.holderConn o.paddock e.1).map fun c => (e.1, c)
  let d1 := ((d.setRecState r 4 false).setHanding r 0 0).freeTable o.paddock (d.recTable r) (droveSource o.ring)
  let lost := decide (reach.length ≠ remotes.length)
  let d2 := d1.mapService fun s =>
    { s with offers := Table.update s.offers r fun o => { o with retags := some reach, lost := lost } }
  let d3 := reach.foldl (fun d e => d.sendDrove o.paddock (refDevice e.1) (holderPaddock e.1) (d.ringClass o.ring)
    { type := 9, epoch := o.epoch, record := d.globalOf r, table := e.1, deadline := o.deadline }) d2
  d3.endOffer r

/-- D has passed with no valid CONFIRM: the source owns again, its receivers are told, its offer completes (R275). -/
def Device.revertOffer (d : Device) (r : Nat) (o : Offer) : Device :=
  let d1 := ((d.setRecState r 1 false).setHanding r 0 0).storeLe (r + 8) 4 (o.epoch + 1)
  let d2 := d1.dropOffer r o false
  let d3 := (d2.updDrove o.paddock fun s => { s with voided := s.voided + 1 }).tellReceivers r o 7
  d3.perform [.done o.ring o.index resConflict 0 droveDeadline]

/-- An offer whose deadline lies before the arrival stamp of a message is reverted (R64, R275: a CONFIRM stamped D is in
time). -/
def Device.settleDeadline (d : Device) (r arrived : Nat) : Device :=
  match Table.find d.service.offers r with
  | none => d
  | some o => if o.retags.isNone ∧ o.deadline < arrived then d.revertOffer r o else d

/-- DROVE_PULL_DEADLINE: D passes, and the source reverts unless it has been released (R67, R68, R275). -/
def Device.pullDeadline (d : Device) (r : Nat) : Device :=
  match Table.find d.service.offers r with
  | none => d
  | some o =>
    if o.retags.isSome then d else
      d.atDeadline o.deadline fun d =>
        match Table.find d.service.offers r with
        | none => d
        | some o => if o.retags.isSome then d else d.revertOffer r o

/-! ### Messages at the source (R274, R275, R279) -/

/-- The plan entry a message's sender fills: of its device and paddock, RECORD or PAGES. -/
def Offer.entryFor (o : Offer) (c : Conn) (isRecord : Bool) : Option PlanEntry :=
  o.plan.find? fun e => decide (e.device = c.peer ∧ e.paddock = c.peerPaddock) && (e.record == isRecord)

/-- The plan entry whose pages a PULL_PAGES of a sender asks for: its PAGES entry, and where the sender is the record receiver
too, its RECORD entry once it holds the other's pages. -/
def Offer.pagesEntry (o : Offer) (c : Conn) : Option PlanEntry :=
  match o.entryFor c false, o.entryFor c true with
  | some e, some r => if e.held = 0 then some e else some r
  | some e, none => some e
  | none, r => r

/-- A source's answer to a puller it refuses, with D where there is an offer. -/
def Device.refusePull (d : Device) (conn : Nat) (m : DroveMsg) (code : Nat) (deadline : Nat := 0) : Device :=
  d.answerDrove conn { type := 8, code := code, epoch := m.epoch, record := m.record, table := m.record, deadline := deadline }

/-- The source has voided epoch e + 1 (R275): by how its last offer ended, or by its record. -/
def Device.voidedEpoch (d : Device) (r e : Nat) : Bool :=
  match Table.find d.service.ended r with
  | some x => decide (x.epoch = e) && !x.released
  | none => decide ((d.recState r = 1 ∨ d.recState r = 4) ∧ d.recEpoch r = e ∧ d.recVoid r = e + 1)

/-- D of a record's last offer, 0 where none is known. -/
def Device.endedDeadline (d : Device) (r : Nat) : Nat := ((Table.find d.service.ended r).map (·.deadline)).getD 0

/-- A message is one of the PULL_* types. -/
def DroveMsg.pulls (m : DroveMsg) : Bool := decide (m.type = 1 ∨ m.type = 3)

/-- A message from a receiver meets no offer at its epoch: it draws ABORT for a voided epoch (R275), a PULL_* REFUSE with
WRONG_EPOCH (R279), and any other nothing. -/
def Device.noOffer (d : Device) (conn r : Nat) (m : DroveMsg) : Device :=
  if d.voidedEpoch r m.epoch then
    d.answerDrove conn { type := 7, epoch := m.epoch, record := m.record, table := m.record, deadline := d.endedDeadline r }
  else if m.pulls then d.refusePull conn m droveWrongEpoch (d.endedDeadline r)
  else d

/-- The offer a message of a receiver is for: its deadline settled first by the arrival stamp, its epoch and its sender
checked. A source that is RELEASED serves no more. -/
def Device.withOffer (d : Device) (conn : Nat) (m : DroveMsg) (arrived : Nat) (f : Device → Nat → Offer → Conn → Device) :
    Device :=
  let r := m.record % 2 ^ 46
  let d := d.settleDeadline r arrived
  match Table.find d.service.offers r, d.conn conn with
  | some o, some c =>
    if o.epoch ≠ m.epoch ∨ o.retags.isSome then (if m.pulls then d.refusePull conn m droveWrongEpoch o.deadline else d)
    else if (o.entryFor c false).isSome || (o.entryFor c true).isSome then f d r o c
    else if m.pulls then d.refusePull conn m droveNotNamed o.deadline
    else d
  | _, _ => d.noOffer conn r m

/-- PULL_PAGES for a copy of a holder's table (R289). -/
def Device.serveCopy (d : Device) (conn : Nat) (c : Conn) (m : DroveMsg) : Device :=
  let table := m.record % 2 ^ 46
  if d.tableCovered c.paddock table = false ∨ d.tableEpoch table ≠ m.epoch ∨ m.epoch = 0 then
    d.refusePull conn m droveWrongEpoch
  else
    let n := Nat.min m.count (d.tableEntries table - m.first)
    d.serveSets c.paddock table m.first n c.cls table (c.peer, c.peerPaddock) m.epoch (d.src (srcTier 0 0))

/-- Two paddocks' bindings of `kv_tensor` agree in `bale_size`, `book` and `STORED`, and their layouts in `kv_fmt`, `head_dim`,
`groups` and `layers` (R277): BOOK_MISMATCH, LAYOUT_MISMATCH, or 0. -/
def Device.kvMismatch (d : Device) (p q : Nat) : Nat :=
  let binding := fun n => ((d.serving n).cfg.bind fun c => d.binding n c.kvTensor).map bindingOf
  match (d.serving p).cfg, (d.serving q).cfg, binding p, binding q with
  | some c, some e, some x, some y =>
    if x.size ≠ y.size ∨ x.book ≠ y.book ∨ x.stored ≠ y.stored then droveBookMismatch
    else if c.kvFmt ≠ e.kvFmt ∨ c.headDim ≠ e.headDim ∨ c.groups ≠ e.groups ∨ c.layers ≠ e.layers then droveLayoutMismatch
    else 0
  | some _, some _, _, _ => droveBookMismatch
  | _, _, _, _ => droveLayoutMismatch

/-- How a receiver's binding and layout agree with the source's: by its own where the receiver is a paddock of this device;
what another device holds, no message tells (log entry 15). -/
def Device.pullMismatch (d : Device) (p record epoch : Nat) (c : Conn) : Nat :=
  if d.deviceId = some c.peer then d.kvMismatch p c.peerPaddock
  else
    let refusal := Config.pullRefusal (64 * c.peer + c.peerPaddock) record epoch
    if refusal = droveBookMismatch ∨ refusal = droveLayoutMismatch then refusal else 0

/-- PULL_PAGES: the pages of the receiver's plan range, or of a copy's range, are written into it; for a shadow table also the
summaries of what the page receivers take (R288). -/
def Device.gotPullPages (d : Device) (conn : Nat) (m : DroveMsg) (arrived : Nat) : Device :=
  match d.conn conn with
  | none => d
  | some c =>
    if m.count ≠ 0 then d.serveCopy conn c m
    else d.withOffer conn m arrived fun d r o c =>
      let refusal := d.pullMismatch o.paddock r o.epoch c
      if refusal ≠ 0 then d.refusePull conn m refusal o.deadline
      else
        match o.pagesEntry c with
        | none => d.refusePull conn m droveNotNamed o.deadline
        | some e =>
          let serve := fun (d : Device) (first n : Nat) (shadow : Bool) =>
            d.serveSets o.paddock (d.recTable r) first n (d.ringClass o.ring) r (c.peer, c.peerPaddock) o.epoch
              (d.src (droveSource o.ring)) shadow
          let d1 := serve d e.first e.count false
          if e.record && bitOf m.flags 0 then
            (o.plan.filter fun x => !x.record).foldl (fun d x => serve d x.first x.count true) d1
          else d1

/-- PAGES_HELD: a page receiver has its pages; a held PULL_RECORD may now be answered. -/
def Device.gotPagesHeld (d : Device) (conn : Nat) (m : DroveMsg) (arrived : Nat) : Device :=
  d.withOffer conn m arrived fun d r _ c =>
    let mark := fun (e : PlanEntry) =>
      if e.device = c.peer ∧ e.paddock = c.peerPaddock ∧ e.record = false then { e with held := m.table } else e
    (d.mapService fun s =>
      { s with offers := Table.update s.offers r fun o => { o with plan := o.plan.map mark } }).answerPullRecord r

/-- PULL_RECORD: held until every page receiver holds its pages, then answered with RECORD. -/
def Device.gotPullRecord (d : Device) (conn : Nat) (m : DroveMsg) (arrived : Nat) : Device :=
  d.withOffer conn m arrived fun d r o c =>
    match o.entryFor c true with
    | none => d.refusePull conn m droveNotNamed o.deadline
    | some _ => (d.mapService fun s =>
        { s with offers := Table.update s.offers r fun o => { o with pullHeld := some m.table } }).answerPullRecord r

/-- CONFIRM: one of the record receiver that was sent RECORD, in time, releases the source; one for a voided epoch draws ABORT,
a repeated one RELEASED as the first did (R269, R275, R279). -/
def Device.gotConfirm (d : Device) (conn : Nat) (m : DroveMsg) (arrived : Nat) : Device :=
  let r := m.record % 2 ^ 46
  let d := d.settleDeadline r arrived
  match Table.find d.service.offers r, d.conn conn with
  | some o, some c =>
    if o.epoch = m.epoch ∧ o.retags.isNone ∧ o.recordSent ∧ (o.entryFor c true).isSome then d.releaseSource r o else d
  | _, _ =>
    match Table.find d.service.ended r with
    | some x =>
      if x.epoch = m.epoch ∧ x.released then
        d.answerDrove conn { type := 6, epoch := m.epoch, record := m.record, table := m.record, deadline := x.deadline }
      else d.noOffer conn r m
    | none => d.noOffer conn r m

/-- Holders still waited for, without the table that a message of its own device names (R279). -/
def withoutHolder (l : List (Nat × Nat)) (c : Conn) (table : Nat) : List (Nat × Nat) :=
  l.filter fun e => !decide (e.1 = table ∧ refDevice e.1 = c.peer)

/-- RETAG_DONE: the last one ends the offer. -/
def Device.gotRetagDone (d : Device) (conn : Nat) (m : DroveMsg) : Device :=
  let r := m.record % 2 ^ 46
  match d.conn conn with
  | none => d
  | some c =>
    (d.mapService fun s =>
      { s with offers := Table.update s.offers r fun o =>
          { o with retags := o.retags.map fun l => withoutHolder l c m.table } }).endOffer r

/-! ### Messages at a receiver (R269, R274, R276) -/

/-- The pulls a message of a source is for: of its record and epoch, in the connection's paddock, from the source's device and
paddock. -/
def Device.pullsFor (d : Device) (conn : Nat) (m : DroveMsg) : List Pull :=
  match d.conn conn with
  | none => []
  | some c => d.service.pulls.filter fun x => decide (x.source = m.record ∧ x.epoch = m.epoch ∧ c.paddock = x.paddock ∧
      c.peer = refDevice x.source ∧ c.peerPaddock = holderPaddock x.source)

/-- A pull changed. -/
def Device.updPull (d : Device) (x : Pull) (f : Pull → Pull) : Device :=
  d.mapService fun s => { s with pulls := s.pulls.map fun y => if y.ring = x.ring ∧ y.index = x.index then f y else y }

/-- The record of a RECORD that fails its CRC. -/
def recordCrcReport (source paddock epoch addr : Nat) (lasting : Bool) : Report :=
  { source := source, paddock := paddock, cls := if lasting then 2 else 1, level := 2, code := 0x13, aux := epoch, addr := addr }

/-- The CONFIRM of a pull, with the D that RECORD brought. -/
def Device.confirmOf (d : Device) (x : Pull) : DroveMsg :=
  { type := 5, epoch := x.epoch, record := x.source, table := d.globalOf x.record, deadline := x.deadline }

/-- A RECORD's content is written: the copy OWNED at e + 1 with SETTLING, its tables at e + 1; CONFIRM goes out and the pull
completes (R274). -/
def Device.writeCopy (d : Device) (x : Pull) (content : List Byte) : Device :=
  let full := overwrite content 16 (leBytes 8 x.shadow)
  let d1 := (d.newRecord x.paddock x.record (x.epoch + 1) x.source true full).setTableEpoch x.table (x.epoch + 1)
  let d2 := if x.shadow = 0 then d1 else d1.setTableEpoch x.shadow (x.epoch + 1)
  let d3 := d2.updPull x fun y => { y with done := true, retryAt := none, deadline := x.deadline }
  let d4 := d3.sendSource x (d3.ringClass x.ring) (d3.confirmOf x)
  (d4.updMeter x.paddock fun m => { m with drovesIn := m.drovesIn + 1 }).perform
    [.done x.ring x.index resOk 0 (2 ^ 32 * (x.epoch + 1))]

/-- RECORD: its CRC is checked, a mismatch is fetched once more, a second one is lasting (R267). -/
def Device.gotRecord (d : Device) (conn : Nat) (m : DroveMsg) : Device :=
  match (d.pullsFor conn m).find? fun x => decide (x.mode = 0) with
  | none => d
  | some y =>
    let x := { y with deadline := m.deadline }
    let source := d.src (droveSource x.ring)
    let content := padTo 184 m.rest
    if x.done then d.sendSource x (d.ringClass x.ring) (d.confirmOf x)
    else if fieldU32 m.rest 184 = crc32c content then
      match x.retryAt with
      | none => d.writeCopy x content
      | some stamp => (d.record (recordCrcReport source x.paddock x.epoch x.source false) (some stamp)).writeCopy x content
    else
      match x.retryAt with
      | none =>
        (d.updPull x fun y => { y with retryAt := some d.now }).sendSource x (d.ringClass x.ring)
          { type := 3, epoch := x.epoch, record := x.source, table := d.globalOf x.table }
      | some stamp =>
        (d.perform [.fault (recordCrcReport source x.paddock x.epoch x.source true) x.paddock stamp]).updPull x
          fun y => { y with retryAt := none }

/-- RELEASED for one pull: the copy settles, a page receiver's table takes epoch e + 1, and the receiver's part in the drove is
over. No step names the epoch of a page receiver's table after the drove; e + 1 is the one at which the new owner's
RELEASE_PAGES finds it, as the example of 02_request_journey.md has it (R39, DEDUCED, log entry 99). -/
def Device.releasePull (d : Device) (x : Pull) : Device :=
  let d1 := d.dropPull x
  if x.mode = 1 ∧ d1.tableEpoch x.table = x.epoch then d1.setTableEpoch x.table (x.epoch + 1)
  else if x.mode = 0 ∧ d1.recState x.record = 1 ∧ d1.settling x.record then
    ((d1.setRecState x.record 1 false).updDrove x.paddock fun s =>
      { s with unsettled := s.unsettled.filter fun r => decide (r ≠ x.record) }).resumeDroves
  else d1

/-- RELEASED: the receiver's pulls of the drove that have completed are over. -/
def Device.gotReleased (d : Device) (conn : Nat) (m : DroveMsg) : Device :=
  ((d.pullsFor conn m).filter (·.done)).foldl Device.releasePull d

/-- ABORT: what the drove gave is discarded (R276). -/
def Device.gotAbort (d : Device) (conn : Nat) (m : DroveMsg) : Device :=
  (d.pullsFor conn m).foldl (fun d x => d.endPull x droveAborted) d

/-- REFUSE: a pull in progress ends with the drove code (R278, R279). -/
def Device.gotRefuse (d : Device) (conn : Nat) (m : DroveMsg) : Device :=
  ((d.pullsFor conn m).filter fun x => !x.done).foldl (fun d x => d.endPull x m.code) d

/-! ### Messages at a holder (R280, R286) -/

/-- The answer a holder gave to a message before (R279). -/
def Device.answeredBefore (d : Device) (c : Conn) (m : DroveMsg) : Option Nat :=
  (d.service.answers.find? fun a => decide (a.type = m.type ∧ a.table = m.table % 2 ^ 46 ∧ a.record = m.record ∧
    a.epoch = m.epoch ∧ a.sender = c.peer)).map (·.value)

/-- A holder's answer is kept (R279). -/
def Device.keepAnswer (d : Device) (c : Conn) (m : DroveMsg) (value : Nat) : Device :=
  d.mapService fun s => { s with answers := s.answers ++
    [{ type := m.type, table := m.table % 2 ^ 46, record := m.record, epoch := m.epoch, sender := c.peer, value := value }] }

/-- RETAG: the table's epoch e becomes e + 1; the answer's flag says whether it did. -/
def Device.gotRetag (d : Device) (conn : Nat) (m : DroveMsg) : Device :=
  match d.conn conn with
  | none => d
  | some c =>
    let t := m.table % 2 ^ 46
    let answer := fun (d : Device) flags => d.answerDrove conn
      { type := 0x0A, flags := flags, epoch := m.epoch, record := m.record, table := m.table, deadline := m.deadline }
    match d.answeredBefore c m with
    | some v => answer d v
    | none =>
      let hit := d.tableCovered c.paddock t && decide (d.tableEpoch t = m.epoch)
      answer ((if hit then d.setTableEpoch t (m.epoch + 1) else d).keepAnswer c m (b2n hit)) (b2n hit)

/-- A prefix node loses one pin. -/
def Device.unpinNode (d : Device) (p node : Nat) : Device :=
  match (d.droveState p).prefixCfg with
  | none => d
  | some cfg =>
    let a := cfg.2.2.2.1 + 64 * (node % 2 ^ cfg.1)
    let refs := d.loadLe (a + 24) 4
    if refs = 0 then d else d.storeLe (a + 24) 4 (refs - 1)

/-- RELEASE_PAGES: a table of the record's epoch is freed, and its pinned node unpinned; any other is left alone. -/
def Device.gotReleasePages (d : Device) (conn : Nat) (m : DroveMsg) : Device :=
  match d.conn conn with
  | none => d
  | some c =>
    let t := m.table % 2 ^ 46
    let answer := fun (d : Device) code => d.answerDrove conn
      { type := 0x0C, code := code, epoch := m.epoch, record := m.record, table := m.table }
    match d.answeredBefore c m with
    | some v => answer d v
    | none =>
      if d.tableCovered c.paddock t && decide (d.tableEpoch t = m.epoch ∧ m.epoch ≠ 0) then
        let d1 := if bitOf m.flags 0 then d.unpinNode c.paddock m.first else d
        answer ((d1.freeTable c.paddock t (srcTier 0 0)).keepAnswer c m 0) 0
      else answer (d.keepAnswer c m droveWrongEpoch) droveWrongEpoch

/-- RELEASE_DONE: the last one ends the release. -/
def Device.gotReleaseDone (d : Device) (conn : Nat) (m : DroveMsg) : Device :=
  let r := m.record % 2 ^ 46
  match d.conn conn with
  | none => d
  | some c =>
    (d.mapService fun s =>
      { s with releases := Table.update s.releases r fun x => { x with waiting := withoutHolder x.waiting c m.table } }).endRelease
        r

/-- What a drove message does by its type (R281). -/
def Device.droveEffect (d : Device) (conn : Nat) (m : DroveMsg) (arrived : Nat) : Device :=
  match m.type with
  | 0x01 => d.gotPullPages conn m arrived
  | 0x02 => d.gotPagesHeld conn m arrived
  | 0x03 => d.gotPullRecord conn m arrived
  | 0x04 => d.gotRecord conn m
  | 0x05 => d.gotConfirm conn m arrived
  | 0x06 => d.gotReleased conn m
  | 0x07 => d.gotAbort conn m
  | 0x08 => d.gotRefuse conn m
  | 0x09 => d.gotRetag conn m
  | 0x0A => d.gotRetagDone conn m
  | 0x0B => d.gotReleasePages conn m
  | 0x0C => d.gotReleaseDone conn m
  | _ => d

/-- A drove message that has arrived on a connection: those of a fold's paddock pass only between members of its maps
(R265). -/
def Device.droveMessage (d : Device) (conn : Nat) (m : DroveMsg) (arrived : Nat) : Device :=
  match d.conn conn with
  | none => d
  | some c => if d.pairInMap (d.foldNumber c.paddock) c.peer c.peerPaddock then d.droveEffect conn m arrived else d

/-! ### Pages arriving at a receiver -/

/-- The pull whose page sets hold an address, for a packet of its source's connection. -/
def Device.pullAt (d : Device) (conn a : Nat) : Option Pull :=
  d.service.pulls.find? fun x =>
    !x.done && decide (((d.conn conn).map fun c => (c.paddock, c.peer)) = some (x.paddock, refDevice x.source)) &&
    (match (d.serving x.paddock).cfg with
     | none => false
     | some c =>
       let inSets := fun t => (d.ownSets x.paddock t).any fun id =>
         let base := d.pageAddress x.paddock c id
         let sum := c.summaryAddress id
         decide (base ≤ a ∧ a < base + c.setPages * d.pageStride x.paddock c) ||
           (c.kvFlags.getLsbD 0 && decide (sum ≤ a ∧ a < sum + c.setPages * (2 * c.headDim)))
       inSets x.table || (decide (x.shadow ≠ 0) && inSets x.shadow))

/-- An address lies in the summary arrays of a paddock's pools. -/
def ServeConfig.isSummary (c : ServeConfig) (ids : List Nat) (a : Nat) : Bool :=
  c.kvFlags.getLsbD 0 && ids.any fun id =>
    decide (c.summaryAddress id ≤ a ∧ a < c.summaryAddress id + c.setPages * (2 * c.headDim))

/-- A bale under the tensor number of the paddock that takes it (R277); an empty one stays. -/
def underTensor (bale : List Byte) (tensor : Nat) : List Byte :=
  if fieldU8 bale 0 = 0 then bale else overwrite bale 2 (leBytes 2 (tensor % 4096 + fieldU16 bale 2 / 4096 * 4096))

/-- One page write of a drove is placed: a summary as it is, a raw block baled anew by the tier balers, a bale under the
receiver's `kv_tensor` (R277); the pull goes on when it has everything. The bytes of bales count in `bytes_in` (R304). -/
def Device.placePage (d : Device) (x : Pull) (a : Nat) (data : List Byte) : Device :=
  let source := d.src (balerSource x.ring)
  let summary := match (d.serving x.paddock).cfg with
    | none => false
    | some c => c.isSummary (d.ownSets x.paddock x.table ++ (if x.shadow = 0 then [] else d.ownSets x.paddock x.shadow)) a
  let placed : Device × Bool :=
    if summary then (d.store a data, true) else
    match ((d.serving x.paddock).cfg).bind fun c => (d.binding x.paddock c.kvTensor).map bindingOf with
    | none => (d.store a data, true)
    | some b =>
      if data.length = rawBlock then
        match d.baleTo x.paddock b a data with
        | some d1 => (d1, true)
        | none => (d.strike x.paddock (spaceReport source x.paddock 0x0E b.tensor a), false)
      else (d.store a (underTensor data b.tensor), true)
  if placed.2 then
    let left := x.left - 1
    let d1 := (placed.1.updPull x fun y => { y with left := left }).updMeter x.paddock fun m =>
      { m with bytesIn := m.bytesIn + (if summary then 0 else data.length) }
    if left = 0 then d1.pullArrived { x with left := 0 } else d1
  else placed.1

/-! ### A connection is given up (R273, R280, R285, R286) -/

/-- A pull of a connection given up: before CONFIRM it ends SOURCE_LOST, with a settling copy it raises DROVE_UNSETTLED; a page
receiver that holds its pages keeps them for the RELEASED or ABORT to come. -/
def Device.pullLost (d : Device) (x : Pull) : Device :=
  if x.done = false then d.endPull x droveSourceLost
  else if x.mode = 0 ∧ d.recState x.record = 1 ∧ d.settling x.record then
    ((d.dropPull x).updDrove x.paddock fun s => { s with unsettled := s.unsettled ++ [x.record] }).strike x.paddock
      { source := d.src (droveSource x.ring), paddock := x.paddock, cls := 2, level := 4, code := 0x34, aux := x.epoch + 1,
        addr := x.record }
  else d

/-- What the loss of a connection does to a paddock's droves: its pulls, and the RETAG and RELEASE_PAGES messages that went on
it, which count as done (R273, R280, R285, R286). -/
def Device.drovesLost (d : Device) (conn p : Nat) : Device :=
  let pulls := d.service.pulls.filter fun x => decide (x.conn = conn)
  let d1 := pulls.foldl Device.pullLost d
  let keep := fun (l : List (Nat × Nat)) => l.filter fun e => decide (e.2 ≠ conn)
  let offers := d1.service.offers.filter fun e => decide (e.2.paddock = p)
  let d2 := offers.foldl (fun d e =>
    (d.mapService fun s =>
      { s with offers := Table.update s.offers e.1 fun o =>
          match o.retags with
          | none => o
          | some l => { o with retags := some (keep l), lost := o.lost || decide ((keep l).length ≠ l.length) } }).endOffer e.1) d1
  let releases := d2.service.releases.filter fun e => decide (e.2.paddock = p)
  releases.foldl (fun d e =>
    (d.mapService fun s =>
      { s with releases := Table.update s.releases e.1 fun x =>
          { x with waiting := keep x.waiting, lost := x.lost || decide ((keep x.waiting).length ≠ x.waiting.length) } }).endRelease
      e.1) d2

/-! ### The rows -/

/-- The ring takes a DROVE_CREATE at its head. -/
def execDroveCreate (x : Desc) (s : State) : Outcome := .next (s.on (·.runDescriptor kindCreate x))

/-- The ring takes a DROVE_OFFER at its head. -/
def execDroveOffer (x : Desc) (s : State) : Outcome := .next (s.on (·.runDescriptor kindOffer x))

/-- The ring takes a DROVE_PULL at its head. -/
def execDrovePull (x : Desc) (s : State) : Outcome := .next (s.on (·.runDescriptor kindPull x))

/-- The ring takes a DROVE_RELEASE at its head. -/
def execDroveRelease (x : Desc) (s : State) : Outcome := .next (s.on (·.runDescriptor kindRelease x))

/-- The pull deadline D of a record's offer passes: the source reverts unless it has been released (R275). -/
def execDrovePullDeadline (record : BitVec 46) (s : State) : Outcome :=
  .next (s.on (·.pullDeadline record.toNat))

end Sys2Proof.Machine
end

