-- ==== Sys2Proof/Machine/FaultCommands.lean ====
section
/-! DEFINITION. FAULT_CLEAR: the reload of a FAULTED paddock and the clearing of chip flags (R438, R439). -/

namespace Sys2Proof.Machine

/-- A remote access is forgotten by the thread that issued it: its answer writes nothing and rings nothing. -/
def RemoteAccess.orphan (a : RemoteAccess) : RemoteAccess := { a with expired := true, bell := none }

/-- Hurdle arrivals under way from a paddock's blocks are forgotten, and its remote accesses orphaned (log entry 20). -/
def Device.forgetThreads (d : Device) (p : Nat) : Device :=
  match d.paddock p with
  | none => d
  | some x => d.mapFabric fun f =>
      { f with arrivals := f.arrivals.filter fun a => !x.names a.block,
               remote := f.remote.map fun a => if a.paddock = p then a.orphan else a }

/-- What `unsettled` of FAULT_CLEAR does to one copy (R439): 1 settles it, 2 discards it as an ABORT would. -/
def Device.settleCopy (d : Device) (p mode r : Nat) : Device :=
  if mode = 1 then d.setRecState r 1 false
  else
    match d.service.pulls.find? fun x => decide (x.record = r ∧ x.paddock = p) with
    | some x => d.discardPull x
    | none =>
      ((d.freeTable p (d.recTable r) (d.src srcFirmware)).freeTable p (d.recShadow r) (d.src srcFirmware)).setRecState r 3 false

/-- A paddock's OWNED copies with SETTLING set are handled by `unsettled` (R439). -/
def Device.settleCopies (d : Device) (p mode : Nat) : Device :=
  if mode = 0 then d else
    let rs := (d.recordsOf p).filter fun r => decide (d.recState r = 1) && d.settling r
    (rs.foldl (fun d r => d.settleCopy p mode r) d).updDrove p fun x =>
      { x with unsettled := x.unsettled.filter fun r => !rs.contains r }

/-- The threads, blocks, bells and hurdles of a FAULTED paddock are reloaded, and it is WAITING or VACANT again (R438). -/
def Device.reloadPaddock (d : Device) (p tag : Nat) : Device :=
  match d.paddock p with
  | none => d
  | some x =>
    let d1 := d.forgetThreads p
    let d2 := if x.holds then d1.clearBlocksOf p else d1
    let d3 := (((d2.resetBlockBells p).zeroBells p x.blockList).resetNetBells p).resetHurdles p
    let d4 := d3.updPaddock p fun x =>
      { x with holds := false, preempt := none, faultRecord := [], suspended := false, fullRecord := false,
               generatorsSaved := [], restored := false }
    let d5 := d4.mapFaults fun f => { f with paddocks := f.paddocks &&& ~~~(BitVec.ofNat 64 (2 ^ p)) }
    (d5.setPaddockState p (if d5.hasWork p then .waiting else .vacant) tag).settleDemand p

/-- FAULT_CLEAR with scope 0 (R438), from a command of some tag (R80). -/
def Device.clearPaddock (d : Device) (p unsettled tag : Nat) : Device :=
  let record := ((d.paddock p).map (·.faultRecord)).getD []
  (((d.reloadPaddock p tag).notifyPeers p 2 record).settleCopies p unsettled).resumeDroves.schedule

/-- Each chip flag whose condition has ended is cleared: a Tally still FREE and links still DOWN keep theirs (R438). -/
def Device.clearChip (d : Device) : Device :=
  d.mapFaults fun f =>
    { f with tallyFree := f.tallyFree && decide (d.tally.state = .free), lockstep := false,
             shepherdStile := f.shepherdStile && f.downEdge.any fun e => decide (stileDie e = 7),
             stileDown := f.stileDown && !(f.downMesh.isEmpty && f.downEdge.isEmpty) }

/-- Chip flags that are set. -/
def Faults.flags (f : Faults) : Nat := b2n f.tallyFree + b2n f.lockstep + b2n f.shepherdStile + b2n f.stileDown

/-- FAULT_CLEAR (R438). -/
def immFaultClear : Immediate :=
  { minLen := 8, maxLen := 8, who := .owner,
    check := fun d c =>
      let p := c.payload
      let n := fieldU8 p 1
      let onPaddock := decide (fieldU8 p 0 = 0)
      firstFail [inRange 0 0 1 (fieldU8 p 0), require (decide (n ≤ 63) && (!onPaddock || (d.paddock n).isSome)) resBadArgument 1,
        inRange 2 0 2 (fieldU8 p 2), reserved p 3 5, (if onPaddock then d.worldOf (d.callWorld c) n 1 else none),
        require (!onPaddock || d.isFaulted n) resBadState (d.stateDetail (paddockStateCode (d.paddockState n)))],
    run := fun d c =>
      let p := c.payload
      let n := fieldU8 p 1
      if fieldU8 p 0 = 0 then
        let d1 := d.clearPaddock n (fieldU8 p 2) c.tag
        (d1.record { source := d.src srcFirmware, paddock := n, code := 0x800A, aux := d1.faults.flags, addr := c.tag }).respond
          c.path {}
      else
        let d1 := d.clearChip
        (d1.record { source := d.src srcFirmware, code := 0x800A, sub := 1, aux := d1.faults.flags, addr := c.tag }).respond
          c.path { detail := d1.faults.flags } }

/-- The command meets its mailbox and executes (R75, R83). -/
def execFaultClear (c : Cmd) (s : State) : Outcome := .next (s.on (·.runRow (.immediate immFaultClear) 0x0B02 c))

end Sys2Proof.Machine
end

