-- ==== Sys2Proof/Machine/Grammars.lean ====
section
/-! DEFINITION. Grammar automata and the commands on them and on serving (R404 to R407, R418). -/

namespace Sys2Proof.Machine

/-! ### A grammar table (R404) -/

/-- A state entry (R404). -/
structure GrammarState where
  /-- `first`. -/
  first : Nat
  /-- `count`. -/
  count : Nat
  /-- `mask`. -/
  mask : Nat
  /-- Bits [6:0]. -/
  rest : Nat
  deriving DecidableEq, Repr

/-- A transition entry (R404). -/
structure GrammarMove where
  /-- `class`. -/
  cls : Nat
  /-- `next`. -/
  next : Nat
  /-- `op`: 0 NONE, 1 PUSH, 2 POP, 3 END. -/
  op : Nat
  /-- `sym`. -/
  sym : Nat
  /-- Bits [25:0]. -/
  rest : Nat
  deriving DecidableEq, Repr

/-- A state entry's word. -/
def grammarStateOf (w : Nat) : GrammarState :=
  { first := bitsOf w 63 40, count := bitsOf w 39 23, mask := bitsOf w 22 7, rest := bitsOf w 6 0 }

/-- A transition entry's word. -/
def grammarMoveOf (w : Nat) : GrammarMove :=
  { cls := bitsOf w 63 48, next := bitsOf w 47 32, op := bitsOf w 31 30, sym := bitsOf w 29 26, rest := bitsOf w 25 0 }

/-- Offset of the class map. -/
def classMapAt (h : List Byte) : Nat := fieldU64 h 32
/-- Offset of the state array. -/
def stateArrayAt (h : List Byte) : Nat := fieldU64 h 40
/-- Offset of the transition array. -/
def moveArrayAt (h : List Byte) : Nat := fieldU64 h 48
/-- Return state of a symbol. -/
def returnState (h : List Byte) (r : Nat) : Nat := fieldU16 h (64 + 2 * r)

/-- State entry s of the table at an address with a header. -/
def Device.grammarState (d : Device) (table : Nat) (h : List Byte) (s : Nat) : GrammarState :=
  grammarStateOf (d.loadLe (table + stateArrayAt h + 8 * s) 8)

/-- Transition entry k of the table. -/
def Device.grammarMove (d : Device) (table : Nat) (h : List Byte) (k : Nat) : GrammarMove :=
  grammarMoveOf (d.loadLe (table + moveArrayAt h + 8 * k) 8)

/-- Class of a token. -/
def Device.grammarClass (d : Device) (table : Nat) (h : List Byte) (token : Nat) : Nat :=
  d.loadLe (table + classMapAt h + 2 * token) 2

/-! ### Stepping (R406) -/

/-- The automaton's place: state and stack, top first. -/
structure GrammarPlace where
  /-- `gstate`. -/
  state : Nat
  /-- Symbols, top of the stack first; at most 64. -/
  stack : List Nat
  deriving DecidableEq, Repr

/-- The transition of a state for a class. -/
def Device.findMove (d : Device) (table : Nat) (h : List Byte) (s cls : Nat) : Option GrammarMove :=
  let e := d.grammarState table h s
  ((List.range e.count).map fun i => d.grammarMove table h (e.first + i)).find? fun m => decide (m.cls = cls)

/-- Token t steps the automaton: none when it is refused, else the place and whether t is an end token. -/
def Device.grammarStep (d : Device) (table : Nat) (h : List Byte) (p : GrammarPlace) (token : Nat) :
    Option (GrammarPlace × Bool) :=
  match d.findMove table h p.state (d.grammarClass table h token) with
  | none => none
  | some m =>
    if m.op = 0 then some ({ p with state := m.next }, false)
    else if m.op = 1 then
      if p.stack.length = 64 then none else some ({ state := m.next, stack := m.sym :: p.stack }, false)
    else if m.op = 2 then
      match p.stack with
      | [] => none
      | r :: rest => some ({ state := returnState h r, stack := rest }, false)
    else some (p, true)

/-- Raw blocks a mask covers (R405). -/
def maskBlocks (vocab : Nat) : Nat := ceilDiv vocab 32768

/-! ### Checks of a table (R407) -/

/-- No number stands twice in a list. -/
def distinct : List Nat → Bool
  | [] => true
  | x :: xs => !xs.contains x && distinct xs

/-- Header values that must be in range before the arrays are read; counts of 0 are out of range. -/
def grammarHeader (h : List Byte) : List Check :=
  [require (decide (fieldU32 h 0 = 0x4B53414D)) resBadArgument 0, inRange 4 1 65536 (fieldU32 h 4),
   inRange 12 1 65536 (fieldU32 h 12), inRange 16 1 16777216 (fieldU32 h 16),
   require (decide (fieldU16 h 20 ≤ 4095)) resBadArgument 20,
   require (decide (fieldU16 h 22 < fieldU32 h 4)) resBadArgument 22, inRange 24 1 65536 (fieldU32 h 24),
   reserved h 28 4, require (decide (fieldU64 h 56 < 2 ^ 46)) resBadArgument 56] ++
  ((List.range 16).map fun r => require (decide (returnState h r < fieldU32 h 4)) resBadArgument (64 + 2 * r)) ++
  [reserved h 96 32]

/-- An array ends within the table's length. -/
def arrayWithin (h : List Byte) (off bytes length : Nat) : Check :=
  require (decide (fieldU64 h off + bytes ≤ length)) resBadLength off

/-- The class map and the arrays lie in the table. -/
def grammarBounds (h : List Byte) (length : Nat) : List Check :=
  [arrayWithin h 32 (2 * fieldU32 h 8) length, arrayWithin h 40 (8 * fieldU32 h 4) length,
   arrayWithin h 48 (8 * fieldU32 h 16) length]

/-- A transition keeps the rules of its `op`. -/
def GrammarMove.ruled (m : GrammarMove) (states : Nat) : Bool :=
  decide (m.rest = 0 ∧ m.next < states ∧ (m.op ≤ 1 ∨ m.next = 0) ∧ (m.op = 1 ∨ m.sym = 0))

/-- A state entry and its transitions. -/
def Device.grammarStateCheck (d : Device) (table : Nat) (h : List Byte) (s : Nat) : Check :=
  let e := d.grammarState table h s
  let off := stateArrayAt h + 8 * s
  if fieldU32 h 16 < e.first + e.count ∨ fieldU32 h 24 ≤ e.mask ∨ e.rest ≠ 0 ∨ 65536 < e.count then
    some { result := resBadArgument, detail := off }
  else
    require (distinct ((List.range e.count).map fun i => (d.grammarMove table h (e.first + i)).cls)) resBadArgument off

/-- The state and transition arrays. -/
def Device.grammarArrays (d : Device) (table : Nat) (h : List Byte) : List Check :=
  ((List.range (fieldU32 h 4)).map fun s => d.grammarStateCheck table h s) ++
    (List.range (fieldU32 h 16)).map fun k =>
      require ((d.grammarMove table h k).ruled (fieldU32 h 4)) resBadArgument (moveArrayAt h + 8 * k)

/-- What a table must agree with: the number is free, the configuration and the masks' binding (R407). -/
def Device.grammarConsistent (d : Device) (p g : Nat) (h : List Byte) : List Check :=
  [require (!(d.serving p).grammars.any fun e => decide (e.1 = g)) resBusy,
   require (decide ((d.serving p).cfg.map (·.vocab) = some (fieldU32 h 8))) resConflict,
   require (d.binding p (fieldU16 h 20)).isSome resConflict]

/-- Every check of a grammar table, offsets counted in the table. -/
def Device.grammarCheck (d : Device) (p g table length : Nat) : Check :=
  let h := d.load table 128
  match firstFail (grammarBounds h length) with
  | some r => some r
  | none =>
    match firstFail (grammarHeader h) with
    | some r => some r
    | none => byStep (d.grammarArrays table h ++ d.grammarConsistent p g h)

/-! ### The commands -/

/-- The reads of a table: header, state array, transition array (R407). -/
def Device.readGrammar (d : Device) (table length : Nat) : Device × Option Report :=
  let h := d.load table 128
  let src := d.src srcFirmware
  let r := d.checkedRead table 128 src 0xFF
  if r.2.isSome ∨ (firstFail (grammarBounds h length)).isSome then r else
    let r2 := r.1.checkedRead (table + stateArrayAt h) (8 * fieldU32 h 4) src 0xFF
    if r2.2.isSome then r2 else r2.1.checkedRead (table + moveArrayAt h) (8 * fieldU32 h 16) src 0xFF

/-- SERVE_MASK_LOAD (R407). -/
def immMaskLoad : Immediate :=
  { minLen := 24, maxLen := 24, who := operatorRight,
    check := fun d c =>
      let a := fieldU64 c.payload 8
      let n := fieldU32 c.payload 16
      let covers := fun (k : Nat) =>
        match d.paddock (fieldU8 c.payload 0) with
        | some x => x.covers a k
        | none => false
      firstFail ([require (decide (128 ≤ n ∧ n ≠ 0xFFFFFFFF)) resBadLength 16,
          require (!covers 1 || (match d.paddock (fieldU8 c.payload 0) with
            | some x => x.inOneWindow a n
            | none => false)) resBadLength 16] ++ d.paddockNamed c 0 ++
        [reserved c.payload 2 6, addressAligned 8 64 a, require (covers 1) resBadArgument 8, reserved c.payload 20 4,
         d.paddockWorld c 0]),
    run := fun d c =>
      let p := fieldU8 c.payload 0
      let g := fieldU8 c.payload 1
      let a := fieldU64 c.payload 8
      let n := fieldU32 c.payload 16
      let r := d.readGrammar a n
      match r.2 with
      | some report =>
        (r.1.record { report with addr := c.tag }).respond c.path { result := resFaulted, detail := d.src srcFirmware }
      | none =>
        match inBuffer (r.1.grammarCheck p g a n) with
        | some f => r.1.respond c.path f
        | none => (r.1.updServing p fun s => { s with grammars := s.grammars ++ [(g, a, n)] }).answerOk c [] }

/-- `grammar` of a lane's record. -/
def Device.recordGrammar (d : Device) (l : Lane) : Nat := d.loadLe (fieldU64 l.entry 8 + 184) 2

/-- A STEP in flight uses a grammar: a slot's record names it. -/
def Device.grammarUsed (d : Device) (p g : Nat) : Bool :=
  (d.serving p).steps.any fun s => s.lanes.any fun l => decide (d.recordGrammar l = g)

/-- SERVE_MASK_RETIRE (R407). -/
def immMaskRetire : Immediate :=
  { minLen := 8, maxLen := 8, who := operatorRight,
    check := fun d c =>
      let p := fieldU8 c.payload 0
      let g := fieldU8 c.payload 1
      firstFail (d.paddockNamed c 0 ++
        [require ((d.serving p).grammars.any fun e => decide (e.1 = g)) resBadArgument 1, reserved c.payload 2 6,
         d.paddockWorld c 0, require (!d.grammarUsed p g) resBusy]),
    run := fun d c =>
      (d.updServing (fieldU8 c.payload 0) fun s =>
        { s with grammars := s.grammars.filter fun e => decide (e.1 ≠ fieldU8 c.payload 1) }).answerOk c [] }

/-- Code of a step's phase (R400); a step still waiting counts as none. -/
def stepPhaseCode : StepPhase → Nat
  | .queued => 0
  | .start => 1
  | .draft => 2
  | .mask => 3
  | .main => 4
  | .sample => 5

/-- SERVE_STATUS (R418). -/
def immServeStatus : Immediate :=
  paddockCommand .any checkNothing fun d c =>
    let s := d.serving (fieldU8 c.payload 0)
    let phase := (s.steps.head?.map fun x => stepPhaseCode x.phase).getD 0
    d.answerOk c (leBytes 1 phase ++ leBytes 1 s.grammars.length ++
      leBytes 2 (s.steps.filter fun x => decide (x.phase = .queued)).length ++ zeros 4 ++ leBytes 8 s.completed ++
      leBytes 8 s.tokens ++ leBytes 8 s.drafted ++ leBytes 8 s.accepted ++ leBytes 8 s.failed ++ leBytes 8 s.lastStep ++
      leBytes 8 d.now)

/-! ### The rows -/

/-- The command meets its mailbox and executes (R75, R83). -/
def execServeMaskLoad (c : Cmd) (s : State) : Outcome := .next (s.on (·.runRow (.immediate immMaskLoad) 0x0901 c))

/-- The command meets its mailbox and executes (R75, R83). -/
def execServeMaskRetire (c : Cmd) (s : State) : Outcome := .next (s.on (·.runRow (.immediate immMaskRetire) 0x0902 c))

/-- The command meets its mailbox and executes (R75, R83). -/
def execServeStatus (c : Cmd) (s : State) : Outcome := .next (s.on (·.runRow (.immediate immServeStatus) 0x0903 c))

end Sys2Proof.Machine
end

