-- ==== Sys2Proof/Machine/Tally.lean ====
section
/-! DEFINITION. The Tally: bursts of sync exchanges, holdover, the PPS pins and its status (R48 to R61). -/

namespace Sys2Proof.Machine

/-! ### Roles -/

/-- The device is the fold's time source: ROOT, or a BACKUP_ROOT that has taken over (R54). -/
def Tally.isSource (t : Tally) : Bool := decide (t.cfg.role = .root) || t.actingRoot

/-- Own level in the tree: 0 at the source (R50). -/
def Tally.level (t : Tally) : Nat := if t.isSource then 0 else t.parentLevel + 1

/-- Port link to the parent in use, 0xFF for none. -/
def Tally.link (t : Tally) : Nat := if t.useBackup then t.cfg.backupLink else t.cfg.primaryLink

/-- Device id of the parent in use. -/
def Tally.parent (t : Tally) : Nat := if t.useBackup then t.cfg.backupParent else t.cfg.primaryParent

/-- The counter with its fraction, in 1/65,536 tick. -/
def Device.fineNow (d : Device) : Nat := 65536 * d.now + d.tally.frac.toNat

/-- The frequency is locked: to the lane clock of the primary port link, or estimated with `SYNC_ONLY` (R47). -/
def Device.frequencyLocked (d : Device) : Bool := d.tally.cfg.syncOnly || d.tally.laneLostAt.isNone

/-- HOLDOVER is entered from LOCKED: the next bursts go to the backup parent (R54). -/
def Device.enterHoldover (d : Device) : Device :=
  (d.mapTally fun t =>
    { t with holdoverSince := t.now, useBackup := decide (t.cfg.backupLink ≠ 0xFF ∧ t.cfg.role ≠ .root), toSlew := 0,
             goodBursts := 0 }).setTallyState .holdover

/-- The primary lane clock is lost: a LOCKED device that has a parent enters HOLDOVER (R52). -/
def Device.loseLane (d : Device) : Device :=
  let d1 := d.mapTally fun t => { t with laneLostAt := some (t.laneLostAt.getD t.now) }
  if d.tally.state = .locked ∧ d.tally.isSource = false then d1.enterHoldover else d1

/-- Every port link that is UP or TRAINING goes DOWN. -/
def Device.portsDown (d : Device) : Device :=
  (List.range 64).foldl (fun d l =>
    if (d.link l).state = .up ∨ (d.link l).state = .training then (d.setLink l .down 1).moveQueues l else d) d

/-! ### Bursts (R48, R51, R52) -/

/-- The device steps its Tally forward by the whole offset instead of slewing: it may where it is behind its parent in
ACQUIRE and no paddock exists on it (R56). Whether it does is open (log entry 4). -/
def Device.stepsForward (d : Device) (offset : Int) : Bool :=
  decide (d.tally.state = .acquire ∧ offset < 0) && d.paddocks.isEmpty && Config.stepsForward d.now

/-- A forward step by the whole offset, at a single instant: a set whose T is passed over applies at the step, in commit order
(R56, R103). -/
def Device.stepForward (d : Device) (offset : Int) : Device :=
  let to' := d.fineNow + (-offset).toNat
  (d.advanceTo (to' / 65536)).mapTally fun t => { t with frac := BitVec.ofNat 16 to', toSlew := 0 }

/-- The burst that is open ends: its best exchange gives the offset, or it counts as missed. -/
def Device.closeBurst (d : Device) : Device :=
  let t := d.tally
  if !t.burstOpen then d else
    let d1 := d.mapTally fun t => { t with burstOpen := false, burstSent := [], burstDone := [], burstAccepted := false }
    match leastBy (fun e : SyncExchange => e.roundTrip.toNat) t.burstDone with
    | none =>
      let d2 := d1.mapTally fun t =>
        { t with missedBursts := t.missedBursts + 1, missedInRow := t.missedInRow + 1, goodBursts := 0 }
      if t.state = .locked ∧ 3 ≤ t.missedInRow + 1 then d2.enterHoldover else d2
    | some e =>
      let asym := if t.burstBackup then t.cfg.asymBackup else t.cfg.asymPrimary
      let offset := (e.twiceOffset + 256 * asym) / 2
      let good := decide (-8192 ≤ offset ∧ offset ≤ 8192) && d.frequencyLocked
      let count := if t.state = .acquire ∧ good then t.goodBursts + 1 else 0
      let d2 := d1.mapTally fun t =>
        { t with offset := offset, delay := (e.roundTrip / 512).toNat, toSlew := -offset, goodBursts := count }
      let d3 := if t.state = .acquire ∧ 4 ≤ count then d2.setTallyState .locked else d2
      if d.stepsForward offset then d3.stepForward offset else d3

/-- A burst of SYNC_REQs is sent to the parent in use; t1 is inserted as each leaves. -/
def Device.sendBurst (d : Device) : Device :=
  let t := d.tally
  let sequences := (List.range t.cfg.burst).map fun i => (t.nextSequence + i) % 2 ^ 32
  let payload := fun (i : Nat) => [1, BitVec.ofNat 8 (tallyStateCode t.state), BitVec.ofNat 8 t.level, BitVec.ofNat 8 i] ++
    leBytes 4 ((t.nextSequence + i) % 2 ^ 32) ++ zeros 32 ++ leBytes 4 t.cfg.rootId ++ zeros 20
  let d1 := d.mapTally fun t =>
    { t with burstOpen := true, burstBackup := t.useBackup, burstAccepted := false, burstDone := [], lastBurst := some t.now,
             burstSent := sequences.map fun q => (q, 0),
             nextSequence := (t.nextSequence + t.cfg.burst) % 2 ^ 32 }
  (List.range t.cfg.burst).foldl (fun d i =>
    if (d.link t.link).state = .up then d.sendLoose [t.link] 0x20 0 t.parent (payload i) else d) d1

/-- The instant of the next burst: an exchange interval after the last, at once where none has gone out (R48). -/
def Tally.burstDue (t : Tally) : Nat :=
  match t.lastBurst with
  | none => t.now
  | some b => b + 800 * t.cfg.intervalUs

/-- SYNC_BURST: the interval's burst, at a device that has a parent (R48). -/
def Device.syncBurst (d : Device) : Device :=
  if d.tally.isSource || decide (d.tally.link = 0xFF) then d
  else d.atInstant d.tally.burstDue fun d => d.closeBurst.sendBurst

/-- A device id stands in some fold map the device holds. -/
def Device.inSomeFold (d : Device) (device : Nat) : Bool :=
  d.service.folds.any fun f => [f.2.current, f.2.previous].any fun m =>
    match m with
    | none => false
    | some m => m.entries.any fun e => decide (e.1 = device)

/-- SYNC_REQ at a parent: answered to a fold member while LOCKED, in HOLDOVER or the ROOT; t3 is inserted as the answer
leaves (R51). The payload's fields of several bytes stand least significant byte first, like a structure in memory and unlike
an extension header: DESIGN CHOICE, log entry 83. -/
def Device.answerSync (d : Device) (l : Nat) (f : Frame) : Device :=
  let t := d.tally
  let child := f.src.toNat
  if decide (t.state = .locked ∨ t.state = .holdover ∨ t.cfg.role = .root) && d.inSomeFold child then
    let payload := [2, BitVec.ofNat 8 (tallyStateCode t.state), BitVec.ofNat 8 t.level] ++ bytesAt f.payload 3 1 ++
      bytesAt f.payload 4 4 ++ bytesAt f.payload 8 8 ++ leBytes 8 d.now ++ zeros 8 ++ bytesAt f.payload 32 2 ++
      leBytes 2 t.frac.toNat ++ zeros 4 ++ leBytes 4 t.cfg.rootId ++ zeros 20
    let d1 := d.mapTally fun t => { t with children := (child, t.now) :: t.children.filter fun c => decide (c.1 ≠ child) }
    d1.sendLoose [l] 0x20 0 child payload
  else d

/-- SYNC_RESP at a child: ignored unless it answers a sequence of the open burst and comes from a usable parent; the
first accepted one of a burst moves FREE and HOLDOVER to ACQUIRE with the parent that answered (R51, R52, R54). Byte order of
the payload: log entry 83. -/
def Device.takeSync (d : Device) (f : Frame) : Device :=
  let t := d.tally
  let p := f.payload
  let state := fieldU8 p 1
  if t.isSource || decide (state = 0 ∨ state = 1) || decide (4 ≤ fieldU8 p 2) ||
    decide (fieldU32 p 40 % 2 ^ 18 ≠ t.cfg.rootId) then d
  else
    match t.burstSent.find? fun e => decide (e.1 = fieldU32 p 4) with
    | none => d
    | some sent =>
      let t1 : Int := sent.2
      let t2 : Int := 65536 * fieldU64 p 16 + fieldU16 p 34
      let t3 : Int := 65536 * fieldU64 p 24 + fieldU16 p 36
      let t4 : Int := d.fineNow
      let exchange : SyncExchange := { roundTrip := (t4 - t1) - (t3 - t2), twiceOffset := (t1 - t2) + (t4 - t3) }
      let d1 := d.mapTally fun t =>
        { t with burstDone := t.burstDone ++ [exchange], burstAccepted := true, missedInRow := 0, useBackup := t.burstBackup,
                  parentLevel := fieldU8 p 2 }
      if t.state = .free ∨ t.state = .holdover then
        (d1.mapTally fun t => { t with goodBursts := 0 }).setTallyState .acquire
      else d1

/-! ### Holdover (R54, R55) -/

/-- The instant at which HOLDOVER ends. The limit with the lane clock counts from the entry to HOLDOVER, and the one without it
from the later of that entry and the loss of the lane clock: DESIGN CHOICE, log entry 84. -/
def Tally.holdoverEnd (t : Tally) : Nat :=
  let withLane := t.holdoverSince + 800000 * t.cfg.holdoverLaneMs
  match t.laneLostAt with
  | none => withLane
  | some l => Nat.min withLane (Nat.max t.holdoverSince l + 800000 * t.cfg.holdoverFreeMs)

/-- The end of HOLDOVER at its limit: FREE, or a BACKUP_ROOT becomes the time source. A device that has gone FREE tries its
primary parent again (DESIGN CHOICE, log entry 85). -/
def Device.endHoldover (d : Device) (limit : Nat) : Device :=
  if d.tally.state ≠ .holdover then d
  else if d.tally.cfg.role = .backupRoot then
    (d.mapTally fun t => { t with actingRoot := true }).setTallyState .locked (some limit)
  else (d.mapTally fun t => { t with useBackup := false }).setTallyState .free (some limit)

/-- HOLDOVER_LIMIT: the limit is a deadline, stamped at its own tick (R55, R63). -/
def Device.holdoverLimit (d : Device) : Device :=
  if d.tally.state = .holdover then
    d.atDeadline d.tally.holdoverEnd fun d => d.endHoldover d.tally.holdoverEnd
  else d

/-! ### The PPS pins (R53, R58, R59) -/

/-- Ticks of a second. -/
def second : Nat := 800000000

/-- A ROOT that disciplines to TALLY_PPS_IN. -/
def Tally.disciplined (t : Tally) : Bool := decide (t.cfg.role = .root) && t.cfg.ppsIn

/-- An expected edge is missing: three in a row take a LOCKED ROOT to HOLDOVER. -/
def Device.edgeMissed (d : Device) : Device :=
  if d.tally.disciplined then
    let d1 := d.mapTally fun t => { t with missedInRow := t.missedInRow + 1, goodBursts := 0 }
    if d.tally.state = .locked ∧ 3 ≤ d.tally.missedInRow + 1 then d1.enterHoldover else d1
  else d

/-- A rising edge on TALLY_PPS_IN: the phase is slewed to the nearest second; four edges within 1/8 tick lock an
acquiring ROOT. An edge exactly midway between two seconds is taken for the later: DESIGN CHOICE, log entry 86. -/
def Device.edgeIn (d : Device) : Device :=
  let t := d.tally
  if t.disciplined then
    let nearest := (d.now + second / 2) / second * second
    let err : Int := (65536 * nearest : Nat) - (d.fineNow : Int)
    if t.state = .locked ∧ (err < -6553600 ∨ 6553600 < err) then d.edgeMissed
    else
      let good := decide (-8192 ≤ err ∧ err ≤ 8192)
      let count := if t.state = .acquire ∧ good then t.goodBursts + 1 else 0
      let d1 := d.mapTally fun t => { t with toSlew := err, offset := -err, missedInRow := 0, goodBursts := count }
      if t.state = .free ∨ t.state = .holdover then d1.setTallyState .acquire
      else if t.state = .acquire ∧ 4 ≤ count then d1.setTallyState .locked
      else d1
  else d

/-- TALLY_PPS_OUT pulses: the device is LOCKED, in HOLDOVER or the ROOT. -/
def Tally.pulses (t : Tally) : Bool := decide (t.state = .locked ∨ t.state = .holdover ∨ t.cfg.role = .root)

/-- The Tally reaches a multiple of a second, and TALLY_PPS_OUT rises. -/
def Device.ppsRise (d : Device) : Device :=
  let d1 := d.advanceTo ((d.now + second - 1) / second * second)
  if d1.tally.pulses then d1.mapTally fun t => { t with ppsOut := true } else d1

/-- 100 ms after it rose, TALLY_PPS_OUT falls. -/
def Device.ppsFall (d : Device) : Device :=
  if d.tally.ppsOut then (d.advanceTo (d.now / second * second + second / 10)).mapTally fun t => { t with ppsOut := false }
  else d

/-! ### Status (R61) -/

/-- Children answered in the last interval, at most 255. -/
def Tally.childCount (t : Tally) : Nat :=
  Nat.min 255 (t.children.filter fun c => decide (t.now ≤ c.2 + 800 * t.cfg.intervalUs)).length

/-- CLOCK_TALLY_STATUS (R61). -/
def immTallyStatus : Immediate :=
  plainCommand .any checkNothing fun d c =>
    let t := d.tally
    let left := if t.state = .holdover then (t.holdoverEnd - t.now) / 800000 else 0
    let inUse := if t.isSource ∨ t.link = 0xFF then 0xFF else b2n t.useBackup
    d.answerOk c (leBytes 1 (tallyStateCode t.state) ++ leBytes 1 (if t.state = .free then 0xFF else t.level) ++
      leBytes 1 inUse ++ leBytes 1 t.childCount ++ leBytes 4 (unsigned 32 t.offset) ++ leBytes 4 t.delay ++ leBytes 4 left ++
      leBytes 8 t.stateSince ++ leBytes 8 t.missedBursts)

/-! ### The rows -/

/-- The command meets its mailbox and executes (R75, R83). -/
def execClockTallyStatus (c : Cmd) (s : State) : Outcome := .next (s.on (·.runRow (.immediate immTallyStatus) 0x0D21 c))

/-- The exchange interval arrives (R48). -/
def execSyncBurst (s : State) : Outcome := .next (s.on (·.syncBurst))

/-- The holdover limit passes (R55). -/
def execHoldoverLimit (s : State) : Outcome := .next (s.on (·.holdoverLimit))

/-- The primary lane clock is lost (R52). -/
def execLaneClockLoss (s : State) : Outcome := .next (s.on (·.loseLane))

/-- A rising edge on TALLY_PPS_IN (R59). -/
def execTallyPpsIn (s : State) : Outcome := .next (s.on (·.edgeIn))

/-- An expected PPS edge does not come (R53). -/
def execPpsEdgeMissed (s : State) : Outcome := .next (s.on (·.edgeMissed))

/-- The Tally reaches a second (R58). -/
def execTallyPpsOut (s : State) : Outcome := .next (s.on (·.ppsRise))

/-- TALLY_PPS_OUT falls (R58). -/
def execTallyPpsOutFall (s : State) : Outcome := .next (s.on (·.ppsFall))

end Sys2Proof.Machine
end

