-- ==== Sys2Proof/Machine/PowerCommands.lean ====
section
/-! DEFINITION. The commands on power, clocks, the trace buffer and the fault ring's contents (R431, R440, R483, R484,
R488, R489, R525). -/

namespace Sys2Proof.Machine

/-! ### Power states (R483, R484) -/

/-- Connections that keep the device out of STANDBY: all but the bound management connection. -/
def Device.otherConns (d : Device) : Bool :=
  d.net.conns.any fun e => match d.security.bound with
    | some b => decide (e.1 ≠ b.2.1)
    | none => true

/-- STANDBY is entered: contexts are written back, memory is in self-refresh, the dies are powered down. -/
def Device.enterStandby (d : Device) (wakeAt : Nat) : Device :=
  let d1 := (d.mapNet fun n => { n with conns := Table.mapAll n.conns fun _ c => { c with cached := false } }).portsDown
  (d1.mapBoot fun b => { b with wakeAt := wakeAt }).loseLane.setDevState .standby

/-- STANDBY is left: retraining begins, and STANDBY_LEFT ends it. -/
def Device.leaveStandby (d : Device) : Device :=
  if d.state = .standby then (d.mapBoot fun b => { b with wakeAt := 0 }).setDevState .leaving else d

/-- The device is in STANDBY or on its way out of it. -/
def Device.inStandby (d : Device) : Bool := decide (d.state = .standby ∨ d.state = .leaving)

/-- POWER_STATE_SET (R483). -/
def immPowerStateSet : Immediate :=
  { minLen := 16, maxLen := 16, who := .owner,
    check := fun d c =>
      let target := fieldU8 c.payload 0
      let wake := fieldU64 c.payload 8
      let isStandby := decide (target = 1)
      firstFail [require (decide (target = 1 ∨ target = 3 ∨ target = 5 ∨ target = 6)) resBadArgument 0,
        reserved c.payload 1 7, require (isStandby || decide (wake = 0)) resBadArgument 8,
        require (decide (wake = 0 ∨ (d.paths.box c.path).accepted + 40000 ≤ wake)) resLate d.now,
        require (!isStandby || d.inStandby || decide (d.state = .ready)) resBadState (d.stateDetail 0),
        require (!isStandby || d.inStandby || (!d.otherConns && decide (d.inFlightCount = 0))) resConflict],
    run := fun d c =>
      let target := fieldU8 c.payload 0
      let d1 := d.answerOk c []
      if target = 1 then if d.inStandby then d1 else d1.enterStandby (fieldU64 c.payload 8)
      else if target = 3 then d1.leaveStandby
      else d1.mapBoot fun b => { b with resetAt := some (d.now + 800000, decide (target = 6)) } }

/-- Ticks with THROTTLE_N low up to now. -/
def Device.throttleTicks (d : Device) : Nat :=
  d.power.throttleTicks + (if d.power.throttleLow then d.now - d.power.throttleSince else 0)

/-- `flags` of POWER_STATUS. -/
def Power.flags (p : Power) : Nat := b2n p.throttleLow + 2 * b2n p.thermLow + 4 * p.lastCause.toNat

/-- POWER_STATUS (R488). -/
def immPowerStatus : Immediate :=
  plainCommand .any checkNothing fun d c =>
    let w := d.power
    d.answerOk c (leBytes 1 d.stateCode ++ leBytes 1 w.flags ++ leBytes 2 w.limitW ++ leBytes 4 w.powerMw ++
      (w.groupCurrent.toList.flatMap fun x => leBytes 2 x) ++ leBytes 2 (unsigned 16 w.tjMax) ++ leBytes 1 w.tjDie ++
      zeros 5 ++ leBytes 8 d.throttleTicks ++ leBytes 8 (w.energy / 10000000) ++ leBytes 8 d.stateSince ++ leBytes 8 d.now)

/-! ### Clocks (R489) -/

/-- Blocks of a region in a power state. -/
def Device.countBlocks (d : Device) (n : Nat) (s : BlockPower) : Nat :=
  ((List.range 64).filter fun i => decide (d.blockPower (64 * n + i) = s)).length

/-- State code of a region's clock: deep sleep first, then slewing, then skipping. -/
def RegionClock.code (r : RegionClock) : Nat :=
  if r.deep then 3 else if r.runningMhz ≠ r.targetMhz then 1 else if r.skip ≠ 0 then 2 else 0

/-- A region's entry of CLOCK_STATUS. -/
def Device.clockEntry (d : Device) (n : Nat) : List Byte :=
  let r := d.clock n
  leBytes 2 r.setMhz ++ leBytes 2 (if r.deep then 0 else r.runningMhz) ++ leBytes 2 (d.floorMhz n) ++ leBytes 1 r.code ++
    leBytes 1 r.skip ++ leBytes 1 (d.countBlocks n .run) ++ leBytes 1 (d.countBlocks n .sleep) ++
    leBytes 1 (d.countBlocks n .deep) ++ leBytes 1 (b2n r.noDeep) ++ leBytes 2 r.sleepUs ++ zeros 2

/-- CLOCK_STATUS (R489). -/
def immClockStatus : Immediate :=
  plainCommand .any checkNothing fun d c =>
    let w := d.power
    d.answerOk c (leBytes 1 (b2n w.refStable + 2 * w.netrefStable.toNat) ++ leBytes 1 (b2n w.aoOnTally) ++
      leBytes 2 (unsigned 16 w.aoError) ++ zeros 4 ++ leBytes 8 w.refSince ++ leBytes 8 w.refLosses ++ leBytes 8 d.now ++
      (List.range 16).flatMap d.clockEntry)

/-! ### Trace (R524, R525) -/

/-- A trace entry's 32 bytes as a path may see it. -/
def TraceEntry.bytes (e : TraceEntry) (redact : Bool) : List Byte :=
  leBytes 8 e.stamp ++ leBytes 5 e.source ++ leBytes 1 e.kind ++ leBytes 1 (b2n redact + 2 * b2n e.afterDrop) ++ zeros 1 ++
    (if redact then zeros 16 else leBytes 4 e.object ++ leBytes 4 e.value ++ leBytes 8 e.aux)

/-- TRACE_READ (R525). -/
def immTraceRead : Immediate :=
  { minLen := 16, maxLen := 16, who := .any,
    check := fun _ c => firstFail [sizeIn 8 1 64 (fieldU16 c.payload 8), reserved c.payload 10 6],
    run := fun d c =>
      let t := d.trace
      let oldest := t.next - t.entries.length
      let from' := Nat.max (fieldU64 c.payload 0) oldest
      let n := Nat.min (fieldU16 c.payload 8) (t.next - from')
      let one := fun (i : Nat) => match t.entries[t.next - 1 - (from' + i)]? with
        | none => []
        | some e => leBytes 8 (from' + i) ++ e.bytes (d.callWorld c == .nonsecure && d.isSecure e.paddock)
      d.answerOk c (leBytes 8 t.next ++ leBytes 8 oldest ++ leBytes 8 t.dropped ++ leBytes 8 d.now ++
        (List.range n).flatMap one) }

/-! ### The fault ring and injection (R431, R440) -/

/-- A record is LASTING. -/
def isLasting (record : List Byte) : Bool := decide (fieldU8 record 14 % 4 = 2)

/-- FAULT_READ (R431). -/
def immFaultRead : Immediate :=
  { minLen := 16, maxLen := 16, who := .any,
    check := fun _ c =>
      firstFail [sizeIn 8 1 64 (fieldU16 c.payload 8), inRange 10 0 1 (fieldU8 c.payload 10), reserved c.payload 11 5],
    run := fun d c =>
      let f := d.faults
      let oldest := f.next - f.ring.length
      let from' := Nat.max (fieldU64 c.payload 0) oldest
      let numbered := (List.range (f.next - from')).filterMap fun i =>
        (f.ring[f.next - 1 - (from' + i)]?).map fun r => (from' + i, r)
      let wanted := numbered.filter fun e => decide (fieldU8 c.payload 10 = 0) || isLasting e.2
      d.answerOk c (leBytes 8 f.next ++ leBytes 8 oldest ++ leBytes 8 f.lost ++ leBytes 8 f.corrected1 ++
        leBytes 8 f.corrected2 ++ leBytes 8 d.now ++
        (wanted.take (fieldU16 c.payload 8)).flatMap fun e => leBytes 8 e.1 ++ d.recordFor (d.callWorld c) e.2) }

/-- A target names something of its kind. -/
def Device.targetNamed (d : Device) (kind target : Nat) : Bool :=
  if kind = 0 then decide (target < 2 ^ 46) && d.rangeOk target 1
  else if kind = 1 then decide (target < 2 ^ 46) && d.rangeOk target 1
  else if kind = 2 then decide (target < 24 ∨ (256 ≤ target ∧ target < 272))
  else decide (target ≤ 1)

/-- FAULT_INJECT (R440). -/
def immFaultInject : Immediate :=
  { minLen := 16, maxLen := 16, who := .owner,
    check := fun d c =>
      let p := c.payload
      let kind := fieldU8 p 0
      let pad := fieldU8 p 2
      let target := fieldU64 p 8
      firstFail [inRange 0 0 3 kind, inRange 1 0 1 (fieldU8 p 1),
        require (decide (pad = 0xFF) || (decide (pad ≤ 63) && (d.paddock pad).isSome)) resBadArgument 2, reserved p 3 5,
        require (d.targetNamed kind target) resBadArgument 8, d.worldOf (d.callWorld c) pad 2,
        require (!(d.callWorld c == .nonsecure && decide (kind ≤ 1) && d.touchesSecure target 1)) resWorldDenied 8,
        require d.faults.injection.isNone resBusy],
    run := fun d c =>
      let p := c.payload
      let arm : Injection :=
        { kind := fieldU8 p 0, persist := decide (fieldU8 p 1 = 1), paddock := fieldU8 p 2, target := fieldU64 p 8 }
      (d.mapFaults fun f => { f with injection := some arm }).answerOk c [] }

/-! ### The rows -/

/-- The command meets its mailbox and executes (R75, R83). -/
def execPowerStateSet (c : Cmd) (s : State) : Outcome := .next (s.on (·.runRow (.immediate immPowerStateSet) 0x0D00 c))

/-- The command meets its mailbox and executes (R75, R83). -/
def execPowerStatus (c : Cmd) (s : State) : Outcome := .next (s.on (·.runRow (.immediate immPowerStatus) 0x0D02 c))

/-- The command meets its mailbox and executes (R75, R83). -/
def execClockStatus (c : Cmd) (s : State) : Outcome := .next (s.on (·.runRow (.immediate immClockStatus) 0x0D11 c))

/-- The command meets its mailbox and executes (R75, R83). -/
def execTraceRead (c : Cmd) (s : State) : Outcome := .next (s.on (·.runRow (.immediate immTraceRead) 0x0F01 c))

/-- The command meets its mailbox and executes (R75, R83). -/
def execFaultRead (c : Cmd) (s : State) : Outcome := .next (s.on (·.runRow (.immediate immFaultRead) 0x0B01 c))

/-- The command meets its mailbox and executes (R75, R83). -/
def execFaultInject (c : Cmd) (s : State) : Outcome := .next (s.on (·.runRow (.immediate immFaultInject) 0x0B03 c))

end Sys2Proof.Machine
end

