-- ==== Sys2Proof/Machine/Flash.lean ====
section
/-! DEFINITION. The boot flash: slots, manifests and their checks, boot records, fuses and certificates (R445 to R456,
R460, R461). -/

namespace Sys2Proof.Machine

/-! ### Slots (R446) -/

/-- Bytes of a slot. -/
def slotSize : Nat := 0x0FF00000

/-- The bytes written to a slot. -/
def Device.slotBytes (d : Device) (slot : Nat) : Table Byte := if slot = 0 then d.security.slotA else d.security.slotB

/-- The bytes of a slot replaced. -/
def Device.setSlotBytes (d : Device) (slot : Nat) (t : Table Byte) : Device :=
  d.mapSecurity fun s => if slot = 0 then { s with slotA := t } else { s with slotB := t }

/-- One byte of a slot: 0xFF where the erase left it. -/
def Device.flashByte (d : Device) (slot off : Nat) : Byte := (Table.find (d.slotBytes slot) off).getD 0xFF

/-- Bytes of a slot. -/
def Device.flashRead (d : Device) (slot off n : Nat) : List Byte := (List.range n).map fun i => d.flashByte slot (off + i)

/-- The manifest of a slot: 3,912 bytes (R447). -/
def Device.manifest (d : Device) (slot : Nat) : List Byte := d.flashRead slot 0 3912

/-- A manifest's digest (R447). -/
def manifestDigest (m : List Byte) : List Byte := digest (m.take 2632)

/-! ### Slot checks (R448) -/

/-- A component entry of a manifest. -/
structure Component where
  /-- `kind`. -/
  kind : Nat
  /-- `offset`. -/
  off : Nat
  /-- `length`. -/
  len : Nat
  /-- `digest`. -/
  digest : List Byte
  deriving DecidableEq, Repr

/-- Component i of a manifest. -/
def componentAt (m : List Byte) (i : Nat) : Component :=
  let o := 1864 + 96 * i
  { kind := fieldU16 m o, off := fieldU32 m (o + 8), len := fieldU32 m (o + 12), digest := bytesAt m (o + 32) 64 }

/-- The components in use. -/
def manifestComponents (m : List Byte) : List Component := (List.range (fieldU8 m 13)).map (componentAt m)

/-- Fused digests of manifest-signing keys, numbered, that match a key. -/
def Device.keyIndex (d : Device) (key : List Byte) : List Nat :=
  (List.range d.security.fusedKeys.length).filter fun i => decide (d.security.fusedKeys[i]? = some (digest key))

/-- A component entry's own form: reserved bytes zero, offset and length in range; an unused one all zero. -/
def componentForm (m : List Byte) (used : Nat) (i : Nat) : Bool :=
  let o := 1864 + 96 * i
  let c := componentAt m i
  if i < used then
    allZero (bytesAt m (o + 2) 2) && allZero (bytesAt m (o + 16) 16) &&
      decide (c.off % 4096 = 0 ∧ 4096 ≤ c.off ∧ 1 ≤ c.len ∧ c.off + c.len ≤ slotSize)
  else allZero (bytesAt m o 96)

/-- Reason FORMAT does not apply. -/
def Device.manifestForm (d : Device) (m : List Byte) : Bool :=
  let used := fieldU8 m 13
  let mask := fieldU8 m 15
  decide (fieldU16 m 4 = 0x0100 ∧ fieldU16 m 6 ≤ 1 ∧ fieldU8 m 12 ≤ 64 ∧ 4 ≤ used ∧ used ≤ 5 ∧ 1 ≤ fieldU8 m 14 ∧
    fieldU8 m 14 ≤ 8 ∧ mask < 16) && allZero (bytesAt m 32 32) && allZero (bytesAt m 1857 7) &&
  ((List.range 8).all fun i => componentForm m used i) && !((d.keyIndex (bytesAt m 64 1793)).any fun i => bitOf mask i)

/-- Two components overlap. -/
def Component.meets (a b : Component) : Bool := decide (a.off < b.off + b.len ∧ b.off < a.off + a.len)

/-- Some component overlaps a later one. -/
def anyOverlap : List Component → Bool
  | [] => false
  | c :: cs => cs.any c.meets || anyOverlap cs

/-- Components of a kind. -/
def countKind (cs : List Component) (k : Nat) : Nat := (cs.filter fun c => decide (c.kind = k)).length

/-- Reason COMPONENT_SET does not apply. -/
def componentSet (cs : List Component) : Bool :=
  ([1, 2, 3, 4].all fun k => decide (countKind cs k = 1)) && decide (countKind cs 5 ≤ 1) &&
    (cs.all fun c => decide (1 ≤ c.kind ∧ c.kind ≤ 5)) && !anyOverlap cs

/-- The board configuration component of a slot, empty when it has none. -/
def Device.boardConfigOf (d : Device) (slot : Nat) (m : List Byte) : List Byte :=
  match (manifestComponents m).find? fun c => decide (c.kind = 5) with
  | none => []
  | some c => d.flashRead slot c.off c.len

/-- A board configuration keeps its own rules (R456). -/
def boardConfigOk (b : List Byte) : Bool :=
  let valid := bitOf (fieldU8 b 35) 0
  decide (b.length = 14976 ∧ fieldU32 b 0 = 0x46434244 ∧ fieldU16 b 4 = 0x0100 ∧ fieldU8 b 6 ≤ 8 ∧ fieldU8 b 7 ≤ 8 ∧
    fieldU64 b 8 < 2 ^ 48 ∧ fieldU8 b 17 ≤ 1 ∧ fieldU8 b 35 ≤ 1) && allZero (bytesAt b 18 6) && allZero (bytesAt b 41 1) &&
  allZero (bytesAt b 44 20) && ((List.range 8).all fun i => allZero (bytesAt b (576 + 1800 * i + 1793) 7)) &&
  (!valid || decide (fieldU8 b 40 ≤ 3 ∧ fieldU16 b 42 ≠ 0 ∧ fieldU32 b 28 ≤ 1048575 ∧ fieldU32 b 36 ≤ 1048575 ∧
    fieldU32 b 24 < 2 ^ 18))

/-- Reason code of a slot: the first check that fails (R448). A byte programmed twice makes its slot fail its digest
check (R454). -/
def Device.checkSlot (d : Device) (slot : Nat) : Nat :=
  let m := d.manifest slot
  let key := bytesAt m 64 1793
  let cs := manifestComponents m
  let board := d.boardConfigOf slot m
  if fieldU32 m 0 ≠ 0x4E414D45 then 1
  else if !d.manifestForm m then 2
  else if !((d.keyIndex key).any fun i => !d.security.revoked.getLsbD i) then 3
  else if !Config.falconVerifies key (m.take 2632) (bytesAt m 2632 1280) then 4
  else if !((List.range (fieldU8 m 14)).any fun i => decide (bytesAt m (16 + 2 * i) 2 = [0x41, 0x31])) then 5
  else if fieldU8 m 12 < d.security.fusedStep then 6
  else if !componentSet cs then 7
  else if (d.security.twice.any fun k => decide (k / 2 ^ 32 = slot)) ||
    cs.any (fun c => decide (digest (d.flashRead slot c.off c.len) ≠ c.digest)) then 8
  else if !(board.isEmpty || boardConfigOk board) then 9
  else 0

/-! ### Boot records (R449) -/

/-- What a boot record says. -/
structure BootRecord where
  /-- `seq`. -/
  seq : Nat := 0
  /-- `preferred`. -/
  preferred : Nat := 0
  /-- `trial`. -/
  trial : Nat := 0
  /-- `trial_left`. -/
  left : Nat := 0
  deriving DecidableEq, Repr

/-- A copy is valid. -/
def bootRecordValid (b : List Byte) : Bool :=
  decide (fieldU32 b 0 = 0x52434F42 ∧ fieldU32 b 20 = crc32c (b.take 20))

/-- A copy read. -/
def bootRecordOf (b : List Byte) : BootRecord :=
  { seq := fieldU64 b 8, preferred := fieldU8 b 16, trial := fieldU8 b 17, left := fieldU8 b 18 }

/-- The record in force, and whether it is copy 1: slot A and no trial when neither copy is valid. -/
def Device.bootRecord (d : Device) : BootRecord × Bool :=
  let a := d.security.record0
  let b := d.security.record1
  if bootRecordValid b && (!bootRecordValid a || decide (fieldU64 a 8 < fieldU64 b 8)) then (bootRecordOf b, true)
  else if bootRecordValid a then (bootRecordOf a, false)
  else ({}, true)

/-- The 32 bytes of a record. -/
def BootRecord.bytes (r : BootRecord) : List Byte :=
  let head := leBytes 4 0x52434F42 ++ zeros 4 ++ leBytes 8 r.seq ++ leBytes 1 r.preferred ++ leBytes 1 r.trial ++
    leBytes 1 r.left ++ zeros 1
  head ++ leBytes 4 (crc32c head) ++ zeros 8

/-- A record is written: it replaces the copy that is not in force, with the next `seq`. -/
def Device.writeBootRecord (d : Device) (preferred trial left : Nat) : Device :=
  let r := d.bootRecord
  let bytes := ({ seq := r.1.seq + 1, preferred := preferred, trial := trial, left := left } : BootRecord).bytes
  d.mapSecurity fun s => if r.2 then { s with record0 := bytes } else { s with record1 := bytes }

/-! ### Fuses (R452) -/

/-- Fuses are blown for the running manifest. -/
def Device.blowFuses (d : Device) : Device :=
  d.mapSecurity fun s =>
    { s with fusedStep := Nat.max s.fusedStep d.boot.rollback, revoked := s.revoked ||| d.boot.revokeMask }

/-! ### Keys and certificates (R445, R460, R461) -/

/-- Draw of the attestation key of this run of the ROM; 0 is the identity key. -/
def Device.attestationKey (d : Device) : Nat := d.security.nonceDraw + 1

/-- Public half of a device key. -/
def devicePublicKey (draw : Nat) : List Byte := (List.range 1793).map (Config.falconKeyByte draw)

/-- A signature by a device key. -/
def deviceSignature (draw : Nat) (message : List Byte) : List Byte :=
  (List.range 1280).map (Config.falconSignByte draw message)

/-- The manifest digest that reports and the attestation certificate carry: zero in SAFE. -/
def Device.reportDigest (d : Device) : List Byte := if d.state = .safe then zeros 64 else padTo 64 d.boot.fwDigest

/-- Bytes a certificate sealed at manufacture holds and the spec does not state. -/
def sealedBytes (kind off n : Nat) : List Byte := (List.range n).map fun i => Config.certByte kind (off + i)

/-- A certificate of kind 2 (intermediate), 3 (identity) or 4 (attestation). -/
def Device.certificate (d : Device) (kind : Nat) : List Byte :=
  let head := leBytes 4 0x54524543 ++ leBytes 1 kind ++ [1] ++ zeros 2 ++
    (if kind = 2 then sealedBytes 2 8 8 else leBytes 8 d.boot.serial)
  if kind = 4 then
    let body := head ++ digest (devicePublicKey 0) ++
      digest ((List.range 64).map (Config.freeByte d.security.nonceDraw) ++ d.reportDigest) ++
      devicePublicKey d.attestationKey ++ zeros 7
    body ++ deviceSignature 0 body
  else
    head ++ sealedBytes kind 16 64 ++ zeros 64 ++ (if kind = 3 then devicePublicKey 0 else sealedBytes kind 144 1793) ++
      zeros 7 ++ sealedBytes kind 1944 1280

end Sys2Proof.Machine
end

