-- ==== Sys2Proof/Machine/SecurityCommands.lean ====
section
/-! DEFINITION. The commands on attestation, worlds and firmware (R444, R453 to R455, R463, R464). -/

namespace Sys2Proof.Machine

/-! ### Attestation (R463, R464) -/

/-- The 16 bytes of the world settings in force. -/
def Device.worldBytes (d : Device) : List Byte :=
  leBytes 8 d.security.harts.toNat ++ leBytes 1 d.security.pairs.toNat ++ leBytes 1 (b2n d.security.fabric) ++ zeros 6

/-- A paddock's entry in a report. -/
def Device.attestEntry (d : Device) (p : Nat) (x : Paddock) : List Byte :=
  let ims := d.imagesOf p
  leBytes 1 p ++ leBytes 1 (paddockStateCode x.state) ++ leBytes 1 (b2n (x.world == .secure)) ++ leBytes 1 ims.length ++
    zeros 12 ++ padTo 256 (ims.flatMap fun e => padTo 64 (bytesAt e.2.bytes 32 64))

/-- Paddocks a report names. -/
def Device.attested (d : Device) (c : Call) : List (Nat × Paddock) :=
  let n := fieldU8 c.payload 64
  d.paddocks.filter fun e =>
    decide (n = e.1) || (decide (n = 0xFE) && (d.callWorld c == .secure || e.2.world == .nonsecure))

/-- The signed part of a report. -/
def Device.reportBytes (d : Device) (c : Call) : List Byte :=
  let isSafe := decide (d.state = .safe)
  let flags := b2n isSafe + 2 * b2n d.debugWorks + 4 * b2n d.security.onTrial + 8 * b2n (d.callWorld c == .secure)
  let entries := d.attested c
  leBytes 4 0x54505241 ++ leBytes 2 0x0100 ++ leBytes 2 flags ++ leBytes 8 d.boot.serial ++ leBytes 4 d.idWord ++
    leBytes 1 (if isSafe then 0xFF else d.boot.fwSlot) ++ leBytes 1 d.security.fusedStep ++ [0x41, 0x31] ++
    leBytes 8 d.now ++ leBytes 8 d.security.setsApplied ++ d.worldBytes ++ zeros 8 ++ padTo 64 (bytesAt c.payload 0 64) ++
    d.bootNonce ++ d.reportDigest ++ (if isSafe then zeros 64 else padTo 64 d.security.fwMeasure) ++
    padTo 64 d.security.cfgMeasure ++ leBytes 2 entries.length ++ zeros 6 ++ entries.flatMap fun e => d.attestEntry e.1 e.2

/-- ATTEST_REPORT (R463). -/
def immAttestReport : Immediate :=
  { minLen := 72, maxLen := 72, who := .any,
    check := fun d c =>
      let n := fieldU8 c.payload 64
      firstFail [require (decide (n ≤ 63 ∨ n = 0xFE ∨ n = 0xFF)) resBadArgument 64,
        require (decide (63 < n) || (d.paddock n).isSome) resBadArgument 64, reserved c.payload 65 7,
        d.worldOf (d.callWorld c) n 64],
    run := fun d c =>
      let report := d.reportBytes c
      d.answerOk c (report ++ deviceSignature d.attestationKey report) }

/-- ATTEST_CERTS (R464). -/
def immAttestCerts : Immediate :=
  { minLen := 8, maxLen := 8, who := .any,
    check := fun _ c => firstFail [flagsIn c.payload 0 7, reserved c.payload 1 7],
    run := fun d c =>
      d.answerOk c ([2, 3, 4].flatMap fun k => if bitOf (fieldU8 c.payload 0) (k - 2) then d.certificate k else []) }

/-- WORLD_STATUS (R444). -/
def immWorldStatus : Immediate :=
  plainCommand .any checkNothing fun d c =>
    d.answerOk c (d.worldBytes ++ leBytes 1 d.security.origin ++ zeros 7 ++ leBytes 8 d.security.since)

/-! ### Firmware (R453 to R455) -/

/-- State code of a slot. -/
def Device.slotCode (d : Device) (slot : Nat) : Nat := (d.security.slotState[slot]?).getD 0

/-- A slot's entry of FW_INFO: a running slot's manifest is the one that runs. -/
def Device.slotEntry (d : Device) (slot : Nat) : List Byte :=
  let m := d.manifest slot
  let code := d.slotCode slot
  let isRunning := decide (code = 3)
  leBytes 1 code ++ leBytes 1 ((d.security.slotReason[slot]?).getD 0) ++ zeros 2 ++
    leBytes 4 (if code = 0 then 0 else if isRunning then d.boot.fwVersion else fieldU32 m 8) ++
    leBytes 1 (if isRunning then d.boot.rollback else fieldU8 m 12) ++ zeros 7 ++
    leBytes 8 ((d.security.slotChecked[slot]?).getD 0) ++
    (if isRunning then padTo 64 d.boot.fwDigest else manifestDigest m) ++ zeros 8

/-- FW_INFO (R453). -/
def immFwInfo : Immediate :=
  plainCommand .any checkNothing fun d c =>
    let r := d.bootRecord.1
    d.answerOk c (leBytes 1 (if d.state = .safe then 0xFF else d.boot.fwSlot) ++ leBytes 1 d.boot.bootSel.toNat ++
      leBytes 1 r.preferred ++ leBytes 1 r.trial ++ leBytes 1 r.left ++ leBytes 1 d.security.fusedStep ++
      leBytes 1 d.security.revoked.toNat ++ zeros 9 ++ d.slotEntry 0 ++ d.slotEntry 1)

/-- A slot's state, reason and time of check set. -/
def Device.setSlotState (d : Device) (slot state reason checked : Nat) : Device :=
  d.mapSecurity fun s =>
    { s with slotState := s.slotState.setIfInBounds slot state, slotReason := s.slotReason.setIfInBounds slot reason,
             slotChecked := s.slotChecked.setIfInBounds slot checked }

/-- Bytes programmed into a slot: one written before in its sector's erase becomes undefined (R454). -/
def Device.program (d : Device) (slot : Nat) : Nat → List Byte → Device
  | _, [] => d
  | off, b :: bs =>
    let t := d.slotBytes slot
    match Table.find t off with
    | none => (d.setSlotBytes slot (Table.put t off b)).program slot (off + 1) bs
    | some _ =>
      let d1 := d.setSlotBytes slot (Table.put t off (Config.freeByte d.draws off))
      ({ d1 with draws := d1.draws + 1, security := { d1.security with twice := d1.security.twice ++ [2 ^ 32 * slot + off] } }
        ).program slot (off + 1) bs

/-- A sector of a slot erased. -/
def Device.eraseSector (d : Device) (slot off : Nat) : Device :=
  let keep := (d.slotBytes slot).filter fun e => decide (e.1 < off ∨ off + 65536 ≤ e.1)
  (d.setSlotBytes slot keep).mapSecurity fun s =>
    { s with twice := s.twice.filter fun k => decide (k < 2 ^ 32 * slot + off ∨ 2 ^ 32 * slot + off + 65536 ≤ k) }

/-- A write to a slot (R454). -/
def Device.writeSlot (d : Device) (slot off : Nat) (bs : List Byte) : Device :=
  let d1 := if d.bootRecord.1.preferred = slot ∧ d.state ≠ .safe then d.writeBootRecord d.boot.fwSlot 0 0 else d
  let d2 := if off % 65536 = 0 then d1.eraseSector slot off else d1
  (d2.program slot off bs).setSlotState slot 0 0 ((d.security.slotChecked[slot]?).getD 0)

/-- FW_WRITE (R454). -/
def immFwWrite : Immediate :=
  { minLen := 9, maxLen := 65544, who := .owner,
    check := fun d c =>
      let p := c.payload
      let off := fieldU32 p 4
      let n := p.length - 8
      firstFail [require (decide (off % 65536 + n ≤ 65536 ∧ off + n ≤ slotSize)) resBadLength (headerField 8),
        inRange 0 0 1 (fieldU8 p 0), reserved p 1 3, require (decide (off % 8 = 0)) resBadArgument 4,
        require (decide (d.slotCode (fieldU8 p 0) ≠ 3)) resBusy],
    run := fun d c => (d.writeSlot (fieldU8 c.payload 0) (fieldU32 c.payload 4) (c.payload.drop 8)).answerOk c [] }

/-- A slot is put on trial after its check (R455). -/
def Device.trySlot (d : Device) (c : Call) (slot trials : Nat) : Device :=
  let reason := d.checkSlot slot
  let d1 := d.setSlotState slot (if reason = 0 then 1 else 2) reason d.now
  if reason = 0 then (d1.writeBootRecord slot 1 trials).answerOk c []
  else d1.respond c.path
    { result := if reason = 3 ∨ reason = 4 ∨ reason = 8 then resAuthFailed else resVersion, detail := reason }

/-- FW_ACTIVATE (R455). -/
def immFwActivate : Immediate :=
  { minLen := 8, maxLen := 8, who := .owner,
    check := fun d c =>
      let p := c.payload
      let code := d.slotCode (fieldU8 p 0)
      firstFail [inRange 0 0 1 (fieldU8 p 0), inRange 1 0 1 (fieldU8 p 1), inRange 2 0 15 (fieldU8 p 2), reserved p 3 5,
        require (decide (code = 3) == decide (fieldU8 p 1 = 1)) resBadState (d.stateDetail code)],
    run := fun d c =>
      let slot := fieldU8 c.payload 0
      if fieldU8 c.payload 1 = 1 then
        let d1 := (d.writeBootRecord slot 0 0).blowFuses
        (d1.mapSecurity fun s => { s with onTrial := false }).answerOk c []
      else d.trySlot c slot (if fieldU8 c.payload 2 = 0 then 3 else fieldU8 c.payload 2) }

/-! ### The rows -/

/-- The command meets its mailbox and executes (R75, R83). -/
def execAttestReport (c : Cmd) (s : State) : Outcome := .next (s.on (·.runRow (.immediate immAttestReport) 0x0C00 c))

/-- The command meets its mailbox and executes (R75, R83). -/
def execAttestCerts (c : Cmd) (s : State) : Outcome := .next (s.on (·.runRow (.immediate immAttestCerts) 0x0C01 c))

/-- The command meets its mailbox and executes (R75, R83). -/
def execWorldStatus (c : Cmd) (s : State) : Outcome := .next (s.on (·.runRow (.immediate immWorldStatus) 0x0C11 c))

/-- The command meets its mailbox and executes (R75, R83). -/
def execFwInfo (c : Cmd) (s : State) : Outcome := .next (s.on (·.runRow (.immediate immFwInfo) 0x0E00 c))

/-- The command meets its mailbox and executes (R75, R83). -/
def execFwWrite (c : Cmd) (s : State) : Outcome := .next (s.on (·.runRow (.immediate immFwWrite) 0x0E01 c))

/-- The command meets its mailbox and executes (R75, R83). -/
def execFwActivate (c : Cmd) (s : State) : Outcome := .next (s.on (·.runRow (.immediate immFwActivate) 0x0E02 c))

end Sys2Proof.Machine
end

