-- ==== Sys2Proof/Machine/Kinds.lean ====
section
/-! DEFINITION. The command index: what each opcode of a mailbox command is (R83, R106). -/

namespace Sys2Proof.Machine

/-- The immediate command of an opcode, none for a staged or unknown one. -/
def immediateOf : Nat → Option Immediate
  | 0x0000 => some immIdentify
  | 0x0001 => some immMbxNext
  | 0x0010 => some immOwnClaim
  | 0x0011 => some immOwnRenew
  | 0x0012 => some immOwnRelease
  | 0x0013 => some immOwnHandover
  | 0x0014 => some immOwnAccept
  | 0x0015 => some immOwnStatus
  | 0x0100 => some immStageOpen
  | 0x0101 => some immStageCheck
  | 0x0102 => some immStageCommit
  | 0x0103 => some immStageAbort
  | 0x0104 => some immStageStatus
  | 0x0204 => some immPaddockPreempt
  | 0x0205 => some immPaddockResume
  | 0x0206 => some immPaddockStatus
  | 0x0300 => some immImageRegister
  | 0x0301 => some immImageInfo
  | 0x0302 => some immImageRetire
  | 0x0403 => some immFoldStatus
  | 0x0404 => some immFoldMeter
  | 0x0502 => some immQueueStatus
  | 0x0512 => some immConnStatus
  | 0x0522 => some immExposeStatus
  | 0x0531 => some immPortStatus
  | 0x0605 => some immTrafficStatus
  | 0x0701 => some immDroveStatus
  | 0x0711 => some immPrefixStatus
  | 0x0800 => some immCodebookLoad
  | 0x0801 => some immCodebookBuild
  | 0x0802 => some immCodebookStatus
  | 0x0901 => some immMaskLoad
  | 0x0902 => some immMaskRetire
  | 0x0903 => some immServeStatus
  | 0x0A00 => some immBellRead
  | 0x0A01 => some immHurdleRead
  | 0x0B01 => some immFaultRead
  | 0x0B02 => some immFaultClear
  | 0x0B03 => some immFaultInject
  | 0x0C00 => some immAttestReport
  | 0x0C01 => some immAttestCerts
  | 0x0C11 => some immWorldStatus
  | 0x0D00 => some immPowerStateSet
  | 0x0D02 => some immPowerStatus
  | 0x0D11 => some immClockStatus
  | 0x0D21 => some immTallyStatus
  | 0x0E00 => some immFwInfo
  | 0x0E01 => some immFwWrite
  | 0x0E02 => some immFwActivate
  | 0x0F01 => some immTraceRead
  | _ => none

/-- What an opcode names in the command index; none for an unknown command. -/
def kindOf (opcode : Nat) : Option Kind :=
  match immediateOf opcode with
  | some m => some (.immediate m)
  | none => if opcode = gpioOpcode then none else (stagedOf opcode).map .staged

/-- A command whose opcode is taken from its own header is executed; one that R106 does not list is answered
UNKNOWN_COMMAND, after step 1 of R83. -/
def Device.executeStored (d : Device) (path : Path) : Device :=
  let opcode := fieldU16 (padTo 32 (d.paths.box path).cmd) 0
  match kindOf opcode with
  | some k => d.execute k opcode path
  | none =>
    let header := padTo 32 ((d.paths.box path).cmd.take 32)
    let kept := d.paths.kept (pathMaster path)
    match d.keptFor (pathMaster path) header with
    | some k => d.deliver path k.response k.rest
    | none =>
      if kept.any fun x => decide (fieldU32 x.header 4 = fieldU32 header 4) then
        d.deliver path (responseBytes header { result := resBadArgument, detail := headerField 4 } [] 0 d.now) []
      else d.respond path ((d.stateStep (.immediate immIdentify) opcode).getD { result := resUnknown })

end Sys2Proof.Machine
end

