-- ==== Sys2Proof/Machine/Remote.lean ====
section
/-! DEFINITION. How remote accesses of threads end, how packets of a connection end at their sender, and a connection's
way into ERROR (R151, R314, R321, R324, R340, R344, R345). -/

namespace Sys2Proof.Machine

/-! ### Threads that resume -/

/-- A paddock's threads are being stopped for an IMMEDIATE preemption (R384). -/
def Paddock.stoppingNow (x : Paddock) : Bool :=
  decide (x.state = .stopping) && (match x.preempt with
    | some q => decide (q.mode = .immediate)
    | none => false)

/-- A thread that goes on; in a block whose paddock is being stopped it stops at this boundary (R157). -/
def Device.resumeThread (d : Device) (b t : Nat) (f : Thread → Thread) : Device :=
  let stops := match d.occupant b with
    | some (_, x) => x.stoppingNow
    | none => false
  d.updThread b t fun x => if stops then (f x).stop else f x

/-! ### Remote accesses (R338 to R345) -/

/-- How a remote access ends. -/
inductive RemoteEnd where
  /-- Answered or acknowledged, with the data or old value an answer carries. -/
  | answered (data : List Byte)
  /-- Refused, locally or finally (R344). -/
  | refused (code : Nat)
  /-- Its connection went to ERROR first (R344). -/
  | lost
  /-- Its bound has expired (R345). -/
  | timedOut
  deriving DecidableEq, Repr

/-- The value of a load or atomic that was not answered. -/
def allOnes : Word := 0xFFFFFFFFFFFFFFFF

/-- A remote access by its identifier. -/
def Device.remoteAccess (d : Device) (id : Nat) : Option RemoteAccess := d.fabric.remote.find? fun a => decide (a.id = id)

/-- Remote accesses changed. -/
def Device.mapRemote (d : Device) (f : List RemoteAccess → List RemoteAccess) : Device :=
  d.mapFabric fun x => { x with remote := f x.remote }

/-- A remote access is no longer outstanding. -/
def Device.dropRemote (d : Device) (id : Nat) : Device := d.mapRemote fun l => l.filter fun a => decide (a.id ≠ id)

/-- The record of an access that was not answered (R344). -/
def RemoteAccess.report (a : RemoteAccess) (device : Device) : RemoteEnd → Option Report
  | .answered _ => none
  | .refused code =>
    some { source := device.src (srcThread a.block a.thread), paddock := a.paddock, cls := 3, level := 4, code := 0x40,
           sub := code, aux := a.ctx, addr := a.address }
  | .lost =>
    some { source := device.src (srcThread a.block a.thread), paddock := a.paddock, cls := 3, level := 4, code := 0x40,
           sub := 0x20, aux := a.ctx, addr := a.address }
  | .timedOut =>
    some { source := device.src (srcThread a.block a.thread), paddock := a.paddock, cls := 3, level := 4, code := 0x41,
           aux := a.ctx, addr := a.address }

/-- The value a load or atomic gives its register (R344). -/
def RemoteEnd.value : RemoteEnd → Word
  | .answered data => BitVec.ofNat 64 (leValue (data.take 8))
  | _ => allOnes

/-- A thread that waits for this access goes on with its value in a register. -/
def Thread.remoteDone (t : Thread) (id dest : Nat) (v : Word) : Thread :=
  if t.waits = .remote id ∧ t.state = .waiting then { t.setS dest v with state := .ready, waits := .nothing } else t

/-- A thread that waits only for its request to leave goes on (R150). -/
def Thread.requestLeft (t : Thread) (id : Nat) : Thread :=
  if t.waits = .remote id ∧ t.state = .waiting then { t with state := .ready, waits := .nothing } else t

/-- The paddock of an access still holds the block that issued it. -/
def Device.holdsBlock (d : Device) (p b : Nat) : Bool :=
  match d.paddock p with
  | some x => x.holds && x.names b
  | none => false

/-- The request of an access has left the mesh, or never will: only a load or atomic keeps its thread waiting (R150). -/
def Device.requestLeft (d : Device) (a : RemoteAccess) : Device :=
  let d1 := d.mapRemote fun l => l.map fun x => if x.id = a.id then { x with left := true } else x
  if a.op = .load ∨ a.op = .atomic ∨ d1.holdsBlock a.paddock a.block = false then d1
  else d1.resumeThread a.block a.thread fun t => t.requestLeft a.id

/-- The bell of a transfer rings for its block. -/
def Device.ringOwn (d : Device) (a : RemoteAccess) : Device :=
  match a.bell with
  | none => d
  | some k => d.perform [.ring a.paddock (64 * a.block + k) 1 (d.src (srcThread a.block a.thread))]

/-- A range of a block's buffer that is left undefined holds free values (log entry 6). -/
def Device.undefineBuffer (d : Device) (a n : Nat) : Device :=
  let bytes := (List.range n).map fun i => Config.freeByte d.draws i
  { (d.store a bytes) with draws := d.draws + 1 }

/-- What the end of an access does to its thread, its buffer and its bell. -/
def Device.remoteEffect (d : Device) (a : RemoteAccess) (e : RemoteEnd) : Device :=
  let held := d.holdsBlock a.paddock a.block
  match a.op, e with
  | .load, _ => if held then d.resumeThread a.block a.thread fun t => t.remoteDone a.id a.dest e.value else d
  | .atomic, _ => if held then d.resumeThread a.block a.thread fun t => t.remoteDone a.id a.dest e.value else d
  | .get, .answered data =>
    if held then
      let d1 := d.store (bufferAddr a.block a.buffer) (data.take a.len)
      (match a.bell with
        | none => d1
        | some k => d1.signals a.paddock (64 * a.block + k) (bufferAddr a.block a.buffer) a.len).ringOwn a
    else d.ringOwn a
  | .get, .timedOut => if held then d.undefineBuffer (bufferAddr a.block a.buffer) a.len else d
  | .get, .lost => if held then d.undefineBuffer (bufferAddr a.block a.buffer) a.len else d
  | .put, .answered _ => d.ringOwn a
  | _, _ => d

/-- An access ends: its outcome, its record, and, unless it is an atomic that its bound ended while its connection keeps asking
(R346), no longer outstanding; a thread that waits for its request to leave waits no more, and one HELD by the limit on
accesses may go on. -/
def Device.endRemote (d : Device) (id : Nat) (e : RemoteEnd) : Device :=
  match d.remoteAccess id with
  | none => d
  | some a =>
    if a.expired then d.dropRemote id else
      let d0 := if a.left then d else d.requestLeft a
      let d1 := if a.op = .atomic ∧ e = .timedOut ∧ a.conn < 0x100000 ∧ a.left then
          d0.mapRemote fun l => l.map fun x => if x.id = id then { x with expired := true } else x
        else d0.dropRemote id
      let d2 := match a.report d e with
        | some r => d1.record r
        | none => d1
      ((d2.remoteEffect a e).unhold a.block).stir a.block

/-- An answer of a remote access enters through the IN window from its die to its block; one that comes too late changes
nothing (R339, R345). -/
def Device.remoteResult (d : Device) (id : Nat) (data : List Byte) (arrived : Nat) : Device :=
  match d.remoteAccess id with
  | none => d
  | some a =>
    if a.expired then d.dropRemote id
    else if a.bound < arrived then d.endRemote id .timedOut
    else
      (d.mapRemote fun l => l.map fun x => if x.id = id then { x with inTime := true } else x).sendThrough a.paddock 0
        a.asked.home 16 { size := data.length, cls := (if a.asked.cls = 0xFF then 1 else a.asked.cls % 16), link := none,
                          address := bellAddress (64 * a.block), data := data, kind := .result id }
        fun d => d.endRemote id (.refused 1)

/-! ### Packets at their sender (R321, R324, R329) -/

/-- A descriptor in flight. -/
def Device.inFlightAt (d : Device) (ring index : Nat) : Option InFlight :=
  (d.ring ring).bind fun r => r.inFlight.find? fun i => decide (i.index = index)

/-- A descriptor in flight changed. -/
def Device.updInFlight (d : Device) (ring index : Nat) (f : InFlight → InFlight) : Device :=
  d.updRing ring fun r => { r with inFlight := r.inFlight.map fun i => if i.index = index then f i else i }

/-- `detail` of a transport descriptor: the bytes transferred for WRITE and READ, 0 for SEND (R329). -/
def movedDetail (bytes : List Byte) (moved : Nat) : Nat := if fieldU8 bytes 0 = 1 ∨ fieldU8 bytes 0 = 2 then moved else 0

/-- Part of a descriptor is done, with the bytes it moved, or refused; with nothing left it completes, with the first refusal
it met. -/
def Device.partDone (d : Device) (ring index n bytes code : Nat) : Device :=
  match d.inFlightAt ring index with
  | none => d
  | some i =>
    let refusal := if i.refusal = 0 then code else i.refusal
    let detail := movedDetail i.bytes (i.moved + bytes)
    if i.left ≤ n then
      if refusal = 0 then d.perform [.done ring index resOk 0 detail]
      else d.perform [.done ring index resConflict refusal detail]
    else d.updInFlight ring index fun i => { i with left := i.left - n, refusal := refusal, moved := i.moved + bytes }

/-- A descriptor ends at once with what it has moved so far. -/
def Device.descEnds (d : Device) (ring index result code : Nat) : Device :=
  match d.inFlightAt ring index with
  | none => d
  | some i => d.perform [.done ring index result code (movedDetail i.bytes i.moved)]

/-- A packet that needs no answer is acknowledged. -/
def Device.packetDone (d : Device) (t : TxPacket) : Device :=
  match t.origin with
  | .descriptor ring index => d.partDone ring index 1 t.payload.length 0
  | .remote id => d.endRemote id (.answered [])
  | _ => d

/-- An indirect payload of a FABRIC command could not be read: the command ends FAULTED (R82, R423). -/
def Device.indirectFails (d : Device) (entry : Nat) : Device :=
  let path := pathOf .fabric entry
  match (d.paths.box path).fetch with
  | none => d
  | some _ => d.respond path { result := resFaulted, detail := d.src srcFirmware }

/-- A packet met a final refusal. -/
def Device.packetRefused (d : Device) (conn : Nat) (t : TxPacket) (code : Nat) : Device :=
  match t.origin with
  | .descriptor ring index =>
    if t.wantsAnswer then d.descEnds ring index resConflict code else d.partDone ring index 1 0 code
  | .remote id => d.endRemote id (.refused code)
  | .drove record epoch => d.pageRefused conn record epoch
  | .indirect entry => d.indirectFails entry
  | .plain => d

/-- A packet was lost with its connection (R314, R344). -/
def Device.packetLost (d : Device) (t : TxPacket) : Device :=
  match t.origin with
  | .descriptor ring index => d.descEnds ring index resTimedOut 0x20
  | .remote id => d.endRemote id .lost
  | .indirect entry => d.indirectFails entry
  | _ => d

/-! ### ERROR (R314) -/

/-- An exposure that drains with no accepted access left is FREE (R331). -/
def Device.freeIfDrained (d : Device) (i : Nat) : Device :=
  match d.exposure i with
  | none => d
  | some e =>
    if e.state = .draining ∧ e.inUse = 0 then
      (d.updExposure i fun e => { e with state := .free, freeAt := d.now }).record
        { source := d.src (srcNet 0 0), paddock := e.paddock, code := 0x8006, aux := e.key }
    else d

/-- An accepted access to an exposure has been placed or answered. -/
def Device.accessDone (d : Device) (i : Nat) : Device :=
  (d.updExposure i fun e => { e with inUse := e.inUse - 1 }).freeIfDrained i

/-- A connection is lost: what is in flight on it ends with CONN_LOST, held requests of the peer are dropped, and it goes to
ERROR; a CLOSING one, with nothing in flight now, to IDLE (R314). -/
def Device.connError (d : Device) (id : Nat) : Device :=
  match d.conn id with
  | none => d
  | some c =>
    if c.state = .error then d else
      let onWay := fun (x : WinDelivery) => match x.kind with
        | .post k o => if k = id then some (o.packet 0 0) else none
        | _ => none
      let waiting := d.net.windows.flatMap fun e => (e.2.queue ++ e.2.fifo).filterMap onWay
      let stays := fun (x : WinDelivery) => (onWay x).isNone
      let d0 := d.mapNet fun n =>
        { n with windows := Table.mapAll n.windows fun _ q => { q with queue := q.queue.filter stays, fifo := q.fifo.filter stays } }
      let d1 := d0.updConn id fun c =>
        { c with state := if c.state = .closing then .closing else .error, tx := [], held := [], unacked := 0, unackedSince := none }
      let d2 := if c.state = .closing then d1 else d1.connEvent id c 3
      let d3 := d2.mapNet fun n => { n with stranded := n.stranded.filter fun s => decide (s.1 ≠ id) }
      let d4 := c.held.foldl (fun d h => d.accessDone (fieldBe h.frame.ext 8 4 % 0x100000)) d3
      let d5 := (c.tx ++ waiting).foldl Device.packetLost d4
      (d5.drovesLost id c.paddock).pumpAll.closeIfDrained id

end Sys2Proof.Machine
end

