-- ==== Sys2Proof/Machine/Acks.lean ====
section
/-! DEFINITION. What a connection's sender does with the acknowledgements, refusals and answers it receives, and the ACKs
and NAKs its receiver sends (R312, R321 to R325). -/

namespace Sys2Proof.Machine

/-! ### ACKs and NAKs to send -/

/-- The 256 bits of `sack`: bit j set when PSN `ack_psn` + 1 + j has been received. -/
def Conn.sackBytes (c : Conn) : List Byte :=
  (List.range 32).map fun i =>
    BitVec.ofNat 8 (((List.range 8).map fun j => if c.rxSeen.contains (c.rxNext + 8 * i + j) then 2 ^ j else 0).sum)

/-- An ACK of a connection is sent, in the class of the packet that caused it, with that packet's send stamp and its one-way
delay. -/
def Device.sendAck (d : Device) (id cls stamp : Nat) (owd : Int) : Device :=
  match d.conn id with
  | none => d
  | some c =>
    let ext := c.sackBytes ++ beBytes 8 stamp ++ beBytes 4 (unsigned 32 owd) ++
      beBytes 1 (Nat.min c.ceCount 255) ++ zeros 3
    (d.updConn id fun c => { c with unacked := 0, unackedSince := none, ceCount := 0 }).sendOn id 0x10 cls 0 ext [] 0x20

/-- A refusal is sent for a PSN of a connection. -/
def Device.sendNak (d : Device) (id cls psn code : Nat) : Device :=
  (d.countConn id 5).sendOn id 0x11 cls psn (beBytes 4 psn ++ beBytes 1 code ++ zeros 11) []

/-- A packet that no connection takes is refused NO_CONN: to the frame's sender, under the frame's generation; with no
context here the peer's connection number is a free value (log entry 21). -/
def Device.refuseNoConn (d : Device) (link : Nat) (f : Frame) : Device :=
  let draw := d.draw
  let peerConn := match d.conn (f.conn.toNat) with
    | some c => c.peerConn
    | none => draw.1.toNat % 0x100000
  let nak : Frame :=
    { dst := f.src, src := BitVec.ofNat 32 (d.deviceId.getD 0), conn := BitVec.ofNat 32 peerConn, gen := f.gen, psn := f.psn,
      fold := f.fold, cls := f.cls, ext := beBytes 4 f.psn.toNat ++ beBytes 1 0x0A ++ zeros 11 }
  match d.sprayLink (d.upLinks (link / 16) 0xFFFF) (f.cls.toNat % 16) with
  | some l => draw.2.enqueue l { opcode := 0x11, frame := nak } none none
  | none => draw.2

/-! ### Congestion control (R325) -/

/-- One-way delay figures of the epoch a stamp lies in. -/
def Conn.noteOwd (c : Conn) (now : Nat) (owd : Int) : Conn :=
  let e := now / 8000000
  let least := fun (x : Option Int) => match x with
    | some v => some (min v owd)
    | none => some owd
  if e = c.owdEpoch then { c with owdNow := least c.owdNow }
  else if e = c.owdEpoch + 1 then { c with owdEpoch := e, owdPrev := c.owdNow, owdNow := some owd }
  else { c with owdEpoch := e, owdPrev := none, owdNow := some owd }

/-- The congestion window after an ACK that reports a delay and CE marks for `acked` bytes. -/
def Conn.congest (c : Conn) (now : Nat) (owd : Int) (ce acked : Nat) : Conn :=
  let c := c.noteOwd now owd
  let q := (owd - c.baseOwd.getD owd).toNat
  let t := c.ccTarget
  let clamp := fun (w : Nat) => max 8192 (Nat.min c.cwndMax w)
  if q < t ∧ ce = 0 then { c with cwnd := clamp (c.cwnd + 8192 * acked / max c.cwnd 1) }
  else if c.lastCut + c.srtt ≤ now then
    let cut := if t ≤ q then c.cwnd * (q - t) / (2 * max q 1) else c.cwnd / 8
    { c with cwnd := clamp (c.cwnd - cut), lastCut := now }
  else { c with cwnd := clamp c.cwnd }

/-- srtt and rttvar after a sample, by the gains of 1/8 and 1/4 (R321); the first sample sets them. -/
def Conn.sampleRtt (c : Conn) (s : Nat) : Conn :=
  if c.srtt = 0 then { c with srtt := s, rttvar := s / 2 }
  else
    let dev := if c.srtt ≤ s then s - c.srtt else c.srtt - s
    { c with srtt := (7 * c.srtt + s) / 8, rttvar := (3 * c.rttvar + dev) / 4 }

/-! ### Acknowledgement (R321) -/

/-- What an ACK, or a packet with ACK_VALID, says has been received: every PSN below `upTo`, and those listed. -/
structure AckReport where
  /-- PSNs below this are placed or refused at the peer. -/
  upTo : Nat
  /-- Further PSNs received. -/
  seen : List Nat := []
  deriving DecidableEq, Repr

/-- The report of an acknowledgement field and a `sack`; a point outside the stream says nothing. -/
def Conn.ackReport (c : Conn) (ackPsn : Nat) (sack : List Byte) : AckReport :=
  let upTo := wirePsn c.ackedTo ((ackPsn + 1) % 2 ^ 32)
  if c.ackedTo ≤ upTo ∧ upTo ≤ c.nextPsn then
    { upTo := upTo, seen := ((List.range 256).filter fun j => bitOf (fieldU8 sack (j / 8)) (j % 8)).map (upTo + ·) }
  else { upTo := c.ackedTo }

/-- A report covers a PSN. -/
def AckReport.covers (r : AckReport) (psn : Nat) : Bool := decide (psn < r.upTo) || r.seen.contains psn

/-- Payload bytes a report acknowledges for the first time. -/
def Conn.newlyAcked (c : Conn) (r : AckReport) : Nat :=
  ((c.tx.filter fun t => !t.acked && r.covers t.psn).map (·.payload.length)).sum

/-- Missing PSNs that a report shows to be lost: a later PSN that it reports was sent `reorder_ticks` after them. -/
def Conn.lostBy (c : Conn) (r : AckReport) : List Nat :=
  let later := fun (t : TxPacket) (s : Nat) => c.tx.any fun u =>
    decide (t.psn < u.psn) && r.seen.contains u.psn && (match u.sentAt with
      | some v => decide (s + c.reorder ≤ v)
      | none => false)
  (c.tx.filter fun t => !t.acked && !r.covers t.psn && t.released && (match t.sentAt with
    | some s => later t s
    | none => false)).map (·.psn)

/-- The stream after a report: packets marked, progress noted. -/
def Conn.applyReport (c : Conn) (r : AckReport) (now : Nat) : Conn :=
  let progress := decide (c.ackedTo < r.upTo)
  let keep := fun (t : TxPacket) => t.wantsAnswer || decide (r.upTo ≤ t.psn)
  { c with ackedTo := r.upTo, progressAt := if progress then now else c.progressAt,
           backoff := if progress then 0 else c.backoff,
           tx := (c.tx.map fun t => if r.covers t.psn then { t with acked := true } else t).filter keep }

/-- A PSN that is to be sent again waits for its next copy. -/
def Device.repair (d : Device) (id psn : Nat) : Device :=
  (d.updConn id fun c =>
    { c with tx := c.tx.map fun t => if t.psn = psn then { t with sentAt := none } else t }).resend id psn

/-- A stream whose packets have changed goes on: it sends what it now may, flags held for it leave, a CLOSING connection may
be done. -/
def Device.streamMoved (d : Device) (id : Nat) (ended : Bool) : Device :=
  let d1 := d.pump id
  (if ended then d1.pumpAll else d1).closeIfDrained id

/-- An acknowledgement is applied: completions of what it covers, and fast repair. -/
def Device.applyAck (d : Device) (id : Nat) (r : AckReport) : Device :=
  match d.conn id with
  | none => d
  | some c =>
    let done := c.tx.filter fun t => !t.wantsAnswer && decide (t.psn < r.upTo)
    let lost := c.lostBy r
    let d1 := d.updConn id fun c => c.applyReport r d.now
    let d2 := done.foldl (fun d t => d.packetDone t) d1
    let d3 := lost.foldl (fun d psn => d.repair id psn) d2
    d3.streamMoved id !done.isEmpty

/-- `resp_psn` of any frame of a connection, and the piggybacked acknowledgement of any but an ACK or a NAK, which bring their own
(R311, R321, R323). -/
def Device.takeHeader (d : Device) (id opcode : Nat) (f : Frame) : Device :=
  match d.conn id with
  | none => d
  | some c =>
    let point := wirePsn c.peerResp f.respPsn.toNat
    let d1 := if c.peerResp ≤ point ∧ point ≤ c.rxNext + 256 then
        d.updConn id fun c => { c with peerResp := point, atomics := c.atomics.filter fun a => decide (point ≤ a.1) }
      else d
    if f.flags.getLsbD 5 ∧ opcode ≠ 0x10 ∧ opcode ≠ 0x11 then d1.applyAck id (c.ackReport f.ackPsn.toNat []) else d1

/-- An ACK frame: round-trip sample, congestion window, and what it acknowledges. -/
def Device.takeAck (d : Device) (id : Nat) (f : Frame) : Device :=
  match d.conn id with
  | none => d
  | some c =>
    let r := c.ackReport f.ackPsn.toNat (bytesAt f.ext 0 32)
    let echo := fieldBe f.ext 32 8
    let owd := signed 32 (fieldBe f.ext 40 4)
    let ce := fieldBe f.ext 44 1
    let acked := c.newlyAcked r
    let sampled := fun (c : Conn) => if echo ≤ d.now ∧ echo ≠ 0 then c.sampleRtt (d.now - echo) else c
    (d.updConn id fun c => { (sampled c).congest d.now owd ce acked with lastReport := some owd }).applyAck id r

/-- A request has gone from the stream: where `resp_psn` has advanced and there is nothing else to send, it goes in an ACK that
echoes the frame that brought the answer (R322). -/
def Device.respMoved (d : Device) (id before : Nat) (f : Frame) (arrived : Nat) : Device :=
  match d.conn id with
  | none => d
  | some c =>
    if c.respPoint % 2 ^ 32 ≠ before % 2 ^ 32 ∧ c.nextOut.isNone then
      d.sendAck id f.cls.toNat f.sendStamp.toNat ((arrived : Int) - f.sendStamp.toNat)
    else d

/-- The congestion window on a NAK, which carries no delay, no CE count and acknowledges nothing by itself: the delay is that of
the last ACK, if there was one (R325, DESIGN CHOICE, log entry 91). -/
def Conn.congestNak (c : Conn) (now acked : Nat) : Conn :=
  match c.lastReport with
  | some owd => c.congest now owd 0 acked
  | none => c

/-- What a packet asks for, to be posted anew. -/
def TxPacket.outgoing (t : TxPacket) : Outgoing :=
  { opcode := t.opcode, ext := t.ext, payload := t.payload, flags := t.msgFlags, cls := t.cls, ring := t.ring,
    origin := t.origin, wants := t.wantsAnswer }

/-- A NAK frame: a final code consumes the PSN and ends its packet, NO_CONN ends the connection, and RX_FULL and PAGE_WAIT
ask for a copy 8,000 ticks later (R321, R332). After a STALE_MAP the sender resolves the destination again: where the map has
changed since and still lists it, the packet is posted anew (R294). -/
def Device.takeNak (d : Device) (id : Nat) (f : Frame) (arrived : Nat) : Device :=
  match d.conn id with
  | none => d
  | some c =>
    let code := fieldBe f.ext 4 1
    let psn := wirePsn c.ackedTo (fieldBe f.ext 0 4)
    let report := if f.flags.getLsbD 5 then c.ackReport f.ackPsn.toNat [] else { upTo := c.ackedTo }
    let d1 := ((d.countConn id 4).updConn id fun c =>
      { c.congestNak d.now (c.newlyAcked report) with progressAt := d.now, backoff := 0 }).applyAck id report
    if code = 0x0A then d1.connError id
    else
      match c.tx.find? fun t => decide (t.psn = psn) with
      | none => d1
      | some t =>
        if code = 7 ∨ code = 9 then
          d1.updConn id fun c =>
            { c with tx := c.tx.map fun t => if t.psn = psn then { t with resendAt := some (d.now + 8000) } else t }
        else if code = 8 ∧ d1.pairInCurrent c.fold c.peer c.peerPaddock ∧ t.mapVersion ≠ d1.mapVersionOf c then
          ((d1.updConn id fun c => { c with tx := c.tx.filter fun t => decide (t.psn ≠ psn) }).post id [t.outgoing]).respMoved id
            c.respPoint f arrived
        else
          (((d1.updConn id fun c => { c with tx := c.tx.filter fun t => decide (t.psn ≠ psn) }).packetRefused id t
            code).streamMoved id true).respMoved id c.respPoint f arrived

/-! ### Answers (R322, R324, R345) -/

/-- A request has its answer: it is gone from the stream. -/
def Device.answered (d : Device) (id psn : Nat) (f : Frame) (arrived : Nat) : Device :=
  let before := ((d.conn id).map (·.respPoint)).getD 0
  (d.updConn id fun c =>
    { c with tx := c.tx.filter fun t => decide (t.psn ≠ psn), progressAt := d.now, backoff := 0 }).respMoved id before f arrived

/-- Part of an indirect payload has come: `have'` at an offset; with nothing missing the command goes on (R82, R83). -/
def Device.indirectData (d : Device) (entry off : Nat) (data : List Byte) : Device :=
  let path := pathOf .fabric entry
  let box := d.paths.box path
  match box.fetch with
  | none => d
  | some (got, missing) =>
    let now' := overwrite got off data
    let left := missing - data.length
    let d1 := d.updBox path fun b => { b with fetch := some (now', left) }
    if left = 0 then
      let header := padTo 32 (box.cmd.take 32)
      match kindOf (fieldU16 header 0) with
      | none => d1
      | some k =>
        (d1.updBox path fun b => { b with fetch := none }).finishIndirect k (fieldU16 header 0)
          { path := path, header := header, payload := now', indirect := true, begun := some box.beganAt }
    else d1

/-- Data that a READ or ATOMIC descriptor asked for enters through an IN window from its ring's die, in the class of the frame
that brought it; with none the descriptor ends refused (R174, R175, R362). -/
def Device.descData (d : Device) (link ring index off : Nat) (f : Frame) (data : List Byte) : Device :=
  match d.inFlightAt ring index, d.ring ring with
  | some i, some r =>
    d.sendThrough r.paddock 0 (ringDie ring) f.cls.toNat
      { size := data.length, cls := f.cls.toNat, link := some link, address := fieldU64 i.bytes 24 + off, data := data,
        kind := .descData ring index }
      fun d => d.descEnds ring index resConflict 1
  | _, _ => d

/-- Data of a read goes where its request wants it. -/
def Device.readData (d : Device) (t : TxPacket) (off : Nat) (data : List Byte) (link : Nat) (f : Frame) (arrived : Nat) : Device :=
  match t.origin with
  | .descriptor ring index => d.descData link ring index off f data
  | .remote id => d.remoteResult id data arrived
  | .indirect entry => d.indirectData entry (fieldBe t.ext 20 4 + off) data
  | _ => d

/-- A READ_RESP frame: each part of a read is taken once; a status ends the read as a refusal. -/
def Device.takeReadResp (d : Device) (id link : Nat) (f : Frame) (arrived : Nat) : Device :=
  match d.conn id with
  | none => d
  | some c =>
    let psn := wirePsn c.ackedTo (fieldBe f.ext 0 4)
    let off := fieldBe f.ext 4 4
    let status := fieldBe f.ext 8 1
    match c.tx.find? fun t => decide (t.psn = psn ∧ t.opcode = 3) && t.wantsAnswer with
    | none => d
    | some t =>
      if status ≠ 0 then ((d.answered id psn f arrived).packetRefused id t status).streamMoved id true
      else if t.answered.any fun e => decide (e.1 = off) then d
      else
        let total := fieldBe t.ext 24 4
        let last := decide (total ≤ (t.answered.map (·.2)).sum + f.payload.length)
        let d1 := if last then d.answered id psn f arrived
          else d.updConn id fun c =>
            { c with progressAt := d.now, backoff := 0,
                     tx := c.tx.map fun t => if t.psn = psn then { t with answered := t.answered ++ [(off, f.payload.length)] } else t }
        (d1.readData t off (f.payload.take (total - off)) link f arrived).streamMoved id last

/-- An ATOMIC_RESP frame: the old value goes to its issuer, a status ends the request as a refusal. -/
def Device.takeAtomicResp (d : Device) (id link : Nat) (f : Frame) (arrived : Nat) : Device :=
  match d.conn id with
  | none => d
  | some c =>
    let psn := wirePsn c.ackedTo (fieldBe f.ext 0 4)
    let status := fieldBe f.ext 8 1
    match c.tx.find? fun t => decide (t.psn = psn ∧ t.opcode = 5) && t.wantsAnswer with
    | none => d
    | some t =>
      let d1 := d.answered id psn f arrived
      if status ≠ 0 then (d1.packetRefused id t status).streamMoved id true
      else
        let old := f.payload.take 8
        let d2 := match t.origin with
          | .descriptor ring index => d1.descData link ring index 0 f old
          | .remote id => d1.remoteResult id old arrived
          | _ => d1
        d2.streamMoved id true

end Sys2Proof.Machine
end

