-- ==== Sys2Proof/Machine/Registers.lean ====
section
/-! DEFINITION. The control pages: what each register reads as, what a write does, and the page-write rows (R11, R75, R78,
R104, R191, R327, R514 to R522). -/

namespace Sys2Proof.Machine

/-! ### Who reaches a page (R514, R521) -/

/-- The master of a page. -/
def agentMaster : PageAgent → Master
  | .host _ => .host
  | .fabric => .fabric
  | .board => .board

/-- Core of a host access; 0 elsewhere. -/
def agentCore : PageAgent → Nat
  | .host c => c.val
  | _ => 0

/-- A host core runs in the SECURE world (R443). -/
def Device.coreSecure (d : Device) (core : Nat) : Bool := d.security.harts.getLsbD core

/-- A page is reached in the device's present state: in STANDBY, on the way out of it and in SAFE as its path is, and no
page while the device is OFF, held in reset, tripped or without REF25. -/
def Device.pageServed (d : Device) (m : Master) : Bool :=
  (match d.state with
   | .ready => true
   | .run => true
   | .booting => true
   | .standby => m == .board
   | .leaving => m == .board
   | .safe => m == .board || (m == .host && d.boot.hostInSafe)
   | _ => false) && (m == .board || !d.faults.shepherdStile)

/-- Mailbox bits that an agent may use: a NONSECURE core only those of NONSECURE pairs, BOARD bit 0, FABRIC none. -/
def Device.pageBits (d : Device) : PageAgent → BitVec 8
  | .host c => if d.coreSecure c.val then 0xFF else ~~~d.security.pairs
  | .fabric => 0
  | .board => 1

/-- The mailboxes behind the bits of a page. -/
def agentBoxes : PageAgent → Nat
  | .host _ => 8
  | .fabric => 0
  | .board => 1

/-! ### What registers read as (R518 to R522) -/

/-- Code of a mailbox state. -/
def mbxCode : MbxStatus → Nat
  | .idle => 0
  | .busy => 1
  | .done => 2

/-- State of pair p of a master as a 2-bit code. -/
def Device.pairCode (d : Device) (m : Master) (p : Nat) : Nat := mbxCode (d.paths.box (pathOf m p)).status

/-- `MBX_STATUS` of an agent. -/
def Device.readMbxStatus (d : Device) (a : PageAgent) : Nat :=
  ((List.range (agentBoxes a)).map fun p =>
    if (d.pageBits a).getLsbD p then d.pairCode (agentMaster a) p * 4 ^ p else 0).sum

/-- `MBX_DONE` of an agent. -/
def Device.readMbxDone (d : Device) (a : PageAgent) : Nat :=
  ((List.range (agentBoxes a)).map fun p =>
    if (d.pageBits a).getLsbD p && decide (d.pairCode (agentMaster a) p = 2) then 2 ^ p else 0).sum

/-- `OWN` of a page. -/
def Device.readOwn (d : Device) (m : Master) : Nat :=
  masterCode d.own.owner + 4 * d.boot.ownPrio.toNat + 16 * masterCode (some m) + 256 * b2n d.own.claimEnd.isSome +
    512 * b2n d.own.offerTarget.isSome + 1024 * masterCode d.own.offerTarget

/-- `FAULT_CHIP`. -/
def Device.readFaultChip (d : Device) : Nat :=
  b2n d.faults.tallyFree + 2 * b2n d.faults.lockstep + 4 * b2n d.faults.shepherdStile + 8 * b2n d.faults.stileDown +
    16 * b2n (decide (d.state = .safe)) + 32 * b2n d.faultN

/-- `FAULT_PADDOCKS`: bits of SECURE paddocks read 0 from a NONSECURE core. -/
def Device.readFaultPaddocks (d : Device) (a : PageAgent) : Nat :=
  let hidden := match a with
    | .host c => !d.coreSecure c.val
    | _ => false
  ((List.range 64).map fun p =>
    if d.faults.paddocks.getLsbD p && !(hidden && d.isSecure p) then 2 ^ p else 0).sum

/-- `POWER`. -/
def Device.readPower (d : Device) : Nat :=
  d.power.stateAtMeasure + 2 ^ 8 * d.power.flagsAtMeasure.toNat + 2 ^ 16 * unsigned 16 d.power.tjMax +
    2 ^ 32 * (d.power.powerMw % 2 ^ 32)

/-- `CLOCKS`. -/
def Device.readClocks (d : Device) : Nat :=
  let bits := fun (f : RegionClock → Bool) =>
    ((List.range 16).map fun n => if f (d.clock n) then 2 ^ n else 0).sum
  b2n d.power.refStable + 2 * d.power.netrefStable.toNat + 2 ^ 16 * bits (·.deep) + 2 ^ 32 * bits (·.throttled)

/-- GPIO pin levels: what the device drives, and elsewhere what the board does (R507). -/
def ControlPaths.gpioIn (c : ControlPaths) : BitVec 16 := (c.gpioDir &&& c.gpioOut) ||| (~~~c.gpioDir &&& c.gpioPins)

/-- `MBX_IRQ`; on the BOARD page only `enable` is there. -/
def ControlPage.readIrq (g : ControlPage) : Nat := b2n g.irqEnable + 2 ^ 8 * g.irqHart.toNat + 2 ^ 16 * g.irqId.toNat

/-- What a register reads as, none at an offset that is reserved on the page or that its master does not have. -/
def Device.registerAt (d : Device) (a : PageAgent) (off : Nat) : Option Nat :=
  let m := agentMaster a
  let g := d.paths.page m
  let mailboxes := !(m == .fabric)
  match off with
  | 0x0000 => some (0xE032 + 2 ^ 16 * 0x41 + 2 ^ 24 * 0x31 + 2 ^ 32 * 0x0100 + 2 ^ 56 * (d.boot.fwSlot % 256))
  | 0x0008 => some (d.idWord + 2 ^ 32 * (d.boot.fwVersion % 2 ^ 32))
  | 0x0010 => some d.boot.serial
  | 0x0018 => some d.boot.tierBytes
  | 0x0020 => some (d.readOwn m)
  | 0x0028 => some (if d.own.owner.isSome then d.own.leaseExpiry else 0)
  | 0x0030 => some (if d.own.owner.isSome then d.own.ownerSince else 0)
  | 0x0040 => some d.tally.now
  | 0x0048 => some (d.tally.now % 2 ^ 48 * 2 ^ 16 + d.tally.frac.toNat)
  | 0x0050 => some (tallyStateCode d.tally.state + 2 ^ 8 * (if d.tally.state = .free then 0xFF else d.tally.level % 256))
  | 0x0080 => if mailboxes then some 0 else none
  | 0x0088 => if mailboxes then some (d.readMbxStatus a) else none
  | 0x0090 => if mailboxes then some (d.readMbxDone a) else none
  | 0x0098 => if mailboxes then some (g.mbxError &&& d.pageBits a).toNat else none
  | 0x00A0 => if mailboxes then some g.readIrq else none
  | 0x00A8 => some (g.stageSel.toNat + 2 ^ 16 * b2n g.stgIgnored)
  | 0x00C0 => some d.readFaultChip
  | 0x00C8 => some (d.readFaultPaddocks a)
  | 0x00D0 => some d.faults.next
  | 0x00D8 => some d.faults.lost
  | 0x0100 => some d.readPower
  | 0x0108 => some d.readClocks
  | 0x0140 => some d.paths.gpioIn.toNat
  | 0x0148 => some d.paths.gpioDir.toNat
  | 0x0150 => some d.paths.gpioOut.toNat
  | 0x0180 => some d.trace.next
  | 0x0188 => some d.trace.dropped
  | 0x01C0 => some g.scratch.toNat
  | 0x01C8 => some g.pageErr.toNat
  | 0x0200 => if m == .host then some 0 else none
  | _ => none

/-- A read of a register: zero at a reserved offset, or of a register that the page's master does not have (R517). -/
def Device.readRegister (d : Device) (a : PageAgent) (off : Nat) : Nat := (d.registerAt a off).getD 0

/-! ### Writes -/

/-- A bit of `PAGE_ERR` is set: 0 PARTIAL, 1 RESERVED_OFFSET, 2 BAD_VALUE. -/
def Device.pageError (d : Device) (m : Master) (i : Nat) : Device :=
  d.updPage m fun g => { g with pageErr := g.pageErr ||| BitVec.ofNat 3 (2 ^ i) }

/-- The doorbell of one mailbox: an IDLE one goes BUSY, and a device that serves its path accepts and executes what it
holds, while one that boots holds it (R487); for a BUSY or DONE one the doorbell is ignored and its error bit set. -/
def Device.ringPair (d : Device) (m : Master) (p : Nat) : Device :=
  let path := pathOf m p
  let box := d.paths.box path
  let opcode := fieldU16 (padTo 32 box.cmd) 0
  match box.status with
  | .idle =>
    if d.serves path then
      let d1 := d.acceptBox path opcode
      if (kindOf opcode).isNone then d1.executeStored path else d1
    else if d.state = .booting then d.updBox path fun b => { b with status := .busy, begun := false }
    else d
  | _ => d.updPage m fun g => { g with mbxError := g.mbxError ||| BitVec.ofNat 8 (2 ^ p) }

/-- `MBX_DOORBELL` written: each pair whose bit is 1, in ascending number. A command that R106 lists waits, BUSY, for its
own row; one that it does not list is answered at once. -/
def Device.writeDoorbell (d : Device) (a : PageAgent) (v : Nat) : Device :=
  ((List.range (agentBoxes a)).filter fun p => (d.pageBits a).getLsbD p && bitOf v p).foldl
    (fun d p => d.ringPair (agentMaster a) p) d

/-- `MBX_DONE` written: a DONE mailbox whose bit is 1 is IDLE again (R520). -/
def Device.writeDone (d : Device) (a : PageAgent) (v : Nat) : Device :=
  ((List.range (agentBoxes a)).filter fun p => (d.pageBits a).getLsbD p && bitOf v p).foldl
    (fun d p => d.updBox (pathOf (agentMaster a) p) fun b => if b.status = .done then { b with status := .idle } else b) d

/-- `MBX_IRQ` written. -/
def Device.writeIrq (d : Device) (a : PageAgent) (v : Nat) : Device :=
  let m := agentMaster a
  let enable := bitOf v 0
  let hart := bitsOf v 13 8
  let irq := bitsOf v 26 16
  match a with
  | .host _ =>
    if enable && decide (47 < hart ∨ irq = 0) then d.pageError m 2
    else d.updPage m fun g => { g with irqEnable := enable, irqHart := BitVec.ofNat 6 hart, irqId := BitVec.ofNat 11 irq }
  | _ => d.updPage m fun g => { g with irqEnable := enable }

/-- A register write as a stage set holds it: the command that the set digest counts (R104). -/
def registerCommand (world : World) (off v : Nat) : StagedCommand :=
  { opcode := gpioOpcode, header := leBytes 2 0xFFFF ++ zeros 6 ++ leBytes 4 16 ++ zeros 20,
    payload := leBytes 8 off ++ leBytes 8 v, world := world }

/-- A write to an STG field enters the set that the page's `STAGE_SEL` names, or is ignored and sets `STG_IGNORED`. The set holds,
and its digest counts, the value with its reserved bits 63 to 16 clear (DESIGN CHOICE, log entry 108). -/
def Device.writeStaged (d : Device) (a : PageAgent) (off v : Nat) : Device :=
  let m := agentMaster a
  let c := registerCommand .nonsecure off (v % 2 ^ 16)
  let id := (d.paths.page m).stageSel.toNat
  let ignored := d.updPage m fun g => { g with stgIgnored := true }
  match d.openSet id m with
  | none => ignored
  | some s => if d.setHasRoom s c then d.joinSet id c else ignored

/-- An access fault is raised on a host core; nothing else happens. -/
def Device.accessFault (d : Device) (core : Nat) : Device := d.emit (.accessFault core)

/-- `BELL_RING` written by a host core: a block bell of a paddock is rung through a window from the host die, or, for a
paddock that does not hold its blocks, its saved value counts the ring (R190, R191, R382, R529). -/
def Device.writeBellRing (d : Device) (core v : Nat) : Device :=
  let bell := v % 2 ^ 17
  let p := bitsOf v 22 17
  let inc := bitsOf v 47 32
  let isReserved := decide (bitsOf v 31 23 ≠ 0 ∨ bitsOf v 63 48 ≠ 0)
  match d.paddock p with
  | none => d.accessFault core
  | some x =>
    let fits := !isReserved && decide (inc ≠ 0 ∧ bell < 65536) && x.names (bell / 64) &&
      (d.coreSecure core || x.world == .nonsecure) && (d.windowFor p 0 6 (bellAddress bell) 16).isSome
    if !fits then d.accessFault core
    else d.ringBlock p 6 bell inc (d.src (srcCore core))

/-- A write of a whole register: its access code says what it does (R11, R517). -/
def Device.writeRegister (d : Device) (a : PageAgent) (off v : Nat) : Device :=
  let m := agentMaster a
  match d.registerAt a off with
  | none => d.pageError m 1
  | some _ =>
    match off with
    | 0x0080 => d.writeDoorbell a v
    | 0x0090 => d.writeDone a v
    | 0x0098 => d.updPage m fun g => { g with mbxError := g.mbxError &&& ~~~(BitVec.ofNat 8 v &&& d.pageBits a) }
    | 0x00A0 => d.writeIrq a v
    | 0x00A8 => d.updPage m fun g =>
        { g with stageSel := BitVec.ofNat 16 v, stgIgnored := g.stgIgnored && !bitOf v 16 }
    | 0x0148 => d.writeStaged a off v
    | 0x0150 => d.writeStaged a off v
    | 0x01C0 => d.updPage m fun g => { g with scratch := BitVec.ofNat 64 v }
    | 0x01C8 => d.updPage m fun g => { g with pageErr := g.pageErr &&& ~~~BitVec.ofNat 3 v }
    | 0x0200 => d.writeBellRing (agentCore a) v
    | _ => d

/-- A store to the halves of a HOST pair: a command half takes none while its pair is BUSY, and a NONSECURE core reaches no
half of a SECURE pair (R74, R75, R521). -/
def Device.writeHalf (d : Device) (a : PageAgent) (off : Nat) (bytes : List Byte) : Device :=
  let p := (off - 0x8000) / 0x1000
  let at' := (off - 0x8000) % 0x1000
  if !(d.pageBits a).getLsbD p then d
  else d.updBox (pathOf .host p) fun b =>
    if at' < 0x800 then
      if b.status = .busy then b else { b with cmd := overwrite (padTo 2048 b.cmd) at' bytes }
    else { b with resp := overwrite (padTo 2048 b.resp) (at' - 0x800) bytes }

/-- A store of a host core to its page: whole aligned registers, and aligned 1, 2, 4 or 8 bytes of the mailbox halves;
anything else raises an access fault (R515). -/
def Device.hostPageStore (d : Device) (core : Fin 48) (off : Nat) (bytes : List Byte) : Device :=
  let n := bytes.length
  if off < 0x8000 then
    if n = 8 ∧ off % 8 = 0 then d.writeRegister (.host core) off (leValue bytes) else d.accessFault core.val
  else if (n = 1 ∨ n = 2 ∨ n = 4 ∨ n = 8) ∧ off % n = 0 then d.writeHalf (.host core) off bytes
  else d.accessFault core.val

/-- A store to the BOARD window: its bytes are the command, unless the window is BUSY (R78). -/
def Device.writeWindow (d : Device) (off : Nat) (bytes : List Byte) : Device :=
  d.updBox .board fun b =>
    if b.status = .busy then b else { b with cmd := overwrite (padTo 256 b.cmd) (off - 0xFF00) bytes }

/-- One register, or the window, of a BOARD transfer that covers bytes from `off` to `off + n`. -/
def Device.boardRegister (off : Nat) (bytes : List Byte) (d : Device) (reg : Nat) : Device :=
  if off ≤ reg ∧ reg + 8 ≤ off + bytes.length then
    d.writeRegister .board reg (leValue (bytesAt bytes (reg - off) 8))
  else d.pageError .board 0

/-- A transfer of the BOARD: every register that it covers whole is written, one that it covers in part sets PARTIAL; from
0x8000 to the window every offset is reserved; bytes past the page are ignored (R516, R518). -/
def Device.boardTransfer (d : Device) (off : Nat) (bytes : List Byte) : Device :=
  let stop' := Nat.min (off + bytes.length) 0x10000
  let lastReg := Nat.min stop' 0x8000
  let first := off / 8
  let d1 := ((List.range ((lastReg + 7) / 8 - first)).map fun i => 8 * (first + i)).foldl
    (Device.boardRegister off (bytes.take (stop' - off))) d
  let start := Nat.max off 0x8000
  let d2 := if start < stop' ∧ start < 0xFF00 then d1.pageError .board 1 else d1
  let w := Nat.max off 0xFF00
  if w < stop' then d2.writeWindow w (bytesAt bytes (w - off) (stop' - w)) else d2

/-- A write to a control page: host stores, BOARD transfers, and WRITE frames of the bound fabric manager, which carry one
whole register (R514 to R517). -/
def Device.pageWrite (d : Device) (a : PageAgent) (off : Nat) (bytes : List Byte) : Device :=
  if !d.pageServed (agentMaster a) then d else
    match a with
    | .host core => d.hostPageStore core off bytes
    | .board => d.boardTransfer off bytes
    | .fabric => if bytes.length = 8 then d.writeRegister .fabric off (leValue bytes) else d

/-! ### Accesses of the bound fabric manager (R514) -/

/-- What refuses an access to the FABRIC page: OUT_OF_BOUNDS for an offset past the page, a length other than 8 or a key
that is not zero. -/
def pageRefusal (opcode address key length payload : Nat) : Nat :=
  if 0x10000 ≤ address ∨ length ≠ 8 ∨ key ≠ 0 ∨ (opcode = 1 ∧ payload ≠ 8) then 4 else 0

/-- A ring's doorbell slot takes a word from a host core: a NONSECURE core's store to a SECURE ring's slot raises an
access fault (R327); a head of a type that no row names is then taken (R328). -/
def Device.storeDoorbell (d : Device) (core q : Nat) (v : Word) : Device :=
  match d.ring q with
  | none => d
  | some r =>
    if d.isSecure r.paddock && !d.coreSecure core then d.accessFault core
    else (d.postDoorbell q v.toNat (d.src (srcCore core))).dropUnknown 65536 q

/-! ### The rows -/

/-- Doorbell write (R75). -/
def execMbxDoorbell (page : PageAgent) (value : Word) (s : State) : Outcome :=
  .next (s.on (·.pageWrite page 0x0080 (leBytes 8 value.toNat)))

/-- `MBX_DONE` write (R520). -/
def execMbxDone (page : PageAgent) (value : Word) (s : State) : Outcome :=
  .next (s.on (·.pageWrite page 0x0090 (leBytes 8 value.toNat)))

/-- `MBX_IRQ` write (R518). -/
def execMbxIrq (page : PageAgent) (value : Word) (s : State) : Outcome :=
  .next (s.on (·.pageWrite page 0x00A0 (leBytes 8 value.toNat)))

/-- Host store of a ring word (R191). -/
def execBellRing (core : Fin 48) (value : Word) (s : State) : Outcome :=
  .next (s.on (·.pageWrite (.host core) 0x0200 (leBytes 8 value.toNat)))

/-- Host store to a ring's doorbell slot (R327). -/
def execRingDoorbell (core : Fin 48) (ring : Fin 16384) (value : Word) (s : State) : Outcome :=
  .next (s.on fun d => if d.pageServed .host then d.storeDoorbell core.val ring.val value else d)

/-- Write to a register with an STG field (R104); to another register it is the plain write of its access code. -/
def execStgRegisterWrite (page : PageAgent) (offset : BitVec 16) (value : Word) (s : State) : Outcome :=
  .next (s.on (·.pageWrite page offset.toNat (leBytes 8 value.toNat)))

/-- Write to a control page (R11). -/
def execRegisterWrite (page : PageAgent) (offset : BitVec 16) (bytes : List Byte) (s : State) : Outcome :=
  .next (s.on (·.pageWrite page offset.toNat bytes))

end Sys2Proof.Machine
end

