-- ==== Sys2Proof/Machine/Receive.lean ====
section
/-! DEFINITION. What a network die does with a received frame: its form and address, its connection, stream, exposure, window
and resources, the answer or refusal it draws, and the requests a stream executes in order (R309 to R332, R340, R347). -/

namespace Sys2Proof.Machine

/-! ### Form and address (R309 to R312, R319) -/

/-- Opcodes of connectionless frames. -/
def connectionless (opcode : Nat) : Bool := decide (opcode = 0x20 ∨ opcode = 0x24)

/-- Opcodes that consume a PSN. -/
def sequenced (opcode : Nat) : Bool :=
  decide (opcode = 1 ∨ opcode = 2 ∨ opcode = 3 ∨ opcode = 5 ∨ opcode = 7 ∨ opcode = 0x21 ∨ opcode = 0x23)

/-- Opcodes with an access extension. -/
def accessOpcode (opcode : Nat) : Bool := decide (opcode = 1 ∨ opcode = 2 ∨ opcode = 3 ∨ opcode = 5)

/-- The access extension of a frame (R312). -/
structure Access where
  /-- `address`. -/
  address : Nat
  /-- `key`. -/
  key : Nat
  /-- `bell`. -/
  bell : Nat
  /-- `increment`. -/
  inc : Nat
  /-- `aop`. -/
  aop : Nat
  /-- `msg_offset`. -/
  offset : Nat
  /-- `length`. -/
  length : Nat
  deriving DecidableEq, Repr

/-- The access extension in a frame's bytes. -/
def accessOf (ext : List Byte) : Access :=
  { address := fieldBe ext 0 8, key := fieldBe ext 8 4, bell := fieldBe ext 12 4, inc := fieldBe ext 16 2,
    aop := fieldBe ext 18 1, offset := fieldBe ext 20 4, length := fieldBe ext 24 4 }

/-- Lengths, ranges and reserved fields of an opcode's extension and payload. -/
def extensionFits (opcode : Nat) (f : Frame) : Bool :=
  let n := f.payload.length
  let a := accessOf f.ext
  let accessFits := decide (a.address < 2 ^ 46 ∧ (a.bell = noBell ∨ a.bell < 2 ^ 17)) && allZero (bytesAt f.ext 19 1) &&
    allZero (bytesAt f.ext 28 4)
  match opcode with
  | 0x01 => accessFits
  | 0x02 => accessFits && decide (8 ≤ n ∧ n ≤ 64)
  | 0x03 => accessFits && decide (n = 0 ∧ 1 ≤ a.length ∧ a.length ≤ 16777216)
  | 0x04 => allZero (bytesAt f.ext 9 7)
  | 0x05 => accessFits && decide (n = 16 ∧ a.aop ≤ 6)
  | 0x06 => allZero (bytesAt f.ext 9 7) && decide (n = 8)
  | 0x07 => decide (1 ≤ n)
  | 0x10 => decide (n = 0) && allZero (bytesAt f.ext 45 3)
  | 0x11 => decide (n = 0) && allZero (bytesAt f.ext 5 11)
  | 0x20 => decide (n = 64 ∧ (fieldU8 f.payload 0 = 1 ∨ fieldU8 f.payload 0 = 2) ∧ fieldU32 f.payload 40 < 2 ^ 18) &&
      allZero (bytesAt f.payload 38 2) && allZero (bytesAt f.payload 44 20)
  | 0x21 => decide (32 ≤ n)
  | 0x22 => allZero (bytesAt f.ext 9 7)
  | 0x23 => decide (n = if fieldU8 f.payload 0 = 4 then 240 else 48)
  | 0x24 => decide (n = 64)
  | _ => false

/-- Step 1: checksums, version, lengths and reserved fields. -/
def frameFits (opcode : Nat) (f : Frame) : Bool :=
  f.checksumOk && decide (f.version = 1 ∧ extensionSize opcode = some f.ext.length ∧ f.payload.length = f.payloadLength.toNat ∧
    f.payload.length ≤ maxPayload ∧ f.flags.toNat < 64 ∧ f.dst.toNat < 2 ^ 18 ∧ f.src.toNat < 2 ^ 18 ∧ f.cls.toNat < 16 ∧
    f.reserved = 0) &&
  (if connectionless opcode then decide (f.conn = 0xFFFFFFFF) else decide (f.conn.toNat < 2 ^ 20)) && extensionFits opcode f

/-- Step 2: the frame is addressed to this device, by its id, by a former id within R95's limits, or, while no id is
committed, as a BOOTSTRAP MGMT_CMD of the fabric manager (R309). -/
def Device.addressed (d : Device) (opcode : Nat) (f : Frame) (at' : Nat) : Bool :=
  match d.deviceId with
  | none => decide (opcode = 0x21) && f.flags.getLsbD 4 &&
      (match d.security.bound with
       | some b => decide (b.1 = f.src.toNat)
       | none => false)
  | some id => decide (f.dst.toNat = id) ||
      d.formerIds.any fun e => decide (f.dst.toNat = e.1 ∧ f.sendStamp.toNat < e.2 ∧ at' ≤ e.2 + 160000)

/-! ### Refusals (R294, R319 to R332) -/

/-- A frame as it arrived. -/
structure Arrived where
  /-- Port link. -/
  link : Nat
  /-- Opcode. -/
  opcode : Nat
  /-- The frame. -/
  frame : Frame
  /-- Arrival stamp (R63). -/
  at' : Nat
  deriving DecidableEq, Repr

/-- Send stamp of an arrival. -/
def Arrived.sent (x : Arrived) : Nat := x.frame.sendStamp.toNat
/-- One-way delay of an arrival, signed. -/
def Arrived.owd (x : Arrived) : Int := (x.at' : Int) - x.frame.sendStamp.toNat

/-- Network die of an arrival. -/
def Arrived.die (x : Arrived) : Nat := x.link / 16

/-- Bytes an access touches. -/
def Arrived.bytes (x : Arrived) : Nat :=
  if x.opcode = 3 then (accessOf x.frame.ext).length else if x.opcode = 5 then 8 else x.frame.payload.length

/-- Step 6: a packet of a fold, by its send stamp; a paddock that has left refuses it once its drain window has ended (R291). A
packet of no fold is not taken on a fold's connection, whose traffic passes only between members (R265). -/
def Device.foldRefusal (d : Device) (c : Conn) (f : Frame) (at' : Nat) : Nat :=
  if f.fold = 0 then (if c.fold = 0 then 0 else 8) else
    match d.fold f.fold.toNat with
    | none => 8
    | some x =>
      let own := d.deviceId.getD 0
      let lists := fun (m : Option FoldMap) => match m with
        | some m => m.lists own c.paddock
        | none => false
      let old := match x.previous with
        | some m => decide (m.version = f.mapVersion.toNat ∧ f.sendStamp.toNat < x.drainEnd)
        | none => false
      let left := match Table.find x.former c.paddock with
        | some m => decide (m.endAt < at')
        | none => false
      if !left && (lists x.current || (old && lists x.previous)) then 0 else 8

/-- The exposure a packet of a connection may use, or why not: NO_KEY, KEY_REVOKED, judged at its arrival stamp (R331, R332). -/
def Device.keyRefusal (d : Device) (c : Conn) (key : Nat) (f : Frame) (at' : Nat) : Nat :=
  match d.exposure (key % 0x100000) with
  | none => 2
  | some e =>
    if e.key ≠ key ∨ e.paddock ≠ c.paddock ∨ at' < e.createdAt then 2
    else match e.state with
      | .live => 0
      | .free => 3
      | _ => if f.sendStamp.toNat < e.revokeAt ∧ at' ≤ e.revokeAt + e.grace then 0 else 3

/-- Right an opcode needs: READ, WRITE or ATOMIC. -/
def rightBit (opcode : Nat) : Nat := if opcode = 3 then 0 else if opcode = 5 then 2 else 1

/-- A touched page of an on-demand exposure is unmapped: its offset in the exposure. -/
def Device.pageMissing (d : Device) (e : Exposure) (a n : Nat) : Option Nat :=
  if e.onDemand then
    let lo := (a - e.base) / 65536
    let hi := (a + max n 1 - 1 - e.base) / 65536
    ((List.range (hi - lo + 1)).find? fun i => !bitOf (d.loadLe (e.present + (lo + i) / 8) 1) ((lo + i) % 8)).map
      fun i => max (a - e.base) (65536 * (lo + i))
  else none

/-- Step 7: the exposure. -/
def Device.exposureRefusal (d : Device) (c : Conn) (x : Arrived) : Nat :=
  let a := accessOf x.frame.ext
  let key := d.keyRefusal c a.key x.frame x.at'
  if key ≠ 0 then key else
    match d.exposure (a.key % 0x100000) with
    | none => 2
    | some e =>
      if a.address < e.base ∨ e.base + e.length < a.address + x.bytes then 4
      else if !e.rights.getLsbD (rightBit x.opcode) then 5
      else if (e.world == .secure) != d.isSecure c.paddock then 6
      else if (d.pageMissing e a.address x.bytes).isSome then 7
      else 0

/-- Step 8: the address is valid for the access, a window from the die serves it, windows back serve an answer's data, and its
bell is one of a block that the window targets (R26, R174, R189, R333). -/
def Device.addressRefusal (d : Device) (c : Conn) (x : Arrived) : Nat :=
  let a := accessOf x.frame.ext
  let atomicFits := decide (x.opcode ≠ 5) || (decide (a.address % 8 = 0) && !inBuffers a.address 8)
  match d.windowFor c.paddock 0 c.home a.address x.frame.cls.toNat with
  | none => 1
  | some w =>
    let answers := decide (x.opcode = 3 ∨ x.opcode = 5)
    let bellFits := answers || decide (a.bell = noBell) || !inBuffers a.address 1 || w.serves 0 c.home (bellAddress a.bell)
    if d.rangeOk a.address x.bytes && atomicFits && !d.routeDown w && bellFits &&
      (!answers || d.outCarries c.paddock c.home a.address x.bytes) then 0 else 1

/-- Bytes of a port's receive share in use, by frames that wait for a window or for their turn in their stream: by W classes,
and by all. -/
def Device.shareUsed (d : Device) (port : Nat) : Nat × Nat :=
  let queued := (d.net.windows.flatMap fun e => (e.2.queue ++ e.2.fifo).filter fun x => decide (x.link.map (· / 2) = some port)).map
    fun x => (x.cls, x.size)
  let held := d.net.conns.flatMap fun e => (e.2.held.filter fun h => decide (h.link / 2 = port)).map fun h =>
    (h.frame.cls.toNat, h.frame.payload.length)
  ((((queued ++ held).filter fun x => decide (3 ≤ x.1)).map (·.2)).sum, ((queued ++ held).map (·.2)).sum)

/-- A port's receive share has no room for a frame's payload: 512 KiB of it are for S1 and S2 alone (R320, R362). -/
def Device.shareFull (d : Device) (x : Arrived) : Bool :=
  let n := x.frame.payload.length
  let used := d.shareUsed (x.link / 2)
  if 3 ≤ x.frame.cls.toNat then decide (6 * 2 ^ 20 - 512 * 1024 < used.1 + n) else decide (6 * 2 ^ 20 < used.2 + n)

/-- Step 10: receive share, posted RECV, atomics cache, management queue. -/
def Device.resourceRefusal (d : Device) (c : Conn) (x : Arrived) : Nat :=
  match x.opcode with
  | 0x01 | 0x02 => if d.shareFull x then 9 else 0
  | 0x05 => if c.atomics.length + (c.held.filter fun h => decide (h.opcode = 5)).length < 32 then 0 else 9
  | 0x07 =>
    match (d.ring c.recvRing).bind fun r => r.recvs.head? with
    | none => 9
    | some e =>
      if e.2.2 < x.frame.payload.length then 4
      else
        match d.windowFor c.paddock 0 c.home e.2.1 x.frame.cls.toNat with
        | none => 1
        | some w => if d.routeDown w then 1 else if d.shareFull x then 9 else 0
  | 0x21 => if (List.range 16).any fun e => decide ((d.paths.box (pathOf .fabric e)).status = .idle) then 0 else 9
  | _ => 0

/-- An access to the FABRIC page: a WRITE or READ_REQ on a management connection (R514). -/
def Conn.pageAccess (c : Conn) (opcode : Nat) : Bool := c.mgmt && decide (opcode = 1 ∨ opcode = 3)

/-- Steps 6 to 10 for a sequenced packet: the refusal it meets, 0 for none. An access to the FABRIC page meets the rules of
its registers in their place. -/
def Device.refusal (d : Device) (c : Conn) (x : Arrived) : Nat :=
  let a := accessOf x.frame.ext
  if c.pageAccess x.opcode then pageRefusal x.opcode a.address a.key a.length x.frame.payload.length else
  let fold := d.foldRefusal c x.frame x.at'
  if fold ≠ 0 then fold else
    let isAccess := accessOpcode x.opcode
    let key := if isAccess then d.exposureRefusal c x else 0
    if key ≠ 0 then key else
      let address := if isAccess then d.addressRefusal c x else 0
      if address ≠ 0 then address
      else if !c.mgmt && d.isFaulted c.paddock then 0x0B
      else d.resourceRefusal c x

/-! ### Answers of the endpoint (R322, R323, R347) -/

/-- The READ_RESP frames of a read's data. -/
def Device.sendRead (d : Device) (id cls psn : Nat) (data : List Byte) : Device :=
  (cutData (data.length / maxPayload + 1) 0 data).foldl
    (fun d e => d.sendOn id 0x04 cls psn (responseExt psn e.1 0) e.2) d

/-- An accepted access that an answer ends has been answered, where the answer is its last part. -/
def Device.answerDone (d : Device) (key : Option Nat) : Device :=
  match key with
  | none => d
  | some i => d.accessDone i

/-- Part of an answer leaves the paddock's memory at an address through its OUT window to the connection's die; refused, it
goes as a status NO_ADDRESS with no data (R174, R347). -/
def Device.answerThrough (d : Device) (p id : Nat) (c : Conn) (address cls psn opcode off : Nat) (key : Option Nat)
    (data : List Byte) : Device :=
  d.sendThrough p 1 c.home 16
    { size := data.length, cls := cls, link := none, address := address, data := data, kind := .answer id psn opcode off 0 key }
    fun d => (d.sendOn id opcode cls psn (responseExt psn off 1) []).answerDone key

/-- A READ_REQ is executed: its data leaves in parts of up to 8,192 bytes, or it is answered PADDOCK_DOWN when a lasting error
strikes the paddock (R347, R423). -/
def Device.runRead (d : Device) (p id : Nat) (c : Conn) (address len cls psn : Nat) (key : Option Nat) : Device :=
  let r := d.checkedRead address len (d.src (srcNet c.home 1)) p
  match r.2 with
  | some report => ((r.1.strike p report).sendOn id 0x04 cls psn (responseExt psn 0 0x0B) []).answerDone key
  | none =>
    (cutData (len / maxPayload + 1) 0 (r.1.load address len)).foldl (fun d e =>
      d.answerThrough p id c (address + e.1) cls psn 0x04 e.1 (if e.1 + e.2.length = len then key else none) e.2) r.1

/-- A READ_REQ of a management connection is answered with a register of the FABRIC page (R514). -/
def Device.answerPage (d : Device) (id psn : Nat) (f : Frame) : Device :=
  d.sendRead id f.cls.toNat psn (leBytes 8 (d.readRegister .fabric (accessOf f.ext).address))

/-- The word an atomic stores (R150): the old value, the operand and the compare value. -/
def atomicResult (aop : Nat) (old operand compare : Word) : Word :=
  match aop with
  | 0 => old + operand
  | 1 => operand
  | 2 => if old = compare then operand else old
  | 3 => if old.toNat ≤ operand.toNat then old else operand
  | 4 => if operand.toNat ≤ old.toNat then old else operand
  | 5 => old &&& operand
  | 6 => old ||| operand
  | _ => old

/-- The word of an atomic is read and written: the old value, none when a lasting error struck the paddock. -/
def Device.doAtomic (d : Device) (p source address aop : Nat) (operand compare : Word) : Device × Option Word :=
  let r := d.checkedRead address 8 source p
  match r.2 with
  | some report => (r.1.strike p report, none)
  | none =>
    let old : Word := BitVec.ofNat 64 (r.1.loadLe address 8)
    (r.1.storeLe address 8 (atomicResult aop old operand compare).toNat, some old)

/-- An ATOMIC_RESP of a connection. -/
def Device.sendAtomic (d : Device) (id cls psn old status : Nat) : Device :=
  d.sendOn id 0x06 cls psn (responseExt psn 0 status) (leBytes 8 old)

/-- An ATOMIC is executed once: its old value is kept in the atomics cache and answered. -/
def Device.runAtomic (d : Device) (p id : Nat) (c : Conn) (psn : Nat) (f : Frame) (key : Option Nat) : Device :=
  let a := accessOf f.ext
  let r := d.doAtomic p (d.src (srcNet c.home 1)) a.address a.aop (BitVec.ofNat 64 (fieldU64 f.payload 0))
    (BitVec.ofNat 64 (fieldU64 f.payload 8))
  let cached := fun (old status : Nat) => r.1.updConn id fun c => { c with atomics := c.atomics ++ [(psn, old, status)] }
  match r.2 with
  | none => ((cached 0 0x0B).sendAtomic id f.cls.toNat psn 0 0x0B).answerDone key
  | some old =>
    (cached old.toNat 0).answerThrough p id c a.address f.cls.toNat psn 0x06 0 key (leBytes 8 old.toNat)

/-! ### The stream (R321, R324, R340, R341) -/

/-- A message's bell rings at the receiver: the flag or message carries it to its own block, or a delivery through the die's
lowest window does. -/
def Device.ringMessage (d : Device) (c : Conn) (a bell inc : Nat) : Device :=
  if bell = noBell ∨ inc = 0 ∨ 65536 ≤ bell then d
  else if inBuffers a 1 then d.perform [.ring c.paddock bell inc (d.src (srcNet c.home 1))]
  else d.ringThrough c.paddock c.home bell inc (d.src (srcNet c.home 1))

/-- The first PSN not yet placed or refused is passed: the bell of the message it ends rings unless a packet of the message
was refused. -/
def Device.passPsn (d : Device) (id : Nat) (c : Conn) : Device :=
  let psn := c.rxNext
  let d1 := d.updConn id fun c => { c with rxNext := psn + 1, rxSeen := c.rxSeen.filter fun x => decide (x ≠ psn) }
  match c.rings.find? fun r => decide (r.1 = psn) with
  | none => d1
  | some r =>
    let whole := !c.refusedRx.any fun x => decide (x < psn)
    let d2 := d1.updConn id fun c =>
      { c with rings := c.rings.filter fun x => decide (x.1 ≠ psn), refusedRx := c.refusedRx.filter fun x => decide (psn < x) }
    if whole then d2.ringMessage c r.2.1 r.2.2.1 r.2.2.2 else d2

/-- Exposure index of an access. -/
def Access.index (a : Access) : Nat := a.key % 0x100000

/-- A packet of a connection waits for its window. -/
def Device.rxWaits (d : Device) (id psn : Nat) : Device := d.updConn id fun c => { c with rxQueued := c.rxQueued ++ [psn] }

/-- A packet of a connection waits for its window no more, and is held no more. -/
def Device.rxArrived (d : Device) (id psn : Nat) : Device :=
  d.updConn id fun c =>
    { c with rxQueued := c.rxQueued.filter fun q => decide (q ≠ psn), held := c.held.filter fun h => decide (h.psn ≠ psn) }

/-- An accepted packet that waited for a window is refused NO_ADDRESS, which consumes its PSN (R174). -/
def Device.refusePsn (d : Device) (id psn cls : Nat) : Device := (d.sendNak id cls psn 1).rxArrived id psn

/-- An accepted write is refused so: the bell of its message does not ring (R324). -/
def Device.refuseWrite (d : Device) (id psn cls key : Nat) : Device :=
  ((d.refusePsn id psn cls).updConn id fun c =>
    { c with rings := c.rings.map fun r => if r.1 = psn then (r.1, r.2.1, noBell, r.2.2.2) else r,
             refusedRx := c.refusedRx ++ [psn] }).accessDone key

/-- A write of a connection joins the queue of its window. -/
def Device.queueWrite (d : Device) (id : Nat) (c : Conn) (psn link : Nat) (f : Frame) : Device :=
  let a := accessOf f.ext
  (d.rxWaits id psn).sendThrough c.paddock 0 c.home f.cls.toNat
    { size := f.payload.length, cls := f.cls.toNat, link := some link, address := a.address, data := f.payload,
      kind := .packet id psn a.index a.bell }
    fun d => d.refuseWrite id psn f.cls.toNat a.index

/-- The request held for the first PSN not yet passed runs: a flag, read or atomic joins its window, and a read of the FABRIC
page is answered. -/
def Device.runHeld (d : Device) (id : Nat) (c : Conn) (h : HeldPacket) : Device :=
  let a := accessOf h.frame.ext
  let cls := h.frame.cls.toNat
  if h.opcode = 2 then (d.rxArrived id h.psn).queueWrite id c h.psn h.link h.frame
  else if c.mgmt then (d.rxArrived id h.psn).answerPage id h.psn h.frame
  else
    (d.rxWaits id h.psn).sendThrough c.paddock 0 c.home cls
      { size := h.frame.payload.length, cls := cls, link := none, address := a.address, data := [], kind := .request id h.psn }
      fun d => (d.refusePsn id h.psn cls).accessDone a.index

/-- The stream goes on from the first PSN not yet placed or refused, as far as it can; `fuel` bounds the PSNs passed. -/
def Device.progressRx (id : Nat) : Nat → Device → Device
  | 0, d => d
  | fuel + 1, d =>
    match d.conn id with
    | none => d
    | some c =>
      if c.rxSeen.contains c.rxNext && !c.rxQueued.contains c.rxNext then
        match c.held.find? fun h => decide (h.psn = c.rxNext) with
        | some h => Device.progressRx id fuel (d.runHeld id c h)
        | none => Device.progressRx id fuel (d.passPsn id c)
      else d

/-- A stream whose packet has been placed goes on; an ACK is due for what it has passed. -/
def Device.streamPlaced (d : Device) (id : Nat) : Device :=
  let before : Nat := ((d.conn id).map (·.rxNext)).getD 0
  let d1 := Device.progressRx id 600 d
  let after : Nat := ((d1.conn id).map (·.rxNext)).getD 0
  let d2 := if before < after then
      d1.updConn id fun c =>
        { c with unackedSince := some (c.unackedSince.getD d.now),
                 oldestEcho := if c.unackedSince.isNone then c.lastEcho else c.oldestEcho,
                 oldestOwd := if c.unackedSince.isNone then c.lastOwd else c.oldestOwd }
    else d1
  d2.closeIfDrained id

/-- An earlier PSN of a stream is still missing. -/
def Conn.gapBelow (c : Conn) (psn : Nat) : Bool :=
  (List.range (psn - c.rxNext)).any fun i => !c.rxSeen.contains (c.rxNext + i)

/-- A new packet of a stream has been received: an ACK goes out after every `ack_every`, with ACK_NOW or a gap, and is due
otherwise. -/
def Device.noteArrival (d : Device) (id : Nat) (x : Arrived) (gap : Bool) : Device :=
  let d1 := d.updConn id fun c =>
    { c with unacked := c.unacked + 1, unackedSince := some (c.unackedSince.getD x.at'), lastEcho := x.sent, lastOwd := x.owd,
             oldestEcho := if c.unackedSince.isNone then x.sent else c.oldestEcho,
             oldestOwd := if c.unackedSince.isNone then x.owd else c.oldestOwd }
  match d1.conn id with
  | none => d1
  | some c =>
    if c.ackEvery ≤ c.unacked ∨ x.frame.flags.getLsbD 3 ∨ gap then d1.sendAck id x.frame.cls.toNat x.sent x.owd else d1

/-- A PSN counts as received. -/
def Device.seePsn (d : Device) (id psn : Nat) : Device :=
  d.updConn id fun c => { c with rxSeen := c.rxSeen ++ [psn] }

/-- The bell of a message is kept with its LAST packet; with a refused LAST packet it does not ring. -/
def Device.keepBell (d : Device) (id psn : Nat) (x : Arrived) (refused : Bool) : Device :=
  let a := accessOf x.frame.ext
  if x.opcode = 1 ∨ x.opcode = 2 then
    if x.frame.flags.getLsbD 1 then
      d.updConn id fun c =>
        { c with rings := c.rings ++ [(psn, a.address, if refused then noBell else a.bell, a.inc)] }
    else if refused then d.updConn id fun c => { c with refusedRx := c.refusedRx ++ [psn] }
    else d
  else d

/-- A refused packet: PAGE_WAIT is noted with its exposure and rings its bell; a final refusal consumes the PSN. A full receive
share refuses with RX_FULL and counts in `drop_full` (R308, R319, R382, log entry 56). -/
def Device.refusePacket (d : Device) (id : Nat) (c : Conn) (x : Arrived) (psn code : Nat) : Device :=
  let a := accessOf x.frame.ext
  let d1 := d.sendNak id x.frame.cls.toNat psn code
  if code = 7 then
    match d1.exposure a.index with
    | none => d1
    | some e =>
      let off := (d1.pageMissing e a.address x.bytes).getD 0
      let d2 := d1.updExposure a.index fun e => { e with pageWaits := e.pageWaits + 1, lastWait := off }
      if e.missBell = 0xFFFF then d2
      else d2.perform [.ring e.paddock (65536 + 1024 * x.die + e.missBell) 1 (d.src (srcNet x.die 0))]
  else if code = 9 then (if x.opcode = 1 ∨ x.opcode = 2 then d1.countLink x.link 6 else d1)
  else (((d1.seePsn id psn).keepBell id psn x true).noteArrival id x (c.gapBelow psn)).streamPlaced id

/-! ### Management commands (R76, R77) -/

/-- The queue entry a MGMT_CMD takes: for MBX_NEXT the one that holds the rest of a response, else the first that is idle. -/
def Device.mgmtEntry (d : Device) (opcode : Nat) : Option Nat :=
  let idle := (List.range 16).filter fun e => decide ((d.paths.box (pathOf .fabric e)).status = .idle)
  let rests := idle.filter fun e => !(d.paths.box (pathOf .fabric e)).rest.isEmpty
  if opcode = 1 ∧ rests ≠ [] then rests.head? else idle.head?

/-- A command of the bound fabric manager is accepted in a queue entry and executed. -/
def Device.mgmtCommand (d : Device) (psn : Nat) (payload : List Byte) : Device :=
  let opcode := fieldU16 payload 0
  match d.mgmtEntry opcode with
  | none => d
  | some e =>
    let path := pathOf .fabric e
    let d1 := (d.updBox path fun b => { b with cmd := payload, psn := psn }).acceptBox path opcode
    if d1.serves path then d1.executeStored path else d1

/-- A duplicate MGMT_CMD draws its kept response (R77). -/
def Device.mgmtAgain (d : Device) (psn : Nat) (payload : List Byte) : Device :=
  match d.keptFor .fabric (padTo 32 (payload.take 32)), d.mgmtEntry 0 with
  | some k, some e =>
    let path := pathOf .fabric e
    (d.updBox path fun b => { b with cmd := payload, psn := psn }).deliver path k.response k.rest
  | _, _ => d

/-! ### Packets of a connection -/

/-- A SEND that is refused after all gives its RECV back to the ring (R174, R329). -/
def Device.refuseSend (d : Device) (id psn cls ring index address len : Nat) : Device :=
  (d.refusePsn id psn cls).updRing ring fun r => { r with recvs := (index, address, len) :: r.recvs }

/-- A SEND takes the oldest posted RECV of the connection's ring; its data joins the queue of the window to the buffer (R329). -/
def Device.takeSend (d : Device) (id : Nat) (c : Conn) (psn link : Nat) (f : Frame) : Device :=
  match (d.ring c.recvRing).bind fun r => r.recvs.head? with
  | none => d
  | some e =>
    let d1 := d.updRing c.recvRing fun r => { r with recvs := r.recvs.drop 1 }
    (d1.rxWaits id psn).sendThrough c.paddock 0 c.home f.cls.toNat
      { size := f.payload.length, cls := f.cls.toNat, link := some link, address := e.2.1, data := f.payload,
        kind := .recv id psn c.recvRing e.1 e.2.1 e.2.2 }
      fun d => d.refuseSend id psn f.cls.toNat c.recvRing e.1 e.2.1 e.2.2

/-- What an accepted packet does at once: writes join their window, flags, reads and atomics are held for their turn, the
others are done. -/
def Device.acceptPacket (d : Device) (id : Nat) (c : Conn) (x : Arrived) (psn : Nat) : Device :=
  let index := (accessOf x.frame.ext).index
  let d0 := if accessOpcode x.opcode && !c.pageAccess x.opcode then
      d.updExposure index fun e => { e with inUse := e.inUse + 1, accesses := e.accesses + 1 }
    else d
  match x.opcode with
  | 0x01 =>
    if c.mgmt then d0.pageWrite .fabric (accessOf x.frame.ext).address x.frame.payload
    else d0.queueWrite id c psn x.link x.frame
  | 0x07 => d0.takeSend id c psn x.link x.frame
  | 0x21 => d0.mgmtCommand psn x.frame.payload
  | 0x23 => d0.droveMessage id (droveMsgOf x.frame.payload) x.at'
  | _ => d0.updConn id fun c => { c with held := c.held ++ [{ psn := psn, opcode := x.opcode, frame := x.frame, link := x.link }] }

/-- A READ_REQ that came again joins its window anew (R322). -/
def Device.readAgain (d : Device) (id : Nat) (c : Conn) (psn : Nat) (f : Frame) : Device :=
  let a := accessOf f.ext
  d.sendThrough c.paddock 0 c.home f.cls.toNat
    { size := 0, cls := f.cls.toNat, link := none, address := a.address, data := [], kind := .again id psn a.length }
    fun d => d.sendOn id 0x04 f.cls.toNat psn (responseExt psn 0 1) []

/-- A duplicate draws an ACK; a duplicate read runs again, a duplicate atomic is answered from the cache, a duplicate
command from the kept responses (R322). -/
def Device.duplicate (d : Device) (id : Nat) (c : Conn) (x : Arrived) (psn : Nat) : Device :=
  let d1 := d.sendAck id x.frame.cls.toNat x.sent x.owd
  if c.held.any fun h => decide (h.psn = psn) then d1
  else match x.opcode with
    | 0x03 =>
      let code := d1.refusal c x
      if code = 0 then (if c.mgmt then d1.answerPage id psn x.frame else d1.readAgain id c psn x.frame)
      else d1.sendOn id 0x04 x.frame.cls.toNat psn (responseExt psn 0 code) []
    | 0x05 =>
      match c.atomics.find? fun a => decide (a.1 = psn) with
      | some a => d1.sendAtomic id x.frame.cls.toNat psn a.2.1 a.2.2
      | none => d1
    | 0x21 => d1.mgmtAgain psn x.frame.payload
    | _ => d1

/-- A sequenced packet of an OPEN or CLOSING connection: steps 5 to 10. -/
def Device.takeSequenced (d : Device) (id : Nat) (x : Arrived) : Device :=
  match d.conn id with
  | none => d
  | some c =>
    let psn := wirePsn c.rxNext x.frame.psn.toNat
    if psn < c.rxNext ∨ c.rxSeen.contains psn then d.duplicate id c x psn
    else if c.rxNext + 256 ≤ psn then d.countLink x.link 7
    else
      let code := d.refusal c x
      if code ≠ 0 then d.refusePacket id c x psn code
      else
        let d1 := ((d.seePsn id psn).keepBell id psn x false).acceptPacket id c x psn
        (d1.noteArrival id x (c.gapBelow psn)).streamPlaced id

/-- An unsequenced frame of a connection. -/
def Device.takeUnsequenced (d : Device) (id : Nat) (x : Arrived) : Device :=
  match x.opcode with
  | 0x04 => d.takeReadResp id x.link x.frame x.at'
  | 0x06 => d.takeAtomicResp id x.link x.frame x.at'
  | 0x10 => d.takeAck id x.frame
  | 0x11 => d.takeNak id x.frame x.at'
  | _ => d

/-- A frame is a command, or an access to the FABRIC page, that the bound fabric manager alone may send: its source,
connection and generation match the binding (R459, R514). -/
def Device.fromManager (d : Device) (f : Frame) : Bool :=
  match d.security.bound with
  | some b => decide (b.1 = f.src.toNat ∧ b.2.1 = f.conn.toNat ∧ b.2.2 = f.gen.toNat)
  | none => false

/-- A frame of a connection whose context is at hand: step 4 on. A command, or an access to the FABRIC page, is taken from
the bound manager alone. -/
def Device.takeFrame (d : Device) (x : Arrived) : Device :=
  let id := x.frame.conn.toNat
  let isSeq := sequenced x.opcode
  match d.conn id with
  | none => d.refuseNoConn x.link x.frame
  | some c =>
    if (c.state = .open ∨ c.state = .closing) ∧ c.gen = x.frame.gen.toNat then
      if (x.opcode = 0x21 ∨ c.pageAccess x.opcode) ∧ !d.fromManager x.frame then d.countLink x.link 4
      else
        let ce := if x.frame.ce then 1 else 0
        let d1 := (((d.countConn id 1).countConn id 6 ce).updConn id fun c =>
          { c with lastUse := x.at', ceCount := c.ceCount + ce }).takeHeader id x.opcode x.frame
        if isSeq then d1.takeSequenced id x else d1.takeUnsequenced id x
    else d.refuseNoConn x.link x.frame

/-- A frame for a connection whose context is not cached waits in the miss buffer of the connection's die (R318). -/
def Device.missFrame (d : Device) (home : Nat) (x : Arrived) : Device :=
  let buffer := (d.net.missBuffers[home]?).getD []
  let id := x.frame.conn.toNat
  if 512 ≤ buffer.length then d.countLink x.link 6
  else
    let entry : MissPacket := { conn := id, link := x.link, opcode := x.opcode, frame := x.frame, arrived := x.at' }
    ((d.mapNet fun n => { n with missBuffers := n.missBuffers.setIfInBounds home (buffer ++ [entry]) }).countConn id
      7).fetchContext id

/-! ### Connectionless frames -/

/-- PEER_NOTE: from a member of a held fold map or a connection's peer; each note is taken once (R436). -/
def Device.takeNote (d : Device) (f : Frame) : Device :=
  let sender := f.src.toNat
  let kind := fieldU8 f.payload 0
  let paddock := fieldU8 f.payload 4
  let stamp := fieldU64 f.payload 16
  let known := d.inSomeFold sender || d.net.conns.any fun c => decide (c.2.peer = sender)
  let key := (sender, paddock, kind, stamp)
  if known && !d.faults.notesSeen.contains key then
    (d.mapFaults fun x => { x with notesSeen := (key :: x.notesSeen).take 64 }).record
      { source := d.src srcFirmware, code := 0x8009, sub := kind, aux := sender,
        addr := paddock % 64 * 2 ^ 40 + leValue (bytesAt f.payload 24 5) }
  else d

/-- A frame is received on a port link (R319). -/
def Device.receive (d : Device) (link : Fin 64) (opcode : Nat) (f : Frame) : Device :=
  let l := link.val
  if (d.link l).state ≠ .up then d
  else
    let d1 := (d.countLink l 3).traced 8 l f.psn.toNat (f.conn.toNat % 0x100000 + 0x1000000 * opcode) 0xFF (d.src (srcLink l))
    let x : Arrived := { link := l, opcode := opcode, frame := f, at' := d.now }
    if !frameFits opcode f then d1.countLink l 4
    else if !d1.addressed opcode f d.now then d1.countLink l 5
    else if opcode = 0x20 then (if fieldU8 f.payload 0 = 1 then d1.answerSync l f else d1.takeSync f)
    else if opcode = 0x24 then d1.takeNote f
    else match d1.conn f.conn.toNat with
      | some c => if c.cached then d1.takeFrame x else d1.missFrame c.home x
      | none => d1.takeFrame x

/-- A frame whose payload's first byte is fixed by its row: a sync frame's or a drove message's `type`. -/
def typed (type : Nat) (f : Frame) : Frame := { f with payload := overwrite f.payload 0 [BitVec.ofNat 8 type] }

/-! ### The rows -/

/-- A WRITE frame arrives. -/
def execWrite (link : Fin 64) (f : Frame) (s : State) : Outcome := .next (s.on (·.receive link 0x01 f))

/-- A WRITE_FLAG frame arrives. -/
def execWriteFlag (link : Fin 64) (f : Frame) (s : State) : Outcome := .next (s.on (·.receive link 0x02 f))

/-- A READ_REQ frame arrives. -/
def execReadReq (link : Fin 64) (f : Frame) (s : State) : Outcome := .next (s.on (·.receive link 0x03 f))

/-- A READ_RESP frame arrives. -/
def execReadResp (link : Fin 64) (f : Frame) (s : State) : Outcome := .next (s.on (·.receive link 0x04 f))

/-- An ATOMIC frame arrives. -/
def execAtomic (link : Fin 64) (f : Frame) (s : State) : Outcome := .next (s.on (·.receive link 0x05 f))

/-- An ATOMIC_RESP frame arrives. -/
def execAtomicResp (link : Fin 64) (f : Frame) (s : State) : Outcome := .next (s.on (·.receive link 0x06 f))

/-- A SEND frame arrives. -/
def execSend (link : Fin 64) (f : Frame) (s : State) : Outcome := .next (s.on (·.receive link 0x07 f))

/-- An ACK frame arrives. -/
def execAck (link : Fin 64) (f : Frame) (s : State) : Outcome := .next (s.on (·.receive link 0x10 f))

/-- A NAK frame arrives. -/
def execNak (link : Fin 64) (f : Frame) (s : State) : Outcome := .next (s.on (·.receive link 0x11 f))

/-- A SYNC_REQ frame arrives. -/
def execSyncReq (link : Fin 64) (f : Frame) (s : State) : Outcome := .next (s.on (·.receive link 0x20 (typed 1 f)))

/-- A SYNC_RESP frame arrives. -/
def execSyncResp (link : Fin 64) (f : Frame) (s : State) : Outcome := .next (s.on (·.receive link 0x20 (typed 2 f)))

/-- A MGMT_CMD frame arrives. -/
def execMgmtCmd (link : Fin 64) (f : Frame) (s : State) : Outcome := .next (s.on (·.receive link 0x21 f))

/-- A PEER_NOTE frame arrives. -/
def execPeerNote (link : Fin 64) (f : Frame) (s : State) : Outcome := .next (s.on (·.receive link 0x24 f))

/-- A PULL_PAGES message arrives. -/
def execPullPages (link : Fin 64) (f : Frame) (s : State) : Outcome := .next (s.on (·.receive link 0x23 (typed 1 f)))

/-- A PAGES_HELD message arrives. -/
def execPagesHeld (link : Fin 64) (f : Frame) (s : State) : Outcome := .next (s.on (·.receive link 0x23 (typed 2 f)))

/-- A PULL_RECORD message arrives. -/
def execPullRecord (link : Fin 64) (f : Frame) (s : State) : Outcome := .next (s.on (·.receive link 0x23 (typed 3 f)))

/-- A RECORD message arrives. -/
def execRecord (link : Fin 64) (f : Frame) (s : State) : Outcome := .next (s.on (·.receive link 0x23 (typed 4 f)))

/-- A CONFIRM message arrives. -/
def execConfirm (link : Fin 64) (f : Frame) (s : State) : Outcome := .next (s.on (·.receive link 0x23 (typed 5 f)))

/-- A RELEASED message arrives. -/
def execReleased (link : Fin 64) (f : Frame) (s : State) : Outcome := .next (s.on (·.receive link 0x23 (typed 6 f)))

/-- An ABORT message arrives. -/
def execAbort (link : Fin 64) (f : Frame) (s : State) : Outcome := .next (s.on (·.receive link 0x23 (typed 7 f)))

/-- A REFUSE message arrives. -/
def execRefuse (link : Fin 64) (f : Frame) (s : State) : Outcome := .next (s.on (·.receive link 0x23 (typed 8 f)))

/-- A RETAG message arrives. -/
def execRetag (link : Fin 64) (f : Frame) (s : State) : Outcome := .next (s.on (·.receive link 0x23 (typed 9 f)))

/-- A RETAG_DONE message arrives. -/
def execRetagDone (link : Fin 64) (f : Frame) (s : State) : Outcome := .next (s.on (·.receive link 0x23 (typed 10 f)))

/-- A RELEASE_PAGES message arrives. -/
def execReleasePages (link : Fin 64) (f : Frame) (s : State) : Outcome := .next (s.on (·.receive link 0x23 (typed 11 f)))

/-- A RELEASE_DONE message arrives. -/
def execReleaseDone (link : Fin 64) (f : Frame) (s : State) : Outcome := .next (s.on (·.receive link 0x23 (typed 12 f)))

end Sys2Proof.Machine
end

