-- ==== Sys2Proof/Machine/Endpoint.lean ====
section
/-! DEFINITION. A remote access once it has left its block: the refusals of its network die, its packet, and a LOCAL access at
its die's endpoint (R334 to R348). -/

namespace Sys2Proof.Machine

/-! ### The access (R338, R339) -/

/-- Local address of an access. -/
def RemoteAccess.target (a : RemoteAccess) : Nat := a.address % 2 ^ 46

/-- Payload bytes of an access's request (R338, R339). -/
def RemoteAccess.payload (a : RemoteAccess) : Nat :=
  match a.op with
  | .load => 0
  | .get => 0
  | .atomic => 16
  | .put => a.len
  | _ => 8

/-- The local refusal an access meets, 0 for none (R334, R337, R344). -/
def Device.localRefusal (d : Device) (a : RemoteAccess) : Nat :=
  let device := a.address / 2 ^ 46
  if a.asked.isLocal then (if d.deviceId = some device then 0 else 1)
  else
    match d.conn a.conn with
    | none => 0x0A
    | some k =>
      if k.state = .error then (if k.paddock = a.paddock then 0x20 else 0x0A)
      else if k.state ≠ .open ∨ k.paddock ≠ a.paddock then 0x0A
      else if !d.inMap k then 8
      else if device ≠ k.peer then 1
      else if a.asked.secure != d.isSecure k.paddock then 6
      else 0

/-- The transport request of an access (R338). -/
def Device.remotePacket (d : Device) (a : RemoteAccess) : Outgoing :=
  let x := a.asked
  let cls := if x.cls = 0xFF then ((d.conn a.conn).map (·.cls)).getD 1 else x.cls
  let base : Outgoing := { opcode := 1, cls := cls, origin := .remote a.id }
  let ext := fun (bell inc aop : Nat) => accessExt a.target x.key bell inc aop 0 a.len
  match a.op with
  | .load => { base with opcode := 3, ext := ext noBell 0 0, wants := true }
  | .get => { base with opcode := 3, ext := ext noBell 0 0, wants := true }
  | .store => { base with ext := ext noBell 0 0, payload := leBytes 8 x.value.toNat }
  | .put => { base with ext := ext noBell 0 0, payload := x.data }
  | .flag => { base with opcode := 2, ext := ext x.bell x.inc 0, payload := leBytes 8 x.value.toNat }
  | .atomic =>
    { base with opcode := 5, ext := ext noBell 0 x.aop, wants := true,
                payload := leBytes 8 x.value.toNat ++ leBytes 8 x.compare.toNat }

/-! ### LOCAL contexts (R348) -/

/-- Transport opcode of a request. -/
def RemoteOp.opcode : RemoteOp → Nat
  | .load => 3
  | .get => 3
  | .store => 1
  | .put => 1
  | .flag => 2
  | .atomic => 5

/-- An operation is answered with data. -/
def RemoteOp.answers (op : RemoteOp) : Bool := decide (op = .load ∨ op = .get ∨ op = .atomic)

/-- Class by which a LOCAL access finds the window to its target; 16 for none in particular. -/
def Asked.windowClass (x : Asked) : Nat := if x.cls = 0xFF then 16 else x.cls

/-- The refusal of the endpoint's checks against the device's own exposures, 0 for none: the exposure, the address, its
windows to and from the die and the bell of a flag. -/
def Device.endpointRefusal (d : Device) (a : RemoteAccess) : Nat :=
  let x := a.asked
  match d.exposure (x.key % 0x100000) with
  | none => 2
  | some e =>
    if e.key ≠ x.key ∨ e.paddock ≠ a.paddock then 2
    else if e.state = .revoking ∧ e.revokeAt ≤ d.now ∨ e.state ≠ .live ∧ e.state ≠ .revoking then 3
    else if a.target < e.base ∨ e.base + e.length < a.target + a.len then 4
    else if !e.rights.getLsbD (rightBit a.op.opcode) then 5
    else if (e.world == .secure) != d.isSecure a.paddock then 6
    else if (d.pageMissing e a.target a.len).isSome then 7
    else
      match d.windowFor a.paddock 0 x.home a.target x.windowClass with
      | none => 1
      | some w =>
        let bellFits := decide (a.op ≠ .flag ∨ x.bell = noBell) || !inBuffers a.target 1 ||
          w.serves 0 x.home (bellAddress x.bell)
        if d.rangeOk a.target a.len && (decide (a.op ≠ .atomic) || !inBuffers a.target 8) && !d.routeDown w && bellFits &&
          (!a.op.answers || d.outCarries a.paddock x.home a.target a.len) then (if d.isFaulted a.paddock then 0x0B else 0) else 1

/-- A PAGE_WAIT is noted with its exposure and rings its bell (R330). -/
def Device.notePageWait (d : Device) (a : RemoteAccess) : Device :=
  let index := a.asked.key % 0x100000
  match d.exposure index with
  | none => d
  | some e =>
    let off := (d.pageMissing e a.target a.len).getD 0
    let d1 := d.updExposure index fun e => { e with pageWaits := e.pageWaits + 1, lastWait := off }
    if e.missBell = 0xFFFF then d1
    else d1.perform [.ring e.paddock (65536 + 1024 * a.asked.home + e.missBell) 1 (d.src (srcNet a.asked.home 0))]

/-- A LOCAL access reaches its endpoint: refused there, or on its way to its target. One that meets an unmapped page waits for its
bound, a store is lost (log entry 40). -/
def Device.localArrives (d : Device) (a : RemoteAccess) : Device :=
  let refused := d.endpointRefusal a
  if refused = 7 then
    let d1 := d.notePageWait a
    if a.op.answers then d1 else d1.endRemote a.id (.refused 7)
  else if refused ≠ 0 then d.endRemote a.id (.refused refused)
  else
    let index := a.asked.key % 0x100000
    (d.updExposure index fun e => { e with accesses := e.accesses + 1, inUse := e.inUse + 1 }).sendThrough a.paddock 0
      a.asked.home a.asked.windowClass
      { size := a.payload, cls := (if a.asked.cls = 0xFF then 1 else a.asked.cls), link := none, address := a.target, data := [],
        kind := .served a.id index }
      fun d => (d.endRemote a.id (.refused 1)).accessDone index

/-- The answer of a LOCAL access leaves its target for the endpoint. -/
def Device.localAnswers (d : Device) (a : RemoteAccess) (data : List Byte) : Device :=
  d.sendThrough a.paddock 1 a.asked.home 16
    { size := data.length, cls := (if a.asked.cls = 0xFF then 1 else a.asked.cls), link := none, address := a.target, data := data,
      kind := .localAnswer a.id }
    fun d => d.endRemote a.id (.refused 1)

/-- A LOCAL access takes effect at its target. -/
def Device.localEffect (d : Device) (a : RemoteAccess) : Device :=
  let x := a.asked
  let source := d.src (srcNet x.home 1)
  match a.op with
  | .store => (d.store a.target (leBytes 8 x.value.toNat)).endRemote a.id (.answered [])
  | .put => (d.store a.target x.data).endRemote a.id (.answered [])
  | .flag =>
    let d1 := (d.store a.target (leBytes 8 x.value.toNat)).endRemote a.id (.answered [])
    if x.bell = noBell ∨ x.inc = 0 ∨ 65536 ≤ x.bell then d1
    else if inBuffers a.target 1 then d1.perform [.ring a.paddock x.bell x.inc source]
    else d1.ringThrough a.paddock x.home x.bell x.inc source
  | .atomic =>
    let r := d.doAtomic a.paddock source a.target x.aop x.value x.compare
    match r.2 with
    | none => r.1.endRemote a.id (.refused 0x0B)
    | some old => r.1.localAnswers a (leBytes 8 old.toNat)
  | _ =>
    let r := d.checkedRead a.target a.len source a.paddock
    match r.2 with
    | some report => (r.1.strike a.paddock report).endRemote a.id (.refused 0x0B)
    | none => r.1.localAnswers a (r.1.load a.target a.len)

/-- A LOCAL access has come through its window. -/
def Device.serveLocal (d : Device) (id index : Nat) : Device :=
  match d.remoteAccess id with
  | none => d.accessDone index
  | some a => (d.localEffect a).accessDone index

/-! ### Leaving the block (R150, R339, R344) -/

/-- A remote access has left the mesh: its thread goes on unless it waits for an answer; its network die refuses it, serves it,
or posts its request. -/
def Device.remoteLeaves (d : Device) (id : Nat) : Device :=
  match d.remoteAccess id with
  | none => d
  | some a =>
    if a.expired then d.dropRemote id else
      let d1 := d.requestLeft a
      let refused := d1.localRefusal a
      if refused ≠ 0 then d1.endRemote id (.refused refused)
      else if a.asked.isLocal then d1.localArrives a
      else d1.post a.conn [d1.remotePacket a]

end Sys2Proof.Machine
end

