-- ==== Sys2Proof/Machine/Prefix.lean ====
section
/-! DEFINITION. The prefix tree's descriptors and TIER_MOVE (R296 to R301). -/

namespace Sys2Proof.Machine

/-! ### The node table (R296, R297) -/

/-- A paddock's prefix configuration by name. -/
structure PrefixTree where
  /-- `table_log2`. -/
  log2 : Nat
  /-- `max_probe`. -/
  probes : Nat
  /-- `pool`. -/
  pool : Nat
  /-- `table`. -/
  table : Nat
  /-- `owner`. -/
  owner : Nat
  deriving DecidableEq, Repr

/-- The prefix tree of a paddock. -/
def Device.prefixTree (d : Device) (p : Nat) : Option PrefixTree :=
  (d.droveState p).prefixCfg.map fun c => { log2 := c.1, probes := c.2.1, pool := c.2.2.1, table := c.2.2.2.1, owner := c.2.2.2.2 }

/-- Address of a node. -/
def PrefixTree.node (t : PrefixTree) (i : Nat) : Nat := t.table + 64 * (i % 2 ^ t.log2)

/-- `key` of a node. -/
def Device.nodeKey (d : Device) (t : PrefixTree) (i : Nat) : Nat := d.loadLe (t.node i) 8
/-- `flags` of a node. -/
def Device.nodeFlags (d : Device) (t : PrefixTree) (i : Nat) : Nat := d.loadLe (t.node i + 14) 1
/-- A node is VALID. -/
def Device.nodeValid (d : Device) (t : PrefixTree) (i : Nat) : Bool := bitOf (d.nodeFlags t i) 0
/-- A node is TOMB. -/
def Device.nodeTomb (d : Device) (t : PrefixTree) (i : Nat) : Bool := bitOf (d.nodeFlags t i) 1
/-- `refs` of a node. -/
def Device.nodeRefs (d : Device) (t : PrefixTree) (i : Nat) : Nat := d.loadLe (t.node i + 24) 4
/-- `children` of a node. -/
def Device.nodeChildren (d : Device) (t : PrefixTree) (i : Nat) : Nat := d.loadLe (t.node i + 28) 4
/-- `set` of a node. -/
def Device.nodeSet (d : Device) (t : PrefixTree) (i : Nat) : Nat := d.loadLe (t.node i + 16) 8

/-- The key of a chunk from the key before it and its 16 token ids (R297). -/
def chunkKey (before : Nat) (tokens : List Byte) : Nat :=
  let k := leValue (shake256 (leBytes 8 before ++ tokens) 8)
  if k = 0 then 1 else k

/-- The keys of the first `n` chunks of a token list. -/
def Device.chunkKeys (d : Device) (tokens : Nat) : Nat → Nat → List Nat
  | 0, _ => []
  | n + 1, before =>
    let k := chunkKey before (d.load tokens 64)
    k :: Device.chunkKeys d (tokens + 64) n k

/-- A probe for a key: the VALID node that holds it, or none with the node a new one may take: the first TOMB met, else the
empty node that ended the probe. -/
def Device.probe (d : Device) (t : PrefixTree) (key : Nat) : Nat → Nat → Option Nat → Option Nat × Option Nat
  | 0, _, tomb => (none, tomb)
  | n + 1, i, tomb =>
    if d.nodeValid t i ∧ d.nodeKey t i = key then (some (i % 2 ^ t.log2), tomb)
    else if d.nodeTomb t i then d.probe t key n (i + 1) (tomb.or (some (i % 2 ^ t.log2)))
    else if d.nodeKey t i = 0 then (none, tomb.or (some (i % 2 ^ t.log2)))
    else d.probe t key n (i + 1) tomb

/-- A key looked up from its home index. -/
def Device.findKey (d : Device) (t : PrefixTree) (key : Nat) : Option Nat × Option Nat :=
  d.probe t key t.probes (key % 2 ^ t.log2) none

/-- One pin more on a node. -/
def Device.pinNode (d : Device) (t : PrefixTree) (i : Nat) : Device := d.storeLe (t.node i + 24) 4 (d.nodeRefs t i + 1)

/-! ### What PREFIX_LOOKUP and PREFIX_INSERT share (R298) -/

/-- Chunks of a descriptor; a partial last one is ignored. -/
def chunksOf (b : List Byte) : Nat := fieldU32 b 24 / 16

/-- Checks of their common fields. -/
def Device.prefixChecks (d : Device) (j : Job) : List Check :=
  let b := j.bytes
  [sizeIn 24 16 1048576 (fieldU32 b 24), d.localEnd j (fieldU64 b 16) (4 * fieldU32 b 24) 24,
    d.droveAddress j 16 1 1, flagsIn b 28 1, reserved b 29 3, reserved b 44 4, reserved b 56 8]

/-- The paddock has a prefix tree. -/
def Device.treePresent (d : Device) (p : Nat) : Check := require (d.prefixTree p).isSome resBadState

/-- The end of a walk: the deepest node is pinned with PIN, and `detail` carries chunks and node. -/
def Device.endWalk (d : Device) (j : Job) (t : PrefixTree) (chunks : Nat) (deepest : Option Nat) : Device :=
  let d1 := match deepest with
    | some i => if bitOf (fieldU8 j.bytes 28) 0 then d.pinNode t i else d
    | none => d
  d1.finish j resOk 0 (chunks + 2 ^ 32 * deepest.getD noNode)

/-- The token list is read for a walk. -/
def Device.readTokens (d : Device) (j : Job) : Device × Option Report :=
  d.checkedRead (fieldU64 j.bytes 16) (64 * chunksOf j.bytes) (d.src (walkerSource j.ring)) j.paddock

/-! ### PREFIX_LOOKUP (R298) -/

/-- The nodes that match a list of keys, up to the first miss. -/
def Device.matched (d : Device) (t : PrefixTree) : List Nat → List Nat
  | [] => []
  | k :: ks =>
    match (d.findKey t k).1 with
    | none => []
    | some i => i :: d.matched t ks

/-- A lookup's walk: the output table, the nodes' stamps, the pin. -/
def Device.lookup (d : Device) (j : Job) (t : PrefixTree) (c : ServeConfig) : Device :=
  let b := j.bytes
  let out := fieldU64 b 32
  let nodes := d.matched t (d.chunkKeys (fieldU64 b 16) (chunksOf b) 0)
  let entries := (List.range nodes.length).flatMap fun i => setEntry (d.nodeSet t (nodes.getD i 0)) (16 * i) 16 1
  let d1 := d.store out (tableHeader nodes.length (fieldU32 b 40) (d.tableCapacity out) (fieldU64 b 48) c ++ entries)
  let d2 := nodes.foldl (fun d i => d.storeLe (t.node i + 40) 8 d.now) d1
  d2.endWalk j t nodes.length nodes.getLast?

/-- PREFIX_LOOKUP. -/
def kindLookup : DescKind :=
  { type := 0x24,
    check := fun d j =>
      let b := j.bytes
      let out := fieldU64 b 32
      endIn (d.prefixChecks j ++ [d.droveAddress j 32 64 1,
        require (decide (chunksOf b ≤ d.tableCapacity out)) resBadLength 24, d.localEnd j out (64 + 16 * chunksOf b) 24,
        d.treePresent j.paddock, require (d.serving j.paddock).cfg.isSome resBadState]),
    run := fun d j =>
      let r := d.readTokens j
      match r.2, d.prefixTree j.paddock, (d.serving j.paddock).cfg with
      | some report, _, _ => r.1.failTransfer j report
      | none, some t, some c => r.1.lookup j t c
      | _, _, _ => r.1.finish j resBadState }

/-! ### PREFIX_INSERT (R299) -/

/-- Table entry i may be adopted: it exists, is complete, and its set is in the prefix pool. -/
def Device.adoptable (d : Device) (p : Nat) (t : PrefixTree) (table i : Nat) : Bool :=
  let r := d.loadLe (entryAt table i) 8
  decide (i < d.tableEntries table ∧ d.loadLe (entryAt table i + 12) 1 = 16 ∧ refDevice r = d.deviceId.getD 0 ∧
    refPaddock r = p ∧ pagePool (refPage r) = t.pool ∧ i < 65535)

/-- A new node in the tree: its fields, its set's owner word and its parent's count. -/
def Device.addNode (d : Device) (p : Nat) (t : PrefixTree) (node key depth ref : Nat) (parent : Option Nat) : Device :=
  let d1 := d.store (t.node node) (leBytes 8 key ++ leBytes 4 (parent.getD noNode) ++ leBytes 2 depth ++ leBytes 1 1 ++ zeros 1 ++
    leBytes 8 ref ++ leBytes 4 0 ++ leBytes 4 0 ++ leBytes 8 d.now ++ leBytes 8 0 ++ zeros 16)
  let d2 := match d1.ownerWordAt p (refPage ref) with
    | some a => d1.storeLe a 4 node
    | none => d1
  match parent with
  | some i => d2.storeLe (t.node i + 28) 4 (d2.nodeChildren t i + 1)
  | none => d2

/-- The walk of an insert: the chunks reached, the deepest node, and the device. -/
def Device.insertWalk (p : Nat) (t : PrefixTree) (table : Nat) : Nat → Option Nat → List Nat → Device → Nat × Option Nat × Device
  | i, parent, [], d => (i, parent, d)
  | i, parent, k :: ks, d =>
    let found := d.findKey t k
    match found.1, found.2 with
    | some n, _ => Device.insertWalk p t table (i + 1) (some n) ks d
    | none, some free =>
      if d.adoptable p t table i then
        Device.insertWalk p t table (i + 1) (some free) ks
          (d.addNode p t free k (i + 1) (d.loadLe (entryAt table i) 8) parent)
      else (i, parent, d)
    | none, none => (i, parent, d)

/-- PREFIX_INSERT. -/
def kindInsert : DescKind :=
  { type := 0x25,
    check := fun d j =>
      let b := j.bytes
      let table := fieldU64 b 32
      endIn (d.prefixChecks j ++ [d.droveAddress j 32 64 1, require (d.tableCovered j.paddock table) resBadArgument 32,
        require (decide (fieldU32 b 40 = d.tableEpoch table)) resBadArgument 40, reserved b 48 8, d.treePresent j.paddock]),
    run := fun d j =>
      let b := j.bytes
      let r := d.readTokens j
      match r.2, d.prefixTree j.paddock with
      | some report, _ => r.1.failTransfer j report
      | none, some t =>
        let w := Device.insertWalk j.paddock t (fieldU64 b 32) 0 none (r.1.chunkKeys (fieldU64 b 16) (chunksOf b) 0) r.1
        w.2.2.endWalk j t w.1 w.2.1
      | none, none => r.1.finish j resBadState }

/-! ### PREFIX_UNPIN and PREFIX_EVICT (R300) -/

/-- PREFIX_UNPIN. -/
def kindUnpin : DescKind :=
  { type := 0x26,
    check := fun d j =>
      let i := fieldU32 j.bytes 16
      endIn [(match d.prefixTree j.paddock with
          | none => none
          | some t => require (decide (i < 2 ^ t.log2)) resBadArgument 16), reserved j.bytes 20 44, d.treePresent j.paddock,
        (match d.prefixTree j.paddock with
          | none => none
          | some t => require (decide (d.nodeRefs t i ≠ 0)) resBadState)],
    run := fun d j => (d.unpinNode j.paddock (fieldU32 j.bytes 16)).finish j resOk }

/-- The node an evict takes next: unpinned, childless, least recently used, the lowest index among equals. -/
def Device.evictable (d : Device) (t : PrefixTree) : Option Nat :=
  leastBy (fun i => d.loadLe (t.node i + 40) 8)
    ((List.range (2 ^ t.log2)).filter fun i =>
      d.nodeValid t i && decide (d.nodeRefs t i = 0 ∧ d.nodeChildren t i = 0))

/-- A node leaves the tree: TOMB, its parent's count, its set's owner word, its set to the stack. -/
def Device.evictNode (d : Device) (p : Nat) (t : PrefixTree) (i source : Nat) : Device :=
  let parent := d.loadLe (t.node i + 8) 4
  let page := refPage (d.nodeSet t i)
  let d1 := d.storeLe (t.node i + 14) 1 2
  let d2 := if parent = noNode then d1
    else d1.storeLe (t.node parent + 28) 4 (d1.nodeChildren t parent - 1)
  let d3 := match d2.ownerWordAt p page with
    | some a => d2.storeLe a 4 noNode
    | none => d2
  (d3.freeSet p page source).updDrove p fun s => { s with evicted := s.evicted + 1 }

/-- Up to `n` nodes leave the tree, one at a time: how many did. -/
def Device.evictNodes (p : Nat) (t : PrefixTree) (source : Nat) : Nat → Device → Nat × Device
  | 0, d => (0, d)
  | n + 1, d =>
    match d.evictable t with
    | none => (0, d)
    | some i =>
      let r := Device.evictNodes p t source n (d.evictNode p t i source)
      (r.1 + 1, r.2)

/-- PREFIX_EVICT. -/
def kindEvict : DescKind :=
  { type := 0x27,
    check := fun d j => endIn [sizeIn 16 1 65536 (fieldU32 j.bytes 16), reserved j.bytes 20 44, d.treePresent j.paddock],
    run := fun d j =>
      match d.prefixTree j.paddock with
      | none => d.finish j resBadState
      | some t =>
        let r := Device.evictNodes j.paddock t (walkerSource j.ring) (fieldU32 j.bytes 16) d
        r.2.finish j resOk 0 r.1 }

/-! ### TIER_MOVE (R301) -/

/-- Bytes from one bale or raw block of a move to the next, on either side: none without its bindings. -/
def Device.moveStride (d : Device) (j : Job) : Option Nat :=
  if bitOf (fieldU8 j.bytes 40) 0 then some rawBlock
  else (d.binding j.paddock (fieldU16 j.bytes 36)).map fun b => fieldU16 b 4

/-- The two bindings of a move agree in `bale_size`, `book` and STORED. -/
def Device.bindingsAgree (d : Device) (j : Job) : Bool :=
  if bitOf (fieldU8 j.bytes 40) 0 then true
  else
    match d.binding j.paddock (fieldU16 j.bytes 36), d.binding j.paddock (fieldU16 j.bytes 38) with
    | some x, some y =>
      decide (fieldU16 x 4 = fieldU16 y 4 ∧ fieldU8 x 6 = fieldU8 y 6) && (bitOf (fieldU8 x 3) 0 == bitOf (fieldU8 y 3) 0)
    | _, _ => false

/-- A bale stored by a mover under a binding: the spill slot of the bale it replaces is free (R254). -/
def Device.moveBale (d : Device) (b : Binding) (a : Nat) (bale : List Byte) : Device :=
  let held := d.heldSlot b a
  let d1 := d.store a bale
  match held with
  | some j => d1.setSpillBit b j false
  | none => d1

/-- How one block of a move ended. -/
inductive Moved where
  | ok (d : Device)
  | failed (d : Device) (r : Report)

/-- One bale moves from one binding to another: a spilled one as its raw block, baled anew. -/
def Device.moveOne (d : Device) (j : Job) (src dst : Nat) (x y : Binding) : Moved :=
  let source := d.src (balerSource j.ring)
  let t := d.travelling j.paddock x src
  let judged := d.judgeBale j.paddock source x.tensor src t.1
  match judged.2 with
  | some r => .failed judged.1 r
  | none =>
    if fieldU8 (d.load src 1) 0 = 0xB2 then
      match judged.1.baleTo j.paddock y dst t.2 with
      | some d1 => .ok d1
      | none => .failed judged.1 (spaceReport source j.paddock 0x0E y.tensor dst)
    else .ok (judged.1.moveBale y dst (underTensor t.2 y.tensor))

/-- One raw block moves. -/
def Device.moveRaw (d : Device) (j : Job) (src dst : Nat) : Moved :=
  let r := d.checkedRead src rawBlock (d.src (balerSource j.ring)) j.paddock
  match r.2 with
  | some report => .failed (r.1.poison dst rawBlock) report
  | none => .ok (r.1.store dst (r.1.load src rawBlock))

/-- The bindings between which a move transfers bales, none for raw blocks. -/
def Device.moveBindings (d : Device) (j : Job) : Option (Binding × Binding) :=
  match d.binding j.paddock (fieldU16 j.bytes 36), d.binding j.paddock (fieldU16 j.bytes 38) with
  | some x, some y => if bitOf (fieldU8 j.bytes 40) 0 then none else some (bindingOf x, bindingOf y)
  | _, _ => none

/-- Block `k` of a move waits for its window: IN or OUT from the tier die that holds its tier address, to or from the region that
holds its HBM address; with none the move ends refused (R174, R301). -/
def Device.queueMove (d : Device) (j : Job) (k : Nat) : Device :=
  let stride := (d.moveStride j).getD 0
  let src := fieldU64 j.bytes 16 + k * stride
  let dst := fieldU64 j.bytes 24 + k * stride
  let toHbm := decide (dst < hbmEnd)
  d.sendThrough j.paddock (if toHbm then 0 else 1) (if toHbm then tierEdge src else tierEdge dst) 16
    { size := stride, cls := d.ringClass j.ring, link := none, address := (if toHbm then dst else src), data := [],
      kind := .moved j.ring j.index k }
    fun d => d.finish j resConflict 0 droveWriteRefused

/-- Block `k` of a move moves. -/
def Device.moveBlock (d : Device) (j : Job) (k : Nat) : Moved :=
  let stride := (d.moveStride j).getD 0
  let src := fieldU64 j.bytes 16 + k * stride
  let dst := fieldU64 j.bytes 24 + k * stride
  match d.moveBindings j with
  | some b => d.moveOne j src dst b.1 b.2
  | none => d.moveRaw j src dst

/-- Block `k` of a move has come through its window: it moves, and the next waits in its turn, or the move is done. -/
def Device.moveLands (d : Device) (ring index k : Nat) : Device :=
  match (d.ring ring).bind fun r => (r.inFlight.find? fun i => decide (i.index = index)).map fun i => (r, i) with
  | none => d
  | some (r, i) =>
    let j : Job := { ring := ring, index := index, paddock := r.paddock, bytes := i.bytes }
    if (d.moveStride j).isNone then d.finish j resConflict
    else match d.moveBlock j k with
    | .ok d1 => if k + 1 < fieldU32 i.bytes 32 then d1.queueMove j (k + 1) else d1.finish j resOk
    | .failed d1 report => d1.failTransfer j report

/-- TIER_MOVE: its blocks pass one after another. -/
def kindTierMove : DescKind :=
  { type := 0x28,
    check := fun d j =>
      let b := j.bytes
      let src := fieldU64 b 16
      let dst := fieldU64 b 24
      let n := fieldU32 b 32
      let bytes := n * (d.moveStride j).getD 0
      let sides := (decide (src < hbmEnd) && decide (tierBase ≤ dst)) || (decide (tierBase ≤ src) && decide (dst < hbmEnd))
      endIn [sizeIn 32 1 16777216 n, d.localEnd j src bytes 32, d.localEnd j dst bytes 32, d.droveAddress j 16 1 1,
        d.droveAddress j 24 1 1, require sides resBadArgument 24, inRange 36 0 4095 (fieldU16 b 36),
        inRange 38 0 4095 (fieldU16 b 38), flagsIn b 40 1, reserved b 41 23, require (d.bindingsAgree j) resConflict],
    run := fun d j => d.queueMove j 0 }

/-! ### The rows -/

/-- The ring takes a PREFIX_LOOKUP at its head. -/
def execPrefixLookup (x : Desc) (s : State) : Outcome := .next (s.on (·.runDescriptor kindLookup x))

/-- The ring takes a PREFIX_INSERT at its head. -/
def execPrefixInsert (x : Desc) (s : State) : Outcome := .next (s.on (·.runDescriptor kindInsert x))

/-- The ring takes a PREFIX_UNPIN at its head. -/
def execPrefixUnpin (x : Desc) (s : State) : Outcome := .next (s.on (·.runDescriptor kindUnpin x))

/-- The ring takes a PREFIX_EVICT at its head. -/
def execPrefixEvict (x : Desc) (s : State) : Outcome := .next (s.on (·.runDescriptor kindEvict x))

/-- The ring takes a TIER_MOVE at its head. -/
def execTierMove (x : Desc) (s : State) : Outcome := .next (s.on (·.runDescriptor kindTierMove x))

end Sys2Proof.Machine
end

