-- ==== Sys2Proof/Machine/Stiles.lean ====
section
/-! DEFINITION. Stile flits that fail their CRC, their one replay, and a link that goes DOWN (R16, R422, R424, R440). Links
are numbered 0 to 23 for the mesh and 24 + e for edge stile e. -/

namespace Sys2Proof.Machine

/-- Table of R166 that names a link: 1 mesh, 2 edge. -/
def stileTable (n : Nat) : Nat := if n < 24 then 1 else 2

/-- Number of a link in its table (R166). -/
def stileIndex (n : Nat) : Nat := if n < 24 then n else n - 24

/-- Target by which FAULT_INJECT names a link (R440). -/
def stileTarget (n : Nat) : Nat := if n < 24 then n else 256 + (n - 24)

/-- Region whose router a link stands on, the lower of two for a mesh link (R166). -/
def stileRouter (n : Nat) : Nat :=
  if n < 12 then 4 * (n / 3) + n % 3 else if n < 24 then n - 12 else stileRegion (n - 24)

/-- The link that a hop crosses, none for a router. -/
def Hop.stile (h : Hop) : Option Nat :=
  if h.table = 1 then some h.index else if h.table = 2 then some (24 + h.index) else none

/-- A link is DOWN. -/
def Device.stileIsDown (d : Device) (n : Nat) : Bool :=
  if n < 24 then d.faults.downMesh.contains n else d.faults.downEdge.contains (n - 24)

/-- The record of a replayed flit (R426). -/
def Device.stileReport (d : Device) (n : Nat) (lasting injected : Bool) : Report :=
  { source := d.src (srcRegion (stileRouter n) 1), cls := (if lasting then 2 else 1) + (if injected then 8 else 0), level := 3,
    code := 0x20, sub := stileTable n - 1, aux := stileIndex n, addr := (Table.find d.faults.replays n).getD 0 }

/-- An accepted request that waited for its window is refused NO_ADDRESS. -/
def Device.refuseRequest (d : Device) (conn psn cls : Nat) : Device :=
  match (d.conn conn).bind fun c => c.held.find? fun h => decide (h.psn = psn) with
  | none => d
  | some h => (d.refusePsn conn psn cls).accessDone (accessOf h.frame.ext).index

/-- A TIER_MOVE whose block no window carries ends refused (R174, R278, R301). -/
def Device.refuseMove (d : Device) (ring index : Nat) : Device :=
  d.perform [.done ring index resConflict 0 droveWriteRefused]

/-- A delivery that waited for a window is refused (R174): an incoming packet NO_ADDRESS, which consumes its PSN; an answer with
the status NO_ADDRESS; a host access with an access fault; what leaves the device, as its sender's refusal. -/
def Device.refuseDelivery (d : Device) (x : WinDelivery) : Device :=
  match x.kind with
  | .packet conn psn key _ => (d.refuseWrite conn psn x.cls key).streamPlaced conn
  | .request conn psn => (d.refuseRequest conn psn x.cls).streamPlaced conn
  | .again conn psn _ => d.sendOn conn 0x04 x.cls psn (responseExt psn 0 1) []
  | .recv conn psn ring index address len => (d.refuseSend conn psn x.cls ring index address len).streamPlaced conn
  | .answer conn psn opcode off _ key => (d.sendOn conn opcode x.cls psn (responseExt psn off 1) []).answerDone key
  | .post conn o => d.packetRefused conn (o.packet 0 0) 1
  | .descData ring index => d.descEnds ring index resConflict 1
  | .moved ring index _ => d.refuseMove ring index
  | .remote id => d.endRemote id (.refused 1)
  | .served id key => (d.endRemote id (.refused 1)).accessDone key
  | .localAnswer id => d.endRemote id (.refused 1)
  | .result id => d.endRemote id (.refused 1)
  | .hostStore core => d.emit (.accessFault core)
  | .hostLoad core _ _ => d.emit (.accessFault core)
  | .ring _ _ _ _ => d

/-- Deliveries that wait at windows whose route runs over a DOWN link are refused (R174, R424). -/
def Device.refuseStranded (d : Device) : Device :=
  let dead := fun (e : Nat × WinQueue) =>
    (d.windowsOf (e.1 / 256)).any fun w => decide (w.window = e.1 % 256) && d.routeDown w
  let gone := d.net.windows.filter dead
  let d1 := d.mapNet fun n => { n with windows := n.windows.filter fun e => !dead e }
  (gone.flatMap fun e => e.2.queue ++ e.2.fifo).foldl Device.refuseDelivery d1

/-- A link goes DOWN in both directions: its flags, and every paddock whose resident image claims it, or routes a window
hop over it, goes to FAULTED (R424, R427). -/
def Device.stileGoesDown (d : Device) (n : Nat) (r : Report) : Device :=
  let d1 := d.mapFaults fun f =>
    { f with downMesh := if n < 24 then n :: f.downMesh else f.downMesh,
             downEdge := if n < 24 then f.downEdge else (n - 24) :: f.downEdge, stileDown := true,
             shepherdStile := f.shepherdStile || (decide (24 ≤ n) && decide (stileDie (n - 24) = 7)) }
  let struck := (List.range 64).filter fun p =>
    match d.resident p with
    | some e => (d.paddock p).isSome && imageUses e.2.bytes (stileTable n) (stileIndex n)
    | none => false
  struck.foldl (fun d p => d.strike p { r with paddock := p }) (d1.record r).refuseStranded

/-- A flit fails its CRC and is replayed: TRANSIENT when the replay passes, and the link goes DOWN when it does not. -/
def Device.stileReplay (d : Device) (n : Nat) (passes injected : Bool) : Device :=
  let d1 := d.mapFaults fun f => { f with replays := Table.put f.replays n ((Table.find f.replays n).getD 0 + 1) }
  let r := d1.stileReport n (!passes) injected
  if passes then d1.record r else d1.stileGoesDown n r

/-- The injection that meets a flit on one of a list of links, for a paddock (0xFF: whichever it names), and its link. -/
def Device.flitInjection (d : Device) (p : Nat) (links : List Nat) : Option (Injection × Nat) :=
  match d.faults.injection with
  | none => none
  | some i =>
    if i.kind = 2 ∧ (p = 0xFF ∨ i.paddock = 0xFF ∨ i.paddock = p) then
      (links.find? fun n => decide (stileTarget n = i.target)).map fun n => (i, n)
    else none

/-- An armed injection meets a delivery's flits on its route; whether the delivery still arrives. -/
def Device.crossStiles (d : Device) (p : Nat) (w : Win) : Device × Bool :=
  match d.flitInjection p (w.hops.filterMap Hop.stile) with
  | none => (d, true)
  | some (i, n) =>
    ((d.mapFaults fun f => { f with injection := none }).stileReplay n (!i.persist) true, !i.persist)

/-- STILE_FLIT_REPLAY: a link that is DOWN carries no flit; an injection armed for the link decides the outcome. -/
def Device.flitReplay (d : Device) (n : Nat) (passes : Bool) : Device :=
  if d.stileIsDown n || !(d.awake || d.inStandby || decide (d.state = .safe)) then d
  else
    match d.flitInjection 0xFF [n] with
    | some (i, _) => (d.mapFaults fun f => { f with injection := none }).stileReplay n (!i.persist) true
    | none => d.stileReplay n passes false

/-! ### The row -/

/-- A flit of a stile is replayed. -/
def execStileFlitReplay (stile : Fin 40) (replayPasses : Bool) (s : State) : Outcome :=
  .next (s.on (·.flitReplay stile.val replayPasses))

end Sys2Proof.Machine
end

