-- ==== Sys2Proof/Machine/Windows.lean ====
section
/-! DEFINITION. Openings of edge windows, what the deliveries they admit do, and the host die's loads and stores through them
(R24 to R27, R153, R159, R165, R172 to R176, R347, R362, R442). -/

namespace Sys2Proof.Machine

/-! ### The host die's caches (R27, log entry 102) -/

/-- Line of 64 bytes that an address lies in. -/
def hostLine (a : Nat) : Nat := a / 64

/-- A store through the host die's stiles is seen by its caches. -/
def Device.hostStored (d : Device) (a : Nat) (bs : List Byte) : Device :=
  let seen := (d.store a bs)
  match Table.find d.hostLines (hostLine a) with
  | none => seen
  | some line => { seen with hostLines := Table.put d.hostLines (hostLine a) (overwrite line (a % 64) bs) }

/-- A host core's load is served: its data, or an access fault when it meets a lasting error (R423). A cacheable one brings the
line it lies in. -/
def Device.hostRead (d : Device) (core a n : Nat) (cached : Bool) : Device :=
  let base := if cached then 64 * hostLine a else a
  let r := d.checkedRead base (if cached then 64 else n) (d.src (srcCore core)) 0xFF
  match r.2 with
  | some report => (r.1.record report).emit (.accessFault core)
  | none =>
    let kept := if cached then { r.1 with hostLines := Table.put r.1.hostLines (hostLine a) (r.1.load base 64) } else r.1
    kept.emit (.hostData core (r.1.load a n))

/-- A cacheable load of a line that the caches have held finds it there, as it was, or not: a free choice, for nothing tells
when a line leaves the caches. -/
def Device.cacheHit (d : Device) (core a n : Nat) : Option Device :=
  match Table.find d.hostLines (hostLine a) with
  | none => none
  | some line =>
    if Config.hostHit d.draws then some ({ d with draws := d.draws + 1 }.emit (.hostData core (bytesAt line (a % 64) n))) else none

/-! ### What an admitted delivery does (R172, R347) -/

/-- The data of a packet is placed: a page of a drove that is being pulled goes through the tier balers (R277). A thread may
not read what its message's bell has yet to signal (R135). -/
def Device.placeData (d : Device) (p conn bell a : Nat) (data : List Byte) : Device :=
  match d.pullAt conn a with
  | some x => d.placePage x a data
  | none => (d.store a data).signals p bell a data.length

/-- A READ_REQ or ATOMIC of a connection is executed, and its stream goes on. -/
def Device.requestLands (d : Device) (p conn psn : Nat) : Device :=
  match d.conn conn with
  | none => d
  | some c =>
    let d1 := d.rxArrived conn psn
    match c.held.find? fun h => decide (h.psn = psn) with
    | none => d1.streamPlaced conn
    | some h =>
      let a := accessOf h.frame.ext
      let ran := if h.opcode = 3 then d1.runRead p conn c a.address a.length h.frame.cls.toNat psn (some a.index)
        else d1.runAtomic p conn c psn h.frame (some a.index)
      ran.streamPlaced conn

/-- The data of a SEND is in its RECV's buffer, and the RECV completes (R329). -/
def Device.sendLands (d : Device) (conn psn ring index address : Nat) (data : List Byte) : Device :=
  (((d.store address data).rxArrived conn psn).perform [.done ring index resOk 0 (data.length + 2 ^ 32 * conn)]).streamPlaced conn

/-- A packet has left the mesh for its connection; one whose connection is no longer OPEN or CLOSING is lost with it. -/
def Device.postLands (d : Device) (conn : Nat) (o : Outgoing) : Device :=
  match d.conn conn with
  | none => d.packetLost (o.packet 0 0)
  | some c => if c.state = .open ∨ c.state = .closing then d.post conn [o] else d.packetLost (o.packet 0 0)

/-- Data that a READ or ATOMIC descriptor asked for is in its buffer. -/
def Device.descLands (d : Device) (ring index a : Nat) (data : List Byte) : Device :=
  match d.inFlightAt ring index with
  | none => d
  | some i =>
    let d1 := d.store a data
    if fieldU8 i.bytes 0 = 3 then d1.perform [.done ring index resOk 0 (leValue data)]
    else d1.partDone ring index data.length data.length 0

/-- A delivery of a paddock reaches its target. -/
def Device.land (d : Device) (p : Nat) (x : WinDelivery) : Device :=
  match x.kind with
  | .packet conn psn key bell =>
    (((d.placeData p conn bell x.address x.data).rxArrived conn psn).accessDone key).streamPlaced conn
  | .request conn psn => d.requestLands p conn psn
  | .again conn psn len =>
    match d.conn conn with
    | none => d
    | some c => d.runRead p conn c x.address len x.cls psn none
  | .recv conn psn ring index address _ => d.sendLands conn psn ring index address x.data
  | .answer conn psn opcode off status key => (d.sendOn conn opcode x.cls psn (responseExt psn off status) x.data).answerDone key
  | .post conn o => d.postLands conn o
  | .descData ring index => d.descLands ring index x.address x.data
  | .moved ring index k => d.moveLands ring index k
  | .remote id => d.remoteLeaves id
  | .served id key => d.serveLocal id key
  | .localAnswer id => d.remoteResult id x.data d.now
  | .result id => d.endRemote id (.answered x.data)
  | .hostStore _ => d.hostStored x.address x.data
  | .hostLoad core len cached => d.hostRead core x.address len cached
  | .ring bell inc source _ => d.perform [.ring p bell inc source]

/-! ### RCLK slots and openings (R159, R170, R172) -/

/-- First RCLK slot, counted from the Tally's zero, that begins at or after a Tally value: 33 slots take 16 ticks. -/
def firstSlot (t : Nat) : Nat := ceilDiv (33 * t) 16

/-- Tick in which a slot begins. -/
def slotTick (s : Nat) : Nat := 16 * s / 33

/-- Slots left of the opening of a window that a slot lies in, the slot counted; 0 between openings. -/
def Win.leftAt (w : Win) (s : Nat) : Nat :=
  let r := s % 8448
  if r < w.start then 0
  else
    let k := if w.stride = 0 then 0 else Nat.min (w.openings - 1) ((r - w.start) / w.stride)
    w.start + k * w.stride + w.len - r

/-- First slot from a slot on at which a window opens. -/
def Win.nextOpening (w : Win) (s : Nat) : Nat :=
  let r := s % 8448
  let k := if r ≤ w.start then 0 else if w.stride = 0 then w.openings else ceilDiv (r - w.start) w.stride
  if k < w.openings ∨ r ≤ w.start then s - r + w.start + k * w.stride else s - r + 8448 + w.start

/-- First slot from a slot on at which a window admits a delivery of `need` slots. -/
def Win.admits (w : Win) (need s : Nat) : Nat := if need ≤ w.leftAt s then s else w.nextOpening (s + 1)

/-- Threads of a paddock's blocks that were HELD for room in a queue are READY (R131, R168). -/
def Device.unholdAll (d : Device) (p : Nat) : Device :=
  match d.paddock p with
  | none => d
  | some x => if x.holds then x.blockList.foldl Device.unhold d else d

/-! ### An opening (R153, R165, R171, R172, R362) -/

/-- Deliveries at the head of a window's queue are admitted while they fit the slots that the opening has left from a slot on;
the arbiter of a network die refills the queue. `fuel` bounds the deliveries: each takes a slot at least. -/
def Device.admitHead (p : Nat) (w : Win) : Nat → Nat → Nat → Device → Device
  | 0, _, _, d => d
  | fuel + 1, slot, left, d =>
    match (d.winQueue p w.window).queue with
    | [] => d
    | x :: rest =>
      if x.need ≤ left then
        let d1 := d.updWindow p w.window fun q => { q with queue := rest, next := slot + x.need }
        let d2 := if w.dir = 1 then d1.unholdAll p else if w.edge < 4 then Device.arbitrate p w.window w.edge 2 d1 else d1
        let crossed := d2.crossStiles p w
        if crossed.2 then Device.admitHead p w fuel (slot + x.need) (left - x.need) (crossed.1.land p x)
        else crossed.1.refuseDelivery x
      else d

/-- Tick in which the next run of a block for a window begins, in this frame from the CCLK in which nothing has issued yet, or in
a later one; none without such a run (R153, R165). -/
def Device.runStart (d : Device) (p b w : Nat) : Option Nat :=
  let base := d.frameBase p
  let starts := ((d.runsOf p b).filter fun r => decide (r.res = 2 ∧ r.window = w)).map (·.start)
  let tick := fun (frame s : Nat) => frame + cclkTick (d.runningMhz (regionOf b)) s
  match if d.skipsAt b base then none else leastBy id (starts.filter fun s => decide (d.nextCclk p b ≤ s)) with
  | some s => some (tick base s)
  | none =>
    match d.openFrame b (base + d.spanOf p), leastBy id starts with
    | some frame, some s => some (tick frame s)
    | _, _ => none

/-- Threads of a paddock that wait for a window: block, thread, and the tick in which they go on. -/
def Device.windowWaits (d : Device) (p w : Nat) (x : Paddock) : List (Nat × Nat × Nat) :=
  if !x.holds then [] else
    x.blockList.flatMap fun b =>
      if (d.block b).threads.toList.any fun t => decide (t.state = .waiting ∧ t.waits = .window w) then
        match d.runStart p b w with
        | none => []
        | some at' => (List.range 16).filterMap fun t =>
            if (d.thread b t).state = .waiting ∧ (d.thread b t).waits = .window w then some (b, t, at') else none
      else []

/-- A thread that waits for a window goes on. -/
def Thread.windowOpens (t : Thread) : Thread := { t with state := .ready, waits := .nothing, pc := t.pc + 1 }

/-- A window serves nothing while its route is DOWN or, for a window of blocks, while its paddock does not hold them or they
are being saved or restored (log entry 25). -/
def Device.windowServes (d : Device) (x : Paddock) (w : Win) : Bool :=
  !d.routeDown w && (decide (w.kind ≠ 0) || (x.holds && decide (x.state ≠ .saving ∧ x.state ≠ .restoring)))

/-- First slot from now on at which a window admits the head of its queue, or opens with nothing waiting. -/
def Device.openingSlot (d : Device) (p : Nat) (w : Win) : Nat :=
  let q := d.winQueue p w.window
  let from' := max q.next (firstSlot d.now)
  match q.queue with
  | [] => w.nextOpening from'
  | x :: _ => w.admits x.need from'

/-- Deliveries are admitted from a slot of a window on, where the window serves. -/
def Device.admitFrom (d : Device) (p slot : Nat) (w : Win) : Device :=
  match d.paddock p with
  | none => d
  | some x => if d.windowServes x w then Device.admitHead p w w.len slot (w.leftAt slot) d else d

/-- What comes next at a window of a paddock's resident image: an opening that admits the deliveries that wait, or the run of a
block in which a thread that waits for the window goes on. -/
def Device.openWindow (d : Device) (p w : Nat) : Device :=
  if !d.awake then d else
  match d.paddock p, (d.windowsOf p).find? fun x => decide (x.window = w) with
  | some x, some win =>
    let slot := d.openingSlot p win
    let waits := d.windowWaits p w x
    let at' := waits.foldl (fun t e => Nat.min t e.2.2) (slotTick slot)
    d.atInstant at' fun d =>
      let d1 := (waits.filter fun e => decide (e.2.2 ≤ at')).foldl (fun d e => d.updThread e.1 e.2.1 Thread.windowOpens) d
      if slotTick slot ≤ at' then d1.admitFrom p slot win else d1
  | _, _ => d

/-! ### Host accesses (R24, R26, R174, R175, R442) -/

/-- The paddock's memory, or a block that it holds, is what an address names. -/
def Paddock.owns (x : Paddock) (a n : Nat) : Bool :=
  if inBuffers a n then x.holds && x.names ((a - bufferBase) / 0x100000) else x.covers a n

/-- The window that carries a host access: of the paddock whose memory it is before any other, the lowest-numbered paddock and
window first (log entry 22). -/
def Device.hostWindow (d : Device) (dir a n : Nat) : Option (Nat × Win) :=
  let serving := fun (e : Nat × Paddock) => (d.windowFor e.1 dir 6 a 16).map fun w => (e.1, w)
  match (d.paddocks.filter fun e => e.2.owns a n).findSome? serving with
  | some r => some r
  | none => d.paddocks.findSome? serving

/-- A host core's access joins its window's queue, or raises an access fault on the core. -/
def Device.hostAccess (d : Device) (core : Nat) (x : HostAccess) : Device :=
  let n := if x.store then x.data.length else x.size
  let a := x.address.toNat
  let refused := d.emit (.accessFault core)
  if !d.awake then d
  else if !d.rangeOk a n || (d.touchesSecure a n && !d.security.harts.getLsbD core) then refused
  else match if x.cached && !x.store then d.cacheHit core a n else none with
  | some d1 => d1
  | none =>
    match d.hostWindow (if x.store then 0 else 1) a n with
    | none => refused
    | some (p, w) =>
      if d.routeDown w then refused
      else
        let kind := if x.store then DeliveryKind.hostStore core else .hostLoad core n x.cached
        d.joinWindow p w { size := n, cls := 3, link := none, address := a, data := x.data, kind := kind }

/-! ### The rows -/

/-- An edge window opens. -/
def execEdgeWindowOpen (paddock : Fin 64) (window : Fin 255) (s : State) : Outcome :=
  .next (s.on (·.openWindow paddock.val window.val))

/-- A host core accesses device memory. -/
def execHostAccess (core : Fin 48) (access : HostAccess) (s : State) : Outcome :=
  .next (s.on (·.hostAccess core.val access))

end Sys2Proof.Machine
end

