-- ==== Sys2Proof/Machine/NetTimers.lean ====
section
/-! DEFINITION. The timers of the transport and of the traffic scheduler: each row brings the Tally to the instant its timer
is due and does what it does there; a timer that is not armed does nothing (R291, R292, R318, R321, R325, R331, R358, R360). -/

namespace Sys2Proof.Machine

/-! ### Connections (R321, R325) -/

/-- The oldest packet that has left and is not acknowledged, or whose answer is missing. -/
def Conn.oldest (c : Conn) : Option TxPacket :=
  c.tx.find? fun t => t.released && t.sentAt.isSome && (!t.acked || t.wantsAnswer)

/-- RTO in ticks. -/
def Conn.rto (c : Conn) : Nat := Nat.min 800000 (max 8000 (c.srtt + 4 * c.rttvar)) * 2 ^ c.backoff

/-- The timer of the oldest unacknowledged packet expires: it is sent again, and the window falls to 8,192. -/
def Device.timeOut (d : Device) (id : Nat) : Device :=
  match d.conn id with
  | none => d
  | some c =>
    match c.oldest with
    | none => d
    | some t =>
      d.atDeadline ((t.sentAt.getD 0) + c.rto) fun d =>
        ((d.countConn id 3).updConn id fun c => { c with backoff := c.backoff + 1, cwnd := 8192 }).repair id t.psn

/-- 800 ticks after its oldest unacknowledged arrival a connection sends an ACK. -/
def Device.ackDue (d : Device) (id : Nat) : Device :=
  match d.conn id with
  | none => d
  | some c =>
    match c.unackedSince with
    | none => d
    | some t => d.atInstant (t + 800) fun d => d.sendAck id c.cls c.oldestEcho c.oldestOwd

/-- The packet of a connection whose resend is due first. -/
def Conn.nextResend (c : Conn) : Option (Nat × Nat) :=
  leastBy (·.1) (c.tx.filterMap fun t => t.resendAt.map fun r => (r, t.psn))

/-- A packet that RX_FULL or PAGE_WAIT sent back is sent again. -/
def Device.resendDue (d : Device) (id : Nat) : Device :=
  match (d.conn id).bind (·.nextResend) with
  | none => d
  | some (t, psn) =>
    let clear := fun (x : TxPacket) => if x.psn = psn then { x with resendAt := none } else x
    d.atInstant t fun d => (d.updConn id fun c => { c with tx := c.tx.map clear }).repair id psn

/-- `give_up_us` passes without progress. -/
def Device.giveUp (d : Device) (id : Nat) : Device :=
  match d.conn id with
  | none => d
  | some c => if c.tx.isEmpty then d else d.atInstant (c.progressAt + 800 * c.giveUpUs) fun d => d.connError id

/-- The pacing gap of a connection's next packet has passed. -/
def Device.pacingDue (d : Device) (id : Nat) : Device :=
  match d.conn id with
  | none => d
  | some c =>
    match c.nextOut with
    | none => d
    | some t => d.atInstant (max d.now (c.lastSend + c.gap t.payload.length)) fun d => d.pump id

/-! ### Contexts (R317, R318) -/

/-- The descriptor types that a ring may hold for a connection's context. -/
def transportKind : Nat → Option DescKind
  | 1 => some kindWrite
  | 2 => some kindRead
  | 3 => some kindAtomic
  | 4 => some kindSend
  | _ => none

/-- A ring that held its head for a context takes it. -/
def Device.retakeHead (d : Device) (id : Nat) (q : Nat) : Device :=
  match (d.ring q).bind d.headOf with
  | none => d
  | some bs =>
    match transportKind (fieldU8 bs 0) with
    | none => d
    | some k => if descConn bs = id then (d.takeDescriptor k q).dropUnknown 65536 q else d

/-- Packets of a connection leave a die's miss buffer in arrival order. -/
def Device.drainMisses (d : Device) (id : Nat) : Device :=
  let mine := d.net.missBuffers.toList.flatMap fun b => b.filter fun m => decide (m.conn = id)
  let d1 := d.mapNet fun n => { n with missBuffers := n.missBuffers.map fun b => b.filter fun m => decide (m.conn ≠ id) }
  mine.foldl (fun d m => d.takeFrame { link := m.link, opcode := m.opcode, frame := m.frame, at' := m.arrived }) d1

/-- Edge die that drives the backing store's bytes of a connection's context: 1,024 bytes a connection in the top 1 GiB of the
tier, in ascending number (R317 gives the size and the place of the store; the order is PRESUMED, log entry 96). -/
def Device.contextEdge (d : Device) (id : Nat) : Nat := tierEdge (tierBase + d.boot.tierBytes - 0x40000000 + 1024 * id)

/-- The oldest context that is being fetched is cached: its packets and descriptors go on. A fetch whose route of R18 crosses
a DOWN link brings nothing (R424). -/
def Device.contextCame (d : Device) : Device :=
  match d.net.fetching.find? fun id => !d.serviceDown (((d.conn id).map (·.home)).getD 0) (d.contextEdge id) with
  | none => d
  | some id =>
    let d1 := d.mapNet fun n => { n with fetching := n.fetching.filter fun x => decide (x ≠ id) }
    let d2 := match d1.conn id with
      | none => d1
      | some c => (d1.evictFor c.home).updConn id fun c => { c with cached := true, lastUse := d.now }
    let d3 := (d2.drainMisses id).pump id
    d3.net.rings.foldl (fun d e => d.retakeHead id e.1) d3

/-! ### Exposures and folds (R291, R292, R331) -/

/-- The grace of a revocation ends. -/
def Device.graceEnds (d : Device) (i : Nat) : Device :=
  match d.exposure i with
  | none => d
  | some e =>
    if e.state = .revoking then
      d.atDeadline (e.revokeAt + e.grace) fun d => (d.updExposure i fun e => { e with state := .draining }).freeIfDrained i
    else d

/-- Instants at which a fold's previous map or a leaving paddock is dropped. -/
def Fold.drains (f : Fold) : List Nat := (if f.previous.isSome then [f.drainEnd] else []) ++ f.leaving.map (·.2)

/-- A fold without the previous map and the leaving paddocks whose drain windows have ended. -/
def Fold.dropDrained (f : Fold) (now : Nat) : Fold :=
  let ended := decide (f.drainEnd ≤ now)
  { f with previous := if ended then none else f.previous, drainEnd := if ended then 0 else f.drainEnd,
           leaving := f.leaving.filter fun e => decide (now < e.2) }

/-- The next drain window of a fold ends. -/
def Device.foldDrains (d : Device) (n : Nat) : Device :=
  match d.fold n with
  | none => d
  | some f =>
    match leastBy id f.drains with
    | none => d
    | some t => d.atDeadline t fun d =>
      match d.fold n with
      | none => d
      | some f => d.putFold n (f.dropDrained d.now)

/-! ### Links and gates (R356, R358, R360) -/

/-- The first tick at which a shaped class that waits with its gate open has credit again. -/
def Link.creditDue (l : Link) (p : Port) (now : Nat) : Option Nat :=
  leastBy id ((List.range 16).filterMap fun k =>
    match Table.find p.shapers k with
    | none => none
    | some s =>
      let c : Int := (l.credit[k]?).getD 0
      if ((l.queues[k]?).getD []).isEmpty ∨ 0 ≤ c ∨ s.slope = 0 ∨ (p.gatesAt now).getLsbD k = false then none
      else some (now + ceilDiv (-c).toNat s.slope))

/-- A link finishes its frame, or a class of it becomes eligible while it is idle: the next frame is selected. -/
def Device.linkSelects (d : Device) (l : Nat) : Device :=
  let free := match (d.link l).sending with
    | some (_, e) => max d.now e
    | none => d.now
  d.atInstant free fun d =>
    let d1 := d.runCredits l
    let x := d1.link l
    let p := d1.port (l / 2)
    if (List.range 16).any fun k => x.eligible p d1.now k then d1.selectLink l
    else match x.creditDue p d1.now with
      | some t => d1.atInstant t fun d => d.selectLink l
      | none => d1

/-- A port's gate list moves to its next entry: the credits run up to it, and its gates open and close. -/
def Device.gatesMove (d : Device) (port : Nat) : Device :=
  match (d.port port).gates with
  | none => d
  | some g =>
    match g.ahead d.now with
    | [] => d
    | e :: _ => d.atInstant (d.now + e.2) fun d =>
      ((d.runCredits (2 * port)).runCredits (2 * port + 1)).updPort port fun p => { p with gatesNow := p.gatesAt d.now }

/-! ### Remote accesses (R345) -/

/-- The earliest bound of a load, atomic or transfer of threads that is outstanding passes; every access due by then ends. -/
def Device.boundPasses (d : Device) : Device :=
  let open' := fun (d : Device) => d.fabric.remote.filter fun a =>
    !a.expired && !a.inTime && decide (a.op = .load ∨ a.op = .atomic ∨ a.op = .get)
  match leastBy (fun (a : RemoteAccess) => a.bound) (open' d) with
  | none => d
  | some a => d.atDeadline a.bound fun d =>
    ((open' d).filter fun b => decide (b.bound ≤ a.bound)).foldl (fun d b => d.endRemote b.id .timedOut) d

/-! ### The rows -/

/-- A connection context arrives. -/
def execContextFetchDone (s : State) : Outcome := .next (s.on (·.contextCame))

/-- The retransmission timer of a connection expires. -/
def execRetransmissionTimer (conn : BitVec 20) (s : State) : Outcome := .next (s.on (·.timeOut conn.toNat))

/-- The ACK timer of a connection expires. -/
def execAckTimer (conn : BitVec 20) (s : State) : Outcome := .next (s.on (·.ackDue conn.toNat))

/-- The resend of a packet of a connection is due. -/
def execNakResend (conn : BitVec 20) (s : State) : Outcome := .next (s.on (·.resendDue conn.toNat))

/-- A connection gives up. -/
def execConnGiveUp (conn : BitVec 20) (s : State) : Outcome := .next (s.on (·.giveUp conn.toNat))

/-- The grace of a revocation ends. -/
def execRevocationGraceEnd (index : BitVec 20) (s : State) : Outcome := .next (s.on (·.graceEnds index.toNat))

/-- A fold's drain window ends. -/
def execFoldDrainEnd (fold : BitVec 16) (s : State) : Outcome := .next (s.on (·.foldDrains fold.toNat))

/-- A link selects its next frame. -/
def execLinkSelect (link : Fin 64) (s : State) : Outcome := .next (s.on (·.linkSelects link.val))

/-- A port's gate list moves on. -/
def execGateEntryChange (port : Fin 32) (s : State) : Outcome := .next (s.on (·.gatesMove port.val))

/-- A pacing gap has passed. -/
def execPacingRelease (conn : BitVec 20) (s : State) : Outcome := .next (s.on (·.pacingDue conn.toNat))

/-- The bound of remote accesses passes. -/
def execRemoteLoadBound (s : State) : Outcome := .next (s.on (·.boundPasses))

end Sys2Proof.Machine
end

