-- ==== Sys2Proof/Machine/Loads.lean ====
section
/-! DEFINITION. IMAGE_LOAD and the switch of a paddock to another image (R131, R176, R181, R201, R470). -/

namespace Sys2Proof.Machine

/-! ### The descriptor (R181) -/

/-- A thread of the paddock's blocks is neither IDLE nor FAULTED. -/
def Device.threadsBusy (d : Device) (x : Paddock) : Bool :=
  x.blockList.any fun b => (d.block b).threads.any fun t => !decide (t.state = .idle ∨ t.state = .faulted)

/-- The handle names a REGISTERED image. -/
def Device.registered (d : Device) (h : Nat) : Bool :=
  match Table.find d.images h with
  | some x => decide (x.state = .registered)
  | none => false

/-- The state of an image changed. -/
def Device.updImage (d : Device) (h : Nat) (f : Image → Image) : Device := { d with images := Table.update d.images h f }

/-- Bytes that the manager of a region writes for an image: the code, block slot tables and entry PCs of its blocks (R181). -/
def loadBytes (im : List Byte) (n : Nat) : Nat :=
  let words := fun (items : List (Nat × Nat × Nat)) =>
    ((items.filter fun e => decide (regionOf e.1 = n)).map fun e => 8 * e.2.2).foldl (· + ·) 0
  words (imageCode im) + words (imageSlots im) + 32 * ((imageEntries im).filter fun e => decide (regionOf e.1 = n)).length

/-- The region managers begin to write an image; the tick at which the last ends (R181, R530). They run on RCLK, and wake no
region. -/
def Device.writeImage (d : Device) (im : List Byte) : Device × Nat :=
  (List.range 16).foldl (fun acc n =>
    let r := acc.1.bookShare n d.now (loadBytes im n)
    (r.1, max acc.2 r.2)) (d, d.now)

/-- IMAGE_LOAD. -/
def kindImageLoad : DescKind :=
  { type := 0x10,
    check := fun d j =>
      let h := fieldU32 j.bytes 16
      let busy := match d.paddock j.paddock with
        | some x => d.threadsBusy x
        | none => true
      endIn [require (decide (h / 0x4000000 = j.paddock)) resBadArgument 16, reserved j.bytes 20 4, reserved j.bytes 32 32,
        require (d.registered h && !busy) resBadState],
    run := fun d j =>
      let h := fieldU32 j.bytes 16
      let w := d.writeImage (((Table.find d.images h).map (·.bytes)).getD [])
      let entry : Loading := { ring := j.ring, index := j.index, handle := h, start := fieldU64 j.bytes 24, written := w.2 }
      (w.1.updImage h fun x => { x with state := .loading }).mapService fun s =>
        { s with loading := s.loading ++ [(j.paddock, entry)] } }

/-! ### The switch (R176, R181) -/

/-- CCLK that a region is sure to have: the lower of its set CCLK and every committed one (R470). -/
def Device.sureMhz (d : Device) (n : Nat) : Nat :=
  let set : Nat := ((d.power.regions[n]?).map (·.setMhz)).getD 0
  let ahead := d.committed.flatMap fun e => (e.2.commands.filter fun c =>
    decide (c.opcode = 0x0D10 ∧ (fieldU8 c.payload 0 = n ∨ fieldU8 c.payload 0 = 0xFF))).map fun c => fieldU16 c.payload 2
  ahead.foldl Nat.min set

/-- Every region of an image has the CCLK it needs. -/
def Device.clocksCarry (d : Device) (im : List Byte) : Bool :=
  (List.range 16).all fun n => !bitOf (fieldU16 im 28) n || decide (imageMhz im ≤ d.sureMhz n)

/-- Two windows have the same direction, edge die and target. -/
def Win.sameTarget (x y : Win) : Bool :=
  decide (x.dir = y.dir ∧ x.edge = y.edge ∧ x.kind = y.kind ∧ x.region = y.region ∧ x.blocks = y.blocks ∧
    x.toEdge = y.toEdge ∧ x.toStile = y.toStile)

/-- The queues of a paddock's windows pass to the new image's windows of the same number and target; what waits at any other is
refused. -/
def Device.passQueues (d : Device) (p : Nat) (before : List Win) : Device :=
  let after := d.windowsOf p
  let kept := fun (w : Nat) => before.any fun x => decide (x.window = w) && after.any fun y => decide (y.window = w) && x.sameTarget y
  let gone := d.net.windows.filter fun e => decide (e.1 / 256 = p) && !kept (e.1 % 256)
  let d1 := d.mapNet fun n => { n with windows := n.windows.filter fun e => !(decide (e.1 / 256 = p) && !kept (e.1 % 256)) }
  (gone.flatMap fun e => e.2.queue ++ e.2.fifo).foldl Device.refuseDelivery d1

/-- A thread at image start (R131). -/
def Thread.imageStart (t : Thread) (entry : Nat) : Thread :=
  if entry = 0xFFFF then { t with state := .idle, waits := .nothing }
  else { t with s := [], v := [], fstat := 0, pc := entry, state := .ready, waits := .nothing }

/-- The code of an image is written into a block, and its threads with entry PCs become READY. -/
def Device.startBlock (d : Device) (im : List Byte) (b : Nat) : Device :=
  d.updBlock b fun k =>
    { k with istore := imageStore im b, mmac := none,
             threads := Vector.ofFn fun t => (k.threads[t]).imageStart (imageEntry im b t.val) }

/-- No running CCLK stands below its region's floor (R469). -/
def Device.liftClocks (d : Device) : Device :=
  let lift := fun (d : Device) (n : Nat) => d.updClock n fun r =>
    { r with targetMhz := Nat.max r.targetMhz (d.floorMhz n), runningMhz := Nat.max r.runningMhz (d.floorMhz n) }
  ((List.range 16).foldl lift d).settleThrottle

/-- A paddock switches to a loaded image. -/
def Device.switchTo (d : Device) (p : Nat) (x : Paddock) (l : Loading) (im : Image) : Device :=
  let before := d.windowsOf p
  let old := d.resident p
  let d1 := match old with
    | some e => d.updImage e.1 fun y => { y with state := .registered, residentAt := 0 }
    | none => d
  let d2 := d1.updImage l.handle fun y => { y with state := .resident, residentAt := d.now }
  let d3 := (x.blockList.foldl (fun d b => (d.startBlock im.bytes b).updBlock b fun k => { k with frameStart := d.now }) d2).resetHurdles p
  (d3.passQueues p before).liftClocks.perform [.done l.ring l.index resOk 0 0]

/-- The oldest load of a paddock has been written: at the next frame boundary of its image that is no earlier than `start` and
than the end of the writes the paddock switches, or the load ends with CONFLICT. A suspended paddock waits. -/
def Device.imageSwitch (d : Device) (p : Nat) : Device :=
  match d.service.loading.find? fun e => decide (e.1 = p) with
  | none => d
  | some (_, l) =>
    match Table.find d.images l.handle, d.paddock p with
    | some im, some x =>
      if !x.holds || x.stoppingNow then d else
        let span := max 1 (imageSpan im.bytes)
        d.atInstant (ceilDiv (max d.now (max l.start l.written)) span * span) fun d =>
          let d1 := d.mapService fun s =>
            { s with loading := s.loading.filter fun e => decide (e ≠ (p, l)) }
          if d1.clocksCarry im.bytes then d1.switchTo p x l im
          else (d1.updImage l.handle fun y => { y with state := .registered }).perform [.done l.ring l.index resConflict 0 0]
    | _, _ => d

/-! ### The rows -/

/-- The ring takes an IMAGE_LOAD at its head. -/
def execImageLoad (x : Desc) (s : State) : Outcome := .next (s.on (·.runDescriptor kindImageLoad x))

/-- The image writes of a paddock end, and the switch boundary arrives. -/
def execImageLoadSwitch (paddock : Fin 64) (s : State) : Outcome := .next (s.on (·.imageSwitch paddock.val))

end Sys2Proof.Machine
end

