-- ==== Sys2Proof/Machine/Sequencer.lean ====
section
/-! DEFINITION. How a thread issues an instruction: its turn, the ILLEGAL check, exceptions, completion, waits and holds
(R129 to R139, R155, R156). Result latencies are not modelled (log entry 23). -/

namespace Sys2Proof.Machine

/-! ### Registers (R130) -/

/-- A lane of a vector register. -/
def Thread.lane (t : Thread) (v l : Nat) : Word32 := t.v.get (64 * v + l)

/-- The 64 lanes of a vector register. -/
def Thread.lanes (t : Thread) (v : Nat) : List Word32 := t.v.getMany (64 * v) 64

/-- A vector register written, lane by lane. -/
def Thread.setV (t : Thread) (v : Nat) (ls : List Word32) : Thread := { t with v := t.v.setMany (64 * v) (ls.take 64) }

/-- Flags are raised: they stay until cleared (R122). -/
def Thread.flag (t : Thread) (f : BitVec 5) : Thread := { t with fstat := t.fstat ||| f }

/-! ### An instruction that issues -/

/-- An instruction and the thread it issues from. -/
structure Issue where
  /-- Block. -/
  block : Nat
  /-- Thread. -/
  thread : Nat
  /-- Paddock that holds the block. -/
  paddock : Nat
  /-- Opcode. -/
  op : Nat
  /-- The rest of the word. -/
  w : IWord
  /-- CCLK of the present frame in which it issues. -/
  cclk : Nat
  deriving DecidableEq, Repr

/-- The thread of an issue. -/
def Device.self (d : Device) (i : Issue) : Thread := d.thread i.block i.thread

/-- Scalar operand b. -/
def Device.sB (d : Device) (i : Issue) : Word := (d.self i).getS i.w.b.toNat
/-- Scalar operand c. -/
def Device.sC (d : Device) (i : Issue) : Word := (d.self i).getS i.w.c.toNat
/-- Scalar operand a. -/
def Device.sA (d : Device) (i : Issue) : Word := (d.self i).getS i.w.a.toNat

/-- Local source number of an issue's thread. -/
def Device.sourceOf (d : Device) (i : Issue) : Nat := d.src (srcThread i.block i.thread)

/-! ### Exceptions (R155, R156) -/

/-- ILLEGAL. -/
def exIllegal : Nat := 1
/-- FORMAT. -/
def exFormat : Nat := 2
/-- BOUND. -/
def exBound : Nat := 3
/-- ADDRESS. -/
def exAddress : Nat := 4
/-- WORLD. -/
def exWorld : Nat := 5
/-- STATE. -/
def exState : Nat := 6

/-- A thread raises an exception: it is FAULTED, and the lasting fault strikes its paddock. -/
def Device.exception (d : Device) (i : Issue) (pc op code : Nat) : Device :=
  let report : Report := { source := d.sourceOf i, paddock := i.paddock, cls := 2, level := 4, code := 0x30, sub := code,
                           aux := pc + 65536 * op }
  (d.updThread i.block i.thread fun t => { t with state := .faulted, waits := .nothing }).strike i.paddock report

/-- The issuing instruction raises an exception. -/
def Device.raise (d : Device) (i : Issue) (code : Nat) : Device := d.exception i (d.self i).pc i.op code

/-- The first condition that applies raises its exception; otherwise the instruction goes on. Conditions stand in the order
of the table of R155. -/
def Device.guarded (d : Device) (i : Issue) (conditions : List (Bool × Nat)) (run : Device → Device) : Device :=
  match conditions.find? (·.1) with
  | some e => d.raise i e.2
  | none => run d

/-! ### Completion, waits and holds (R131, R137) -/

/-- A thread past the last word raises ADDRESS instead of issuing, for the instruction at PC 8,191. -/
def Device.pastEnd (d : Device) (i : Issue) : Device :=
  if (d.self i).pc < 8192 then d else d.exception i 8191 i.op exAddress

/-- The instruction completes: its thread is changed and stands READY at the next PC. -/
def Device.complete (d : Device) (i : Issue) (f : Thread → Thread) : Device :=
  (d.updThread i.block i.thread fun t => { f t with pc := t.pc + 1, state := .ready, waits := .nothing }).pastEnd i

/-- The instruction completes with a result in s[a]. -/
def Device.completeS (d : Device) (i : Issue) (v : Word) : Device := d.complete i fun t => t.setS i.w.a.toNat v

/-- The instruction transfers control; a target outside the store raises ADDRESS. -/
def Device.transfer (d : Device) (i : Issue) (target : Int) (f : Thread → Thread) : Device :=
  if 0 ≤ target ∧ target < 8192 then
    d.updThread i.block i.thread fun t => { f t with pc := target.toNat, state := .ready, waits := .nothing }
  else d.raise i exAddress

/-- The thread waits at its instruction. -/
def Device.waitAt (d : Device) (i : Issue) (w : WaitFor) : Device :=
  d.updThread i.block i.thread fun t => { t with state := .waiting, waits := w }

/-! ### Issue (R131, R136, R155, R471) -/

/-- The paddock whose instructions a block issues now: it holds the block, runs and is not being stopped at once, and the
block is in RUN. -/
def Device.issuesFor (d : Device) (b : Nat) : Option Nat :=
  match d.occupant b with
  | none => none
  | some (p, x) =>
    if d.awake && decide ((x.state = .running ∨ (x.state = .stopping ∧ x.stoppingNow = false)) ∧ d.blockPower b = .run) then
      some p else none

/-- The instruction of a thread whose turn comes in a CCLK issues: past the last word it raises ADDRESS, a word with an ILLEGAL
condition raises ILLEGAL with its own opcode, and any other has its effect. -/
def Device.issueIn (d : Device) (p b t c : Nat) (run : Issue → Device → Device) : Device :=
  let next := d.nextWord b t
  let i : Issue := { block := b, thread := t, paddock := p, op := next.1, w := next.2, cclk := c }
  let d1 := d.takeTurn p b t c next.1 next.2
  if 8192 ≤ (d.thread b t).pc then d1.exception i 8191 (((d.block b).istore.get 8191).toNat / 2 ^ 56) exAddress
  else if !wordLegal next.1 next.2 then d1.raise i exIllegal
  else run i d1

/-- The word that a thread's PC names is this instruction; one that raises an exception by its form stands for whichever row the
sequencer is given. -/
def Device.isNext (d : Device) (b t op : Nat) (w : IWord) : Bool :=
  let next := d.nextWord b t
  decide (8192 ≤ (d.thread b t).pc) || !wordLegal next.1 next.2 || decide (next = (op, w))

/-- A thread that could not issue in this tick: HELD where its instruction waits for a grant or for something outstanding. -/
def Device.passedBy (d : Device) (p b t : Nat) : Device :=
  let next := d.nextWord b t
  if (d.thread b t).waits = .yielded then d
  else if (slotRes next.1).isSome || d.awaits p b t next.1 next.2 then
    d.updThread b t fun x => { x with state := .held, waits := .nothing }
  else d

/-- The Tally is brought to the tick of the next CCLK in which a block has issued nothing. -/
def Device.toNextCclk (d : Device) (p b : Nat) : Device :=
  d.advanceTo (d.frameBase p + cclkTick (d.runningMhz (regionOf b)) (d.nextCclk p b))

/-- A row of the sequencer: the thread issues the instruction at its PC in the CCLK in which its turn comes, if one of this tick
is such a one; a row for another instruction than the one at the PC has no effect (R129, R131, R132). -/
def Device.issue (d : Device) (t : ThreadId) (op : Nat) (w : IWord) (run : Issue → Device → Device) : Device :=
  let b := t.block.val
  let n := t.thread.val
  match d.issuesFor b with
  | none => d
  | some p =>
    if (d.thread b n).mayIssue && d.isNext b n op w then
      let d1 := d.toNextCclk p b
      if d1.issuesFor b ≠ some p then d1 else
        match d1.turn p b n with
        | some c => d1.issueIn p b n c run
        | none => d1.passedBy p b n
    else d

/-! ### The block buffer (R139) -/

/-- A buffer range lies wholly in the block's buffer. -/
def inBuffer1 (off : Word) (n : Nat) : Bool := decide (off.toNat + n ≤ 0x100000)

/-- Buffer ranges of a block that a transfer has placed and whose bell no thread has observed (R135). -/
def Device.unobserved (d : Device) (b : Nat) : List (Nat × Nat) :=
  match d.occupant b with
  | none => []
  | some (p, _) => (List.range 64).flatMap fun k => (d.bell p (64 * b + k)).unseen

/-- Buffer ranges of a block that transfers still under way will write: BLOAD with its annex, BEXPAND, BCOPY inwards and RGET;
and those whose bell has not been observed (R135). -/
def Device.arriving (d : Device) (b : Nat) : List (Nat × Nat) :=
  d.unobserved b ++
  ((d.block b).bales.filterMap fun x =>
    match x.op with
    | .load => some (x.buffer, x.count * fieldU16 x.binding 4 + 4096 * fieldU8 x.binding 7)
    | .expand => some (x.buffer, 4096 * x.count)
    | .copyIn => some (x.buffer, 4096 * x.count)
    | _ => none) ++
  ((d.fabric.remote.filter fun a => decide (a.op = .get ∧ a.block = b) && !a.expired).map fun a => (a.buffer, a.len))

/-- Bytes of a block's buffer as a thread reads them: what a transfer under way will write reads as free values (R135, log
entry 6). -/
def Device.readBuffer (d : Device) (b off n : Nat) : List Byte × Device :=
  let data := d.load (bufferAddr b off) n
  let open' := (d.arriving b).filter fun r => decide (r.1 < off + n ∧ off < r.1 + r.2)
  if open'.isEmpty then (data, d)
  else
    ((List.range n).map fun j =>
      if open'.any fun r => decide (r.1 ≤ off + j ∧ off + j < r.1 + r.2) then Config.freeByte d.draws (off + j)
      else data.getD j 0, { d with draws := d.draws + 1 })

/-- Bytes of the block's buffer are read for an instruction; a lasting error strikes the paddock (R423). -/
def Device.withBuffer (d : Device) (i : Issue) (off n : Nat) (run : List Byte → Device → Device) : Device :=
  let r := d.checkedRead (bufferAddr i.block off) n (d.sourceOf i) i.paddock
  match r.2 with
  | some report => r.1.strike i.paddock report
  | none =>
    let x := r.1.readBuffer i.block off n
    run x.1 x.2

/-- Bytes are written to the block's buffer. -/
def Device.storeBuffer (d : Device) (i : Issue) (off : Nat) (bs : List Byte) : Device := d.store (bufferAddr i.block off) bs

end Sys2Proof.Machine
end

