-- ==== Sys2Proof/Machine/Control.lean ====
section
/-! DEFINITION. Control and scalar instructions, and loads and stores of the block buffer (R136 to R139). -/

namespace Sys2Proof.Machine

/-! ### Control -/

/-- NOP. -/
def seqNop (i : Issue) (d : Device) : Device := d.complete i id

/-- HALT: the thread is IDLE; its PC stays at the HALT. -/
def seqHalt (i : Issue) (d : Device) : Device :=
  d.updThread i.block i.thread fun t => { t with state := .idle, waits := .nothing }

/-- Target of a branch: the PC of the branch plus imm. -/
def Device.branchTarget (d : Device) (i : Issue) : Int := ((d.self i).pc : Int) + immSigned i.w

/-- A branch that is taken when a condition holds of s[b] and s[c]. -/
def branchIf (test : Word → Word → Bool) (i : Issue) (d : Device) : Device :=
  if test (d.sB i) (d.sC i) then d.transfer i (d.branchTarget i) id else d.complete i id

/-- The return PC in s[a]. -/
def Thread.link (t : Thread) (i : Issue) : Thread := t.setS i.w.a.toNat (BitVec.ofNat 64 (t.pc + 1))

/-- CALL. -/
def seqCall (i : Issue) (d : Device) : Device := d.transfer i (d.branchTarget i) fun t => t.link i

/-- JUMPR. -/
def seqJumpr (i : Issue) (d : Device) : Device := d.transfer i ((d.sB i).toNat : Int) fun t => t.link i

/-- YIELD. -/
def seqYield (i : Issue) (d : Device) : Device :=
  d.updThread i.block i.thread fun t => { t with pc := t.pc + 1, state := .waiting, waits := .yielded }

/-! ### Slots (R137, R160) -/

/-- SLOTWAIT: with the counter at or past the value, the wait is for the next frame. -/
def seqSlotwait (i : Issue) (d : Device) : Device :=
  let v := immUnsigned i.w
  let frame := d.frameBase i.paddock
  d.guarded i [(decide (d.frameOf i.paddock ≤ v), exBound)] fun d =>
    d.waitAt i (.slot v (if v ≤ d.slotCounter i.paddock i.block i.cclk then frame + d.spanOf i.paddock else frame))

/-- Tick in which a block's slot counter reaches a value in the first frame from one on that can hold it: one that is not
skipped, or any for the value zero. -/
def Device.slotInstant (d : Device) (b v frame : Nat) : Option Nat :=
  (if v = 0 then some frame else d.openFrame b frame).map fun f => f + cclkTick (d.runningMhz (regionOf b)) v

/-- The block slot counter reaches the value that a thread awaits. -/
def Device.slotMatches (d : Device) (t : ThreadId) : Device :=
  let b := t.block.val
  match (d.thread b t.thread.val).waits with
  | .slot v frame =>
    match d.slotInstant b v frame with
    | none => d
    | some at' =>
      if (d.thread b t.thread.val).state = .waiting then
        d.atInstant (max d.now at') fun d =>
          d.updThread b t.thread.val fun x => { x with state := .ready, waits := .nothing, pc := x.pc + 1 }
      else d
  | _ => d

/-- TSTART: thread s[b][3:0] starts at PC imm with its registers zero and FSTAT clear; its bale context stays, which the rules
leave open (DESIGN CHOICE, log entry 65). -/
def seqTstart (i : Issue) (d : Device) : Device :=
  let target := (d.sB i).toNat % 16
  let pc := immSigned i.w
  d.guarded i [(decide (pc < 0 ∨ 8192 ≤ pc), exAddress), (decide ((d.thread i.block target).state ≠ .idle), exState)] fun d =>
    (d.updThread i.block target fun t =>
      { t with s := [], v := [], fstat := 0, pc := pc.toNat, state := .ready, waits := .nothing }).complete i id

/-! ### Scalar (R138) -/

/-- s[a] ← s[b] op s[c]. -/
def scalar3 (op : Word → Word → Word) (i : Issue) (d : Device) : Device := d.completeS i (op (d.sB i) (d.sC i))

/-- s[a] ← s[b] op imm, imm sign-extended. -/
def scalarImm (op : Word → Word → Word) (i : Issue) (d : Device) : Device :=
  d.completeS i (op (d.sB i) (BitVec.ofInt 64 (immSigned i.w)))

/-- s[a] ← s[b] shifted by imm[5:0]. -/
def scalarShift (op : Word → Nat → Word) (i : Issue) (d : Device) : Device :=
  d.completeS i (op (d.sB i) (classBits i.w 5 0))

/-- Shift count of a register: its low 6 bits. -/
def shiftCount (y : Word) : Nat := y.toNat % 64

/-- High 64 bits of the unsigned product. -/
def mulHigh (x y : Word) : Word := BitVec.ofNat 64 (x.toNat * y.toNat / 2 ^ 64)

/-- 1 or 0. -/
def boolWord (c : Bool) : Word := if c then 1 else 0

/-- LIH: imm above the low half of s[b]. -/
def seqLih (i : Issue) (d : Device) : Device :=
  d.completeS i (BitVec.ofNat 64 (immUnsigned i.w * 2 ^ 32) ||| (d.sB i &&& 0xFFFFFFFF))

/-! ### LD and ST (R139) -/

/-- Buffer offset s[b] + imm. -/
def Device.bufferOffset (d : Device) (i : Issue) : Word := d.sB i + BitVec.ofInt 64 (immSigned i.w)

/-- The offset is a multiple of 8 and below 1,048,576. -/
def wordOffset (off : Word) : Bool := decide (off.toNat % 8 = 0 ∧ off.toNat < 0x100000)

/-- LD. -/
def seqLd (i : Issue) (d : Device) : Device :=
  let off := d.bufferOffset i
  d.guarded i [(!wordOffset off, exAddress)] fun d =>
    d.withBuffer i off.toNat 8 fun bs d => d.completeS i (BitVec.ofNat 64 (leValue bs))

/-- ST. -/
def seqSt (i : Issue) (d : Device) : Device :=
  let off := d.bufferOffset i
  d.guarded i [(!wordOffset off, exAddress)] fun d =>
    (d.storeBuffer i off.toNat (leBytes 8 (d.sC i).toNat)).complete i id

/-! ### The rows -/

/-- NOP issues. -/
def execNop (t : ThreadId) (w : IWord) (s : State) : Outcome := .next (s.on (·.issue t 0x00 w seqNop))

/-- HALT issues. -/
def execHalt (t : ThreadId) (w : IWord) (s : State) : Outcome := .next (s.on (·.issue t 0x01 w seqHalt))

/-- JUMP issues. -/
def execJump (t : ThreadId) (w : IWord) (s : State) : Outcome :=
  .next (s.on (·.issue t 0x02 w fun i d => d.transfer i (d.branchTarget i) id))

/-- BEQ issues. -/
def execBeq (t : ThreadId) (w : IWord) (s : State) : Outcome :=
  .next (s.on (·.issue t 0x03 w (branchIf fun x y => decide (x = y))))

/-- BNE issues. -/
def execBne (t : ThreadId) (w : IWord) (s : State) : Outcome :=
  .next (s.on (·.issue t 0x04 w (branchIf fun x y => decide (x ≠ y))))

/-- BLT issues. -/
def execBlt (t : ThreadId) (w : IWord) (s : State) : Outcome :=
  .next (s.on (·.issue t 0x05 w (branchIf fun x y => x.slt y)))

/-- BGE issues. -/
def execBge (t : ThreadId) (w : IWord) (s : State) : Outcome :=
  .next (s.on (·.issue t 0x06 w (branchIf fun x y => !x.slt y)))

/-- BLTU issues. -/
def execBltu (t : ThreadId) (w : IWord) (s : State) : Outcome :=
  .next (s.on (·.issue t 0x07 w (branchIf fun x y => x.ult y)))

/-- BGEU issues. -/
def execBgeu (t : ThreadId) (w : IWord) (s : State) : Outcome :=
  .next (s.on (·.issue t 0x08 w (branchIf fun x y => !x.ult y)))

/-- CALL issues. -/
def execCall (t : ThreadId) (w : IWord) (s : State) : Outcome := .next (s.on (·.issue t 0x09 w seqCall))

/-- JUMPR issues. -/
def execJumpr (t : ThreadId) (w : IWord) (s : State) : Outcome := .next (s.on (·.issue t 0x0A w seqJumpr))

/-- YIELD issues. -/
def execYield (t : ThreadId) (w : IWord) (s : State) : Outcome := .next (s.on (·.issue t 0x0B w seqYield))

/-- SLOTWAIT issues. -/
def execSlotwait (t : ThreadId) (w : IWord) (s : State) : Outcome := .next (s.on (·.issue t 0x0C w seqSlotwait))

/-- The slot that a SLOTWAIT awaits comes. -/
def execSlotCounterMatch (t : ThreadId) (s : State) : Outcome := .next (s.on (·.slotMatches t))

/-- TSTART issues. -/
def execTstart (t : ThreadId) (w : IWord) (s : State) : Outcome := .next (s.on (·.issue t 0x0D w seqTstart))

/-- ADD issues. -/
def execAdd (t : ThreadId) (w : IWord) (s : State) : Outcome := .next (s.on (·.issue t 0x10 w (scalar3 fun x y => x + y)))

/-- SUB issues. -/
def execSub (t : ThreadId) (w : IWord) (s : State) : Outcome := .next (s.on (·.issue t 0x11 w (scalar3 fun x y => x - y)))

/-- AND issues. -/
def execAnd (t : ThreadId) (w : IWord) (s : State) : Outcome := .next (s.on (·.issue t 0x12 w (scalar3 fun x y => x &&& y)))

/-- OR issues. -/
def execOr (t : ThreadId) (w : IWord) (s : State) : Outcome := .next (s.on (·.issue t 0x13 w (scalar3 fun x y => x ||| y)))

/-- XOR issues. -/
def execXor (t : ThreadId) (w : IWord) (s : State) : Outcome := .next (s.on (·.issue t 0x14 w (scalar3 fun x y => x ^^^ y)))

/-- SLL issues. -/
def execSll (t : ThreadId) (w : IWord) (s : State) : Outcome :=
  .next (s.on (·.issue t 0x15 w (scalar3 fun x y => x <<< shiftCount y)))

/-- SRL issues. -/
def execSrl (t : ThreadId) (w : IWord) (s : State) : Outcome :=
  .next (s.on (·.issue t 0x16 w (scalar3 fun x y => x >>> shiftCount y)))

/-- SRA issues. -/
def execSra (t : ThreadId) (w : IWord) (s : State) : Outcome :=
  .next (s.on (·.issue t 0x17 w (scalar3 fun x y => x.sshiftRight (shiftCount y))))

/-- MUL issues. -/
def execMul (t : ThreadId) (w : IWord) (s : State) : Outcome := .next (s.on (·.issue t 0x18 w (scalar3 fun x y => x * y)))

/-- MULHU issues. -/
def execMulhu (t : ThreadId) (w : IWord) (s : State) : Outcome := .next (s.on (·.issue t 0x19 w (scalar3 mulHigh)))

/-- MIN issues. -/
def execMin (t : ThreadId) (w : IWord) (s : State) : Outcome :=
  .next (s.on (·.issue t 0x1A w (scalar3 fun x y => if x.slt y then x else y)))

/-- MAX issues. -/
def execMax (t : ThreadId) (w : IWord) (s : State) : Outcome :=
  .next (s.on (·.issue t 0x1B w (scalar3 fun x y => if x.slt y then y else x)))

/-- SLT issues. -/
def execSlt (t : ThreadId) (w : IWord) (s : State) : Outcome :=
  .next (s.on (·.issue t 0x1C w (scalar3 fun x y => boolWord (x.slt y))))

/-- SLTU issues. -/
def execSltu (t : ThreadId) (w : IWord) (s : State) : Outcome :=
  .next (s.on (·.issue t 0x1D w (scalar3 fun x y => boolWord (x.ult y))))

/-- ADDI issues. -/
def execAddi (t : ThreadId) (w : IWord) (s : State) : Outcome := .next (s.on (·.issue t 0x20 w (scalarImm fun x y => x + y)))

/-- ANDI issues. -/
def execAndi (t : ThreadId) (w : IWord) (s : State) : Outcome :=
  .next (s.on (·.issue t 0x21 w (scalarImm fun x y => x &&& y)))

/-- ORI issues. -/
def execOri (t : ThreadId) (w : IWord) (s : State) : Outcome := .next (s.on (·.issue t 0x22 w (scalarImm fun x y => x ||| y)))

/-- XORI issues. -/
def execXori (t : ThreadId) (w : IWord) (s : State) : Outcome :=
  .next (s.on (·.issue t 0x23 w (scalarImm fun x y => x ^^^ y)))

/-- SLLI issues. -/
def execSlli (t : ThreadId) (w : IWord) (s : State) : Outcome :=
  .next (s.on (·.issue t 0x24 w (scalarShift fun x n => x <<< n)))

/-- SRLI issues. -/
def execSrli (t : ThreadId) (w : IWord) (s : State) : Outcome :=
  .next (s.on (·.issue t 0x25 w (scalarShift fun x n => x >>> n)))

/-- SRAI issues. -/
def execSrai (t : ThreadId) (w : IWord) (s : State) : Outcome :=
  .next (s.on (·.issue t 0x26 w (scalarShift fun x n => x.sshiftRight n)))

/-- LIH issues. -/
def execLih (t : ThreadId) (w : IWord) (s : State) : Outcome := .next (s.on (·.issue t 0x27 w seqLih))

/-- LD issues. -/
def execLd (t : ThreadId) (w : IWord) (s : State) : Outcome := .next (s.on (·.issue t 0x28 w seqLd))

/-- ST issues. -/
def execSt (t : ThreadId) (w : IWord) (s : State) : Outcome := .next (s.on (·.issue t 0x29 w seqSt))

end Sys2Proof.Machine
end

