-- ==== Sys2Proof/Machine/Flags.lean ====
section
/-! DEFINITION. The number formats, rounding and conversion, FP32 arithmetic and the FSTAT flags each result sets
(R110 to R125). Values are exact dyadic numbers until the one rounding that the rules name. -/

namespace Sys2Proof.Machine

/-! ### FSTAT (R122) -/

/-- No flag. -/
def flNone : BitVec 5 := 0
/-- INEXACT. -/
def flInexact : BitVec 5 := 1
/-- INVALID. -/
def flInvalid : BitVec 5 := 2
/-- OVERFLOW. -/
def flOverflow : BitVec 5 := 4
/-- UNDERFLOW. -/
def flUnderflow : BitVec 5 := 8
/-- SATURATED. -/
def flSaturated : BitVec 5 := 16

/-- A flag where a condition holds. -/
def flagIf (c : Bool) (f : BitVec 5) : BitVec 5 := if c then f else 0

/-! ### Values and formats (R110 to R113) -/

/-- A number as arithmetic sees it: NaN, an infinity, or (−1)^neg × mant × 2^exp exactly. -/
inductive Num where
  | nan
  | inf (neg : Bool)
  | fin (neg : Bool) (mant : Nat) (exp : Int)
  deriving DecidableEq, Repr

/-- What a format's top codes stand for. -/
inductive TopCodes where
  /-- Infinities and NaNs, as IEEE 754 has them. -/
  | ieee
  /-- No infinity; all ones is NaN (E4M3). -/
  | onlyNan
  /-- Every code is a number. -/
  | numbers
  deriving DecidableEq, Repr

/-- A floating-point format (R111). -/
structure Fmt where
  /-- Exponent bits. -/
  expBits : Nat
  /-- Mantissa bits. -/
  manBits : Nat
  /-- Bias. -/
  bias : Nat
  /-- Top codes. -/
  top : TopCodes
  deriving DecidableEq, Repr

/-- FP32. -/
def fmtFp32 : Fmt := { expBits := 8, manBits := 23, bias := 127, top := .ieee }
/-- BF16. -/
def fmtBf16 : Fmt := { expBits := 8, manBits := 7, bias := 127, top := .ieee }
/-- FP16. -/
def fmtFp16 : Fmt := { expBits := 5, manBits := 10, bias := 15, top := .ieee }
/-- FP8 E5M2. -/
def fmtE5m2 : Fmt := { expBits := 5, manBits := 2, bias := 15, top := .ieee }
/-- FP8 E4M3. -/
def fmtE4m3 : Fmt := { expBits := 4, manBits := 3, bias := 7, top := .onlyNan }
/-- E2M3, the MXFP6 element. -/
def fmtE2m3 : Fmt := { expBits := 2, manBits := 3, bias := 1, top := .numbers }
/-- E2M1, the MXFP4 element. -/
def fmtE2m1 : Fmt := { expBits := 2, manBits := 1, bias := 1, top := .numbers }

/-- Width of a format in bits. -/
def Fmt.width (f : Fmt) : Nat := 1 + f.expBits + f.manBits

/-- Exponent of the last place of a subnormal. -/
def Fmt.emin (f : Fmt) : Int := 1 - (f.bias : Int) - f.manBits

/-- The largest finite magnitude's code, without its sign. -/
def Fmt.maxCode (f : Fmt) : Nat :=
  match f.top with
  | .ieee => 2 ^ (f.expBits + f.manBits) - 2 ^ f.manBits - 1
  | .onlyNan => 2 ^ (f.expBits + f.manBits) - 2
  | .numbers => 2 ^ (f.expBits + f.manBits) - 1

/-- The canonical NaN (R113). -/
def Fmt.nanCode (f : Fmt) : Nat :=
  match f.top with
  | .ieee =>
    if f.expBits = 5 ∧ f.manBits = 2 then 0x7E
    else 2 ^ (f.expBits + f.manBits) - 2 ^ f.manBits + 2 ^ (f.manBits - 1)
  | _ => 2 ^ (f.expBits + f.manBits) - 1

/-- The sign bit of a code. -/
def Fmt.sign (f : Fmt) (neg : Bool) : Nat := if neg then 2 ^ (f.expBits + f.manBits) else 0

/-- Mantissa and exponent of a magnitude's code, its exponent field read without bound. -/
def Fmt.magnitude (f : Fmt) (code : Nat) : Nat × Int :=
  let e := code / 2 ^ f.manBits
  let m := code % 2 ^ f.manBits
  if e = 0 then (m, f.emin) else (2 ^ f.manBits + m, f.emin + (e : Int) - 1)

/-- The number a code stands for. -/
def Fmt.decode (f : Fmt) (bits : Nat) : Num :=
  let neg := bits.testBit (f.expBits + f.manBits)
  let code := bits % 2 ^ (f.expBits + f.manBits)
  if code ≤ f.maxCode then
    let v := f.magnitude code
    .fin neg v.1 v.2
  else if f.top = .ieee ∧ code = f.maxCode + 1 then .inf neg
  else .nan

/-- An 8-bit two's complement element (R114): `mx` weighs it by 2^−6. -/
def decodeInt8 (bits : Nat) (mx : Bool) : Num :=
  let v := signed 8 bits
  .fin (decide (v < 0)) v.natAbs (if mx then -6 else 0)

/-- An FP32 word as a number. -/
def fp (w : Word32) : Num := fmtFp32.decode w.toNat

/-- Canonical FP32 NaN. -/
def fpNan : Word32 := 0x7FC00000
/-- FP32 −infinity. -/
def fpNegInf : Word32 := 0xFF800000

/-- A word is a NaN. -/
def isNanWord (w : Word32) : Bool := decide (fp w = .nan)

/-! ### Rounding (R119 to R121) -/

/-- Rounding of one result: to nearest even, toward zero, or stochastic with a draw r. -/
inductive Rounding where
  | rne
  | rtz
  | sr (draw : Nat)
  deriving DecidableEq, Repr

/-- A magnitude rounded to a multiple of 2^q: the multiple and whether it was inexact. -/
def roundQuantum (mode : Rounding) (mant : Nat) (exp q : Int) : Nat × Bool :=
  if q ≤ exp then (mant * 2 ^ (exp - q).toNat, false)
  else
    let s := (q - exp).toNat
    let n := mant / 2 ^ s
    let rem := mant % 2 ^ s
    let up := match mode with
      | .rne => decide (2 ^ s < 2 * rem) || (decide (2 * rem = 2 ^ s) && decide (n % 2 = 1))
      | .rtz => false
      | .sr r => decide (r < rem * 65536 / 2 ^ s)
    (n + b2n up, decide (rem ≠ 0))

/-- Exponent of the last place to which a magnitude is rounded, its exponent unbounded above. -/
def Fmt.quantum (f : Fmt) (mant : Nat) (exp : Int) : Int := max ((Nat.log2 mant : Int) + exp - f.manBits) f.emin

/-- The code of n × 2^q, q at least the format's least, its exponent field unbounded. -/
def Fmt.codeOf (f : Fmt) (n : Nat) (q : Int) : Nat := (q - f.emin).toNat * 2 ^ f.manBits + n

/-- A finite magnitude rounded as though the exponent range were unbounded: its code, and whether it was inexact. A carry
out of the mantissa moves into the exponent field. -/
def Fmt.roundCode (f : Fmt) (mode : Rounding) (mant : Nat) (exp : Int) : Nat × Bool :=
  if mant = 0 then (0, false)
  else
    let q := f.quantum mant exp
    let r := roundQuantum mode mant exp q
    (f.codeOf r.1 q, r.2)

/-- A magnitude is below the format's smallest normal one. -/
def Fmt.tiny (f : Fmt) (mant : Nat) (exp : Int) : Bool :=
  decide (mant ≠ 0) && decide ((Nat.log2 mant : Int) + exp < f.emin + f.manBits)

/-- What a finite overflow delivers, and its flags (R121). -/
def Fmt.overflow (f : Fmt) (mode : Rounding) (ieee neg : Bool) : Nat × BitVec 5 :=
  let largest := (f.sign neg + f.maxCode, flOverflow ||| flInexact ||| flSaturated)
  if ieee = false ∨ mode = .rtz then largest
  else
    match f.top with
    | .ieee => (f.sign neg + f.maxCode + 1, flOverflow ||| flInexact)
    | .onlyNan => (f.nanCode, flOverflow ||| flInexact ||| flInvalid)
    | .numbers => largest

/-- A finite number delivered in a format, with its flags. -/
def Fmt.packFinite (f : Fmt) (mode : Rounding) (ieee neg : Bool) (mant : Nat) (exp : Int) : Nat × BitVec 5 :=
  let r := f.roundCode mode mant exp
  if f.maxCode < r.1 then f.overflow mode ieee neg
  else
    (f.sign neg + r.1,
      flagIf r.2 flInexact ||| flagIf (r.2 && f.tiny mant exp && decide (r.1 < 2 ^ f.manBits)) flUnderflow)

/-- The FP32 result of a vector or matrix operation: an infinite result stays infinite (R119). -/
def packFp32 (mode : Rounding) (ieee : Bool) : Num → Nat × BitVec 5
  | .nan => (fmtFp32.nanCode, 0)
  | .inf neg => (fmtFp32.sign neg + fmtFp32.maxCode + 1, 0)
  | .fin neg mant exp => fmtFp32.packFinite mode ieee neg mant exp

/-- A number converted to a narrower floating-point format: an infinite input is a clamp under SAT (R121). -/
def Fmt.convert (f : Fmt) (mode : Rounding) (ieee : Bool) : Num → Nat × BitVec 5
  | .nan => (f.nanCode, 0)
  | .inf neg =>
    if ieee then
      match f.top with
      | .ieee => (f.sign neg + f.maxCode + 1, 0)
      | .onlyNan => (f.nanCode, flInvalid)
      | .numbers => (f.sign neg + f.maxCode, flSaturated ||| flInexact)
    else (f.sign neg + f.maxCode, flSaturated ||| flInexact)
  | .fin neg mant exp => f.packFinite mode ieee neg mant exp

/-- An integer magnitude with its sign as an 8-bit code. -/
def int8Code (neg : Bool) (n : Nat) : Nat := if neg then (256 - n) % 256 else n

/-- A number converted to INT8 with a per-tensor scale already applied (R114, R121). -/
def convertInt8 (mode : Rounding) : Num → Nat × BitVec 5
  | .nan => (0, flInvalid)
  | .inf neg => (int8Code neg 127, flSaturated ||| flInexact)
  | .fin neg mant exp =>
    let r := roundQuantum mode mant exp 0
    if 127 < r.1 then (int8Code neg 127, flOverflow ||| flInexact ||| flSaturated)
    else (int8Code neg r.1, flagIf r.2 flInexact)

/-- An element of an MX group in a floating-point element format: it always saturates (R117). -/
def Fmt.packElement (f : Fmt) (mode : Rounding) (neg : Bool) (mant : Nat) (exp : Int) : Nat × BitVec 5 :=
  let r := f.roundCode mode mant exp
  let flags := flagIf r.2 flInexact ||| flagIf (r.2 && f.tiny mant exp && decide (r.1 < 2 ^ f.manBits)) flUnderflow
  if f.maxCode < r.1 then (f.sign neg + f.maxCode, flags ||| flSaturated ||| flInexact) else (f.sign neg + r.1, flags)

/-- An element of an MX group in INT8, in units of 2^−6 (R114, R117). -/
def packElementInt8 (mode : Rounding) (neg : Bool) (mant : Nat) (exp : Int) : Nat × BitVec 5 :=
  let r := roundQuantum mode mant exp (-6)
  if 127 < r.1 then (int8Code neg 127, flSaturated ||| flInexact) else (int8Code neg r.1, flagIf r.2 flInexact)

/-! ### Exact arithmetic (R123, R125) -/

/-- Signed value of a mantissa. -/
def signedMant (neg : Bool) (m : Nat) : Int := if neg then -(m : Int) else m

/-- A product: the number, and whether it is infinity × 0. -/
def mulNum : Num → Num → Num × Bool
  | .nan, _ => (.nan, false)
  | _, .nan => (.nan, false)
  | .inf s, .inf t => (.inf (s != t), false)
  | .inf s, .fin t m _ => if m = 0 then (.nan, true) else (.inf (s != t), false)
  | .fin s m _, .inf t => if m = 0 then (.nan, true) else (.inf (s != t), false)
  | .fin s m e, .fin t n k => (.fin (s != t) (m * n) (e + k), false)

/-- Exponent of a finite term. -/
def Num.exponent? : Num → Option Int
  | .fin _ _ e => some e
  | _ => none

/-- The least exponent among finite terms. -/
def leastExp (ts : List Num) : Int :=
  match ts.filterMap Num.exponent? with
  | [] => 0
  | e :: es => es.foldl min e

/-- Signed value of a finite term in units of 2^e, e at most its exponent. -/
def Num.units (e : Int) : Num → Int
  | .fin s m k => signedMant s m * (2 : Int) ^ (k - e).toNat
  | _ => 0

/-- A term is −0. -/
def Num.isNegZero : Num → Bool
  | .fin s m _ => s && decide (m = 0)
  | _ => false

/-- A sum of terms, exact: the number, and whether it is infinity − infinity. Terms that are all −0 sum to −0; any other
sum that is zero is +0. -/
def sumNum (ts : List Num) : Num × Bool :=
  if ts.any fun t => decide (t = .nan) then (.nan, false)
  else
    let plus := ts.any fun t => decide (t = .inf false)
    let minus := ts.any fun t => decide (t = .inf true)
    if plus && minus then (.nan, true)
    else if plus then (.inf false, false)
    else if minus then (.inf true, false)
    else
      let e := leastExp ts
      let total : Int := (ts.map (Num.units e)).sum
      let allNegZero := ts.all Num.isNegZero
      (.fin (decide (total < 0) || (decide (total = 0) && allNegZero)) total.natAbs e, false)

/-- A number with the other sign. -/
def negNum : Num → Num
  | .nan => .nan
  | .inf s => .inf !s
  | .fin s m e => .fin (!s) m e

/-- An FP32 result of exact arithmetic: word and flags. -/
def deliver32 (mode : Rounding) (ieee : Bool) (r : Num × Bool) : Word32 × BitVec 5 :=
  let p := packFp32 mode ieee r.1
  (BitVec.ofNat 32 p.1, p.2 ||| flagIf r.2 flInvalid)

/-- FP32 addition. -/
def addFp (mode : Rounding) (ieee : Bool) (x y : Word32) : Word32 × BitVec 5 :=
  deliver32 mode ieee (sumNum [fp x, fp y])

/-- FP32 subtraction. -/
def subFp (mode : Rounding) (ieee : Bool) (x y : Word32) : Word32 × BitVec 5 :=
  deliver32 mode ieee (sumNum [fp x, negNum (fp y)])

/-- FP32 multiplication. -/
def mulFp (mode : Rounding) (ieee : Bool) (x y : Word32) : Word32 × BitVec 5 :=
  deliver32 mode ieee (mulNum (fp x) (fp y))

/-- FP32 fused multiply-add x × y + z, rounded once. -/
def fmaFp (mode : Rounding) (ieee : Bool) (x y z : Word32) : Word32 × BitVec 5 :=
  let p := mulNum (fp x) (fp y)
  let s := sumNum [p.1, fp z]
  deliver32 mode ieee (s.1, p.2 || s.2)

/-- A ranks below b: numbers in order, −0 below +0. -/
def lessNum : Num → Num → Bool
  | .inf true, .inf true => false
  | .inf true, _ => true
  | _, .inf true => false
  | .inf false, _ => false
  | _, .inf false => true
  | .fin s m e, .fin t n k =>
    let q := min e k
    let a := signedMant s m * (2 : Int) ^ (e - q).toNat
    let b := signedMant t n * (2 : Int) ^ (k - q).toNat
    decide (a < b) || (decide (a = b) && s && !t)
  | .nan, _ => false
  | _, .nan => false

/-- FP32 maximum: NaN when either input is NaN (R125). -/
def maxFp (x y : Word32) : Word32 :=
  if isNanWord x || isNanWord y then fpNan else if lessNum (fp x) (fp y) then y else x

/-- FP32 minimum. -/
def minFp (x y : Word32) : Word32 :=
  if isNanWord x || isNanWord y then fpNan else if lessNum (fp y) (fp x) then y else x

/-! ### Results with a bound (R125) -/

/-- A positive real number v as an approximation: floor(v × 2^scale), and whether that is exact. -/
structure Real where
  /-- floor(v × 2^scale). -/
  floor : Nat
  /-- Scale. -/
  scale : Nat
  /-- v × 2^scale is an integer. -/
  exact : Bool
  deriving DecidableEq, Repr

/-- A code's value lies within `u` of its own last places of a real number. -/
def Real.within (v : Real) (u code : Nat) : Bool :=
  let y := fmtFp32.magnitude code
  let up := fun n => if 0 ≤ y.2 + v.scale then n * 2 ^ (y.2 + v.scale).toNat else 0
  let at' := up y.1
  decide (at' ≤ v.floor + up u ∧ v.floor + b2n (!v.exact) ≤ at' + up u)

/-- The real number, rounded to nearest even as though FP32 had no largest exponent, exceeds the largest finite value: the
finite overflow of R121. -/
def Real.overflows (v : Real) : Bool :=
  decide (fmtFp32.maxCode < (fmtFp32.roundCode .rne (2 * v.floor + b2n (!v.exact)) (-(v.scale : Int) - 1)).1)

/-- The finite FP32 code that is picked among those within `u` last places of a real number that does not overflow. -/
def Real.pick (v : Real) (u choice : Nat) : Nat :=
  let near := (fmtFp32.roundCode .rtz v.floor (-(v.scale : Int))).1
  let codes := ((List.range 17).map fun i => near + i - 8).eraseDups.filter fun c => v.within u c && decide (c ≤ fmtFp32.maxCode)
  codes.getD (choice % max codes.length 1) near

/-- The word and flags of a result with a sign: a finite overflow as R121 judges it on the real number itself, else the picked
code, INEXACT when it differs from the real number (R121, R122). -/
def Real.deliver (v : Real) (u choice : Nat) (neg ieee : Bool) : Word32 × BitVec 5 :=
  if v.overflows then
    let r := fmtFp32.overflow .rne ieee neg
    (BitVec.ofNat 32 r.1, r.2)
  else
    let code := v.pick u choice
    let inexact := !v.exact || !v.within 0 code
    (BitVec.ofNat 32 (fmtFp32.sign neg + code),
      flagIf inexact flInexact |||
        flagIf (inexact && decide (v.floor < 2 ^ (v.scale - 126)) && decide (code < 0x800000)) flUnderflow)

/-- floor(2^f × 2^256) for f = bits / 2^n, from the top bit down: `root` is 2^(1/2^k) scaled by 2^256. -/
def pow2Frac : Nat → Nat → Nat → Nat → Nat
  | 0, _, _, acc => acc
  | n + 1, bits, root, acc =>
    let next := Nat.sqrt (root * 2 ^ 256)
    pow2Frac n bits next (if bits.testBit n then acc * next / 2 ^ 256 else acc)

/-- 2^x for a finite x that is not an integer and not beyond ±1,024, as a real number. -/
def realExp2 (neg : Bool) (mant : Nat) (exp : Int) : Real :=
  let s := (-exp).toNat
  let v := signedMant neg mant
  let k := v / (2 : Int) ^ s
  let frac := (v % (2 : Int) ^ s).toNat
  let f := pow2Frac s frac (2 ^ 257) (2 ^ 256)
  if k < 0 then { floor := f, scale := 256 + (-k).toNat, exact := false }
  else { floor := f * 2 ^ k.toNat, scale := 256, exact := false }

/-- exp2 (R125). -/
def exp2Fp (ieee : Bool) (x : Word32) : Word32 × BitVec 5 :=
  match fp x with
  | .nan => (fpNan, 0)
  | .inf true => (0, 0)
  | .inf false => (0x7F800000, 0)
  | .fin neg mant exp =>
    let above := fmtFp32.overflow .rne ieee false
    let scaled := roundQuantum .rtz mant exp 0
    if !neg && decide (128 ≤ scaled.1) then (BitVec.ofNat 32 above.1, above.2)
    else if scaled.2 = false ∧ (neg = false ∨ scaled.1 ≤ 149) then
      deliver32 .rne ieee (.fin false 1 (if neg then -(scaled.1 : Int) else scaled.1), false)
    else if 1024 ≤ scaled.1 then
      ({ floor := 0, scale := 1024, exact := false } : Real).deliver 2 (Config.exp2Pick x) false ieee
    else (realExp2 neg mant exp).deliver 2 (Config.exp2Pick x) false ieee

/-- A value that the rules state no result for, with the one flag that follows from it: a NaN from a number is INVALID
(R122). -/
def openResult (w : Word32) : Word32 × BitVec 5 := if isNanWord w then (fpNan, flInvalid) else (w, 0)

/-- Reciprocal (R125); of an infinity no result is stated (log entry 7). -/
def rcpFp (ieee : Bool) (x : Word32) : Word32 × BitVec 5 :=
  match fp x with
  | .nan => (fpNan, 0)
  | .inf _ => openResult (Config.rcpOpen x)
  | .fin neg mant exp =>
    if mant = 0 then (BitVec.ofNat 32 (fmtFp32.sign neg + 0x7F800000), 0)
    else
      let top := 2 ^ (400 - exp).toNat
      ({ floor := top / mant, scale := 400, exact := decide (top % mant = 0) } : Real).deliver 1 (Config.rcpPick x) neg ieee

/-- Reciprocal square root (R125); of ±0, of negative inputs and of infinities no result is stated (log entry 7). -/
def rsqrtFp (ieee : Bool) (x : Word32) : Word32 × BitVec 5 :=
  match fp x with
  | .nan => (fpNan, 0)
  | .inf _ => openResult (Config.rsqrtOpen x)
  | .fin neg mant exp =>
    if neg ∨ mant = 0 then openResult (Config.rsqrtOpen x)
    else
      let top := 2 ^ (800 - exp).toNat
      let root := Nat.sqrt (top / mant)
      ({ floor := root, scale := 400, exact := decide (root * root * mant = top) } : Real).deliver 2 (Config.rsqrtPick x)
        false ieee

/-- floor(log2(m) × 2^n) for m in [1, 2) given scaled by 2^512. -/
def log2Frac : Nat → Nat → Nat
  | 0, _ => 0
  | n + 1, m =>
    let sq := m * m / 2 ^ 512
    if 2 ^ 513 ≤ sq then 2 ^ n + log2Frac n (sq / 2) else log2Frac n sq

/-- log2 (R125); of −0 and of +infinity no result is stated, and log2(1) is any value within the bound of 0 (log entry 7). -/
def log2Fp (ieee : Bool) (x : Word32) : Word32 × BitVec 5 :=
  match fp x with
  | .nan => (fpNan, 0)
  | .inf false => openResult (Config.log2Open x)
  | .inf true => (fpNan, flInvalid)
  | .fin neg mant exp =>
    if mant = 0 then (if neg then openResult (Config.log2Open x) else (fpNegInf, 0))
    else if neg then (fpNan, flInvalid)
    else
      let k := (Nat.log2 mant : Int) + exp
      let isPower := decide (mant = 2 ^ Nat.log2 mant)
      if isPower then
        if k = 0 then
          let p := Config.log2Pick x
          ({ floor := 0, scale := 200, exact := true } : Real).deliver 2 (p / 2) (decide (p % 2 = 1)) ieee
        else ({ floor := k.natAbs * 2 ^ 200, scale := 200, exact := true } : Real).deliver 2 (Config.log2Pick x)
          (decide (k < 0)) ieee
      else
        let l := log2Frac 200 (mant * 2 ^ (512 - Nat.log2 mant))
        let v := if 0 ≤ k then k.toNat * 2 ^ 200 + l else k.natAbs * 2 ^ 200 - l - 1
        ({ floor := v, scale := 200, exact := false } : Real).deliver 2 (Config.log2Pick x) (decide (k < 0)) ieee

/-! ### Stochastic generators (R120) -/

/-- One step of a lane's generator. -/
def xorshift (s : Word32) : Word32 :=
  let a := s ^^^ (s <<< 13)
  let b := a ^^^ (a >>> 17)
  b ^^^ (b <<< 5)

/-- The draw of a generator's new state. -/
def drawOf (s : Word32) : Nat := (s >>> 16).toNat

end Sys2Proof.Machine
end

