-- ==== Sys2Proof/Machine/Matrix.lean ====
section
/-! DEFINITION. The matrix instructions: operand formats and their elements, the cells' multiply-accumulate, and the drain
(R107 to R124, R140 to R143). An MMAC runs all its rounds in one step (log entry 12). -/

namespace Sys2Proof.Machine

/-! ### Formats (R109 to R116) -/

/-- Bits of an element by format code. -/
def elemBits (fmt : Nat) : Nat :=
  match fmt with
  | 0 => 32
  | 1 => 16
  | 2 => 16
  | 6 => 6
  | 7 => 4
  | _ => 8

/-- A format code and scale mode that R110 allows. -/
def formatAllowed (fmt sm : Nat) : Bool :=
  match sm with
  | 0 => decide (fmt ≤ 2)
  | 1 => decide (3 ≤ fmt ∧ fmt ≤ 5)
  | 2 => decide (3 ≤ fmt ∧ fmt ≤ 7)
  | _ => false

/-- An operand pair of R109. -/
def pairAllowed (afmt wfmt : Nat) : Bool :=
  let narrow := fun f => decide (f = 3 ∨ f = 4 ∨ f = 6 ∨ f = 7)
  if narrow afmt then narrow wfmt
  else if afmt = 1 ∨ afmt = 2 then decide (wfmt = 1 ∨ wfmt = 2)
  else decide (afmt = wfmt)

/-- The element format of a code other than INT8. -/
def elemFmt (fmt : Nat) : Fmt :=
  match fmt with
  | 0 => fmtFp32
  | 1 => fmtBf16
  | 2 => fmtFp16
  | 3 => fmtE4m3
  | 4 => fmtE5m2
  | 6 => fmtE2m3
  | _ => fmtE2m1

/-- The number an element's bits stand for, before any scale. -/
def elemNum (fmt sm bits : Nat) : Num := if fmt = 5 then decodeInt8 bits (decide (sm = 2)) else (elemFmt fmt).decode bits

/-- `n` packed elements of a format (R116): each takes the next bits, little-endian. -/
def unpackElems (fmt n : Nat) (bs : List Byte) : List Nat :=
  let v := leValue bs
  (List.range n).map fun i => v / 2 ^ (elemBits fmt * i) % 2 ^ elemBits fmt

/-- Elements packed in a format. -/
def packElems (fmt : Nat) (codes : List Nat) : List Byte :=
  leBytes (elemBits fmt * codes.length / 8)
    (codes.foldr (fun c acc => c % 2 ^ elemBits fmt + 2 ^ elemBits fmt * acc) 0)

/-- An element under an MX scale; the scale 0xFF makes it NaN (R115). -/
def scaleNum (scale : Nat) (x : Num) : Num :=
  if scale = 0xFF then .nan
  else match x with
    | .fin s m e => .fin s m (e + (scale : Int) - 127)
    | y => y

/-- The 32 numbers of a group: elements and, with MX scales, the scale byte. -/
def groupNums (fmt sm : Nat) (elems : List Byte) (scale : Nat) : List Num :=
  (unpackElems fmt 32 elems).map fun b =>
    if sm = 2 then scaleNum scale (elemNum fmt sm b) else elemNum fmt sm b

/-- Bytes of a group's 32 elements. -/
def groupBytes (fmt : Nat) : Nat := 4 * elemBits fmt

/-- Bytes of a weight group in scratch, its scale byte with it (R108). -/
def weightBytes (fmt sm : Nat) : Nat := groupBytes fmt + (if sm = 2 then 1 else 0)

/-- Offset of activation group g (R141). -/
def groupOffset (fmt g : Nat) : Nat := if fmt = 6 then g / 170 * 4096 + g % 170 * 24 else g * groupBytes fmt

/-! ### Expansion at the operand port (R142, R261, R262) -/

/-- Where the expander reads after a bale's header, and how much: the payload of a coded bale, the annex of an ANNEX bale in
the buffer, the spill slot of a SPILL bale in memory, and nothing for an EMPTY bale or a header that fails (R259). -/
def Device.expandSource (d : Device) (i : Issue) (b : Binding) (off : Nat) (head : List Byte) : Nat × Nat :=
  let annex := fieldU32 head 8
  if d.headerCode i.paddock b true head ≠ 0 ∨ d.spillCode b head ≠ 0 then (0, 0)
  else if fieldU8 head 0 = 0xB1 then (bufferAddr i.block (off + 16), b.size - 16)
  else if fieldU8 head 0 = 0xB2 then (b.slotAddress annex, rawBlock)
  else if fieldU8 head 0 = 0xB3 then (bufferAddr i.block annex, Nat.min rawBlock (0x100000 - annex))
  else (0, 0)

/-- Bytes at a local address for an expansion: in the block's own buffer as its threads read them (R135). -/
def Device.expandBytes (d : Device) (i : Issue) (a n : Nat) : List Byte × Device :=
  if inBuffers a n then d.readBuffer i.block (a - bufferAddr i.block 0) n else (d.load a n, d)

/-- One bale of the buffer is read and expanded: raw bytes, or a lasting failure. Raw bytes past the end of the buffer are free
values (log entry 6). -/
def Device.expandOne (d : Device) (i : Issue) (b : Binding) (off : Nat) : Device × Option Report × List Byte :=
  let source := d.sourceOf i
  let first := d.checkedRead (bufferAddr i.block off) 16 source i.paddock
  match first.2 with
  | some report => (first.1, some report, [])
  | none =>
    let head := first.1.readBuffer i.block off 16
    let at' := head.2.expandSource i b off head.1
    let rest := if at'.2 = 0 then (head.2, none) else head.2.checkedRead at'.1 at'.2 source i.paddock
    match rest.2 with
    | some report => (rest.1, some report, [])
    | none =>
      let body := if at'.2 = 0 then ([], rest.1) else rest.1.expandBytes i at'.1 at'.2
      let raw := body.1 ++ (List.range (rawBlock - body.1.length)).map (Config.freeByte d.draws)
      let r := body.2.expandBale i.paddock b (head.1 ++ body.1) raw
      let j := body.2.judgeBale i.paddock source b.tensor (bufferAddr i.block off) r.1
      (j.1, j.2, r.2)

/-- Bales of the buffer are expanded in order: raw bytes, or a lasting failure. -/
def Device.expandRun (d : Device) (i : Issue) (b : Binding) : Nat → Nat → List Byte → Device × Option Report × List Byte
  | _, 0, acc => (d, none, acc)
  | off, n + 1, acc =>
    let r := d.expandOne i b off
    match r.2.1 with
    | some report => (r.1, some report, acc)
    | none => r.1.expandRun i b (off + b.size) n (acc ++ r.2.2)

/-- The operand stream of an instruction: raw bytes of the buffer, or the expansion of the bales there. -/
def Device.withStream (d : Device) (i : Issue) (binding : Option Binding) (off n : Nat)
    (run : List Byte → Device → Device) : Device :=
  match binding with
  | none => d.withBuffer i off n run
  | some b =>
    let r := d.expandRun i b off (ceilDiv n rawBlock) []
    match r.2.1 with
    | some report => r.1.strike i.paddock report
    | none => run r.2.2 r.1

/-- Buffer bytes that an operand stream of `n` bytes takes. -/
def streamBytes (binding : Option Binding) (n : Nat) : Nat :=
  match binding with
  | none => n
  | some b => ceilDiv n rawBlock * b.size

/-- The binding of the thread's bale context. -/
def Device.contextBinding (d : Device) (i : Issue) : Option Binding :=
  (d.binding i.paddock (d.self i).bale).map bindingOf

/-! ### MLOADW (R140) -/

/-- Scratch key of a byte of a cell (R107). -/
def scratchKey (b cell off : Nat) : Nat := (1024 * b + cell) * 4096 + off

/-- Accumulator key of a cell (R107). -/
def accKey (b cell a : Nat) : Nat := (1024 * b + cell) * 32 + a

/-- Scratch bytes written. -/
def Device.setScratch (d : Device) (key : Nat) (bs : List Byte) : Device :=
  d.mapFabric fun f => { f with scratch := f.scratch.setMany key bs }

/-- MLOADW. -/
def seqMloadw (i : Issue) (d : Device) : Device :=
  let n := 4 * (classBits i.w 40 31 + 1)
  let soff := classBits i.w 29 18
  let baled := classBit i.w 30
  let binding := if baled then d.contextBinding i else none
  let src := d.sB i
  d.guarded i [(decide (soff % 4 ≠ 0 ∨ 4096 < soff + n), exBound), (baled && binding.isNone, exAddress),
    (!inBuffer1 src (streamBytes binding (1024 * n)), exAddress)] fun d =>
    d.withStream i binding src.toNat (1024 * n) fun bs d =>
      ((List.range 1024).foldl (fun d cell => d.setScratch (scratchKey i.block cell soff) (bytesAt bs (cell * n) n)) d).complete
        i id

/-! ### MMAC (R123, R141, R142) -/

/-- An accumulator takes the products of one CCLK: their exact sum with it, rounded once. -/
def accumulate (acc : Word32) (products : List (Num × Bool)) : Word32 × BitVec 5 :=
  let s := sumNum (products.map (·.1) ++ [fp acc])
  deliver32 .rne true (s.1, s.2 || products.any (·.2))

/-- Products taken `k` at a time. -/
def inChunks {α : Type} (k : Nat) : Nat → List α → List (List α)
  | 0, _ => []
  | fuel + 1, xs => if xs.isEmpty then [] else xs.take k :: inChunks k fuel (xs.drop k)

/-- One round of one cell: 32 element pairs, two at a time at rate 2. -/
def cellRound (two : Bool) (acc : Word32) (xs ws : List Num) : Word32 × BitVec 5 :=
  let products := (xs.zip ws).map fun e => mulNum e.1 e.2
  (inChunks (if two then 2 else 1) 32 products).foldl
    (fun r c =>
      let s := accumulate r.1 c
      (s.1, r.2 ||| s.2)) (acc, 0)

/-- What a matrix round needs. -/
structure Mmac where
  /-- Accumulator. -/
  a : Nat
  /-- Activation format and scale mode. -/
  afmt : Nat
  /-- Activation scale mode. -/
  asm : Nat
  /-- Weight format. -/
  wfmt : Nat
  /-- Weight scale mode. -/
  wsm : Nat
  /-- `wsoff`. -/
  wsoff : Nat
  /-- The activation stream. -/
  stream : List Byte
  /-- Activation scales. -/
  scales : List Byte
  deriving DecidableEq, Repr

/-- One cell's accumulator after a round, and the flags it raised. -/
def Device.cellStep (d : Device) (m : Mmac) (b k cell : Nat) (xs : List Num) : Device :=
  let w := groupBytes m.wfmt
  let ws := d.fabric.scratch.getMany (scratchKey b cell (m.wsoff + k * weightBytes m.wfmt m.wsm)) (w + 1)
  let nums := groupNums m.wfmt m.wsm (ws.take w) (fieldU8 ws w)
  let two := decide (m.afmt = 7 ∧ m.wfmt = 7)
  let r := cellRound two (d.fabric.acc.get (accKey b cell m.a)) xs nums
  let d1 := d.mapFabric fun f => { f with acc := f.acc.set (accKey b cell m.a) r.1 }
  if r.2 = 0 then d1
  else d1.updBlock b fun x => { x with accFlags := x.accFlags.setIfInBounds m.a (((x.accFlags[m.a]?).getD 0) ||| r.2) }

/-- Round k: each row's activation group meets the weight groups of its 32 cells. -/
def Device.matrixRound (m : Mmac) (b : Nat) (d : Device) (k : Nat) : Device :=
  (List.range 32).foldl (fun d row =>
    let g := 32 * k + row
    let xs := groupNums m.afmt m.asm (bytesAt m.stream (groupOffset m.afmt g) (groupBytes m.afmt)) (fieldU8 m.scales g)
    (List.range 32).foldl (fun d column => d.cellStep m b k (32 * row + column) xs) d) d

/-- Rounds `first` to `first + n` − 1. -/
def Device.matrixRounds (m : Mmac) (b first n : Nat) (d : Device) : Device :=
  ((List.range n).map (first + ·)).foldl (Device.matrixRound m b) d

/-- `rounds` of an MMAC word. -/
def roundsField (w : IWord) : Nat := classBits w 29 18

/-- Bytes that the activations of an MMAC run over. -/
def mmacBytes (w : IWord) : Nat :=
  groupOffset (classBits w 40 38) (32 * roundsField w - 1) + groupBytes (classBits w 40 38)

/-- CCLKs of a round of an MMAC word. -/
def mmacRoundTime (w : IWord) : Nat := roundTime (classBits w 40 38) (classBits w 35 33)

/-- An MMAC with its activations and scales read from the buffer. -/
def Device.withMmac (d : Device) (i : Issue) (binding : Option Binding) (src scaleAt : Nat)
    (run : Mmac → Device → Device) : Device :=
  d.withStream i binding src (mmacBytes i.w) fun stream d =>
    d.withBuffer i scaleAt (if classBits i.w 37 36 = 2 then 32 * roundsField i.w else 0) fun scales d =>
      run { a := i.w.a.toNat, afmt := classBits i.w 40 38, asm := classBits i.w 37 36, wfmt := classBits i.w 35 33,
            wsm := classBits i.w 32 31, wsoff := classBits i.w 17 6, stream := stream, scales := scales } d

/-- The accumulators of a number in a block's cells. -/
def Device.accumulators (d : Device) (b a : Nat) : List Word32 :=
  (List.range 1024).map fun cell => d.fabric.acc.get (accKey b cell a)

/-- The accumulators of a number in a block's cells, set. -/
def Device.setAccumulators (d : Device) (b a : Nat) (vs : List Word32) : Device :=
  d.mapFabric fun f => { f with acc := (List.range 1024).foldl (fun m cell => m.set (accKey b cell a) (vs.getD cell 0)) f.acc }

/-- An MMAC occupies its block's matrix engine from a CCLK of the present frame on; its rounds before `first` are done. -/
def Device.keepMmac (d : Device) (i : Issue) (pc context b c first : Nat) : Device :=
  let a := i.w.a.toNat
  let r : MmacRun :=
    { thread := i.thread, pc := pc, context := context, b := b, c := c, frame := d.frameBase i.paddock, cclk := i.cclk,
      rounds := roundsField i.w, first := first, roundTime := mmacRoundTime i.w, acc := a, before := d.accumulators i.block a,
      flags := ((d.block i.block).accFlags[a]?).getD 0 }
  d.updBlock i.block fun k => { k with mmac := some r }

/-- MMAC. -/
def seqMmac (i : Issue) (d : Device) : Device :=
  let afmt := classBits i.w 40 38
  let asm := classBits i.w 37 36
  let wfmt := classBits i.w 35 33
  let wsm := classBits i.w 32 31
  let baled := classBit i.w 30
  let rounds := roundsField i.w
  let wsoff := classBits i.w 17 6
  let binding := if baled then d.contextBinding i else none
  let src := d.sB i
  let scaleAt := d.sC i
  let x := d.self i
  d.guarded i [(!(pairAllowed afmt wfmt && formatAllowed afmt asm && formatAllowed wfmt wsm), exFormat),
    (decide (rounds = 0 ∨ 4096 < wsoff + rounds * weightBytes wfmt wsm), exBound), (baled && binding.isNone, exAddress),
    (!inBuffer1 src (streamBytes binding (mmacBytes i.w)) || (decide (asm = 2) && !inBuffer1 scaleAt (32 * rounds)),
     exAddress)] fun d =>
    d.withMmac i binding src.toNat scaleAt.toNat fun m d =>
      (((d.keepMmac i x.pc x.bale src.toNat scaleAt.toNat 0).complete i id).matrixRounds m i.block 0 rounds)

/-! ### An MMAC that is interrupted (R157, R388) -/

/-- Rounds that an MMAC has done when it stops at the end of the round under way at a tick. -/
def MmacRun.doneBy (r : MmacRun) (mhz stop : Nat) : Nat :=
  r.first + max 1 (ceilDiv (cclksIn mhz (stop - r.frame) - r.cclk) r.roundTime)

/-- The issue of an MMAC that stands at a PC of a block. -/
def Device.mmacIssue (d : Device) (p b t pc : Nat) : Issue :=
  { block := b, thread := t, paddock := p, op := 0x31, w := (splitWord ((d.block b).istore.get pc).toNat).2, cclk := 0 }

/-- Binding of the bales of an MMAC under a bale context. -/
def Device.mmacBinding (d : Device) (p context : Nat) (w : IWord) : Option Binding :=
  if classBit w 30 then (d.binding p context).map bindingOf else none

/-- The MMAC in a block's matrix engine stops at the end of its round: its accumulator holds the rounds done, and its thread what
its resumption needs. The thread's PC is at the MMAC where it has issued nothing after it. -/
def Device.cutMmac (d : Device) (p stop b : Nat) : Device :=
  let gone := d.updBlock b fun k => { k with mmac := none }
  match (d.block b).mmac with
  | none => d
  | some r =>
    let done := r.doneBy (d.runningMhz (regionOf b)) stop
    if r.rounds ≤ done then gone
    else
      let i := d.mmacIssue p b r.thread r.pc
      let d1 := (gone.setAccumulators b r.acc r.before).updBlock b fun k => { k with accFlags := k.accFlags.setIfInBounds r.acc r.flags }
      d1.withMmac i (d1.mmacBinding p r.context i.w) r.b r.c fun m d =>
        (d.matrixRounds m b r.first (done - r.first)).updThread b r.thread fun x =>
          { x with pc := if r.later then x.pc else r.pc, progress := done, mmacPc := r.pc, mmacContext := r.context,
                   mmacB := r.b, mmacC := r.c }

/-- The matrix engine of a block completes the MMAC of a thread that was interrupted, from its next round; a thread whose PC is
at the MMAC goes on after it (log entry 12). -/
def Device.resumeMmac (d : Device) (p b t : Nat) : Device :=
  let x := d.thread b t
  if x.mmacPc = 0xFFFF then d
  else
    let i := d.mmacIssue p b t x.mmacPc
    let left := roundsField i.w - x.progress
    let d1 := d.updThread b t fun y =>
      { y with pc := if y.pc = y.mmacPc then y.pc + 1 else y.pc, progress := 0, mmacPc := 0xFFFF, mmacContext := 0, mmacB := 0,
               mmacC := 0 }
    d1.withMmac i (d1.mmacBinding p x.mmacContext i.w) x.mmacB x.mmacC fun m d =>
      ((d.keepMmac i x.mmacPc x.mmacContext x.mmacB x.mmacC x.progress).updBlock b fun k =>
        { k with cclkFrame := d.frameBase p, cclkNext := 0, matrixNext := left * mmacRoundTime i.w,
                 mmac := k.mmac.map fun r => { r with later := decide (x.pc ≠ x.mmacPc) } }).matrixRounds m b x.progress left

/-! ### MDRAIN and MZERO (R124, R143) -/

/-- One level of a tree: neighbours are added, each addition rounded to nearest even. -/
def treeLevel (ieee : Bool) : List Word32 → List Word32 × BitVec 5
  | x :: y :: rest =>
    let s := addFp .rne ieee x y
    let r := treeLevel ieee rest
    (s.1 :: r.1, s.2 ||| r.2)
  | xs => (xs, 0)

/-- The tree of R124 over `levels` levels. -/
def treeSum (ieee : Bool) : Nat → List Word32 → Word32 × BitVec 5
  | 0, xs => (xs.headD 0, 0)
  | levels + 1, xs =>
    let l := treeLevel ieee xs
    let r := treeSum ieee levels l.1
    (r.1, l.2 ||| r.2)

/-- A per-tensor scale is positive, finite and normal (R118). -/
def scaleFits (s : Word32) : Bool :=
  match fp s with
  | .fin neg mant exp => !neg && decide (mant ≠ 0) && !fmtFp32.tiny mant exp
  | _ => false

/-- A column sum under per-tensor scales: s = sₐ × s_b, then the product, each rounded; a bad scale gives NaN. -/
def drainScale (sa sb x : Word32) : Word32 × BitVec 5 :=
  if scaleFits sa && scaleFits sb then
    let s := mulFp .rne true sa sb
    let r := mulFp .rne true x s.1
    (r.1, s.2 ||| r.2)
  else (fpNan, flInvalid)

/-- The rounding that `rmode` names, with the draw of a lane under SR. -/
def roundingOf (rmode draw : Nat) : Rounding := if rmode = 1 then .rtz else if rmode = 2 then .sr draw else .rne

/-- A result converted to the output format of a drain. -/
def drainConvert (fmt : Nat) (mode : Rounding) (ieee : Bool) (x : Word32) : Nat × BitVec 5 :=
  if fmt = 0 then (x.toNat, 0) else (elemFmt fmt).convert mode ieee (fp x)

/-- The generators after the lanes from `first` on for `n` have drawn once each. -/
def drawLanes (g : Vector Word32 64) (first n : Nat) : Vector Word32 64 :=
  Vector.ofFn fun l => if first ≤ l.val ∧ l.val < first + n then xorshift g[l] else g[l]

/-- MDRAIN. -/
def seqMdrain (i : Issue) (d : Device) : Device :=
  let fmt := fmtField i.w
  let rmode := rmodeField i.w
  let scaled := classBit i.w 32
  let a := i.w.a.toNat
  let out := d.sB i
  d.guarded i [(decide (2 < fmt), exFormat), (!inBuffer1 out (4 * elemBits fmt), exAddress)] fun d =>
    let k := d.block i.block
    let gens := if rmode = 2 then drawLanes k.generators 0 32 else k.generators
    let sc := d.sC i
    let column := fun (c : Nat) =>
      let cells := (List.range 32).map fun row => d.fabric.acc.get (accKey i.block (32 * row + c) a)
      let s := treeSum true 5 cells
      let p := if scaled then drainScale (sc.setWidth 32) ((sc >>> 32).setWidth 32) s.1 else (s.1, 0)
      let o := drainConvert fmt (roundingOf rmode (drawOf ((gens[c]?).getD 0))) (ovfField i.w) p.1
      (o.1, s.2 ||| p.2 ||| o.2)
    let results := (List.range 32).map column
    let flags := results.foldl (fun f r => f ||| r.2) ((k.accFlags[a]?).getD 0)
    let d1 := d.updBlock i.block fun x => { x with generators := gens, accFlags := x.accFlags.setIfInBounds a 0 }
    let cleared := fun (f : Fabric) => (List.range 1024).foldl
      (fun (f : Fabric) cell => { f with acc := f.acc.set (accKey i.block cell a) 0 }) f
    let d2 := if classBit i.w 31 then d1.mapFabric cleared else d1
    (d2.storeBuffer i out.toNat (packElems fmt (results.map (·.1)))).complete i fun t => t.flag flags

/-- MZERO. -/
def seqMzero (i : Issue) (d : Device) : Device :=
  let as := if classBit i.w 0 then List.range 32 else [i.w.a.toNat]
  let keys := (List.range 1024).flatMap fun cell => as.map fun a => accKey i.block cell a
  (d.mapFabric fun f => { f with acc := keys.foldl (fun m k => m.set k 0) f.acc }).complete i id

/-! ### The rows -/

/-- MLOADW issues. -/
def execMloadw (t : ThreadId) (w : IWord) (s : State) : Outcome := .next (s.on (·.issue t 0x30 w seqMloadw))

/-- MMAC issues. -/
def execMmac (t : ThreadId) (w : IWord) (s : State) : Outcome := .next (s.on (·.issue t 0x31 w seqMmac))

/-- MDRAIN issues. -/
def execMdrain (t : ThreadId) (w : IWord) (s : State) : Outcome := .next (s.on (·.issue t 0x32 w seqMdrain))

/-- MZERO issues. -/
def execMzero (t : ThreadId) (w : IWord) (s : State) : Outcome := .next (s.on (·.issue t 0x33 w seqMzero))

end Sys2Proof.Machine
end

