-- ==== Sys2Proof/Machine/Vectors.lean ====
section
/-! DEFINITION. The vector and conversion instructions (R117 to R125, R144): each writes 64 lanes, or a scalar, or packed
elements of the block buffer, and sets the thread's FSTAT at once. -/

namespace Sys2Proof.Machine

/-! ### Lanes -/

/-- Vector operand b. -/
def Device.vB (d : Device) (i : Issue) : List Word32 := (d.self i).lanes i.w.b.toNat

/-- Vector operand c. -/
def Device.vC (d : Device) (i : Issue) : List Word32 := (d.self i).lanes i.w.c.toNat

/-- Vector operand a, where it is read. -/
def Device.vA (d : Device) (i : Issue) : List Word32 := (d.self i).lanes i.w.a.toNat

/-- Flags of a list of results. -/
def flagsOf {α : Type} (rs : List (α × BitVec 5)) : BitVec 5 := rs.foldl (fun f r => f ||| r.2) 0

/-- The instruction completes with results in the lanes of v[a]. -/
def Device.completeV (d : Device) (i : Issue) (rs : List (Word32 × BitVec 5)) : Device :=
  d.complete i fun t => (t.setV i.w.a.toNat (rs.map (·.1))).flag (flagsOf rs)

/-- The rounding of an add, subtract, multiply or fused multiply-add. -/
def Issue.rounding (i : Issue) : Rounding := roundingOf (rmodeField i.w) 0

/-- A lane operation on two operands. -/
def vector2 (f : Word32 → Word32 → Word32 × BitVec 5) (i : Issue) (d : Device) : Device :=
  d.completeV i (List.zipWith f (d.vB i) (d.vC i))

/-- A lane operation on one operand. -/
def vector1 (f : Word32 → Word32 × BitVec 5) (i : Issue) (d : Device) : Device := d.completeV i ((d.vB i).map f)

/-! ### Loads and stores -/

/-- A buffer offset at which 256 bytes of lanes may stand: a multiple of 4 (R144). -/
def laneOffset (off : Word) : Bool := decide (off.toNat % 4 = 0) && inBuffer1 off 256

/-- VLD. -/
def seqVld (i : Issue) (d : Device) : Device :=
  let off := d.bufferOffset i
  d.guarded i [(!laneOffset off, exAddress)] fun d =>
    d.withBuffer i off.toNat 256 fun bs d =>
      d.complete i fun t => t.setV i.w.a.toNat ((List.range 64).map fun l => BitVec.ofNat 32 (fieldU32 bs (4 * l)))

/-- VST. -/
def seqVst (i : Issue) (d : Device) : Device :=
  let off := d.bufferOffset i
  d.guarded i [(!laneOffset off, exAddress)] fun d =>
    (d.storeBuffer i off.toNat ((d.vC i).flatMap fun x => leBytes 4 x.toNat)).complete i id

/-! ### Arithmetic (R125) -/

/-- VADD. -/
def seqVadd (i : Issue) (d : Device) : Device := vector2 (addFp i.rounding (ovfField i.w)) i d
/-- VSUB. -/
def seqVsub (i : Issue) (d : Device) : Device := vector2 (subFp i.rounding (ovfField i.w)) i d
/-- VMUL. -/
def seqVmul (i : Issue) (d : Device) : Device := vector2 (mulFp i.rounding (ovfField i.w)) i d

/-- VFMA. -/
def seqVfma (i : Issue) (d : Device) : Device :=
  let f := fun (x : Word32 × Word32) z => fmaFp i.rounding (ovfField i.w) x.1 x.2 z
  d.completeV i (List.zipWith f ((d.vB i).zip (d.vC i)) (d.vA i))

/-- VMAX. -/
def seqVmax (i : Issue) (d : Device) : Device := vector2 (fun x y => (maxFp x y, 0)) i d
/-- VMIN. -/
def seqVmin (i : Issue) (d : Device) : Device := vector2 (fun x y => (minFp x y, 0)) i d
/-- VEXP2. -/
def seqVexp2 (i : Issue) (d : Device) : Device := vector1 (exp2Fp (ovfField i.w)) i d
/-- VRCP. -/
def seqVrcp (i : Issue) (d : Device) : Device := vector1 (rcpFp (ovfField i.w)) i d
/-- VRSQRT. -/
def seqVrsqrt (i : Issue) (d : Device) : Device := vector1 (rsqrtFp (ovfField i.w)) i d
/-- VLOG2. -/
def seqVlog2 (i : Issue) (d : Device) : Device := vector1 (log2Fp (ovfField i.w)) i d

/-! ### Lanes and scalars -/

/-- VBCAST. -/
def seqVbcast (i : Issue) (d : Device) : Device :=
  d.complete i fun t => t.setV i.w.a.toNat (List.replicate 64 ((d.sB i).setWidth 32))

/-- VREDMAX. -/
def seqVredmax (i : Issue) (d : Device) : Device :=
  let ls := d.vB i
  d.completeS i ((ls.foldl maxFp (ls.headD 0)).setWidth 64)

/-- VREDSUM. -/
def seqVredsum (i : Issue) (d : Device) : Device :=
  let r := treeSum false 6 (d.vB i)
  d.complete i fun t => (t.setS i.w.a.toNat (r.1.setWidth 64)).flag r.2

/-- VMOVS. -/
def seqVmovs (i : Issue) (d : Device) : Device :=
  d.completeS i (((d.self i).lane i.w.b.toNat (immUnsigned i.w % 64)).setWidth 64)

/-! ### Conversion (R114, R117 to R121) -/

/-- The generators after a conversion of 64 elements: under SR every lane has drawn once (R120). -/
def Device.convertDraws (d : Device) (i : Issue) : Vector Word32 64 :=
  let g := (d.block i.block).generators
  if rmodeField i.w = 2 then drawLanes g 0 64 else g

/-- The rounding of a conversion's lane. -/
def laneRounding (i : Issue) (gens : Vector Word32 64) (l : Nat) : Rounding :=
  roundingOf (rmodeField i.w) (drawOf ((gens[l]?).getD 0))

/-- A number converted to a format other than an MX one, with FP32 as its widest target. -/
def convertTo (fmt : Nat) (mode : Rounding) (ieee : Bool) (x : Num) : Nat × BitVec 5 :=
  if fmt = 5 then convertInt8 mode x else if fmt = 0 then packFp32 mode ieee x else (elemFmt fmt).convert mode ieee x

/-- One element of VCVT: under a per-tensor scale the exact product with q is rounded once (R118). -/
def cvtElement (fmt sm : Nat) (q : Word32) (mode : Rounding) (ieee : Bool) (x : Word32) : Nat × BitVec 5 :=
  let v := if sm = 1 then mulNum (fp x) (fp q) else (fp x, false)
  let r := convertTo fmt mode ieee v.1
  (r.1, r.2 ||| flagIf v.2 flInvalid)

/-- VCVT. -/
def seqVcvt (i : Issue) (d : Device) : Device :=
  let fmt := fmtField i.w
  let sm := smField i.w
  let out := d.sA i
  d.guarded i [(!(formatAllowed fmt sm && decide (sm ≤ 1)), exFormat), (!inBuffer1 out (8 * elemBits fmt), exAddress)]
    fun d =>
      let gens := d.convertDraws i
      let q := (d.sC i).setWidth 32
      let rs := (d.vB i).zipIdx.map fun e => cvtElement fmt sm q (laneRounding i gens e.2) (ovfField i.w) e.1
      let d1 := d.updBlock i.block fun k => { k with generators := gens }
      (d1.storeBuffer i out.toNat (packElems fmt (rs.map (·.1)))).complete i fun t => t.flag (flagsOf rs)

/-- `emax` of an MX element format (R117). -/
def mxEmax (fmt : Nat) : Int :=
  match fmt with
  | 3 => 8
  | 4 => 15
  | 5 => 0
  | _ => 2

/-- The exponent of a finite number's magnitude: floor(log2), none for zero. -/
def Num.log2? : Num → Option Int
  | .fin _ m e => if m = 0 then none else some ((Nat.log2 m : Int) + e)
  | _ => none

/-- A number is NaN or infinite. -/
def Num.nonFinite : Num → Bool
  | .fin _ _ _ => false
  | _ => true

/-- An element of an MX group under x: the value × 2^(−x), always saturating (R117). -/
def mxElement (fmt : Nat) (mode : Rounding) (x : Int) : Num → Nat × BitVec 5
  | .fin s m e => if fmt = 5 then packElementInt8 mode s m (e - x) else (elemFmt fmt).packElement mode s m (e - x)
  | _ => (0, 0)

/-- The exponent x of a group of finite values (R117). -/
def mxExponent (fmt : Nat) (xs : List Num) : Int :=
  match xs.filterMap Num.log2? with
  | [] => -127
  | e :: es => max (-127) (min 127 (es.foldl max e - mxEmax fmt))

/-- One MX group quantised: scale byte, element codes and flags. `rounding` gives each position's. -/
def quantise (fmt : Nat) (rounding : Nat → Rounding) (xs : List Num) : Nat × List (Nat × BitVec 5) :=
  if xs.any Num.nonFinite then (0xFF, xs.map fun _ => (0, flInvalid))
  else
    let x := mxExponent fmt xs
    ((x + 127).toNat, xs.zipIdx.map fun e => mxElement fmt (rounding e.2) x e.1)

/-- VQMX. -/
def seqVqmx (i : Issue) (d : Device) : Device :=
  let fmt := fmtField i.w
  let sm := smField i.w
  let out := d.sA i
  let scales := d.sC i
  d.guarded i [(!(formatAllowed fmt sm && decide (sm = 2)), exFormat),
    (!inBuffer1 out (8 * elemBits fmt) || !inBuffer1 scales 2, exAddress)] fun d =>
      let gens := d.convertDraws i
      let xs := (d.vB i).map fp
      let low := quantise fmt (fun l => laneRounding i gens l) (xs.take 32)
      let high := quantise fmt (fun l => laneRounding i gens (32 + l)) (xs.drop 32)
      let rs := low.2 ++ high.2
      let d1 := d.updBlock i.block fun k => { k with generators := gens }
      let d2 := d1.storeBuffer i out.toNat (packElems fmt (rs.map (·.1)))
      (d2.storeBuffer i scales.toNat (leBytes 1 low.1 ++ leBytes 1 high.1)).complete i fun t => t.flag (flagsOf rs)

/-- An element widened to FP32: with its MX scale, or multiplied by a per-tensor scale. -/
def widen (fmt sm scale : Nat) (s : Word32) (bits : Nat) : Word32 × BitVec 5 :=
  let x := elemNum fmt sm bits
  match sm with
  | 1 => deliver32 .rne false (mulNum x (fp s))
  | 2 => deliver32 .rne false (scaleNum scale x, false)
  | _ => deliver32 .rne false (x, false)

/-- VUNPK. -/
def seqVunpk (i : Issue) (d : Device) : Device :=
  let fmt := fmtField i.w
  let sm := smField i.w
  let src := d.sB i
  let scaleAt := d.sC i
  let n := 8 * elemBits fmt
  d.guarded i [(!formatAllowed fmt sm, exFormat),
    (!inBuffer1 src n || (decide (sm = 2) && !inBuffer1 scaleAt 2), exAddress)] fun d =>
      d.withBuffer i src.toNat n fun bs d =>
        d.withBuffer i (if sm = 2 then scaleAt.toNat else 0) (if sm = 2 then 2 else 0) fun scales d =>
          d.completeV i ((unpackElems fmt 64 bs).zipIdx.map fun e =>
            widen fmt sm (fieldU8 scales (e.2 / 32)) (scaleAt.setWidth 32) e.1)

/-! ### The rows -/

/-- VLD issues. -/
def execVld (t : ThreadId) (w : IWord) (s : State) : Outcome := .next (s.on (·.issue t 0x40 w seqVld))

/-- VST issues. -/
def execVst (t : ThreadId) (w : IWord) (s : State) : Outcome := .next (s.on (·.issue t 0x41 w seqVst))

/-- VADD issues. -/
def execVadd (t : ThreadId) (w : IWord) (s : State) : Outcome := .next (s.on (·.issue t 0x42 w seqVadd))

/-- VSUB issues. -/
def execVsub (t : ThreadId) (w : IWord) (s : State) : Outcome := .next (s.on (·.issue t 0x43 w seqVsub))

/-- VMUL issues. -/
def execVmul (t : ThreadId) (w : IWord) (s : State) : Outcome := .next (s.on (·.issue t 0x44 w seqVmul))

/-- VFMA issues. -/
def execVfma (t : ThreadId) (w : IWord) (s : State) : Outcome := .next (s.on (·.issue t 0x45 w seqVfma))

/-- VMAX issues. -/
def execVmax (t : ThreadId) (w : IWord) (s : State) : Outcome := .next (s.on (·.issue t 0x46 w seqVmax))

/-- VMIN issues. -/
def execVmin (t : ThreadId) (w : IWord) (s : State) : Outcome := .next (s.on (·.issue t 0x47 w seqVmin))

/-- VEXP2 issues. -/
def execVexp2 (t : ThreadId) (w : IWord) (s : State) : Outcome := .next (s.on (·.issue t 0x48 w seqVexp2))

/-- VRCP issues. -/
def execVrcp (t : ThreadId) (w : IWord) (s : State) : Outcome := .next (s.on (·.issue t 0x49 w seqVrcp))

/-- VRSQRT issues. -/
def execVrsqrt (t : ThreadId) (w : IWord) (s : State) : Outcome := .next (s.on (·.issue t 0x4A w seqVrsqrt))

/-- VLOG2 issues. -/
def execVlog2 (t : ThreadId) (w : IWord) (s : State) : Outcome := .next (s.on (·.issue t 0x4B w seqVlog2))

/-- VBCAST issues. -/
def execVbcast (t : ThreadId) (w : IWord) (s : State) : Outcome := .next (s.on (·.issue t 0x4C w seqVbcast))

/-- VREDMAX issues. -/
def execVredmax (t : ThreadId) (w : IWord) (s : State) : Outcome := .next (s.on (·.issue t 0x4D w seqVredmax))

/-- VREDSUM issues. -/
def execVredsum (t : ThreadId) (w : IWord) (s : State) : Outcome := .next (s.on (·.issue t 0x4E w seqVredsum))

/-- VMOVS issues. -/
def execVmovs (t : ThreadId) (w : IWord) (s : State) : Outcome := .next (s.on (·.issue t 0x4F w seqVmovs))

/-- VCVT issues. -/
def execVcvt (t : ThreadId) (w : IWord) (s : State) : Outcome := .next (s.on (·.issue t 0x50 w seqVcvt))

/-- VQMX issues. -/
def execVqmx (t : ThreadId) (w : IWord) (s : State) : Outcome := .next (s.on (·.issue t 0x51 w seqVqmx))

/-- VUNPK issues. -/
def execVunpk (t : ThreadId) (w : IWord) (s : State) : Outcome := .next (s.on (·.issue t 0x52 w seqVunpk))

end Sys2Proof.Machine
end

