-- ==== Sys2Proof/Machine/Attention.lean ====
section
/-! DEFINITION. The attention helpers: the base-2 online softmax, the merge of partials and the distance bias (R147 to R149,
R217, R218, R222). They round to nearest even and saturate (R119, R144). -/

namespace Sys2Proof.Machine

/-- exp2(x − m) with its flags. -/
def expBelow (x m : Word32) : Word32 × BitVec 5 :=
  let s := subFp .rne false x m
  let e := exp2Fp false s.1
  (e.1, s.2 ||| e.2)

/-- exp2(x − m) for a score or a maximum of scores: a NaN sets INVALID (R217). -/
def scoreExp (x m : Word32) : Word32 × BitVec 5 :=
  let e := expBelow x m
  (e.1, e.2 ||| flagIf (isNanWord x || isNanWord m) flInvalid)

/-- AMAX in one lane: the factor and the running maximum. -/
def amaxLane (x y : Word32) : (Word32 × BitVec 5) × Word32 :=
  let m := maxFp x y
  (if m = fpNegInf then (0x3F800000, 0) else scoreExp x m, m)

/-- AMAX: the factor goes to v[c], then the maximum to v[a]. -/
def seqAmax (i : Issue) (d : Device) : Device :=
  let rs := List.zipWith amaxLane (d.vA i) (d.vB i)
  d.complete i fun t =>
    ((t.setV i.w.c.toNat (rs.map (·.1.1))).setV i.w.a.toNat (rs.map (·.2))).flag (flagsOf (rs.map (·.1)))

/-- AEXP in one lane: +0 where v[b] is −infinity. -/
def aexpLane (x m : Word32) : Word32 × BitVec 5 := if x = fpNegInf then (0, 0) else scoreExp x m

/-- AEXP. -/
def seqAexp (i : Issue) (d : Device) : Device := d.completeV i (List.zipWith aexpLane (d.vB i) (d.vC i))

/-- ARESC: v[a] × v[b] + v[c], rounded once. -/
def seqAresc (i : Issue) (d : Device) : Device :=
  let f := fun (x : Word32 × Word32) z => fmaFp .rne false x.1 x.2 z
  d.completeV i (List.zipWith f ((d.vA i).zip (d.vB i)) (d.vC i))

/-- What AMERGE computes in one lane. -/
structure MergeLane where
  /-- m. -/
  m : Word32
  /-- l. -/
  l : Word32
  /-- f₁. -/
  f1 : Word32
  /-- f₂. -/
  f2 : Word32
  /-- Flags. -/
  flags : BitVec 5
  deriving DecidableEq, Repr

/-- AMERGE in one lane. -/
def mergeLane (m1 l1 m2 l2 : Word32) : MergeLane :=
  let m := maxFp m1 m2
  let a := if m = fpNegInf then (0x3F800000, 0) else expBelow m1 m
  let b := if m = fpNegInf then (0, 0) else expBelow m2 m
  let x := mulNum (fp l1) (fp a.1)
  let y := mulNum (fp l2) (fp b.1)
  let s := sumNum [x.1, y.1]
  let l := deliver32 .rne false (s.1, x.2 || y.2 || s.2)
  { m := m, l := l.1, f1 := a.1, f2 := b.1, flags := a.2 ||| b.2 ||| l.2 }

/-- AMERGE. -/
def seqAmerge (i : Issue) (d : Device) : Device :=
  let t := d.self i
  let a := i.w.a.toNat
  let b := i.w.b.toNat
  let c := i.w.c.toNat
  let rs := (List.range 64).map fun l => mergeLane (t.lane a l) (t.lane (a + 1) l) (t.lane b l) (t.lane (b + 1) l)
  d.complete i fun t =>
    ((((t.setV a (rs.map (·.m))).setV (a + 1) (rs.map (·.l))).setV c (rs.map (·.f1))).setV (c + 1) (rs.map (·.f2))).flag
      (rs.foldl (fun f r => f ||| r.flags) 0)

/-- The bucket of a distance (R222). -/
def bucket (δ : Nat) : Nat :=
  if δ < 256 then δ
  else
    let e := Nat.log2 δ
    256 + 32 * (e - 8) + δ / 2 ^ (e - 5) % 32

/-- Bytes of a bias table (R223). -/
def biasBytes : Nat := 2048

/-- ABIAS in one lane: an entry of −infinity gives −infinity. -/
def abiasLane (table : List Byte) (x δ : Word32) : Word32 × BitVec 5 :=
  let e := fmtFp16.decode (fieldU16 table (2 * bucket δ.toNat))
  if e = .inf true then (fpNegInf, 0) else deliver32 .rne false (sumNum [fp x, e])

/-- ABIAS. -/
def seqAbias (i : Issue) (d : Device) : Device :=
  let off := immUnsigned i.w
  d.guarded i [(decide (off % 2 = 1 ∨ 0x100000 < off + biasBytes), exAddress)] fun d =>
    d.withBuffer i off biasBytes fun table d => d.completeV i (List.zipWith (abiasLane table) (d.vB i) (d.vC i))

/-! ### The rows -/

/-- AMAX issues. -/
def execAmax (t : ThreadId) (w : IWord) (s : State) : Outcome := .next (s.on (·.issue t 0x70 w seqAmax))

/-- AEXP issues. -/
def execAexp (t : ThreadId) (w : IWord) (s : State) : Outcome := .next (s.on (·.issue t 0x71 w seqAexp))

/-- ARESC issues. -/
def execAresc (t : ThreadId) (w : IWord) (s : State) : Outcome := .next (s.on (·.issue t 0x72 w seqAresc))

/-- AMERGE issues. -/
def execAmerge (t : ThreadId) (w : IWord) (s : State) : Outcome := .next (s.on (·.issue t 0x73 w seqAmerge))

/-- ABIAS issues. -/
def execAbias (t : ThreadId) (w : IWord) (s : State) : Outcome := .next (s.on (·.issue t 0x74 w seqAbias))

end Sys2Proof.Machine
end

