-- ==== Sys2Proof/Machine/Select.lean ====
section
/-! DEFINITION. PAGE_SELECT: the top-k units choose the page sets most relevant to a set of queries (R231 to R237). -/

namespace Sys2Proof.Machine

/-! ### Fields (R233) -/

/-- `k`. -/
def selK (b : List Byte) : Nat := fieldU16 b 48
/-- `recent`. -/
def selRecent (b : List Byte) : Nat := fieldU16 b 50
/-- `sink`. -/
def selSink (b : List Byte) : Nat := fieldU16 b 52
/-- Largest number of indices of one output. -/
def selCap (b : List Byte) : Nat := selK b + selRecent b + selSink b
/-- Bytes of one output (R235). -/
def selStride (b : List Byte) : Nat := ceilDiv (8 + 4 * selCap b) 64 * 64
/-- Bytes of a query element. -/
def selElement (b : List Byte) : Nat := if fieldU8 b 59 = 0 then 4 else 2

/-- Bytes of the query area. -/
def selQueryBytes (b : List Byte) (c : ServeConfig) : Nat :=
  fieldU16 b 56 * c.groups * c.heads * c.headDim * selElement b
/-- Bytes of the output area. -/
def selOutBytes (b : List Byte) (c : ServeConfig) : Nat := fieldU16 b 56 * c.groups * selStride b

/-! ### Scores (R231, R234) -/

/-- An FP32 word of an exact number. -/
def exact32 (n : Num) : Word32 := (deliver32 .rne true (n, false)).1

/-- σ of a layout: `score_scale`, or log2(e) ÷ √d to nearest when it is 0 (R204). -/
def ServeConfig.sigma (c : ServeConfig) : Word32 :=
  if c.scoreScale ≠ 0 then c.scoreScale
  else if c.headDim = 64 then 0x3E38AA3B else if c.headDim = 128 then 0x3E0293EE else 0x3DB8AA3B

/-- Format of a layout's summaries: the key format for FP8 keys, E5M2 for others. -/
def ServeConfig.summaryFormat (c : ServeConfig) : Fmt := if c.kvFmt = 3 then fmtE4m3 else fmtE5m2

/-- The vector of query head h of a layer and group, as FP32 words. -/
def Device.queryVector (d : Device) (b : List Byte) (c : ServeConfig) (layer g h : Nat) : List Word32 :=
  let e := selElement b
  let f := if fieldU8 b 59 = 0 then fmtFp32 else if fieldU8 b 59 = 1 then fmtBf16 else fmtFp16
  let start := fieldU64 b 24 + (((layer - fieldU16 b 54) * c.groups + g) * c.heads + h) * c.headDim * e
  (List.range c.headDim).map fun t => exact32 (f.decode (d.loadLe (start + t * e) e))

/-- The least and greatest keys of a page, element by element. -/
def Device.summaryOf (d : Device) (c : ServeConfig) (pageId : Nat) : List (Word32 × Word32) :=
  let a := c.summaryAddress pageId
  (List.range c.headDim).map fun t =>
    (exact32 (c.summaryFormat.decode (d.loadLe (a + t) 1)), exact32 (c.summaryFormat.decode (d.loadLe (a + c.headDim + t) 1)))

/-- Product and sum in FP32, to nearest even; an overflow is infinite. -/
def mul32 (x y : Word32) : Word32 := (mulFp .rne true x y).1
/-- FP32 sum to nearest even. -/
def add32 (x y : Word32) : Word32 := (addFp .rne true x y).1

/-- The bound u of one head over one page. -/
def headBound (c : ServeConfig) (q : List Word32) (summary : List (Word32 × Word32)) : Word32 :=
  let terms := (q.zip summary).map fun e => maxFp (mul32 e.1 e.2.1) (mul32 e.1 e.2.2)
  mul32 (mul32 c.sigma c.kScale) (terms.foldl add32 0)

/-- A page's score: the greatest bound over the heads. -/
def pageScore (c : ServeConfig) (queries : List (List Word32)) (summary : List (Word32 × Word32)) : Word32 :=
  (queries.map fun q => headBound c q summary).foldl maxFp fpNegInf

/-- One score is above another: NaN above every number, −0 equal to +0. -/
def scoreAbove (x y : Word32) : Bool :=
  if isNanWord y then false else if isNanWord x then true
  else
    let zero := fun (w : Word32) => w = 0 ∨ w = 0x80000000
    if zero x ∧ zero y then false else lessNum (fp y) (fp x)

/-- A scored entry in its place: higher scores first, the higher index first among equals. -/
def scoreInsert (x : Nat × Word32) : List (Nat × Word32) → List (Nat × Word32)
  | [] => [x]
  | y :: ys =>
    if scoreAbove x.2 y.2 || (!scoreAbove y.2 x.2 && decide (y.1 < x.1)) then x :: y :: ys else y :: scoreInsert x ys

/-- An index in its place, ascending. -/
def indexInsert (x : Nat) : List Nat → List Nat
  | [] => [x]
  | y :: ys => if x ≤ y then x :: y :: ys else y :: indexInsert x ys

/-! ### One output (R234, R235) -/

/-- The entries always kept, in their order of priority. -/
def Device.forced (d : Device) (b : List Byte) : List Nat :=
  let table := fieldU64 b 16
  let first := fieldU32 b 40
  let n := fieldU32 b 44
  let flags := fun i => d.loadLe (entryAt table i + 13) 1
  let range := (List.range n).map (first + ·)
  let isEnd := fun i => decide (i < first + selSink b ∨ first + n ≤ i + selRecent b)
  (range.filter isEnd) ++ (range.filter fun i => !isEnd i && bitOf (flags i) 1) ++
    range.filter fun i => !isEnd i && !bitOf (flags i) 1 && !bitOf (flags i) 0

/-- The indices of one layer and group, ascending, and TRUNCATED. -/
def Device.selectFor (d : Device) (b : List Byte) (c : ServeConfig) (layer g : Nat) : List Nat × Bool :=
  let table := fieldU64 b 16
  let forced := d.forced b
  if selCap b ≤ forced.length then ((forced.take (selCap b)).foldr indexInsert [], true)
  else
    let queries := (List.range c.heads).map (d.queryVector b c layer g)
    let rest := ((List.range (fieldU32 b 44)).map (fieldU32 b 40 + ·)).filter fun i => !forced.contains i
    let scored := rest.map fun i =>
      (i, pageScore c queries (d.summaryOf c (refPage (d.loadLe (entryAt table i) 8) + layer * c.groups + g)))
    let chosen := ((scored.foldr scoreInsert []).take (Nat.min (selK b) (selCap b - forced.length))).map (·.1)
    ((forced ++ chosen).foldr indexInsert [], false)

/-- The bytes of one output. -/
def selectOutput (b : List Byte) (r : List Nat × Bool) : List Byte :=
  leBytes 4 r.1.length ++ leBytes 4 (b2n r.2) ++ (r.1.flatMap fun i => leBytes 4 i) ++
    List.replicate (4 * (selCap b - r.1.length)) 0xFF

/-- Every output of a PAGE_SELECT is written; how many were truncated. -/
def Device.writeOutputs (d : Device) (b : List Byte) (c : ServeConfig) : Device × Nat :=
  let out := fieldU64 b 32
  (List.range (fieldU16 b 56 * c.groups)).foldl (fun acc i =>
    let r := acc.1.selectFor b c (fieldU16 b 54 + i / max c.groups 1) (i % max c.groups 1)
    (acc.1.store (out + i * selStride b) (selectOutput b r), acc.2 + b2n r.2)) (d, 0)

/-! ### The descriptor (R236, R237) -/

/-- Checks of a PAGE_SELECT. -/
def Device.selectCheck (d : Device) (j : Job) : Option Ending :=
  let b := j.bytes
  match (d.serving j.paddock).cfg, d.paddock j.paddock with
  | some c, some x =>
    let table := fieldU64 b 16
    let region := fieldU8 b 60
    let layers := decide (1 ≤ fieldU16 b 56 ∧ fieldU16 b 56 ≤ 512 ∧ fieldU16 b 54 + fieldU16 b 56 ≤ c.layers)
    endIn [sizeIn 48 1 4096 (selK b), sizeIn 50 0 4096 (selRecent b), sizeIn 52 0 4096 (selSink b),
      sizeIn 44 1 tableLimit (fieldU32 b 44),
      require (!x.covers table 64 || decide (fieldU32 b 40 + fieldU32 b 44 ≤ d.tableEntries table)) resBadLength 44,
      require (!x.covers (fieldU64 b 24) 1 || x.inOneWindow (fieldU64 b 24) (selQueryBytes b c)) resBadLength 24,
      require (!x.covers (fieldU64 b 32) 1 || x.inOneWindow (fieldU64 b 32) (selOutBytes b c)) resBadLength 32,
      require (d.tableCovered j.paddock table) resBadArgument 16, d.droveAddress j 24 1 1, d.droveAddress j 32 1 64,
      require (decide (fieldU16 b 54 < c.layers)) resBadArgument 54, require layers resBadArgument 56,
      require (decide (fieldU8 b 58 = c.heads)) resBadArgument 58, inRange 59 0 2 (fieldU8 b 59),
      require (decide (region ≤ 15 ∧ x.blocksIn region ≠ 0)) resBadArgument 60, reserved b 61 3]
  | _, _ => some { result := resBadArgument, detail := 58 }

/-- Bytes that a PAGE_SELECT moves: its queries, its table entries, the summaries it scores and its outputs (R237). -/
def Device.selectBytes (d : Device) (b : List Byte) (c : ServeConfig) : Nat :=
  let scored := if selCap b ≤ (d.forced b).length then 0 else fieldU32 b 44 - (d.forced b).length
  selQueryBytes b c + 16 * fieldU32 b 44 * fieldU16 b 56 + scored * fieldU16 b 56 * c.groups * (2 * c.headDim) + selOutBytes b c

/-- A top-k unit that is free begins the PAGE_SELECT at the head of its queue, through its region's service share. -/
def Device.startSelect (d : Device) (n : Nat) : Device :=
  match (d.service.selecting[n]?).getD [] with
  | [] => d
  | x :: rest =>
    if x.ends ≠ 0 then d else
      let cfg := (d.ring x.ring).bind fun r => (d.serving r.paddock).cfg
      let w := d.bookWork [(n, (cfg.map (d.selectBytes x.bytes)).getD 0)]
      w.1.mapService fun s => { s with selecting := s.selecting.setIfInBounds n ({ x with ends := w.2 } :: rest) }

/-- PAGE_SELECT: it joins the queue of its region's top-k unit. -/
def kindSelect : DescKind :=
  { type := 0x30,
    check := fun d j => d.selectCheck j,
    run := fun d j =>
      let n := fieldU8 j.bytes 60
      let x : Selecting := { ring := j.ring, index := j.index, bytes := j.bytes }
      (d.mapService fun s => { s with selecting := s.selecting.setIfInBounds n ((s.selecting[n]?).getD [] ++ [x]) }).startSelect n }

/-- What a PAGE_SELECT does when its transfers have ended. -/
def Device.endSelect (d : Device) (n : Nat) (x : Selecting) : Device :=
  match d.ring x.ring with
  | none => d
  | some r =>
    match (d.serving r.paddock).cfg with
    | none => d.perform [.done x.ring x.index resOk 0 0]
    | some c =>
      let read := d.checkedRead (fieldU64 x.bytes 24) (selQueryBytes x.bytes c) (d.src (srcRegion n 4)) r.paddock
      match read.2 with
      | some report =>
        read.1.failTransfer { ring := x.ring, index := x.index, paddock := r.paddock, bytes := x.bytes } report
      | none =>
        let w := read.1.writeOutputs x.bytes c
        w.1.perform [.done x.ring x.index resOk 0 w.2]

/-- A top-k unit finishes the PAGE_SELECT it runs and begins its next one (R237). -/
def Device.selectDone (d : Device) (n : Nat) : Device :=
  match (d.service.selecting[n]?).getD [] with
  | [] => d
  | x :: rest =>
    d.atInstant x.ends fun d =>
      ((d.mapService fun s => { s with selecting := s.selecting.setIfInBounds n rest }).startSelect n).endSelect n x

/-! ### The rows -/

/-- The ring takes a PAGE_SELECT at its head. -/
def execPageSelect (x : Desc) (s : State) : Outcome := .next (s.on (·.runDescriptor kindSelect x))

/-- The region's top-k unit finishes the PAGE_SELECT it runs. -/
def execPageSelectDone (region : Fin 16) (s : State) : Outcome := .next (s.on (·.selectDone region.val))

end Sys2Proof.Machine
end

