-- ==== Sys2Proof/Machine/BaleOps.lean ====
section
/-! DEFINITION. The bale instructions, and how their transfers complete (R145, R146, R231, R232, R240, R257 to R262). -/

namespace Sys2Proof.Machine

/-! ### Issue (R145, R155, R240) -/

/-- A memory range of a bale instruction: local HBM or DDR memory of the paddock's windows. -/
def Device.baleMemory (d : Device) (p a n : Nat) : Bool :=
  (inHbm a n || d.inTier a n) && (match d.paddock p with
    | some x => x.covers a n
    | none => false)

/-- A memory range touches a window that the paddock's world keeps it from (R442). -/
def Device.worldClash (d : Device) (p a n : Nat) : Bool := !d.isSecure p && d.touchesSecure a n

/-- A transfer starts, and the thread goes on at once. -/
def Device.startBale (d : Device) (i : Issue) (op : BaleOp) (binding : List Byte) : Device :=
  let x : BaleTransfer := { op := op, thread := i.thread, buffer := (d.sA i).toNat, address := (d.sB i).toNat,
                            count := countField i.w, tensor := (d.self i).bale, binding := binding,
                            bell := baleBell i.w }
  (d.updBlock i.block fun k => { k with bales := k.bales ++ [x] }).complete i id

/-- `count` is out of its range. -/
def badCount (i : Issue) : Bool := decide (countField i.w = 0 ∨ 1024 < countField i.w)

/-- BSETX. -/
def seqBsetx (i : Issue) (d : Device) : Device := d.complete i fun t => { t with bale := classBits i.w 11 0 }

/-- BLOAD: a bound that needs the binding is judged after the binding (R155). -/
def seqBload (i : Issue) (d : Device) : Device :=
  let b := d.binding i.paddock (d.self i).bale
  let k := bindingOf (b.getD [])
  let n := countField i.w * k.size
  let mem := (d.sB i).toNat
  d.guarded i [(badCount i, exBound), (b.isNone, exAddress), (!inBuffer1 (d.sA i) (n + rawBlock * k.annex), exBound),
    (!d.baleMemory i.paddock mem n, exAddress), (d.worldClash i.paddock mem n, exWorld)] fun d =>
      d.startBale i .load (b.getD [])

/-- BSTORE. -/
def seqBstore (i : Issue) (d : Device) : Device :=
  let b := d.binding i.paddock (d.self i).bale
  let n := countField i.w * (bindingOf (b.getD [])).size
  let mem := (d.sB i).toNat
  d.guarded i [(badCount i || !inBuffer1 (d.sA i) (rawBlock * countField i.w), exBound), (b.isNone, exAddress),
    (!d.baleMemory i.paddock mem n, exAddress), (d.worldClash i.paddock mem n, exWorld)] fun d =>
      d.startBale i .store (b.getD [])

/-- BEXPAND. -/
def seqBexpand (i : Issue) (d : Device) : Device :=
  let b := d.binding i.paddock (d.self i).bale
  let n := countField i.w * (bindingOf (b.getD [])).size
  d.guarded i [(badCount i || !inBuffer1 (d.sA i) (rawBlock * countField i.w), exBound), (b.isNone, exAddress),
    (!inBuffer1 (d.sB i) n, exBound)] fun d => d.startBale i .expand (b.getD [])

/-- BCOPY: raw blocks, which need no binding (R260). -/
def seqBcopy (i : Issue) (d : Device) : Device :=
  let n := rawBlock * countField i.w
  let mem := (d.sB i).toNat
  d.guarded i [(badCount i || !inBuffer1 (d.sA i) n, exBound), (!d.baleMemory i.paddock mem n, exAddress),
    (d.worldClash i.paddock mem n, exWorld)] fun d => d.startBale i (if classBit i.w 31 then .copyOut else .copyIn) []

/-! ### Page summaries (R231, R232) -/

/-- A magnitude's code in FP8 E5M2 rounded away from zero or toward it; a value beyond the largest is infinite. -/
def outwardCode (away : Bool) (mant : Nat) (exp : Int) : Nat :=
  let r := fmtE5m2.roundCode .rtz mant exp
  let code := r.1 + b2n (away && r.2)
  if fmtE5m2.maxCode < code ∨ (r.1 = fmtE5m2.maxCode ∧ r.2) then fmtE5m2.maxCode + 1 else code

/-- A summary element in FP8 E5M2: a minimum rounded toward −infinity, a maximum toward +infinity. -/
def outward (upper : Bool) : Num → Nat
  | .nan => fmtE5m2.nanCode
  | .inf s => fmtE5m2.sign s + fmtE5m2.maxCode + 1
  | .fin s m e => fmtE5m2.sign s + outwardCode (s != upper) m e

/-- A summary element of a layout: the key format itself for FP8 keys. -/
def ServeConfig.summaryCode (c : ServeConfig) (upper : Bool) (x : Word32) : Nat :=
  if c.kvFmt = 3 ∨ c.kvFmt = 4 then ((elemFmt c.kvFmt).convert .rne true (fp x)).1 else outward upper (fp x)

/-- The summary of a raw page: the least key of each element over all 16 rows, then the greatest. -/
def ServeConfig.summaryOfRaw (c : ServeConfig) (raw : List Byte) : List Byte :=
  let size := elemBits c.kvFmt / 8
  let key := fun (t j : Nat) => exact32 ((elemFmt c.kvFmt).decode (leValue (bytesAt raw ((t * c.headDim + j) * size) size)))
  let column := fun (f : Word32 → Word32 → Word32) (j : Nat) =>
    ((List.range 15).map fun t => key (t + 1) j).foldl f (key 0 j)
  ((List.range c.headDim).map fun j => BitVec.ofNat 8 (c.summaryCode false (column minFp j))) ++
    (List.range c.headDim).map fun j => BitVec.ofNat 8 (c.summaryCode true (column maxFp j))

/-- The page of a layout that begins at a local address. -/
def Device.pageAt (d : Device) (p : Nat) (c : ServeConfig) (a : Nat) : Option Nat :=
  let stride := d.pageStride p c
  (List.range c.pools.length).findSome? fun n =>
    let pool := c.pool n
    if 0 < stride ∧ pool.base ≤ a ∧ (a - pool.base) % stride = 0 ∧ (a - pool.base) / stride < pool.slots then
      some (pageIdOf n ((a - pool.base) / stride))
    else none

/-- Summaries of the pages whose raw blocks a store has written in whole. -/
def Device.storeSummaries (d : Device) (p block : Nat) (x : BaleTransfer) (size : Nat) : Device :=
  match (d.serving p).cfg with
  | none => d
  | some c =>
    if c.kvFlags.getLsbD 0 = false ∨ c.kvTensor ≠ x.tensor then d
    else
      (List.range x.count).foldl (fun d i =>
        match d.pageAt p c (x.address + i * size) with
        | none => d
        | some id =>
          if i + c.blocksPerPage ≤ x.count then
            let raw := d.load (bufferAddr block (x.buffer + rawBlock * i)) (rawBlock * c.blocksPerPage)
            d.store (c.summaryAddress id) (c.summaryOfRaw raw)
          else d) d

/-! ### Completion (R146, R257 to R262, R421, R423) -/

/-- A transfer that a lasting failure has ended. -/
abbrev Failed := Option Report

/-- Bale i of a BLOAD: the header and spill checks of R261, and, for a SPILL bale, its raw block into the annex. `used` are
the annex blocks taken. -/
def Device.loadBale (d : Device) (p source block : Nat) (x : BaleTransfer) (b : Binding) (used i : Nat) :
    Device × Failed × Nat :=
  let addr := x.address + i * b.size
  let place := bufferAddr block (x.buffer + i * b.size)
  let read := d.checkedRead addr b.size source p
  match read.2 with
  | some r => (read.1, some r, used)
  | none =>
    let bale := read.1.load addr b.size
    let head := read.1.headerCode p b false bale
    let spill := if head = 0 then read.1.spillCode b bale else head
    let spilled := decide (spill = 0) && decide (fieldU8 bale 0 = 0xB2)
    let slot := b.slotAddress (fieldU32 bale 8)
    let fetch := if spilled then read.1.checkedRead slot rawBlock source p else (read.1, none)
    match fetch.2 with
    | some r => (fetch.1, some r, used)
    | none =>
      let raw := if spilled then fetch.1.load slot rawBlock else []
      let code := if spilled then crcCode b bale raw else spill
      let j := fetch.1.judgeBale p source b.tensor addr code
      match j.2 with
      | some r => (j.1, some r, used)
      | none =>
        if spilled then
          if b.annex ≤ used then (j.1, some (spaceReport source p 0x0D b.tensor addr), used)
          else
            let off := x.buffer + x.count * b.size + rawBlock * used
            let head := [0xB3, 0] ++ leBytes 2 b.tensorField ++ zeros 4 ++ leBytes 4 off ++ bytesAt bale 12 4
            let d1 := j.1.store (bufferAddr block off) raw
            ((d1.undefineBuffer place b.size).store place head, none, used + 1)
        else (j.1.store place bale, none, used)

/-- The bales of a BLOAD from the i-th on; `n` are left. -/
def Device.loadBales (p source block : Nat) (x : BaleTransfer) (b : Binding) : Nat → Nat → Nat → Device → Device × Failed
  | 0, _, _, d => (d, none)
  | n + 1, used, i, d =>
    let r := d.loadBale p source block x b used i
    match r.2.1 with
    | some e => (r.1, some e)
    | none => r.1.loadBales p source block x b n r.2.2 (i + 1)

/-- The i-th raw block of a BSTORE, baled to its address. -/
def Device.storeBale (d : Device) (p source block : Nat) (x : BaleTransfer) (b : Binding) (i : Nat) : Device × Failed :=
  let off := x.buffer + rawBlock * i
  let r := d.checkedRead (bufferAddr block off) rawBlock source p
  match r.2 with
  | some e => (r.1, some e)
  | none =>
    let addr := x.address + i * b.size
    let raw := r.1.readBuffer block off rawBlock
    match raw.2.baleTo p b addr raw.1 with
    | none => (raw.2, some (spaceReport source p 0x0E b.tensor addr))
    | some d1 => (d1, none)

/-- The raw blocks of a BSTORE from the i-th on, baled one by one; `n` are left. -/
def Device.storeBales (p source block : Nat) (x : BaleTransfer) (b : Binding) : Nat → Nat → Device → Device × Failed
  | 0, _, d => (d, none)
  | n + 1, i, d =>
    let r := d.storeBale p source block x b i
    match r.2 with
    | some e => (r.1, some e)
    | none => r.1.storeBales p source block x b n (i + 1)

/-- A copy of raw bytes: words whose read met a lasting error are written as zeros with the poison bit (R421). -/
def Device.copyBytes (d : Device) (p source src dst n : Nat) : Device × Failed :=
  let r := d.checkedRead src n source p
  let copied := r.1.store dst (r.1.load src n)
  match r.2 with
  | none => (copied, none)
  | some e =>
    let bad := (e.addr :: r.1.faults.poisoned).filter fun w => decide (w < src + n ∧ src < w + 8)
    let words := (bad.flatMap fun w => [(dst + w - src) / 8 * 8, (dst + w + 7 - src) / 8 * 8]).eraseDups
    (words.foldl (fun d w => d.poison w 8) copied, some e)

/-- What a transfer does when it completes: the device after it, and its lasting failure. -/
def Device.runBale (d : Device) (p block : Nat) (x : BaleTransfer) : Device × Failed :=
  let b := bindingOf x.binding
  let source := d.src (srcThread block x.thread)
  let here := bufferAddr block x.buffer
  match x.op with
  | .load =>
    let r := d.loadBales p source block x b x.count 0 0
    match r.2 with
    | none => r
    | some e => (r.1.undefineBuffer here (x.count * b.size + rawBlock * b.annex), some e)
  | .store =>
    let r := d.storeBales p source block x b x.count 0
    match r.2 with
    | none => (r.1.storeSummaries p block x b.size, none)
    | some e => (r.1, some e)
  | .expand =>
    let i : Issue := { block := block, thread := x.thread, paddock := p, op := 0x63, w := {}, cclk := 0 }
    let r := d.expandRun i b x.address x.count []
    match r.2.1 with
    | some e => (r.1.undefineBuffer here (rawBlock * x.count), some e)
    | none => (r.1.store here r.2.2, none)
  | .copyIn => d.copyBytes p source x.address here (rawBlock * x.count)
  | .copyOut => d.copyBytes p source here x.address (rawBlock * x.count)

/-- What a transfer with a bell has placed in its block's buffer (R135). -/
def Device.signalsRange (d : Device) (p block bell : Nat) (x : BaleTransfer) : Device :=
  let n := match x.op with
    | .load => x.count * fieldU16 x.binding 4 + rawBlock * fieldU8 x.binding 7
    | .expand => rawBlock * x.count
    | .copyIn => rawBlock * x.count
    | _ => 0
  if n = 0 then d else d.signals p (64 * block + bell) (bufferAddr block x.buffer) n

/-- A transfer of a block completes, and a thread HELD for room among the transfers is READY: its bell rings after a success, and a lasting failure faults the paddock. -/
def Device.finishBale (d : Device) (block index : Nat) : Device :=
  match d.occupant block, (d.block block).bales[index]? with
  | some (p, _), some x =>
    let d1 := (d.updBlock block fun k => { k with bales := k.bales.eraseIdx index, busyAt := d.now }).unhold block
    let r := d1.runBale p block x
    match r.2 with
    | some e => r.1.strike p e
    | none =>
      match x.bell with
      | none => r.1
      | some k => (r.1.signalsRange p block k x).perform [.ring p (64 * block + k) 1 (r.1.src (srcThread block x.thread))]
  | _, _ => d

/-! ### The rows -/

/-- BSETX issues. -/
def execBsetx (t : ThreadId) (w : IWord) (s : State) : Outcome := .next (s.on (·.issue t 0x60 w seqBsetx))

/-- BLOAD issues. -/
def execBload (t : ThreadId) (w : IWord) (s : State) : Outcome := .next (s.on (·.issue t 0x61 w seqBload))

/-- BSTORE issues. -/
def execBstore (t : ThreadId) (w : IWord) (s : State) : Outcome := .next (s.on (·.issue t 0x62 w seqBstore))

/-- BEXPAND issues. -/
def execBexpand (t : ThreadId) (w : IWord) (s : State) : Outcome := .next (s.on (·.issue t 0x63 w seqBexpand))

/-- BCOPY issues. -/
def execBcopy (t : ThreadId) (w : IWord) (s : State) : Outcome := .next (s.on (·.issue t 0x64 w seqBcopy))

/-- A bale transfer completes. -/
def execBaleTransferDone (block : Fin 1024) (index : Fin 16) (s : State) : Outcome :=
  .next (s.on fun d => d.finishBale block.val index.val)

end Sys2Proof.Machine
end

