-- ==== Sys2Proof/Machine/PowerEvents.lean ====
section
/-! DEFINITION. Power, clock and link events: the measurement and its throttling, block sleep and wake, the end of a slew,
the loss and return of NETREF, and port links (R363, R468 to R480, R497, R527). -/

namespace Sys2Proof.Machine

/-! ### The measurement (R475 to R478, R497) -/

/-- A rail group is above its current limit, or its transaction failed. -/
def Power.groupOver (w : Power) (k : Nat) : Bool :=
  w.avsFailed.getLsbD k || decide (10 * w.groupA < (w.groupCurrent[k]?).getD 0)

/-- The rail group that a throttle step takes: the lowest-numbered above its limit, else that of highest current, the lower
number first. -/
def Power.throttleGroup (w : Power) : Nat :=
  match (List.range 8).find? w.groupOver with
  | some k => k
  | none =>
    (List.range 8).foldl (fun best k =>
      if (w.groupCurrent[best]?).getD 0 < (w.groupCurrent[k]?).getD 0 then k else best) 0

/-- Regions of a rail group. -/
def groupRegions (k : Nat) : List Nat := [2 * k, 2 * k + 1]

/-- A region's target and skip one step further down. -/
def RegionClock.stepDown (r : RegionClock) (floor : Nat) : RegionClock :=
  if floor + 100 ≤ r.targetMhz then { r with targetMhz := r.targetMhz - 100 }
  else { r with targetMhz := floor, skip := Nat.min 7 (r.skip + 1) }

/-- Some limit is passed: bit 0 power, bit 1 temperature, bit 2 group current. -/
def Power.overCause (w : Power) : BitVec 3 :=
  BitVec.ofNat 3 (b2n (decide (1000 * w.limitW < w.powerMw)) + 2 * b2n (decide (420 ≤ w.tjMax)) +
    4 * b2n ((List.range 8).any w.groupOver))

/-- Everything is far enough below its limit that the last step is undone. -/
def Power.eased (w : Power) : Bool :=
  decide (100 * w.powerMw ≤ 95 * (1000 * w.limitW) ∧ w.tjMax < 408) &&
    (List.range 8).all fun k => !w.avsFailed.getLsbD k && decide (100 * (w.groupCurrent[k]?).getD 0 ≤ 95 * (10 * w.groupA))

/-- A throttle step on the regions of a group, pushed on the stack. -/
def Device.throttleDown (d : Device) (k : Nat) : Device :=
  let before := (groupRegions k).map fun n =>
    let r := d.clock n
    (n, r.targetMhz, r.skip)
  (groupRegions k).foldl (fun d n => d.updClock n fun r => r.stepDown (d.floorMhz n))
    (d.mapPower fun w => { w with steps := { before := before } :: w.steps, lastCause := w.overCause })

/-- The most recent throttle step is undone. -/
def Device.throttleUp (d : Device) : Device :=
  match d.power.steps with
  | [] => d
  | s :: rest =>
    s.before.foldl (fun d e => d.updClock e.1 fun r => { r with targetMhz := e.2.1, skip := e.2.2 })
      (d.mapPower fun w => { w with steps := rest })

/-- No target is above its region's set CCLK, nor below its floor (R469, R475). -/
def Device.clampTargets (d : Device) : Device :=
  (List.range 16).foldl (fun d n => d.updClock n fun r =>
    { r with targetMhz := Nat.max (Nat.min r.targetMhz r.setMhz) (d.floorMhz n) }) d

/-- The hottest die of a list of readings: its reading and number, the lower number first. -/
def hottest : List Int → Nat → Option (Int × Nat)
  | [], _ => none
  | t :: ts, n =>
    match hottest ts (n + 1) with
    | some e => if t < e.1 then some e else some (t, n)
    | none => some (t, n)

/-- The readings of a measurement are taken. -/
def Power.take (w : Power) (r : PowerReading) : Power :=
  let group := fun (k : Nat) (old : Nat) => ((r.groups[k]?).getD (some 0)).getD old
  let failed := fun (k : Nat) => ((r.groups[k]?).getD (some 0)).isNone
  let hot := (hottest r.tj 0).getD (w.tjMax, w.tjDie)
  let temperature := decide (0 < r.tj.length)
  { w with powerMw := r.powerMw, energy := w.energy + r.powerMw,
           groupCurrent := Vector.ofFn fun (k : Fin 8) => group k.val w.groupCurrent[k],
           avsFailed := BitVec.ofNat 8 (((List.range 8).map fun k => if failed k then 2 ^ k else 0).sum),
           tjMax := hot.1, tjDie := hot.2,
           tripCount := if temperature && decide (460 ≤ hot.1) then w.tripCount + 1 else 0,
           thermLow := if 4 * (w.thermC : Int) ≤ hot.1 then true
             else if hot.1 ≤ 4 * ((w.thermC : Int) - 3) then false else w.thermLow }

/-! ### Safe states (R479, R481, R478, R507) -/

/-- The safe states are forced: every lane is idle, no GPIO is driven, and nothing that runs on REF25 goes on. -/
def Device.safeStates (d : Device) : Device :=
  (d.portsDown.loseLane).mapPaths fun c => { c with gpioDir := 0, gpioOut := 0 }

/-- The device trips: it holds THERM_N and THROTTLE_N low until PWR_GOOD falls (R478). -/
def Device.trip (d : Device) : Device :=
  (d.safeStates.mapPower fun w => { w with thermLow := true, throttleLow := true }).setDevState .tripped

/-- POWER_MEASUREMENT: at the end of an interval of 80,000 ticks the readings are taken, and a step is made or undone. The
firmware makes it, so not in SAFE. -/
def Device.powerMeasurement (d : Device) (r : PowerReading) : Device :=
  if !(d.awake || d.inStandby) then d else
    d.atInstant ((d.now / 80000 + 1) * 80000) fun d =>
      let d1 := ((List.range 16).foldl (fun d n => d.updClock n id) d).mapPower fun w => w.take r
      if 3 ≤ d1.power.tripCount then d1.trip else
        let d2 := if d1.power.overCause ≠ 0 then d1.throttleDown d1.power.throttleGroup
          else if d1.power.eased then d1.throttleUp else d1
        let d3 := (d2.clampTargets).settleThrottle
        d3.mapPower fun w =>
          { w with flagsAtMeasure := BitVec.ofNat 8 w.flags, stateAtMeasure := d3.stateCode }

/-- AOCLK_TRIM: AOCLK is measured and trimmed, against the Tally while it is LOCKED (R468). -/
def Device.aoclkTrim (d : Device) (ppm : Int) : Device :=
  if !(d.awake || d.inStandby) then d else
    d.mapPower fun w => { w with aoError := ppm, aoOnTally := decide (d.tally.state = .locked) }

/-- Stamp at which a region's running CCLK reaches its target (R469). -/
def Device.slewEnd (d : Device) (n : Nat) : Nat :=
  let r := d.clock n
  d.now + 80 * ((r.targetMhz - r.runningMhz) + (r.runningMhz - r.targetMhz))

/-- CCLK_SLEW_DONE: a region's running CCLK has reached its target; not while its rail group's transactions fail (R497). -/
def Device.slewDone (d : Device) (n : Nat) : Device :=
  if d.power.avsFailed.getLsbD (n / 2) then d
  else d.atInstant (d.slewEnd n) fun d => (d.updClock n id).settleThrottle

/-! ### Blocks (R471 to R474) -/

/-- A thread in whose state its block may sleep. -/
def Thread.letsSleep (t : Thread) : Bool :=
  match t.state, t.waits with
  | .idle, _ => true
  | .faulted, _ => true
  | .stopped, _ => true
  | .waiting, .bell _ _ _ _ => true
  | .waiting, .hurdle _ _ _ => true
  | _, _ => false

/-- Nothing of a block is outstanding, and nothing clears, saves or restores it. -/
def Device.blockIdle (d : Device) (b : Nat) : Bool :=
  let k := d.block b
  k.threads.all Thread.letsSleep && k.bales.isEmpty &&
    (d.fabric.remote.all fun a => decide (a.block ≠ b) || a.expired) &&
    (match d.occupant b with
     | some (_, x) => decide (x.state ≠ .saving ∧ x.state ≠ .restoring)
     | none => true)

/-- BLOCK_SLEEP: a block that has been idle for `sleep_us` goes to SLEEP (R472). -/
def Device.blockSleep (d : Device) (b : Nat) : Device :=
  let us := (d.clock (regionOf b)).sleepUs
  if d.awake && decide (d.blockPower b = .run ∧ us ≠ 0) && d.blockIdle b then
    d.atInstant ((d.block b).busyAt + 800 * us) fun d => d.setBlockPower b .sleep
  else d

/-- BLOCK_WAKE: a sleeping block that something has woken is in RUN again 2 µs after it; a DEEP one that some paddock names has
woken 150 µs after the naming, and its region with it (R473, R474). -/
def Device.blockWake (d : Device) (b : Nat) : Device :=
  let due := Table.find d.power.waking b
  if !d.awake then d else
    match d.blockPower b with
    | .run => d
    | .sleep =>
      match due with
      | none => d
      | some t => d.atInstant t fun d => d.setBlockPower b .run
    | .deep =>
      if d.named b then
        d.atInstant (due.getD d.now) fun d =>
          ((d.setBlockPower b .run).updClock (regionOf b) fun r =>
            { r with deep := false, runningMhz := if r.deep then r.targetMhz else r.runningMhz }).settleThrottle
      else d

/-! ### Links and NETREF (R306, R308, R363, R480) -/

/-- A port link is the primary one, whose lane clock the Tally follows (R47). -/
def Device.isLaneLink (d : Device) (l : Nat) : Bool := decide (d.tally.cfg.primaryLink = l ∧ l ≠ 0xFF)

/-- What waited at a connection because no link was up joins the queue of a link that is (R363). -/
def Device.unstrand (d : Device) : Device :=
  let waiting := d.net.stranded
  waiting.foldl (fun d e =>
    match d.conn e.1 with
    | none => d
    | some x =>
      match d.sprayLink (d.upLinks x.home x.links) (e.2.out.frame.cls.toNat % 16) with
      | some l => d.enqueue l e.2.out e.2.conn e.2.seqOf e.2.dei
      | none => d.mapNet fun n => { n with stranded := n.stranded ++ [e] })
    (d.mapNet fun n => { n with stranded := [] })

/-- Record bytes of a STARTED note that the rules give no value (log entry 6), and the note: kind 3 of no fold (R435, R457). -/
def startedPayload (draw : Nat) : List Byte :=
  let free := (List.range 33).map (Config.freeByte draw)
  leBytes 1 3 ++ zeros 3 ++ free.take 1 ++ zeros 11 ++ free.drop 1 ++ zeros 16

/-- Once a link of the provisioned management connection is UP, its STARTED note goes out, and two more copies are due. -/
def Device.sendStarted (d : Device) : Device :=
  match d.security.startedDue, d.security.bound with
  | true, some b =>
    match d.conn b.2.1 with
    | none => d
    | some x =>
      if (d.upLinks x.home x.links).isEmpty then d else
        let payload := startedPayload d.draws
        let d0 := { d with draws := d.draws + 1 }
        let d1 := d0.sendNotes [b.2.1] 0 payload
        (d1.mapFaults fun f =>
          { f with notesDue := f.notesDue ++ [{ at0 := d.now, copy := 1, conns := [b.2.1], payload := payload }] }).mapSecurity
          fun s => { s with startedDue := false }
  | _, _ => d

/-- A link comes UP, and what waited for a link goes on. -/
def Device.linkUp (d : Device) (l : Nat) : Device :=
  let x := d.link l
  let able := (d.awake || decide (d.state = .booting)) && d.power.netrefStable.getLsbD (l / 16) &&
    decide (x.state = .down ∨ x.state = .training)
  if !able then d else
    let d1 := d.setLink l .up 3
    let d2 := if d1.isLaneLink l then d1.mapTally fun t => { t with laneLostAt := none } else d1
    (d2.unstrand.sendStarted).pumpAll

/-- A link goes down: its queues move to other links, and a lane clock that came over it is lost. -/
def Device.linkDown (d : Device) (l : Nat) : Device :=
  if (d.link l).state ≠ .up then d else
    let d1 := d.linkGoesDown l
    if d1.isLaneLink l then d1.loseLane else d1

/-- NETREF_LOSS: the ports of one die go to electrical idle. -/
def Device.netrefLoss (d : Device) (die : Nat) : Device :=
  let d1 := d.mapPower fun w => { w with netrefStable := w.netrefStable &&& ~~~(BitVec.ofNat 4 (2 ^ die)) }
  (List.range 16).foldl (fun d i =>
    let l := 16 * die + i
    if (d.link l).state = .training then d.setLink l .down 1 else d.linkDown l) d1

/-- NETREF_STABLE: the links of the die retrain. -/
def Device.netrefBack (d : Device) (die : Nat) : Device :=
  let d1 := d.mapPower fun w => { w with netrefStable := w.netrefStable ||| BitVec.ofNat 4 (2 ^ die) }
  if !d.awake then d1 else
    (List.range 16).foldl (fun d i =>
      let l := 16 * die + i
      if (d.link l).state = .down then d.setLink l .training 2 else d) d1

/-! ### The rows -/

/-- The measurement of an interval. -/
def execPowerMeasurement (reading : PowerReading) (s : State) : Outcome := .next (s.on (·.powerMeasurement reading))

/-- AOCLK is measured and trimmed. -/
def execAoclkTrim (errorPpm : Int) (s : State) : Outcome := .next (s.on (·.aoclkTrim errorPpm))

/-- A block goes to SLEEP. -/
def execBlockSleep (block : Fin 1024) (s : State) : Outcome := .next (s.on (·.blockSleep block.val))

/-- A block has woken. -/
def execBlockWake (block : Fin 1024) (s : State) : Outcome := .next (s.on (·.blockWake block.val))

/-- A region's running CCLK reaches its target. -/
def execCclkSlewDone (region : Fin 16) (s : State) : Outcome := .next (s.on (·.slewDone region.val))

/-- A network die loses NETREF. -/
def execNetrefLoss (die : Fin 4) (s : State) : Outcome := .next (s.on (·.netrefLoss die.val))

/-- A network die's NETREF is stable again. -/
def execNetrefStable (die : Fin 4) (s : State) : Outcome := .next (s.on (·.netrefBack die.val))

/-- A port link comes UP. -/
def execLinkUp (link : Fin 64) (s : State) : Outcome := .next (s.on (·.linkUp link.val))

/-- A port link goes down. -/
def execLinkDown (link : Fin 64) (s : State) : Outcome := .next (s.on (·.linkDown link.val))

end Sys2Proof.Machine
end

