-- ==== Sys2Proof/Machine/Boots.lean ====
section
/-! DEFINITION. Power-up, the three resets, the boot, and the way out of STANDBY (R443, R450, R451, R457, R461, R466, R479,
R481, R484 to R487). -/

namespace Sys2Proof.Machine

/-! ### What a reset keeps (R485) -/

/-- The security part that fuses, flash and the counters since cold reset hold. -/
def Security.lasting (s : Security) : Security :=
  { slotA := s.slotA, slotB := s.slotB, twice := s.twice, record0 := s.record0, record1 := s.record1,
    fusedStep := s.fusedStep, revoked := s.revoked, fusedKeys := s.fusedKeys, debugFuse := s.debugFuse,
    cfgMeasure := s.cfgMeasure, setsApplied := s.setsApplied }

/-- Pins, identity and DIMMs, which no reset changes. -/
def Boot.lasting (b : Boot) : Boot :=
  { serial := b.serial, ownPrio := b.ownPrio, ownPrioPins := b.ownPrioPins, bootSelPins := b.bootSelPins,
    resetN := b.resetN, tierFitted := b.tierFitted }

/-- A port link with its counters since cold reset. -/
def Link.lasting (l : Link) (s : LinkState) : Link :=
  { state := s, upSince := l.upSince, counters := l.counters, frames := l.frames, bytes := l.bytes }

/-- A port at its defaults, its links' counters kept. -/
def Port.lasting (p : Port) : Port := { link0 := p.link0.lasting .down, link1 := p.link1.lasting .absent }

/-- The power part's counters since cold reset and the state of its sources. -/
def Device.lastingPower (d : Device) : Power :=
  { energy := d.power.energy, throttleTicks := d.throttleTicks, refLosses := d.power.refLosses,
    refSince := d.power.refSince, refStable := d.power.refStable, netrefStable := d.power.netrefStable,
    aoError := d.power.aoError, aoOnTally := d.power.aoOnTally }

/-- The fault ring, its numbers and its counters; the poison bits of HBM4 and DDR5. -/
def Faults.lasting (f : Faults) : Faults :=
  { ring := f.ring, next := f.next, lost := f.lost, corrected1 := f.corrected1, corrected2 := f.corrected2,
    replays := f.replays, poisoned := f.poisoned.filter fun w => !(decide (bufferBase ≤ w ∧ w < bufferEnd)) }

/-- The counters of the drove engine and of serving that run from cold reset, by paddock number (R303, R418, R485). -/
def Device.serviceKept (d : Device) : Service :=
  { droves := d.service.droves.map fun e => (e.1, { voided := e.2.voided, evicted := e.2.evicted }),
    serving := (List.range 64).filterMap fun p =>
      if (d.paddock p).isSome || (Table.find d.service.serving p).isSome then some (p, d.servingKept p) else none }

/-- What a WARM reset leaves: the Tally and its configuration, the device id, HBM4 and DDR5, the fault ring and the
counters since cold reset; everything else is cleared or at its default, and XSPI_RESET_N is low until step 7 (R485, R508,
R522). -/
def Device.warmClear (d : Device) : Device :=
  { tally := d.tally, state := d.state, stateSince := d.stateSince, deviceId := d.deviceId, formerIds := d.formerIds,
    boot := { d.boot.lasting with step := .warm, xspiResetN := false }, power := d.lastingPower,
    paths := { gpioPins := d.paths.gpioPins }, security := d.security.lasting, faults := d.faults.lasting,
    trace := { next := d.trace.next, dropped := d.trace.dropped },
    net := { ports := d.net.ports.map Port.lasting,
             arbiters := d.net.arbiters.map fun a => { deliveries := a.deliveries } },
    mem := d.mem.filter fun e => !(decide (bufferBase ≤ e.1 ∧ e.1 < bufferEnd)), service := d.serviceKept,
    outbox := d.outbox, draws := d.draws }

/-- A WARM reset starts: the safe states, and the boot's steps 4 to 13 still to come (R485, R486). -/
def Device.warmStart (d : Device) : Device := d.safeStates.warmClear.setDevState .booting

/-- What stays when the power goes: flash, fuses, identity and pins (R481); XSPI_RESET_N is low until step 7 of the next
boot (R508). -/
def Device.powerOff (d : Device) : Device :=
  { state := .off, boot := { d.boot.lasting with xspiResetN := false },
    security := { d.security.lasting with cfgMeasure := zeros 64, setsApplied := 0 },
    power := { refStable := false, netrefStable := 0 }, paths := { gpioPins := d.paths.gpioPins },
    outbox := d.outbox, draws := d.draws }

/-! ### The boot ROM (R450, R461, R462) -/

/-- The slots that the ROM tries, in order, and whether the first one is on trial; a trial's count is written to the
record (R450). -/
def Device.bootOrder (d : Device) : Device × List Nat × Bool :=
  let r := d.bootRecord.1
  let other := fun (s : Nat) => if s = 0 then 1 else 0
  if d.boot.bootSel = 3 then (d, [], false)
  else if d.boot.bootSel = 1 then (d, [0, 1], false)
  else if d.boot.bootSel = 2 then (d, [1, 0], false)
  else if r.trial = 1 then
    if r.left = 0 then (d.writeBootRecord (other r.preferred) 0 0, [other r.preferred, r.preferred], false)
    else (d.writeBootRecord r.preferred 1 (r.left - 1), [r.preferred, other r.preferred], true)
  else (d, [r.preferred, other r.preferred], false)

/-- The first slot of a list that passes its check runs; a check's outcome is kept with its slot. -/
def bootSlots : List Nat → Device → Device × Option Nat
  | [], d => (d, none)
  | s :: rest, d =>
    let reason := d.checkSlot s
    let d1 := d.setSlotState s (if reason = 0 then 3 else 2) reason 0
    if reason = 0 then (d1, some s) else bootSlots rest d1

/-- The firmware measurement of a manifest's components (R462). -/
def measureComponents (cs : List Component) : List Byte :=
  cs.foldl (fun m c => digest (m ++ c.digest)) (zeros 64)

/-- The world settings at a firmware start: the board configuration's where the running slot has one (R443), and the
FABRIC path in the world of a provisioned manager (R457). -/
def Device.startWorlds (d : Device) : Device :=
  let b := d.security.boardConfig
  let given := !b.isEmpty
  let managed := d.security.provisioned && bitOf (fieldU8 b 35) 0
  d.mapSecurity fun s =>
    { s with harts := BitVec.ofNat 64 (fieldU64 b 8), pairs := BitVec.ofNat 8 (fieldU8 b 16),
             fabric := if managed then decide (fieldU8 b 34 = 1) else bitOf (fieldU8 b 17) 0,
             origin := b2n given, since := d.now }

/-- The provisioned management connection is opened where the board configuration sets `VALID` (R457). -/
def Device.provision (d : Device) : Device :=
  let b := d.security.boardConfig
  if bitOf (fieldU8 b 35) 0 then
    let c := fieldU32 b 28
    let x : Conn :=
      { peer := fieldU32 b 24, peerConn := fieldU32 b 36, paddock := 0xFF, home := fieldU8 b 40,
        links := BitVec.ofNat 16 (fieldU16 b 42), cls := 1, pin := true, mgmt := true, gen := fieldU16 b 32,
        lastUse := d.now, progressAt := d.now }
    let d1 := (d.mapNet fun n => { n with conns := Table.put n.conns c x }).connEvent c x 1
    d1.mapSecurity fun s =>
      { s with bound := some (x.peer, c, x.gen), provisioned := true, startedDue := true }
  else d

/-- Capacities in GiB that R510 permits for the DIMMs of a population: RDIMMs at 6,400 MT/s, one or two a channel, and MRDIMMs
at 8,800 MT/s, one a channel. -/
def dimmCapacities (mrdimm : Bool) (count : Nat) : List Nat :=
  if mrdimm then (if count = 1 then [128, 256] else []) else if count = 1 ∨ count = 2 then [64, 96, 128, 192, 256] else []

/-- DIMMs of a channel, slot 0 first; a DIMM in slot 1 alone breaks R510. -/
def channelDimms (c : TierChannel) : Option (List Dimm) :=
  match c.slot0, c.slot1 with
  | some a, none => some [a]
  | some a, some b => some [a, b]
  | _, _ => none

/-- The tier's bytes: 16 channels that hold the same permitted DIMMs and all train (R23, R510); any other population, or a
failed training, leaves the tier unpopulated (R511). -/
def tierPopulated (channels : List TierChannel) : Nat :=
  match channels with
  | [] => 0
  | c :: _ =>
    match channelDimms c with
    | none => 0
    | some ds =>
      let m := ds.head?.getD {}
      let fits := decide (channels.length = 16) && channels.all (fun x => channelDimms x == some ds && x.trains) &&
        ds.all (fun x => x == m) && m.x80 && (dimmCapacities m.mrdimm ds.length).contains m.gib
      if fits then 16 * ds.length * m.gib * 2 ^ 30 else 0

/-- The ROM runs: straps, nonce and key, the choice of a slot, and what the slot's manifest says. XSPI_RESET_N has been high
since step 7 (R508). The slot that runs, if any. -/
def Device.runRom (d : Device) (inputs : BootInputs) (isCold : Bool) : Device × Option Nat :=
  let d1 := d.mapBoot fun b =>
    { b with xspiResetN := true, bootSel := inputs.bootSel, bootSelPins := inputs.bootSel, ownPrioPins := inputs.ownPrio,
             ownPrio := if isCold then inputs.ownPrio else b.ownPrio }
  let nonce := d1.draws
  let d2 := { d1 with draws := nonce + 2, security := { d1.security with nonceDraw := nonce, slotState := #v[0, 0] } }
  let order := d2.bootOrder
  let r := bootSlots order.2.1 order.1
  match r.2 with
  | none =>
    (r.1.mapBoot fun b => { b with fwSlot := 0xFF, fwVersion := 0, fwDigest := zeros 64, hostInSafe := inputs.hostInSafe,
                                   tierBytes := 0 }, none)
  | some slot =>
    let m := r.1.manifest slot
    let d3 := r.1.mapBoot fun b =>
      { b with fwSlot := slot, fwVersion := fieldU32 m 8, fwDigest := manifestDigest m, rollback := fieldU8 m 12,
               revokeMask := BitVec.ofNat 4 (fieldU8 m 15), tierBytes := tierPopulated inputs.dimms,
               tierFitted := tierPopulated inputs.dimms, hostInSafe := false }
    (d3.mapSecurity fun s =>
      { s with boardConfig := r.1.boardConfigOf slot m, manifestDebug := bitOf (fieldU16 m 6) 0,
               onTrial := order.2.2 && decide (some slot = order.2.1.head?),
               fwMeasure := measureComponents (manifestComponents m) }, some slot)

/-- Links train: those that the inputs name and that have a stable NETREF come UP, the others stay DOWN (R486 step 12). -/
def Device.trainLinks (d : Device) (inputs : BootInputs) : Device :=
  (List.range 64).foldl (fun d l => if inputs.linksUp.getLsbD l then d.linkUp l else d) d

/-- Commands that were held while the device booted are accepted now and execute (R487). -/
def Device.runDoorbells (d : Device) : Device :=
  ((List.range 8).map (pathOf .host) ++ [Path.board]).foldl (fun d path =>
    let box := d.paths.box path
    if box.status == .busy && !box.begun && d.serves path then
      (d.acceptBox path (fieldU16 (padTo 32 box.cmd) 0)).executeStored path
    else d) d

/-- The boot runs from step 4 to its end: READY, or SAFE when no slot is valid (R450, R486). -/
def Device.bootUp (d : Device) (inputs : BootInputs) (isCold : Bool) : Device :=
  let r := d.runRom inputs isCold
  let done := fun (d : Device) => d.mapBoot fun b => { b with step := .none }
  match r.2 with
  | none => ((done r.1.startWorlds).setDevState .safe).runDoorbells
  | some _ =>
    let d1 := (r.1.provision.startWorlds).trainLinks inputs
    let d2 := d1.mapPower fun w => { w with aoOnTally := decide (d1.tally.state = .locked) }
    ((done d2).setDevState .ready).runDoorbells

/-! ### The rows of power and reset -/

/-- PWR_GOOD falls: the safe states at once, and OFF (R481). -/
def Device.pwrGoodFall (d : Device) : Device := d.powerOff

/-- PWR_GOOD rises: a cold boot starts, and REF25 is counted (R486 steps 1 and 2). -/
def Device.pwrGoodRise (d : Device) : Device :=
  if d.state = .off then (d.mapBoot fun b => { b with step := .coldRef }).setDevState .booting else d

/-- REF25 counts as stable: the Tally starts, or the WARM reset that follows a loss begins unless RESET_N is low (R466, R479,
R486 step 3). -/
def Device.ref25Stable (d : Device) : Device :=
  if d.power.refStable || decide (d.state = .off) then d else
    let d1 := d.mapPower fun w => { w with refStable := true, refSince := d.now }
    if d.state = .refLost then (d1.mapTally fun t => { t with onAoclk := false }).warmStart
    else
      let d2 := d1.mapTally fun t => { t with onAoclk := false }
      if d.state = .booting ∧ d.boot.step = .coldRef then d2.mapBoot fun b => { b with step := .cold } else d2

/-- REF25 is lost: the safe states, the Tally in FREE on AOCLK, and the wait for REF25 (R479). Before REF25 has been stable
there is nothing to lose. A committed ROOT that disciplines to no TALLY_PPS_IN stays FREE when REF25 is back, until a
CLOCK_TALLY_CONFIG commits it again: DESIGN CHOICE, log entry 87. -/
def Device.ref25Loss (d : Device) : Device :=
  if !d.power.refStable || decide (d.state = .off ∨ d.state = .tripped) then d else
    let d1 := d.mapPower fun w => { w with refStable := false, refLosses := w.refLosses + 1 }
    let d2 := ((d1.mapTally fun t => { t with onAoclk := true, toSlew := 0, useBackup := false }).setTallyState .free).safeStates
    if d.state = .resetHeld then d2 else d2.setDevState .refLost

/-- RESET_N is low: the safe states are held until it rises, XSPI_RESET_N low with them (R508; DEDUCED that the reset counts
from RESET_N low, log entry 95); a cold boot in progress waits (R481, R486). -/
def Device.resetNLow (d : Device) : Device :=
  let d1 := d.mapBoot fun b => { b with resetN := false }
  let waits := decide (d.state = .off ∨ d.state = .tripped ∨
    (d.state = .booting ∧ (d.boot.step = .coldRef ∨ d.boot.step = .cold)))
  if waits then d1 else (d1.safeStates.mapBoot fun b => { b with xspiResetN := false }).setDevState .resetHeld

/-- RESET_N rises: a WARM reset follows, once REF25 is stable (R479, R481). -/
def Device.resetNHigh (d : Device) : Device :=
  let d1 := d.mapBoot fun b => { b with resetN := true }
  if d.state = .resetHeld then
    if d.power.refStable then d1.warmStart else d1.setDevState .refLost
  else d1

/-- COLD_BOOT: with RESET_N high and REF25 stable the boot runs to its end. -/
def Device.coldBoot (d : Device) (inputs : BootInputs) : Device :=
  if d.state = .booting ∧ d.boot.step = .cold ∧ d.boot.resetN ∧ d.power.refStable then d.bootUp inputs true else d

/-- A state that a WARM reset can leave: one in which the device is powered and not held. -/
def Device.resettable (d : Device) : Bool :=
  d.awake || d.inStandby || decide (d.state = .safe)

/-- WARM_RESET: at the instant a POWER_STATE_SET named, or, where RESET_N or REF25 caused it, now. -/
def Device.warmReset (d : Device) (inputs : BootInputs) : Device :=
  if d.state = .booting ∧ d.boot.step = .warm then d.bootUp inputs false
  else if d.resettable then
    match d.boot.resetAt with
    | some (t, false) => d.atInstant t fun d => d.warmStart.bootUp inputs false
    | _ => d.warmStart.bootUp inputs false
  else d

/-! ### RESTART (R88, R103, R423, R443, R485) -/

/-- A mailbox after a RESTART: a command in flight gets no response, and its master may send it again. -/
def Mailbox.restart (m : Mailbox) : Mailbox :=
  if m.status = .busy then { m with status := .idle, begun := false, fetch := none, rest := [] } else m

/-- A codebook slot after a RESTART: a build in progress is forgotten, and the slot is as before it. -/
def Codebook.restart (b : Codebook) : Codebook :=
  match b.before with
  | some old => { b with state := old.1, generation := old.2.1, record := old.2.2, build := none, before := none }
  | none => b

/-- The Shepherd firmware restarts: no owner, no stage set, no command in flight, the worlds of a firmware start;
everything else keeps running. -/
def Device.restart (d : Device) : Device :=
  let d1 := d.mapPaths fun c =>
    { c with hostPairs := c.hostPairs.map Mailbox.restart, fabricQueue := c.fabricQueue.map Mailbox.restart,
             boardWindow := c.boardWindow.restart, keptHost := [], keptFabric := [], keptBoard := [] }
  let d2 := d1.mapService fun s => { s with books := Table.mapAll s.books fun _ b => b.restart }
  let unwaited := fun (_ : Nat) (x : Paddock) =>
    { x with preempt := x.preempt.map fun (p : Preemption) => { p with waiter := none } }
  let d3 : Device := { d2 with own := {}, staging := {}, paddocks := Table.mapAll d2.paddocks unwaited }
  (d3.mapBoot fun b => { b with resetAt := none }).startWorlds

/-- RESTART_RESET: at the instant a POWER_STATE_SET named, or now. -/
def Device.restartReset (d : Device) : Device :=
  if d.awake || d.inStandby then
    match d.boot.resetAt with
    | some (t, true) => d.atInstant t Device.restart
    | _ => d.restart
  else d

/-! ### STANDBY (R484) -/

/-- STANDBY_WAKE: `wake_at` arrives. -/
def Device.standbyWake (d : Device) : Device :=
  if d.state = .standby ∧ d.boot.wakeAt ≠ 0 then d.atInstant d.boot.wakeAt Device.leaveStandby else d

/-- STANDBY_LEFT: everything has retrained, the pinned contexts are cached again, and the device is READY. -/
def Device.standbyLeft (d : Device) (inputs : BootInputs) : Device :=
  if d.state = .leaving then
    let d1 := d.mapNet fun n => { n with conns := Table.mapAll n.conns fun _ c => { c with cached := c.cached || c.pin } }
    (((d1.setDevState .ready).trainLinks inputs).settleState).schedule
  else d

/-! ### The rows -/

/-- PWR_GOOD rises. -/
def execPwrGoodRise (s : State) : Outcome := .next (s.on (·.pwrGoodRise))

/-- The boot runs to READY or SAFE. -/
def execColdBoot (inputs : BootInputs) (s : State) : Outcome := .next (s.on (·.coldBoot inputs))

/-- PWR_GOOD falls. -/
def execPwrGoodFall (s : State) : Outcome := .next (s.on (·.pwrGoodFall))

/-- RESET_N is held low. -/
def execResetNLow (s : State) : Outcome := .next (s.on (·.resetNLow))

/-- RESET_N rises. -/
def execResetNHigh (s : State) : Outcome := .next (s.on (·.resetNHigh))

/-- A WARM reset. -/
def execWarmReset (inputs : BootInputs) (s : State) : Outcome := .next (s.on (·.warmReset inputs))

/-- A RESTART reset. -/
def execRestartReset (s : State) : Outcome := .next (s.on (·.restartReset))

/-- REF25 is lost. -/
def execRef25Loss (s : State) : Outcome := .next (s.on (·.ref25Loss))

/-- REF25 is stable. -/
def execRef25Stable (s : State) : Outcome := .next (s.on (·.ref25Stable))

/-- `wake_at` arrives in STANDBY. -/
def execStandbyWake (s : State) : Outcome := .next (s.on (·.standbyWake))

/-- The device has left STANDBY. -/
def execStandbyLeft (inputs : BootInputs) (s : State) : Outcome := .next (s.on (·.standbyLeft inputs))

end Sys2Proof.Machine
end

