-- ==== Sys2Proof/Machine/D16.lean ====
section
/-! DEFINITION. The D16 code of every memory and buffer: its check bits, and what a read of a word in error decodes to (R419,
R420). A word of 80 bits is a number: data in bits 63 to 0, check bits c[15:0] in bits 79 to 64, c[15] the poison bit P. -/

namespace Sys2Proof

/-- g(x) = m₁(x) × m₃(x) over x⁷ + x + 1: (x⁷ + x + 1)(x⁷ + x⁵ + x³ + x + 1), of degree 14. -/
def d16Generator : Nat := 0x547D

/-- A polynomial of degree below 14 + n modulo g, by taking away its highest terms. -/
def polyMod : Nat → Nat → Nat
  | 0, x => x
  | n + 1, x => polyMod n (if x.testBit (14 + n) then x ^^^ d16Generator * 2 ^ n else x)

/-- Bits of a number below bit n that are 1, counted modulo 2. -/
def oddOnes : Nat → Nat → Bool
  | 0, _ => false
  | n + 1, x => x.testBit n ^^ oddOnes n x

/-- Place of a bit of the stored word in the code polynomial: c[13:0] are x¹³ to x⁰, d[k] is x^(14+k), P is x⁷⁸; the parity bit
c[14] has none. -/
def d16Degree (bit : Nat) : Option Nat :=
  if bit < 64 then some (14 + bit) else if bit < 78 then some (bit - 64) else if bit = 79 then some 78 else none

/-- The stored word of data and a poison bit. -/
def d16Encode (data : Nat) (poison : Bool) : Nat :=
  let info := data % 2 ^ 64 + (if poison then 2 ^ 64 else 0)
  let low := polyMod 65 (info * 2 ^ 14)
  let rest := data % 2 ^ 64 + 2 ^ 64 * (low + if poison then 2 ^ 15 else 0)
  rest + if oddOnes 80 rest then 2 ^ 78 else 0

/-- Syndrome that one bit in error gives: a remainder, zero for the parity bit. -/
def d16Syndrome (bit : Nat) : Nat :=
  match d16Degree bit with
  | some k => polyMod 65 (2 ^ k)
  | none => 0

/-- The syndrome of a stored word. -/
def d16WordSyndrome (w : Nat) : Nat :=
  (List.range 80).foldl (fun acc b => if w.testBit b then acc ^^^ d16Syndrome b else acc) 0

/-- What a read of a word decodes to. -/
inductive D16Outcome where
  /-- Zero syndrome and even parity. -/
  | clean
  /-- One or two bits corrected: how many, and the word delivered. -/
  | corrected (bits word : Nat)
  /-- An error that the decoder cannot correct. -/
  | uncorrectable
  deriving DecidableEq, Repr

/-- The pair of bits whose syndromes add up to a syndrome. -/
def d16Pair (s : Nat) : Option (Nat × Nat) :=
  let table := (List.range 80).map d16Syndrome
  (List.range 80).findSome? fun i =>
    let want := s ^^^ (table[i]?).getD 0
    ((List.range i).find? fun j => decide ((table[j]?).getD 0 = want)).map fun j => (i, j)

/-- A read of a stored word (R420): an odd number of bits is read as one bit in error, an even number as two. -/
def d16Decode (w : Nat) : D16Outcome :=
  let s := d16WordSyndrome w
  if oddOnes 80 w then
    match (List.range 80).find? fun b => decide (d16Syndrome b = s) with
    | some b => .corrected 1 (w ^^^ 2 ^ b)
    | none => .uncorrectable
  else if s = 0 then .clean
  else
    match d16Pair s with
    | some (i, j) => .corrected 2 (w ^^^ 2 ^ i ^^^ 2 ^ j)
    | none => .uncorrectable

/-- How many bits the decoder corrects in a word that bits in error have met: 0 for a clean word, none for an error that it cannot
correct. The code is linear, so the bits in error alone decide. -/
def d16Corrects (flips : Nat) : Option Nat :=
  match d16Decode flips with
  | .clean => some 0
  | .corrected n _ => some n
  | .uncorrectable => none

end Sys2Proof
end

