-- ==== Sys2Proof/Machine/FaultEvents.lean ====
section
/-! DEFINITION. Faults that the environment brings: detected errors, lockstep mismatches, and the further copies of peer
notes (R419 to R424, R435, R440). -/

namespace Sys2Proof.Machine

/-! ### Lockstep (R423) -/

/-- The Shepherd is powered. -/
def Device.shepherdOn (d : Device) : Bool := d.awake || d.inStandby || decide (d.state = .safe)

/-- The record of a lockstep fault. -/
def Device.lockstepReport (d : Device) (pair : Nat) (lasting injected : Bool) : Report :=
  { source := d.src srcFirmware, cls := (if lasting then 2 else 1) + (if injected then 8 else 0), level := 4, code := 0x37,
    sub := pair }

/-- A lasting lockstep fault: its record and flag, and the Shepherd firmware restarts. -/
def Device.lockstepLasting (d : Device) (pair : Nat) (injected : Bool) : Device :=
  let d1 := (d.record (d.lockstepReport pair true injected)).mapFaults fun f => { f with lockstep := true }
  if d.awake || d.inStandby then d1.restart else d1

/-- LOCKSTEP_MISMATCH: a pair that mismatches re-executes once from its checkpoint. A re-execution that passes leaves a TRANSIENT
record; one that mismatches again is lasting. Which of the two it does is a free value (log entry 26), unless an injection armed
for the pair decides it. -/
def Device.lockstepMismatch (d : Device) (pair : Nat) : Device :=
  if !d.shepherdOn then d else
    let armed := match d.faults.injection with
      | some i => if i.kind = 3 ∧ i.target = pair then some i else none
      | none => none
    match armed with
    | some i =>
      let d1 := d.mapFaults fun f => { f with injection := none }
      if i.persist then d1.lockstepLasting pair true else d1.record (d1.lockstepReport pair false true)
    | none =>
      let w := d.draw
      if w.1.getLsbD 0 then w.2.record (d.lockstepReport pair false false) else w.2.lockstepLasting pair false

/-! ### Detected errors (R420 to R423) -/

/-- Local source of a source number. -/
def localSource (source : Nat) : Nat := source % 2 ^ 22

/-- A source is a host core. -/
def isHostCore (source : Nat) : Bool := decide (0x8280 ≤ localSource source ∧ localSource source < 0x82B0)

/-- A source is the context cache of a network die. -/
def isContextCache (source : Nat) : Bool :=
  decide (0x8240 ≤ localSource source ∧ localSource source < 0x8250 ∧ localSource source % 4 = 3)

/-- Codes of the errors that are retried, and POISONED, which is lasting at once (R421, R422). -/
def retriedCode (code : Nat) : Bool := decide (code = 2 ∨ code = 3 ∨ code = 0x10 ∨ code = 0x12 ∨ code = 0x13)

/-- The record of a detected error. -/
def errorReport (e : ErrorReport) (cls : Nat) : Report :=
  { source := e.source.toNat, paddock := e.paddock.toNat, cls := cls, level := if e.code.toNat < 0x10 then 1 else 2,
    code := e.code.toNat, sub := e.sub.toNat, aux := e.aux.toNat, addr := e.addr.toNat }

/-- Stamp of an error's first detection, which its record carries (R422). -/
def Device.detectedAt (d : Device) (e : ErrorReport) : Nat := d.now - e.retryTicks.toNat

/-- What a lasting error strikes (R423): a host core, a connection, the Shepherd, a paddock, or nothing but the ring. -/
def Device.lastingError (d : Device) (e : ErrorReport) : Device :=
  let r := errorReport e 2
  let isMemory := decide (e.code.toNat < 0x10)
  let at' := d.detectedAt e
  if isMemory && isHostCore r.source then
    (d.record { r with paddock := 0xFF } (some at')).emit (.accessFault (localSource r.source - 0x8280))
  else if isMemory && isContextCache r.source then (d.record { r with paddock := 0xFF } (some at')).connError e.conn.toNat
  else if isMemory && decide (r.aux / 2 ^ 24 = 7) then
    let w := d.draw
    (w.2.record { r with paddock := 0xFF } (some at')).lockstepLasting (w.1.toNat % 2) false
  else if r.paddock < 64 then d.perform [.fault r r.paddock at']
  else d.record r (some at')

/-- Bits that the decoder corrected in the word of a memory error: 1 or 2, else 0 (R420). POISONED is no error of bits. -/
def correctedBits (e : ErrorReport) : Nat := if e.code = 2 then (d16Corrects e.flips.toNat).getD 0 else 0

/-- DETECTED_ERROR_RETRY: corrections are counted, two bits also recorded; the one retry of an error makes it transient or
lasting. A code that has no retry, and a word whose bits decode as clean, is no such event. -/
def Device.detectedError (d : Device) (e : ErrorReport) (passes : Bool) : Device :=
  if !d.shepherdOn then d
  else if correctedBits e = 1 then d.mapFaults fun f => { f with corrected1 := f.corrected1 + 1 }
  else if correctedBits e = 2 then
    (d.mapFaults fun f => { f with corrected2 := f.corrected2 + 1 }).record
      { errorReport e 1 with level := 1, code := 1, sub := 2 } (some (d.detectedAt e))
  else if !retriedCode e.code.toNat || decide (e.code = 2 ∧ d16Corrects e.flips.toNat = some 0) then d
  else if passes && decide (e.code ≠ 3) then d.record (errorReport e 1) (some (d.detectedAt e))
  else d.lastingError e

/-! ### Copies of peer notes (R435) -/

/-- Instant at which the next copy of a note is due. -/
def NoteDue.dueAt (x : NoteDue) : Nat := x.at0 + (if x.copy = 1 then 8000 else 80000)

/-- PEER_NOTE_COPY: the earliest copy that is due goes out at its instant. -/
def Device.noteCopy (d : Device) : Device :=
  match leastBy (fun e : NoteDue × Nat => e.1.dueAt) d.faults.notesDue.zipIdx with
  | none => d
  | some (x, i) =>
    d.atInstant x.dueAt fun d =>
      let rest := d.faults.notesDue.eraseIdx i
      let left := if x.copy = 1 then rest ++ [{ x with copy := 2 }] else rest
      (d.sendNotes x.conns x.copy x.payload).mapFaults fun f => { f with notesDue := left }

/-! ### The rows -/

/-- The one retry of a detected error returns. -/
def execDetectedErrorRetry (error : ErrorReport) (retryPasses : Bool) (s : State) : Outcome :=
  .next (s.on (·.detectedError error retryPasses))

/-- A Shepherd core pair mismatches. -/
def execLockstepMismatch (pair : Fin 2) (s : State) : Outcome := .next (s.on (·.lockstepMismatch pair.val))

/-- A further copy of a PEER_NOTE is sent. -/
def execPeerNoteCopy (s : State) : Outcome := .next (s.on (·.noteCopy))

end Sys2Proof.Machine
end

