-- ==== Sys2Proof/Machine/RemoteOps.lean ====
section
/-! DEFINITION. The remote-access instructions: what a thread's access checks at issue, and how it leaves for its OUT window
(R150, R151, R333 to R341). -/

namespace Sys2Proof.Machine

/-! ### The access of an instruction -/

/-- What a remote-access instruction asks for. -/
structure Request where
  /-- Operation. -/
  op : RemoteOp
  /-- Bytes. -/
  len : Nat
  /-- Alignment of the global address. -/
  align : Nat
  /-- Buffer offset of the data an RPUT reads or an RGET writes. -/
  buffer : Option Word := none
  /-- Value stored, or operand of an atomic. -/
  value : Word := 0
  /-- Compare value of an atomic. -/
  compare : Word := 0
  /-- `aop`. -/
  aop : Nat := 0
  /-- Destination register. -/
  dest : Nat := 0
  /-- Local bell. -/
  bell : Option Nat := none
  deriving DecidableEq, Repr

/-- The windows of R339 from and to the issuing block are there. -/
def Device.remoteWindows (d : Device) (i : Issue) (c : Ctx) : Bool :=
  match d.contextHome c with
  | none => true
  | some home =>
    (d.windowFor i.paddock 1 home (bellAddress (64 * i.block)) 16).isSome &&
      (d.windowFor i.paddock 0 home (bellAddress (64 * i.block)) 16).isSome

/-- Ticks of a context's load bound (R335). -/
def Ctx.bound (c : Ctx) : Nat := 800 * (if c.boundUs = 0 then 100 else c.boundUs)

/-- The bell and increment that a flag store carries (R341). -/
def Ctx.flagBell (c : Ctx) (value : Word) : Nat × Nat :=
  if c.fromValue then
    let inc := bitsOf value.toNat 47 32
    if inc = 0 then (noBell, 0) else (bitsOf value.toNat 16 0, inc)
  else (c.bell, c.inc)

/-! ### Issue (R150, R151, R339, R344) -/

/-- What an instruction asks for under its context. -/
def Request.asked (r : Request) (c : Ctx) (home : Nat) (data : List Byte) : Asked :=
  let bell := if r.op = .flag then c.flagBell r.value else (noBell, 0)
  { isLocal := c.isLocal, home := home, secure := c.secure, cls := c.cls, key := c.key, bell := bell.1, inc := bell.2,
    aop := r.aop, value := r.value, compare := r.compare, data := data }

/-- The thread of an access waits, past its instruction: for its answer, or until its request has left (R150). -/
def Thread.awaitRemote (t : Thread) (id : Nat) : Thread := { t with pc := t.pc + 1, state := .waiting, waits := .remote id }

/-- An access starts: it joins the queue of its OUT window (R339); on a connection that is IDLE, which has no die, it is refused
at once (R344). -/
def Device.startRemote (d : Device) (i : Issue) (c : Ctx) (r : Request) (data : List Byte) : Device :=
  let id' := d.fabric.nextRemote
  let bounded := decide (r.op = .load ∨ r.op = .atomic ∨ r.op = .get)
  let home := d.contextHome c
  let a : RemoteAccess :=
    { id := id', op := r.op, block := i.block, thread := i.thread, paddock := i.paddock, ctx := c.ctx, address := (d.sB i).toNat,
      len := r.len, dest := r.dest, buffer := ((r.buffer.map (·.toNat)).getD 0), bell := r.bell,
      bound := if bounded then d.now + c.bound else 0, conn := if c.isLocal then 0x100000 + c.home else c.conn % 0x100000,
      asked := r.asked c (home.getD 0) data }
  let d1 := (d.mapFabric fun f => { f with remote := f.remote ++ [a], nextRemote := f.nextRemote + 1 }).updThread i.block i.thread
    fun t => t.awaitRemote id'
  match home with
  | none => d1.endRemote id' (.refused 0x0A)
  | some die =>
    d1.sendThrough i.paddock 1 die 16
      { size := a.payload, cls := (if c.cls = 0xFF then 1 else c.cls), link := none, address := bellAddress (64 * i.block),
        data := [], kind := .remote id' }
      fun d => d.endRemote id' (.refused 1)

/-- A remote-access instruction issues. -/
def remoteIssue (r : Request) (i : Issue) (d : Device) : Device :=
  let c := d.contextOf i.paddock (ctxField i.w)
  let moves := decide (r.op = .put ∨ r.op = .get)
  let bufferFits := match r.buffer with
    | none => true
    | some off => inBuffer1 off r.len
  let windows := match c with
    | none => true
    | some x => d.remoteWindows i x
  let clash := match c with
    | none => false
    | some x => x.secure != d.isSecure i.paddock
  d.guarded i [(moves && decide (lenField i.w = 0 ∨ 128 < lenField i.w), exBound), (c.isNone, exBound),
    (decide ((d.sB i).toNat % r.align ≠ 0), exAddress), (!bufferFits, exAddress), (!windows, exAddress), (clash, exWorld)]
    fun d =>
      match c with
      | none => d
      | some x =>
        match r.op, r.buffer with
        | .put, some off => d.withBuffer i off.toNat r.len fun data d => d.startRemote i x r data
        | _, _ => d.startRemote i x r []

/-- RLOAD. -/
def seqRload (i : Issue) (d : Device) : Device :=
  remoteIssue { op := .load, len := 8, align := 8, dest := i.w.a.toNat } i d

/-- RSTORE. -/
def seqRstore (i : Issue) (d : Device) : Device :=
  remoteIssue { op := .store, len := 8, align := 8, value := d.sC i } i d

/-- RFLAG. -/
def seqRflag (i : Issue) (d : Device) : Device :=
  remoteIssue { op := .flag, len := 8, align := 8, value := d.sC i } i d

/-- RATOM. -/
def seqRatom (i : Issue) (d : Device) : Device :=
  remoteIssue { op := .atomic, len := 8, align := 8, value := d.sC i, compare := d.sA i, aop := aopField i.w,
                dest := i.w.a.toNat } i d

/-- RPUT. -/
def seqRput (i : Issue) (d : Device) : Device :=
  remoteIssue { op := .put, len := 64 * lenField i.w, align := 64, buffer := some (d.sC i), bell := remoteBell i.w } i d

/-- RGET. -/
def seqRget (i : Issue) (d : Device) : Device :=
  remoteIssue { op := .get, len := 64 * lenField i.w, align := 64, buffer := some (d.sA i), bell := remoteBell i.w } i d

/-! ### The rows -/

/-- RLOAD issues. -/
def execRload (t : ThreadId) (w : IWord) (s : State) : Outcome := .next (s.on (·.issue t 0x80 w seqRload))

/-- RSTORE issues. -/
def execRstore (t : ThreadId) (w : IWord) (s : State) : Outcome := .next (s.on (·.issue t 0x81 w seqRstore))

/-- RFLAG issues. -/
def execRflag (t : ThreadId) (w : IWord) (s : State) : Outcome := .next (s.on (·.issue t 0x82 w seqRflag))

/-- RATOM issues. -/
def execRatom (t : ThreadId) (w : IWord) (s : State) : Outcome := .next (s.on (·.issue t 0x83 w seqRatom))

/-- RPUT issues. -/
def execRput (t : ThreadId) (w : IWord) (s : State) : Outcome := .next (s.on (·.issue t 0x84 w seqRput))

/-- RGET issues. -/
def execRget (t : ThreadId) (w : IWord) (s : State) : Outcome := .next (s.on (·.issue t 0x85 w seqRget))

end Sys2Proof.Machine
end

