-- ==== Sys2Proof/Machine/StagedCommands.lean ====
section
/-! DEFINITION. The rows of the staged commands: each enters the stage set it names (R99, R100) and takes effect at the
set's instant by the function beside its checks in the Staged files. -/

namespace Sys2Proof.Machine

/-- The command meets its mailbox and enters its stage set (R75, R83, R100). -/
def execDeviceIdSet (c : Cmd) (s : State) : Outcome := .next (s.on (·.runRow (.staged stagedDeviceIdSet) 0x0003 c))

/-- The command meets its mailbox and enters its stage set (R75, R83, R100). -/
def execOwnFabricBind (c : Cmd) (s : State) : Outcome := .next (s.on (·.runRow (.staged stagedFabricBind) 0x0016 c))

/-- The command meets its mailbox and enters its stage set (R75, R83, R100). -/
def execPaddockCreate (c : Cmd) (s : State) : Outcome := .next (s.on (·.runRow (.staged stagedPaddockCreate) 0x0200 c))

/-- The command meets its mailbox and enters its stage set (R75, R83, R100). -/
def execPaddockDestroy (c : Cmd) (s : State) : Outcome := .next (s.on (·.runRow (.staged stagedPaddockDestroy) 0x0201 c))

/-- The command meets its mailbox and enters its stage set (R75, R83, R100). -/
def execPaddockModify (c : Cmd) (s : State) : Outcome := .next (s.on (·.runRow (.staged stagedPaddockModify) 0x0202 c))

/-- The command meets its mailbox and enters its stage set (R75, R83, R100). -/
def execPaddockWindowSet (c : Cmd) (s : State) : Outcome := .next (s.on (·.runRow (.staged stagedPaddockWindowSet) 0x0203 c))

/-- The command meets its mailbox and enters its stage set (R75, R83, R100). -/
def execFoldJoin (c : Cmd) (s : State) : Outcome := .next (s.on (·.runRow (.staged stagedFoldJoin) 0x0400 c))

/-- The command meets its mailbox and enters its stage set (R75, R83, R100). -/
def execFoldLeave (c : Cmd) (s : State) : Outcome := .next (s.on (·.runRow (.staged stagedFoldLeave) 0x0401 c))

/-- The command meets its mailbox and enters its stage set (R75, R83, R100). -/
def execFoldMapSet (c : Cmd) (s : State) : Outcome := .next (s.on (·.runRow (.staged stagedFoldMapSet) 0x0402 c))

/-- The command meets its mailbox and enters its stage set (R75, R83, R100). -/
def execQueueCreate (c : Cmd) (s : State) : Outcome := .next (s.on (·.runRow (.staged stagedQueueCreate) 0x0500 c))

/-- The command meets its mailbox and enters its stage set (R75, R83, R100). -/
def execQueueDestroy (c : Cmd) (s : State) : Outcome := .next (s.on (·.runRow (.staged stagedQueueDestroy) 0x0501 c))

/-- The command meets its mailbox and enters its stage set (R75, R83, R100). -/
def execConnOpen (c : Cmd) (s : State) : Outcome := .next (s.on (·.runRow (.staged stagedConnOpen) 0x0510 c))

/-- The command meets its mailbox and enters its stage set (R75, R83, R100). -/
def execConnClose (c : Cmd) (s : State) : Outcome := .next (s.on (·.runRow (.staged stagedConnClose) 0x0511 c))

/-- The command meets its mailbox and enters its stage set (R75, R83, R100). -/
def execExposeCreate (c : Cmd) (s : State) : Outcome := .next (s.on (·.runRow (.staged stagedExposeCreate) 0x0520 c))

/-- The command meets its mailbox and enters its stage set (R75, R83, R100). -/
def execExposeRevoke (c : Cmd) (s : State) : Outcome := .next (s.on (·.runRow (.staged stagedExposeRevoke) 0x0521 c))

/-- The command meets its mailbox and enters its stage set (R75, R83, R100). -/
def execPortConfig (c : Cmd) (s : State) : Outcome := .next (s.on (·.runRow (.staged stagedPortConfig) 0x0530 c))

/-- The command meets its mailbox and enters its stage set (R75, R83, R100). -/
def execTrafficClassSet (c : Cmd) (s : State) : Outcome := .next (s.on (·.runRow (.staged stagedTrafficClassSet) 0x0600 c))

/-- The command meets its mailbox and enters its stage set (R75, R83, R100). -/
def execTrafficPolicerSet (c : Cmd) (s : State) : Outcome := .next (s.on (·.runRow (.staged stagedTrafficPolicerSet) 0x0601 c))

/-- The command meets its mailbox and enters its stage set (R75, R83, R100). -/
def execTrafficShaperSet (c : Cmd) (s : State) : Outcome := .next (s.on (·.runRow (.staged stagedTrafficShaperSet) 0x0602 c))

/-- The command meets its mailbox and enters its stage set (R75, R83, R100). -/
def execTrafficGateList (c : Cmd) (s : State) : Outcome := .next (s.on (·.runRow (.staged stagedTrafficGateList) 0x0603 c))

/-- The command meets its mailbox and enters its stage set (R75, R83, R100). -/
def execTrafficOverheadSet (c : Cmd) (s : State) : Outcome := .next (s.on (·.runRow (.staged stagedTrafficOverheadSet) 0x0604 c))

/-- The command meets its mailbox and enters its stage set (R75, R83, R100). -/
def execDroveConfig (c : Cmd) (s : State) : Outcome := .next (s.on (·.runRow (.staged stagedDroveConfig) 0x0700 c))

/-- The command meets its mailbox and enters its stage set (R75, R83, R100). -/
def execPrefixConfig (c : Cmd) (s : State) : Outcome := .next (s.on (·.runRow (.staged stagedPrefixConfig) 0x0710 c))

/-- The command meets its mailbox and enters its stage set (R75, R83, R100). -/
def execBaleTensorSet (c : Cmd) (s : State) : Outcome := .next (s.on (·.runRow (.staged stagedTensorSet) 0x0803 c))

/-- The command meets its mailbox and enters its stage set (R75, R83, R100). -/
def execServeConfig (c : Cmd) (s : State) : Outcome := .next (s.on (·.runRow (.staged stagedServeConfig) 0x0900 c))

/-- The command meets its mailbox and enters its stage set (R75, R83, R100). -/
def execFaultRingSet (c : Cmd) (s : State) : Outcome := .next (s.on (·.runRow (.staged stagedFaultRingSet) 0x0B00 c))

/-- The command meets its mailbox and enters its stage set (R75, R83, R100). -/
def execWorldSet (c : Cmd) (s : State) : Outcome := .next (s.on (·.runRow (.staged stagedWorldSet) 0x0C10 c))

/-- The command meets its mailbox and enters its stage set (R75, R83, R100). -/
def execPowerLimitSet (c : Cmd) (s : State) : Outcome := .next (s.on (·.runRow (.staged stagedPowerLimitSet) 0x0D01 c))

/-- The command meets its mailbox and enters its stage set (R75, R83, R100). -/
def execClockRegionSet (c : Cmd) (s : State) : Outcome := .next (s.on (·.runRow (.staged stagedClockRegionSet) 0x0D10 c))

/-- The command meets its mailbox and enters its stage set (R75, R83, R100). -/
def execClockTallyConfig (c : Cmd) (s : State) : Outcome := .next (s.on (·.runRow (.staged stagedTallyConfig) 0x0D20 c))

/-- The command meets its mailbox and enters its stage set (R75, R83, R100). -/
def execTraceConfig (c : Cmd) (s : State) : Outcome := .next (s.on (·.runRow (.staged stagedTraceConfig) 0x0F00 c))

end Sys2Proof.Machine
end

