-- ==== Sys2Proof/Machine/Status.lean ====
section
/-! DEFINITION. The status instructions and the start of a block frame (R122, R154, R160, R169, R475). -/

namespace Sys2Proof.Machine

/-- RDSTAT. -/
def seqRdstat (i : Issue) (d : Device) : Device := d.completeS i ((d.self i).fstat.setWidth 64)

/-- CLRSTAT. -/
def seqClrstat (i : Issue) (d : Device) : Device :=
  d.complete i fun t => { t with fstat := t.fstat &&& ~~~ (BitVec.ofNat 5 (classBits i.w 4 0)) }

/-- The generators after a seed. -/
def seeded (v : Word32) : Vector Word32 64 :=
  Vector.ofFn fun l =>
    let s := v + BitVec.ofNat 32 (l.val * 0x9E3779B9)
    if s = 0 then BitVec.ofNat 32 (l.val + 1) else s

/-- VSEED. -/
def seqVseed (i : Issue) (d : Device) : Device :=
  (d.updBlock i.block fun k => { k with generators := seeded ((d.sB i).setWidth 32) }).complete i id

/-- RDTALLY. -/
def seqRdtally (i : Issue) (d : Device) : Device := d.completeS i (BitVec.ofNat 64 d.now)

/-- RDID. -/
def seqRdid (i : Issue) (d : Device) : Device := d.completeS i (BitVec.ofNat 64 (d.sourceOf i))

/-- RDSLOT. -/
def seqRdslot (i : Issue) (d : Device) : Device :=
  d.completeS i (BitVec.ofNat 64 (d.slotCounter i.paddock i.block i.cclk))

/-- A frame of a block begins: at the present Tally multiple of its image's frame span when the start of that frame has not come
yet, else at the next; nothing has issued in it (R160). -/
def Device.startFrame (d : Device) (b : Nat) : Device :=
  match d.occupant b with
  | none => d
  | some (p, _) =>
    let span := d.spanOf p
    let base := d.frameBase p
    d.atInstant (if d.now = base ∧ (d.block b).frameStart ≠ base then base else base + span) fun d =>
      d.updBlock b fun k => { k with frameStart := d.frameBase p }

/-! ### The rows -/

/-- RDSTAT issues. -/
def execRdstat (t : ThreadId) (w : IWord) (s : State) : Outcome := .next (s.on (·.issue t 0xC0 w seqRdstat))

/-- CLRSTAT issues. -/
def execClrstat (t : ThreadId) (w : IWord) (s : State) : Outcome := .next (s.on (·.issue t 0xC1 w seqClrstat))

/-- VSEED issues. -/
def execVseed (t : ThreadId) (w : IWord) (s : State) : Outcome := .next (s.on (·.issue t 0xC2 w seqVseed))

/-- RDTALLY issues. -/
def execRdtally (t : ThreadId) (w : IWord) (s : State) : Outcome := .next (s.on (·.issue t 0xC3 w seqRdtally))

/-- RDID issues. -/
def execRdid (t : ThreadId) (w : IWord) (s : State) : Outcome := .next (s.on (·.issue t 0xC4 w seqRdid))

/-- RDSLOT issues. -/
def execRdslot (t : ThreadId) (w : IWord) (s : State) : Outcome := .next (s.on (·.issue t 0xC5 w seqRdslot))

/-- A block frame begins. -/
def execBlockFrameStart (block : Fin 1024) (s : State) : Outcome := .next (s.on fun d => d.startFrame block.val)

end Sys2Proof.Machine
end

