-- ==== Sys2Proof/Machine/Steps.lean ====
section
/-! DEFINITION. Serving steps: the STEP descriptor, its phases START, MASK and SAMPLE, sampling, verification, backoff,
cancellation and completions (R396 to R417). -/

namespace Sys2Proof.Machine

/-! ### Slot entries (R396) -/

/-- `kind` of a slot entry is PREFILL. -/
def isPrefill (e : List Byte) : Bool := decide (fieldU8 e 2 = 1)
/-- A flag of a slot entry: 0 LAST_CHUNK, 1 CANCEL, 2 GREEDY, 3 NO_SPEC, 4 LIST. -/
def entryFlag (e : List Byte) (i : Nat) : Bool := bitOf (fieldU8 e 3) i
/-- `chunk`. -/
def entryChunk (e : List Byte) : Nat := fieldU16 e 4
/-- `record`. -/
def entryRecord (e : List Byte) : Nat := fieldU64 e 8
/-- `list`. -/
def entryList (e : List Byte) : Nat := fieldU64 e 56
/-- The stop token ids in use. -/
def entryStops (e : List Byte) : List Nat :=
  ((List.range 4).map fun i => fieldU32 e (36 + 4 * i)).filter fun t => decide (t ≠ 0xFFFFFFFF)

/-- Bytes of a lane of the step area (R401). -/
def laneSize (candidates : Nat) : Nat := ceilDiv (256 + 17 * (8 + 8 * candidates)) 64 * 64

/-- Rows an entry counts for against `step_tokens` (R397). -/
def entryRows (c : ServeConfig) (e : List Byte) : Nat := if isPrefill e then entryChunk e else 1 + c.specMax

/-- An allowed-token list's ids. -/
def Device.listIds (d : Device) (a : Nat) : List Nat :=
  (List.range (d.loadLe a 4)).map fun i => d.loadLe (a + 4 + 4 * i) 4

/-- Token ids in strictly ascending order, each below a vocabulary's size. -/
def ascendingBelow (vocab : Nat) : List Nat → Bool
  | [] => true
  | [x] => decide (x < vocab)
  | x :: y :: rest => decide (x < y) && ascendingBelow vocab (y :: rest)

/-- An FP32 word is positive, finite and normal. -/
def positiveNormal (w : Nat) : Bool := decide (0x00800000 ≤ w ∧ w < 0x7F800000)

/-- Lengths and counts of entry i (step 6 of R83). -/
def Device.entryLengths (d : Device) (x : Paddock) (e : List Byte) (i : Nat) : Check :=
  let at' := fun off => bufferField (64 * i + off)
  let tokens := fieldU64 e 16
  let list := entryList e
  let n := d.loadLe list 4
  firstFail [
    require (if isPrefill e then decide (1 ≤ entryChunk e ∧ entryChunk e ≤ 8192) else decide (entryChunk e = 0)) resBadLength (at' 4),
    require (!isPrefill e || !x.covers tokens 1 || x.covers tokens (4 * entryChunk e)) resBadLength (at' 4),
    require (!entryFlag e 4 || !x.covers list 4 || (decide (1 ≤ n ∧ n ≤ 4096) && x.inOneWindow list (4 + 4 * n))) resBadLength (at' 56)]

/-- Values of entry i (step 7 of R83); `earlier` are the entries before it. -/
def Device.entryValues (d : Device) (x : Paddock) (c : ServeConfig) (e : List Byte) (i : Nat) (earlier : List (List Byte)) :
    Check :=
  let at' := fun off => bufferField (64 * i + off)
  firstFail [
    require (decide (fieldU16 e 0 < c.slots) && !earlier.any fun o => decide (fieldU16 o 0 = fieldU16 e 0)) resBadArgument (at' 0),
    require (decide (fieldU8 e 2 ≤ 1) && !(isPrefill e && decide (x.role = 1)) && !(!isPrefill e && decide (x.role = 0)))
      resBadArgument (at' 2),
    require (decide (fieldU8 e 3 < 32)) resBadArgument (at' 3),
    require (decide (fieldU16 e 6 ≤ c.candidates)) resBadArgument (at' 6),
    require (decide (entryRecord e % 256 = 0 ∧ entryRecord e < 2 ^ 46) && !earlier.any fun o => decide (entryRecord o = entryRecord e))
      resBadArgument (at' 8),
    require (if isPrefill e then x.covers (fieldU64 e 16) 1 else decide (fieldU64 e 16 = 0)) resBadArgument (at' 16),
    require (entryFlag e 2 || positiveNormal (fieldU32 e 24)) resBadArgument (at' 24),
    require (decide (0 < fieldU32 e 28 ∧ fieldU32 e 28 ≤ 0x3F800000)) resBadArgument (at' 28),
    require (decide (1 ≤ fieldU32 e 32 ∧ fieldU32 e 32 ≤ 0x7FFFFFFF)) resBadArgument (at' 32),
    require (if entryFlag e 4 then x.covers (entryList e) 4 && ascendingBelow c.vocab (d.listIds (entryList e))
      else decide (entryList e = 0)) resBadArgument (at' 56)]

/-- The slot entries of a STEP as they stand in memory. -/
def Device.stepEntries (d : Device) (b : List Byte) : List (List Byte) :=
  (List.range (fieldU16 b 32)).map fun i => d.load (fieldU64 b 16 + 64 * i) 64

/-- The entries judged in order by a function of entry, index and the entries before. -/
def judgeEntries (f : List Byte → Nat → List (List Byte) → Check) : Nat → List (List Byte) → List (List Byte) → Check
  | _, _, [] => none
  | i, earlier, e :: rest =>
    match f e i earlier with
    | some r => some r
    | none => judgeEntries f (i + 1) (e :: earlier) rest

/-- Checks of a STEP (R397), in the order of R83. -/
def Device.stepCheck (d : Device) (j : Job) : Option Ending :=
  let b := j.bytes
  match d.paddock j.paddock, (d.serving j.paddock).cfg with
  | some x, some c =>
    let n := fieldU16 b 32
    match endIn [sizeIn 32 1 c.slots n, d.localEnd j (fieldU64 b 16) (64 * n) 32, d.localEnd j (fieldU64 b 24) (128 * n) 32] with
    | some e => some e
    | none =>
      let place := endIn [d.localStart j (fieldU64 b 16) 64 16]
      let es := if place.isNone then d.stepEntries b else []
      let rows := (es.map (entryRows c)).sum
      match endIn [judgeEntries (fun e i _ => d.entryLengths x e i) 0 [] es,
          require (decide (64 + n * laneSize c.candidates ≤ c.areaBytes)) resBadLength 32,
          require (decide (rows ≤ c.stepTokens)) resBadLength 32,
          require (decide (ringDie j.ring = c.stepDie)) resBadArgument 0,
          d.localStart j (fieldU64 b 16) 64 16, d.localStart j (fieldU64 b 24) 64 24, reserved b 34 6, reserved b 48 16] with
      | some e => some e
      | none => endIn [judgeEntries (d.entryValues x c) 0 [] es,
          require (d.resident j.paddock).isSome resBadState (d.stateDetail (paddockStateCode x.state)),
          require (d.windowFor j.paddock 0 c.stepDie (bufferAddr c.leadBlock 0) 16).isSome resConflict]
  | _, _ => some { result := resBadState, detail := d.stateDetail (paddockStateCode (d.paddockState j.paddock)) }

/-- STEP: it joins its paddock's steps, which run one after another (R398). -/
def kindStep : DescKind :=
  { type := 0x40,
    check := fun d j => d.stepCheck j,
    run := fun d j =>
      match (d.serving j.paddock).cfg with
      | none => d
      | some c =>
        let b := j.bytes
        let read := d.checkedRead (fieldU64 b 16) (64 * fieldU16 b 32) (d.src (srcRing j.ring)) j.paddock
        match read.2 with
        | some report => read.1.failTransfer j report
        | none =>
          let step : ServeStep :=
            { ring := j.ring, index := j.index, phase := .queued, takenAt := d.now, entries := fieldU64 b 16,
              completions := fieldU64 b 24, deadline := fieldU64 b 40, cfg := c,
              lanes := (read.1.stepEntries b).map fun e => { entry := e } }
          read.1.updServing j.paddock fun s => { s with steps := s.steps ++ [step] } }

/-! ### The step area (R401) -/

/-- Code of a phase (R400). -/
def phaseCode : StepPhase → Nat
  | .queued => 0
  | .start => 1
  | .draft => 2
  | .mask => 3
  | .main => 4
  | .sample => 5

/-- Address of lane i. -/
def ServeStep.laneAt (s : ServeStep) (i : Nat) : Nat := s.cfg.area + 64 + laneSize s.cfg.candidates * i

/-- Regions whose token mask engines serve a configuration, ascending. -/
def ServeConfig.engines (c : ServeConfig) : List Nat := (List.range 16).filter fun n => c.regions.getLsbD n

/-- Source number of the token mask engine that serves lane i: the k-th region of the mask, k = i mod n. -/
def Device.engineSource (d : Device) (c : ServeConfig) (i : Nat) : Nat :=
  let rs := c.engines
  d.src (srcRegion ((rs[i % max rs.length 1]?).getD (regionOf c.leadBlock)) 3)

/-- The first step of a paddock changed. -/
def Device.updStep (d : Device) (p : Nat) (f : ServeStep → ServeStep) : Device :=
  d.updServing p fun s =>
    { s with steps := match s.steps with
        | [] => []
        | x :: rest => f x :: rest }

/-- The bytes that each engine of a step moves in a phase, given what each lane takes (R401, R530). -/
def ServeStep.loads (s : ServeStep) (lane : Nat → Lane → Nat) : List (Nat × Nat) :=
  let rs := s.cfg.engines
  (List.range rs.length).map fun k =>
    ((rs[k]?).getD 0, ((List.range s.lanes.length).filter fun i => decide (i % rs.length = k)).foldl (fun n i =>
      match s.lanes[i]? with
      | some l => n + lane i l
      | none => n) 0)

/-- Bytes of a lane at START: its slot entry, its record and lane bytes 0 to 15; the first engine writes the header too. -/
def startBytes (i : Nat) : Nat := 64 + 256 + 16 + if i = 0 then 64 else 0

/-- Bytes of the automaton that one draft takes: class map, state entry and transitions (R401). -/
def automatonBytes : Nat := 2 + 8 + 8 * 17

/-- Bytes of a running lane at MASK (R401). -/
def Device.maskBytes (d : Device) (s : ServeStep) (i : Nat) (l : Lane) : Nat :=
  let drafts := Nat.min (d.loadLe (s.laneAt i + 4) 1) l.depth
  if l.run then
    96 + automatonBytes * drafts + (if entryFlag l.entry 4 then 4 + 4 * d.loadLe (entryList l.entry) 4 else 0) + 8 * (drafts + 1) + 1
  else 0

/-- Bytes of a lane at SAMPLE (R401). -/
def ServeStep.sampleBytes (s : ServeStep) (l : Lane) : Nat :=
  128 + if l.run then 96 + (8 + 8 * s.cfg.candidates) * l.rows + automatonBytes * l.rows + 192 else 0

/-- The running step of a paddock enters a phase: the code in the step area's header follows. -/
def Device.enterPhase (d : Device) (p : Nat) (s : ServeStep) (ph : StepPhase) : Device :=
  (d.updStep p fun x => { x with phase := ph }).storeLe (s.cfg.area + 2) 1 (phaseCode ph)

/-- A network bell of a step by its index in the paddock's range on the step die (R395). -/
def Device.stepBell (d : Device) (p : Nat) (c : ServeConfig) (j : Nat) : Nat :=
  65536 + 1024 * c.stepDie + (((d.paddock p).bind fun x => x.nbells[c.stepDie]?).getD (0, 0)).1 + j

/-- A token mask engine consumes 1 from a network bell that has it. -/
def Device.takeBell (d : Device) (p bell : Nat) : Option Device :=
  let b := d.bell p bell
  if 1 ≤ b.value then some (d.setBell p bell { b with value := b.value - 1 }) else none

/-! ### START (R402, R403, R416) -/

/-- The fold's cancellation policy for a paddock is RECLAIM (R295); DRAIN where it is in no fold. -/
def Device.reclaims (d : Device) (p : Nat) : Bool :=
  match d.fold (d.foldOf p).1 with
  | some f => decide (1024 < f.founded)
  | none => false

/-- What a slot's record says of it: a final status, or none when the slot runs (R402). -/
def Device.classify (d : Device) (p : Nat) (x : Paddock) (e : List Byte) : Option Nat :=
  let r := entryRecord e
  if x.covers r 256 = false then some 0x08
  else if d.recVacant r || decide (d.recEpoch r ≠ fieldU32 e 52) then some 0x08
  else if d.recState r = 2 || d.settling r then some 0x04
  else if bitOf (d.loadLe (r + 191) 1) 0 then some 0x01
  else if d.reclaims p && bitOf (d.recFlags r) 1 then some 0x08
  else none

/-- Speculation depth of a slot that runs. -/
def Device.depthOf (d : Device) (c : ServeConfig) (e : List Byte) : Nat :=
  if isPrefill e || entryFlag e 3 then 0 else Nat.min (d.loadLe (entryRecord e + 189) 1) c.specMax

/-- Sets are pushed back onto their stacks, the last one taken first, and their entries removed from a table. -/
def Device.pushBack (d : Device) (p table source : Nat) (ids : List Nat) : Device :=
  let d1 := if ids.isEmpty then d else d.storeLe table 4 (d.tableEntries table - ids.length)
  ids.reverse.foldl (fun d id => d.pushSet p id source) d1

/-- Page sets are added to a table until its last entry covers a position; none when a stack or the table has no room.
`next` is the first position of the next set, `added` the sets added so far; `fuel` bounds the sets. -/
def Device.addSets (p table pool last : Nat) : Nat → Nat → List Nat → Device → Device × List Nat × Bool
  | 0, _, added, d => (d, added, false)
  | fuel + 1, next, added, d =>
    if last < next then (d, added, true) else
      let n := d.tableEntries table
      if d.tableCapacity table ≤ n then (d, added, false) else
        match d.popSet p pool with
        | none => (d, added, false)
        | some r =>
          let d1 := (r.2.store (entryAt table n) (setEntry (r.2.pageRef p r.1) next 0 0)).storeLe table 4 (n + 1)
          Device.addSets p table pool last fuel (next + 16) (added ++ [r.1]) d1

/-- The page sets of a lane's positions: the device, the sets added, and a final status when the lane cannot run. -/
def Device.lanePages (d : Device) (p : Nat) (x : Paddock) (e : List Byte) (depth source : Nat) :
    Device × List Nat × Option Nat :=
  let r := entryRecord e
  let table := d.recTable r
  if table = 0 || !x.covers table 64 || !d.tableCovered p table then (d, [], some 0x08) else
    let position := d.loadLe (r + 88) 4
    let last := if isPrefill e then position + entryChunk e - 1 else position + depth
    let n := d.tableEntries table
    let stop' := d.load (entryAt table (n - 1)) 16
    let pool := if n = 0 then 0 else pagePool (refPage (fieldU64 stop' 0))
    let next := if n = 0 then position / 16 * 16 else fieldU32 stop' 8 + 16
    let a := Device.addSets p table pool last (last / 16 + 2) next [] d
    if a.2.2 then (a.1, a.2.1, none) else (a.1.pushBack p table source a.2.1, [], some 0x09)

/-- One lane at START: classified, a cancel taken, its page sets added, its fields written. -/
def Device.startLane (d : Device) (p : Nat) (x : Paddock) (s : ServeStep) (i : Nat) (l : Lane) : Device × Lane :=
  let e := l.entry
  let r := entryRecord e
  match d.classify p x e with
  | some status => (d.store (s.laneAt i) (zeros 16), { l with status := some status })
  | none =>
    let cancel := entryFlag e 1
    let d1 := if cancel then d.storeLe (r + 1) 1 (d.recFlags r ||| 2) else d
    let depth := d1.depthOf s.cfg e
    let pages := d1.lanePages p x e depth (droveSource s.ring)
    match pages.2.2 with
    | some status => (pages.1.store (s.laneAt i) (zeros 16), { l with status := some status, cancelTaken := cancel })
    | none =>
      let head := leBytes 1 1 ++ leBytes 1 depth ++ leBytes 1 (depth + 1) ++ zeros 5 ++ pages.1.load (r + 88) 4 ++
        pages.1.load (r + 176) 4
      (pages.1.store (s.laneAt i) head,
       { l with run := true, depth := depth, rows := depth + 1, cancelTaken := cancel,
                added := pages.2.1.map fun id => (pagePool id, id) })

/-- The lanes of a step in order, each reading a range first: a lasting error strikes the paddock and ends the phase. -/
def Device.eachLane (p : Nat) (s : ServeStep) (reads : Lane → Nat → List (Nat × Nat))
    (f : Device → Nat → Lane → Device × Lane) : Nat → List Lane → Device → Device × List Lane × Option Report
  | _, [], d => (d, [], none)
  | i, l :: ls, d =>
    let read := (reads l i).foldl (fun (acc : Device × Option Report) r =>
      match acc.2 with
      | some _ => acc
      | none => acc.1.checkedRead r.1 r.2 (acc.1.engineSource s.cfg i) p) (d, none)
    match read.2 with
    | some report => (read.1, [], some report)
    | none =>
      let one := f read.1 i l
      let rest := Device.eachLane p s reads f (i + 1) ls one.1
      (rest.1, one.2 :: rest.2.1, rest.2.2)

/-- A record in its paddock's windows, as a range a phase reads. -/
def recordRange (x : Paddock) (l : Lane) : List (Nat × Nat) :=
  if x.covers (entryRecord l.entry) 256 then [(entryRecord l.entry, 256)] else []

/-- A STEP completes: it leaves its paddock's steps, and what waited for its records goes on. -/
def Device.endStep (d : Device) (p : Nat) (s : ServeStep) (result detail : Nat) : Device :=
  let d1 := d.updServing p fun v =>
    { v with steps := v.steps.filter fun o => decide (o.ring ≠ s.ring ∨ o.index ≠ s.index),
             completed := v.completed + 1, lastStep := d.now }
  (d1.perform [.done s.ring s.index result 0 detail]).resumeDroves

/-- START of a paddock's first step: late ones complete TIMED_OUT (R397); then lanes, header and the start bell. -/
def Device.stepStart (d : Device) (p : Nat) : Device :=
  match d.paddock p, (d.serving p).steps with
  | some x, s :: _ =>
    if s.phase ≠ .queued then d
    else if s.deadline ≠ 0 ∧ s.deadline < d.now then d.endStep p s resTimedOut d.now
    else
      let header := leBytes 2 s.lanes.length ++ leBytes 1 1 ++ zeros 5 ++ leBytes 8 d.now ++ leBytes 8 s.entries ++ zeros 40
      d.throughShare (s.loads fun i _ => startBytes i) fun d =>
        let d1 := (d.updStep p fun y => { y with phase := .start }).store s.cfg.area header
        let r := Device.eachLane p s (fun l _ => recordRange x l) (fun d i l => d.startLane p x s i l) 0 s.lanes d1
        match r.2.2 with
        | some report => r.1.strike p report
        | none =>
          let d2 := (r.1.updStep p fun y => { y with lanes := r.2.1 }).enterPhase p s .draft
          d2.ringThrough p s.cfg.stepDie (64 * s.cfg.leadBlock + s.cfg.startBell) 1 (d2.engineSource s.cfg 0)
  | _, _ => d

/-! ### Automata along a lane (R406, R408) -/

/-- Symbols of a record's stack, top first (R399). -/
def stackOf (b : List Byte) (depth : Nat) : List Nat :=
  ((List.range depth).map fun i => leValue (bytesAt b (i / 2) 1) / 16 ^ (i % 2) % 16).reverse

/-- The 32 bytes of a stack: the symbol at depth i + 1 in bits [4i + 3:4i]. -/
def stackBytes (stack : List Nat) : List Byte :=
  leBytes 32 ((stack.reverse.foldr (fun s acc => s + 16 * acc) 0))

/-- What constrains a lane's tokens. -/
inductive Constraint where
  /-- Nothing. -/
  | free
  /-- A grammar's table and header. -/
  | grammar (table : Nat) (header : List Byte)
  /-- An allowed-token list's ids. -/
  | list (ids : List Nat)
  /-- A grammar and a list together, or a grammar that is not loaded: GRAMMAR_ERROR. -/
  | broken
  deriving DecidableEq, Repr

/-- The constraint of a lane. -/
def Device.constraintOf (d : Device) (p : Nat) (e : List Byte) : Constraint :=
  let g := d.loadLe (entryRecord e + 184) 2
  if g = 0xFFFF then (if entryFlag e 4 then .list (d.listIds (entryList e)) else .free)
  else if entryFlag e 4 then .broken
  else match (d.serving p).grammars.find? fun x => decide (x.1 = g) with
    | some x => .grammar x.2.1 (d.load x.2.1 128)
    | none => .broken

/-- The automaton's place that a record holds. -/
def Device.placeOf (d : Device) (r : Nat) : GrammarPlace :=
  { state := d.loadLe (r + 186) 2, stack := stackOf (d.load (r + 192) 32) (Nat.min (d.loadLe (r + 188) 1) 64) }

/-- A token steps a lane: none when it is refused, else the place after it and whether it is an end token (R406). -/
def Device.laneStep (d : Device) (vocab : Nat) (e : List Byte) (c : Constraint) (g : GrammarPlace) (t : Nat) :
    Option (GrammarPlace × Bool) :=
  let stop := (entryStops e).contains t
  match c with
  | .free => some (g, stop)
  | .list ids => if ids.contains t then some (g, stop) else none
  | .grammar table h => if t < vocab then (d.grammarStep table h g t).map fun r => (r.1, r.2 || stop) else none
  | .broken => none

/-- The mask reference of a place (R401, R405). -/
def Device.maskRef (d : Device) (p vocab : Nat) (e : List Byte) (c : Constraint) (g : GrammarPlace) : Nat :=
  match c with
  | .grammar table h =>
    2 ^ 62 + (fieldU64 h 56 + (d.grammarState table h g.state).mask * maskBlocks vocab * d.baleSize p (fieldU16 h 20)) % 2 ^ 46
  | .list _ => 2 ^ 63 + entryList e % 2 ^ 46
  | _ => 0

/-- Places along a list of drafts: the places reached, the first included, up to the first refusal or end token (R408). -/
def Device.walkDrafts (d : Device) (vocab : Nat) (e : List Byte) (c : Constraint) : GrammarPlace → List Nat → List GrammarPlace
  | g, [] => [g]
  | g, t :: ts =>
    match d.laneStep vocab e c g t with
    | none => [g]
    | some r => if r.2 then [g, r.1] else g :: d.walkDrafts vocab e c r.1 ts

/-- What an engine reads of a grammar along a list of tokens: the token's class, and the entry and the transitions of the
state it meets (R401, log entry 112). -/
def Device.automatonReads (d : Device) (vocab : Nat) (e : List Byte) (table : Nat) (h : List Byte) :
    GrammarPlace → List Nat → List (Nat × Nat)
  | _, [] => []
  | g, t :: ts =>
    let s := d.grammarState table h g.state
    let cls := if t < vocab then [(table + classMapAt h + 2 * t, 2)] else []
    let rest := match d.laneStep vocab e (.grammar table h) g t with
      | none => []
      | some r => if r.2 then [] else d.automatonReads vocab e table h r.1 ts
    cls ++ [(table + stateArrayAt h + 8 * g.state, 8), (table + moveArrayAt h + 8 * s.first, 8 * s.count)] ++ rest

/-- What an engine reads of a lane's grammar along a list of tokens. -/
def Device.grammarReads (d : Device) (p vocab : Nat) (e : List Byte) (tokens : List Nat) : List (Nat × Nat) :=
  match d.constraintOf p e with
  | .grammar table h => d.automatonReads vocab e table h (d.placeOf (entryRecord e)) tokens
  | _ => []

/-- The allowed-token list that an engine reads for a lane. -/
def Device.listReads (d : Device) (p : Nat) (e : List Byte) : List (Nat × Nat) :=
  match d.constraintOf p e with
  | .list ids => [(entryList e, 4 + 4 * ids.length)]
  | _ => []

/-- Drafts of a lane: at most its depth (R400). -/
def Device.draftsOf (d : Device) (s : ServeStep) (i depth : Nat) : List Nat :=
  (List.range (Nat.min (d.loadLe (s.laneAt i + 4) 1) depth)).map fun k => d.loadLe (s.laneAt i + 16 + 4 * k) 4

/-- What an engine reads of a lane in MASK: bytes 0 to 95 of a running lane, its list, and its grammar along its drafts (R401). -/
def Device.maskReads (d : Device) (p : Nat) (s : ServeStep) (l : Lane) (i : Nat) : List (Nat × Nat) :=
  if l.run then (s.laneAt i, 96) :: (d.listReads p l.entry ++
    d.grammarReads p s.cfg.vocab l.entry (d.draftsOf s i l.depth)) else []

/-- One lane at MASK. -/
def Device.maskLane (d : Device) (p : Nat) (s : ServeStep) (i : Nat) (l : Lane) : Device × Lane :=
  if l.run = false then (d, l) else
    let e := l.entry
    match d.constraintOf p e with
    | .broken => (d, { l with status := some 0x06 })
    | c =>
      let places := d.walkDrafts s.cfg.vocab e c (d.placeOf (entryRecord e)) (d.draftsOf s i l.depth)
      let refs := places.flatMap fun g => leBytes 8 (d.maskRef p s.cfg.vocab e c g)
      ((d.store (s.laneAt i + 96) refs).storeLe (s.laneAt i + 2) 1 places.length, { l with rows := places.length })

/-- MASK: the draft bell ends DRAFT; the engines walk the drafts and ring the mask bell. -/
def Device.stepMask (d : Device) (p : Nat) : Device :=
  match (d.serving p).steps with
  | [] => d
  | s :: _ =>
    if s.phase ≠ .draft then d else
      match d.takeBell p (d.stepBell p s.cfg s.cfg.draftBell) with
      | none => d
      | some d1 =>
        d1.throughShare (s.loads (d1.maskBytes s)) fun d1 =>
          let d2 := d1.enterPhase p s .mask
          let r := Device.eachLane p s (d2.maskReads p s) (fun d i l => d.maskLane p s i l) 0 s.lanes d2
          match r.2.2 with
          | some report => r.1.strike p report
          | none =>
            let d3 := (r.1.updStep p fun y => { y with lanes := r.2.1 }).enterPhase p s .main
            d3.ringThrough p s.cfg.stepDie (64 * s.cfg.leadBlock + s.cfg.maskBell) 1 (d3.engineSource s.cfg 0)

/-! ### Choosing a token (R409 to R411) -/

/-- The draw for a position: its numerator over 2^24 (R410). -/
def sampleDraw (seed q : Nat) : Nat :=
  let m := 2 ^ 64
  let z0 := (seed + (q + 1) * 0x9E3779B97F4A7C15) % m
  let z1 := (z0 ^^^ (z0 / 2 ^ 30)) * 0xBF58476D1CE4E5B9 % m
  let z2 := (z1 ^^^ (z1 / 2 ^ 27)) * 0x94D049BB133111EB % m
  (z2 ^^^ (z2 / 2 ^ 31)) / 2 ^ 40

/-- Two FP32 words compare less; a NaN compares with nothing. -/
def lessFp (x y : Word32) : Bool := !isNanWord x && !isNanWord y && lessNum (fp x) (fp y)

/-- The first FP32 word is at least the second: numbers of equal value count, zeros of either sign among them. -/
def atLeastFp (x y : Word32) : Bool :=
  !isNanWord x && !isNanWord y && (!lessNum (fp x) (fp y) || decide (x.toNat % 2 ^ 31 = 0 ∧ y.toNat % 2 ^ 31 = 0))

/-- Length of the nucleus: the scores up to the first at which the running sum reaches `top_p`. -/
def nucleus (topP : Word32) : Word32 → List Word32 → Nat
  | _, [] => 0
  | acc, p :: ps =>
    let a := (addFp .rne true acc p).1
    if atLeastFp a topP then 1 else 1 + nucleus topP a ps

/-- The index at which the running sum first exceeds a threshold, else the last. -/
def pickIndex (t : Word32) : Word32 → List Word32 → Nat
  | _, [] => 0
  | _, [_] => 0
  | acc, p :: ps =>
    let a := (addFp .rne true acc p).1
    if lessFp t a then 0 else 1 + pickIndex t a ps

/-- Entries i and i + 1 of a candidate record stand in order: a higher score first, at equal scores the lower token id. -/
def entriesOrdered (cand : List Byte) (i : Nat) : Bool :=
  let x : Word32 := BitVec.ofNat 32 (fieldU32 cand (12 + 8 * i))
  let y : Word32 := BitVec.ofNat 32 (fieldU32 cand (20 + 8 * i))
  lessFp y x || (atLeastFp x y && decide (fieldU32 cand (8 + 8 * i) < fieldU32 cand (16 + 8 * i)))

/-- A token chosen from a candidate record of `c` candidates at most, for the token at a position; none for NO_TOKEN. Which
candidate it is, is a free value where the entries are out of order (R409). -/
def sampleFrom (c : Nat) (cand e : List Byte) (seed q free : Nat) : Option Nat :=
  let count := fieldU16 cand 0
  let mass : Word32 := BitVec.ofNat 32 (fieldU32 cand 4)
  if count = 0 || decide (c < count) || decide (fieldU32 cand 4 / 2 ^ 23 % 256 = 255) then none
  else if !(List.range (count - 1)).all (entriesOrdered cand) then
    some (fieldU32 cand (8 + 8 * ((Config.freeWord free).toNat % count)))
  else if entryFlag e 2 then some (fieldU32 cand 8)
  else
    let n := if fieldU16 e 6 = 0 then count else Nat.min count (fieldU16 e 6)
    let ps := (List.range n).map fun i =>
      (exp2Fp true (subFp .rne true (BitVec.ofNat 32 (fieldU32 cand (8 + 8 * i + 4))) mass).1).1
    let kept := ps.take (nucleus (BitVec.ofNat 32 (fieldU32 e 28)) 0 ps)
    let z := kept.foldl (fun acc p => (addFp .rne true acc p).1) 0
    if z.toNat % 2 ^ 31 = 0 then none
    else
      let u : Word32 := BitVec.ofNat 32 (packFp32 .rne true (.fin false (sampleDraw seed q) (-24))).1
      some (fieldU32 cand (8 + 8 * pickIndex (mulFp .rne true u z).1 0 kept))

/-! ### Verification (R412) -/

/-- What a lane's rows give: status, tokens emitted, drafts accepted, the place after them. -/
structure Verdict where
  /-- Slot status (R415). -/
  status : Nat
  /-- Tokens emitted. -/
  out : List Nat := []
  /-- a. -/
  accepted : Nat := 0
  /-- The automaton's place after `out`. -/
  place : GrammarPlace
  deriving DecidableEq, Repr

/-- The status after a token has been emitted. -/
def statusAfter (isEnd : Bool) (emitted limit : Nat) : Nat := if isEnd then 1 else if emitted = limit then 2 else 0

/-- Rows verified from row j on, `left` of them, with the tokens emitted so far; `cand` gives the token a row chooses. -/
def Device.verify (d : Device) (vocab : Nat) (e : List Byte) (c : Constraint) (limit : Nat) (choose : Nat → Option Nat)
    (drafts : List Nat) : Nat → Nat → List Nat → GrammarPlace → Verdict
  | 0, _, out, g => { status := 0, out := out, accepted := out.length, place := g }
  | left + 1, j, out, g =>
    match choose j with
    | none => { status := 7, accepted := out.length, place := g }
    | some x =>
      let stepped := d.laneStep vocab e c g x
      if left ≠ 0 ∧ drafts[j]? = some x then
        let g' := (stepped.map (·.1)).getD g
        let isEnd := (stepped.map (·.2)).getD false
        let out' := out ++ [x]
        let st := statusAfter isEnd out'.length limit
        if st ≠ 0 then { status := st, out := out', accepted := out'.length, place := g' }
        else d.verify vocab e c limit choose drafts left (j + 1) out' g'
      else
        match stepped with
        | none => { status := 6, accepted := out.length, place := g }
        | some r => { status := statusAfter r.2 (out.length + 1) limit, out := out ++ [x], accepted := out.length, place := r.1 }

/-- A lane resolved (R412). -/
def Device.resolveLane (d : Device) (p : Nat) (s : ServeStep) (i : Nat) (l : Lane) : Verdict :=
  let e := l.entry
  let r := entryRecord e
  let g := d.placeOf r
  if d.loadLe (s.laneAt i + 3) 1 = 1 then { status := 5, place := g }
  else if isPrefill e && !entryFlag e 0 then { status := 0, place := g }
  else
    let position := d.loadLe (r + 88) 4
    let seed := if d.loadLe (r + 168) 8 = 0 then d.loadLe (r + 64) 8 else d.loadLe (r + 168) 8
    let limit := fieldU32 e 32 - d.loadLe (r + 180) 4
    let row := 8 + 8 * s.cfg.candidates
    let choose := fun j => sampleFrom s.cfg.candidates (d.load (s.laneAt i + 256 + j * row) row) e seed
      (if isPrefill e then position + entryChunk e else position + 1 + j) (d.draws + 5 + j)
    d.verify s.cfg.vocab e (d.constraintOf p e) limit choose (d.draftsOf s i l.depth) l.rows 0 [] g

/-! ### Records, backoff and completions (R413 to R417) -/

/-- `spec` and `run` after a DECODE lane run at a depth (R414). -/
def backoff (c : ServeConfig) (depth accepted spec run : Nat) : Nat × Nat :=
  if accepted = depth then (if c.restoreRun ≤ run + 1 then (c.specMax, 0) else (spec, run + 1))
  else if accepted = 0 then (depth / 2, 0)
  else (spec, 0)

/-- A status under which a lane's record is updated: CONTINUE, FINISHED, LENGTH. -/
def statusGood (st : Nat) : Bool := decide (st ≤ 2)

/-- The record of a lane updated (R413, R414). -/
def Device.updateRecord (d : Device) (c : ServeConfig) (l : Lane) (v : Verdict) : Device :=
  let e := l.entry
  let r := entryRecord e
  let rise := if isPrefill e then entryChunk e else 1 + v.accepted
  let d1 := d.storeLe (r + 88) 4 (d.loadLe (r + 88) 4 + rise)
  let d2 := match v.out.getLast? with
    | some t => d1.storeLe (r + 176) 4 t
    | none => d1
  let d3 := (d2.storeLe (r + 180) 4 (d2.loadLe (r + 180) 4 + v.out.length)).storeLe (r + 186) 2 v.place.state
  let d4 := (d3.storeLe (r + 188) 1 v.place.stack.length).store (r + 192) (stackBytes v.place.stack)
  let d5 := if v.status = 1 then d4.storeLe (r + 191) 1 (d4.loadLe (r + 191) 1 ||| 1) else d4
  if isPrefill e || entryFlag e 3 then d5 else
    let b := backoff c l.depth v.accepted (d5.loadLe (r + 189) 1) (d5.loadLe (r + 190) 1)
    (d5.storeLe (r + 189) 1 b.1).storeLe (r + 190) 1 b.2

/-- What a cancel makes of a lane that ends with a status: the code of `cancel` (R416, R417). -/
def Device.cancelCode (d : Device) (p : Nat) (x : Paddock) (l : Lane) (status : Nat) : Nat :=
  if l.cancelTaken then (if status = 1 ∨ status = 2 then 2 else if d.reclaims p then 3 else 1)
  else if l.run && x.covers (entryRecord l.entry) 256 && bitOf (d.recFlags (entryRecord l.entry)) 1 && !d.reclaims p then 1
  else 0

/-- A field of a slot completion that the rules state for a record the device may read, or a token that was emitted;
elsewhere it is a free value (log entry 6). -/
def Device.statedOr (d : Device) (stated : Bool) (v : Nat) (k : Nat) : Nat :=
  if stated then v else (Config.freeWord (d.draws + k)).toNat

/-- A lane resolved: its record, its page sets, its slot completion; the tokens it counts and its final status. -/
def Device.sampleLane (d : Device) (p : Nat) (x : Paddock) (s : ServeStep) (i : Nat) (l : Lane) : Device × Nat × Nat × Nat :=
  let e := l.entry
  let r := entryRecord e
  let v : Verdict := match l.status with
    | some st => { status := st, place := { state := 0, stack := [] } }
    | none => d.resolveLane p s i l
  let runs := l.run && l.status.isNone
  let first := (if runs then d.loadLe (r + 88) 4 else 0) + (if isPrefill e then entryChunk e else 1)
  let cancel := d.cancelCode p x l v.status
  let status := if cancel = 3 then 3 else v.status
  let d1 := if runs && statusGood v.status then d.updateRecord s.cfg l v else d
  let d2 := if statusGood status then d1 else d1.pushBack p (d1.recTable r) (droveSource s.ring) (l.added.map (·.2))
  let known := x.covers r 256
  let emitted := if cancel = 3 then 0 else v.out.length
  let drafted := if l.run then Nat.min (d2.loadLe (s.laneAt i + 4) 1) l.depth else 0
  let tokens := if cancel = 1 ∨ cancel = 3 then [] else v.out
  let record := leBytes 2 (fieldU16 e 0) ++ leBytes 1 status ++ leBytes 1 cancel ++ leBytes 1 emitted ++ leBytes 1 drafted ++
    leBytes 1 v.accepted ++ leBytes 1 (d2.statedOr known (d2.loadLe (r + 189) 1) 0) ++
    leBytes 4 (d2.statedOr (decide (v.out ≠ [])) first 1) ++ leBytes 4 (d2.statedOr known (d2.recEpoch r) 2) ++
    leBytes 8 d2.now ++ leBytes 4 (d2.statedOr known (d2.loadLe (r + 180) 4) 3) ++
    leBytes 2 (d2.statedOr known (d2.loadLe (r + 186) 2) 4) ++ zeros 2 ++
    padTo 68 (tokens.flatMap fun t => leBytes 4 t) ++ zeros 28
  let d3 := { d2.store (s.completions + 128 * i) record with draws := d2.draws + 22 }
  let d4 := d3.updServing p fun w =>
    { w with tokens := w.tokens + emitted, drafted := w.drafted + drafted, accepted := w.accepted + v.accepted,
             failed := w.failed + b2n (decide (4 ≤ status)) }
  let d5 := if cancel = 3 then d4.releaseRecord p r (droveSource s.ring) (d4.ringClass s.ring) none else d4
  (d5, emitted, status, i)

/-- What an engine reads of a lane in SAMPLE: bytes 0 to 95 of a running lane, the candidate records of its rows, and its
grammar along the tokens it emits (R401). -/
def Device.sampleReads (d : Device) (p : Nat) (s : ServeStep) (l : Lane) (i : Nat) : List (Nat × Nat) :=
  if l.run then (s.laneAt i, 96) :: (s.laneAt i + 256, (8 + 8 * s.cfg.candidates) * l.rows) ::
    d.grammarReads p s.cfg.vocab l.entry (if l.status.isNone then (d.resolveLane p s i l).out else []) else []

/-- The lanes resolved in order: tokens emitted, and lanes whose status is not CONTINUE, FINISHED or LENGTH. -/
def Device.sampleLanes (p : Nat) (x : Paddock) (s : ServeStep) : Nat → List Lane → Device → Device × Nat × Nat
  | _, [], d => (d, 0, 0)
  | i, l :: ls, d =>
    let one := d.sampleLane p x s i l
    let rest := Device.sampleLanes p x s (i + 1) ls one.1
    (rest.1, one.2.1 + rest.2.1, b2n (!statusGood one.2.2.1) + rest.2.2)

/-- SAMPLE: the sample bell ends MAIN; the engines choose and verify, and the STEP completes. -/
def Device.stepSample (d : Device) (p : Nat) : Device :=
  match d.paddock p, (d.serving p).steps with
  | some x, s :: _ =>
    if s.phase ≠ .main then d else
      match d.takeBell p (d.stepBell p s.cfg s.cfg.sampleBell) with
      | none => d
      | some d1 =>
        d1.throughShare (s.loads fun _ l => s.sampleBytes l) fun d1 =>
          let d2 := d1.enterPhase p s .sample
          let r := Device.eachLane p s (d2.sampleReads p s) (fun d _ l => (d, l)) 0 s.lanes d2
          match r.2.2 with
          | some report => r.1.strike p report
          | none =>
            let w := Device.sampleLanes p x s 0 s.lanes r.1
            w.1.endStep p s resOk (w.2.1 + 2 ^ 32 * w.2.2)
  | _, _ => d

/-- The step of a paddock that has not begun and whose deadline comes first. -/
def Device.lateStep (d : Device) (p : Nat) : Option ServeStep :=
  leastBy (·.deadline) ((d.serving p).steps.filter fun s => decide (s.phase = .queued ∧ s.deadline ≠ 0))

/-- STEP_DEADLINE: a step whose START has not begun completes TIMED_OUT (R397). -/
def Device.stepDeadline (d : Device) (p : Nat) : Device :=
  match d.lateStep p with
  | none => d
  | some s =>
    d.atDeadline s.deadline fun d => d.endStep p s resTimedOut d.now

/-! ### The rows -/

/-- The ring takes a STEP at its head. -/
def execStep (x : Desc) (s : State) : Outcome := .next (s.on (·.runDescriptor kindStep x))

/-- START of the paddock's first step. -/
def execStepStart (paddock : Fin 64) (s : State) : Outcome := .next (s.on (·.stepStart paddock))

/-- MASK of the paddock's running step. -/
def execStepMask (paddock : Fin 64) (s : State) : Outcome := .next (s.on (·.stepMask paddock))

/-- SAMPLE of the paddock's running step. -/
def execStepSample (paddock : Fin 64) (s : State) : Outcome := .next (s.on (·.stepSample paddock))

/-- A step's deadline passes before START. -/
def execStepDeadline (paddock : Fin 64) (s : State) : Outcome := .next (s.on (·.stepDeadline paddock))

end Sys2Proof.Machine
end

