-- ==== Sys2Proof/Machine/Switching.lean ====
section
/-! DEFINITION. Paddocks share blocks: demand, slices, escalation, and the stop, save, clear, restore and start of a switch
(R157, R376 to R393, R529). -/

namespace Sys2Proof.Machine

/-! ### Words of a record -/

/-- The listed bytes of 32-bit words, little-endian. -/
def bytesOf32 (m : Sparse 32) : Sparse 8 :=
  (m.flatMap fun e => (List.range 4).map fun i => (4 * e.1 + i, BitVec.ofNat 8 (e.2.toNat / 256 ^ i))).filter
    fun e => decide (e.2 ≠ 0)

/-- The 32-bit words in a range of memory, by word number. -/
def words32 (m : Sparse 8) (base words : Nat) : Sparse 32 :=
  (List.range words).foldl (fun acc i =>
    acc.set i (BitVec.ofNat 32 (leValue (m.getMany (base + 4 * i) 4)))) []

/-- A range of memory takes the listed bytes of `part` and zeros elsewhere; its words are no longer poisoned (R421). -/
def Device.storeSparse (d : Device) (a n : Nat) (part : Sparse 8) : Device :=
  (d.mapMem fun m => m.replace a n part).mapFaults fun f =>
    { f with poisoned := f.poisoned.filter fun w => decide (w < a ∨ a + n ≤ w) }

/-! ### Thread records (R388) -/

/-- Code of a thread's state before it stopped. -/
def Thread.savedCode (t : Thread) : Nat :=
  match t.before, t.state with
  | _, .idle => 0xFF
  | .held, _ => 2
  | .waiting, _ => 3
  | _, _ => 1

/-- A thread's record. -/
def Thread.record (t : Thread) : List Byte :=
  ((List.range 32).flatMap fun r => leBytes 8 (t.s.get r).toNat) ++
    ((List.range 1024).flatMap fun i => leBytes 4 (t.v.get i).toNat) ++ leBytes 2 t.pc ++ leBytes 1 t.savedCode ++
    leBytes 1 t.fstat.toNat ++ leBytes 2 t.bale ++ leBytes 2 t.progress ++ leBytes 2 t.mmacPc ++ leBytes 2 t.mmacContext ++
    leBytes 1 (b2n t.resumePass) ++ zeros 3 ++ leBytes 8 t.mmacB ++ leBytes 8 t.mmacC ++ zeros 224

/-- A thread as its record holds it: STOPPED, or IDLE. -/
def threadOf (bs : List Byte) : Thread :=
  let code := fieldU8 bs 4354
  { s := (List.range 31).foldl (fun acc i => acc.set (i + 1) (BitVec.ofNat 64 (fieldU64 bs (8 * (i + 1))))) [],
    v := (List.range 1024).foldl (fun acc i => acc.set i (BitVec.ofNat 32 (fieldU32 bs (256 + 4 * i)))) [],
    pc := fieldU16 bs 4352, fstat := BitVec.ofNat 5 (fieldU8 bs 4355), bale := fieldU16 bs 4356,
    state := if code = 1 ∨ code = 2 ∨ code = 3 then .stopped else .idle,
    before := (match code with | 2 => .held | 3 => .waiting | 1 => .ready | _ => .idle),
    resumePass := bitOf (fieldU8 bs 4364) 0, progress := fieldU16 bs 4358, mmacPc := fieldU16 bs 4360,
    mmacContext := fieldU16 bs 4362, mmacB := fieldU64 bs 4368, mmacC := fieldU64 bs 4376 }

/-! ### Saving (R383, R384, R388, R389) -/

/-- Bytes of a block's record that a save writes. -/
def savedBytes (whole : Bool) : Nat := if whole then 5451776 else 0xB00

/-- The head of a block's record: header, bells, generators, flags of the accumulators. -/
def Device.recordHead (d : Device) (p b stamp : Nat) (whole : Bool) : List Byte :=
  let k := d.block b
  leBytes 2 b ++ leBytes 1 (b2n whole) ++ zeros 5 ++ leBytes 8 stamp ++ zeros 240 ++
    ((List.range 64).flatMap fun i => (d.blockBell p (64 * b + i)).bytes) ++
    (k.generators.toList.flatMap fun g => leBytes 4 g.toNat) ++
    (if whole then (k.accFlags.toList.flatMap fun f => leBytes 1 f.toNat) ++ zeros 1504 else zeros 256)

/-- A block's record is written: BOUNDARY its head, IMMEDIATE all of it. The save of the first block of a region begins with
the paddock's SAVING; the later ones begin in their turn, at an instant that the rules do not give (log entry 6). -/
def Device.saveBlock (d : Device) (p : Nat) (x : Paddock) (whole : Bool) (b : Nat) : Device :=
  let at' := x.recordOf b
  let first := at' = (x.saveBase[regionOf b]?).getD 0
  let drawn := d.draw
  let stamp := if first then x.stateSince else drawn.1.toNat
  let d0 := if first then d else drawn.2
  let d1 := d0.store at' (d0.recordHead p b stamp whole)
  if whole then
    let k := d1.block b
    let d2 := d1.store (at' + 0x1000) (k.threads.toList.flatMap Thread.record)
    let d3 := d2.storeSparse (at' + 0x13000) 131072 (bytesOf32 (d2.fabric.acc.slice (32768 * b) 32768))
    let d4 := d3.storeSparse (at' + 0x33000) 1048576 (d3.mem.slice (bufferAddr b 0) 1048576)
    d4.storeSparse (at' + 0x133000) 4194304 (d4.fabric.scratch.slice (4194304 * b) 4194304)
  else d1

/-- A ring's save record. -/
def ringRecord (q : Nat) (r : Ring) (whole : Bool) : List Byte :=
  let suspended : Nat := if whole then
      ((r.inFlight.find? fun i => blockWork (fieldU8 i.bytes 0)).map (·.index)).getD 0xFFFFFFFF
    else 0xFFFFFFFF
  leBytes 2 q ++ leBytes 1 (ringStateCode r.state) ++ leBytes 1 (b2n whole) ++ leBytes 4 r.taken ++ leBytes 4 r.completed ++
    leBytes 4 suspended ++ leBytes 8 r.stoppedAt ++ zeros 40

/-- The ring records of a paddock, one after another. -/
def Device.saveRings (d : Device) (p : Nat) (x : Paddock) (whole : Bool) : Device :=
  d.store x.ringSave ((d.ringsOf p).flatMap fun e => ringRecord e.1 e.2 whole)

/-- Nothing of a paddock's blocks is out that its stop waits for: bale transfers, loads, atomics and RGETs, hurdle answers
(R157). -/
def Device.blocksQuiet (d : Device) (p : Nat) (x : Paddock) : Bool :=
  (x.blockList.all fun b => (d.block b).bales.isEmpty) &&
    (d.fabric.remote.all fun a => decide (a.paddock ≠ p) || a.expired ||
      decide (a.op = .store ∨ a.op = .flag ∨ a.op = .put)) &&
    (d.fabric.arrivals.all fun a => !x.names a.block)

/-- Every thread of a paddock's blocks has stopped. -/
def Device.allStopped (d : Device) (x : Paddock) : Bool :=
  x.blockList.all fun b => (d.block b).threads.all fun t =>
    decide (t.state = .idle ∨ t.state = .stopped ∨ t.state = .faulted)

/-- PREEMPT_STOPPED: a paddock that is being preempted has come to its boundary, or its threads have all stopped, and its save
begins; an MMAC that IMMEDIATE interrupts stops at the end of its round. -/
def Device.preemptStopped (d : Device) (p : Nat) : Device :=
  match d.paddock p with
  | none => d
  | some x =>
    match x.state, x.preempt with
    | .stopping, some q =>
      let ready := if q.mode = .immediate then d.allStopped x else d.atBoundary p
      if ready && d.blocksQuiet p x then
        let d1 := d.stopThreads p
        let d2 := if q.mode = .immediate then x.blockList.foldl (fun d b => d.cutMmac p q.stopAt b) d1 else d1
        (x.blockList.foldl Device.rouse d2).setPaddockState p .saving (d.waiterTag q.waiter)
      else d
    | _, _ => d

/-- SAVE_DONE: the records are written, the blocks cleared and free, and those that wait take them. -/
def Device.saveDone (d : Device) (p : Nat) : Device :=
  match d.paddock p with
  | none => d
  | some x =>
    if x.state ≠ .saving then d else
      let q : Preemption := x.preempt.getD { mode := .boundary, startedAt := d.now }
      let whole := q.mode == .immediate
      let suspended := whole && !d.atBoundary p
      let d1 := (x.blockList.foldl (fun d b => d.saveBlock p x whole b) d).saveRings p x whole
      let written := x.blockList.length * savedBytes whole + 64 * (d1.ringsOf p).length
      let d2 := (d1.clearBlocksOf p).updPaddock p fun x =>
        { x with holds := false, preempt := none, suspended := suspended, fullRecord := whole, generatorsSaved := x.blockList,
                 restored := false, savedBytes := x.savedBytes + written }
      let work := d2.workAtHead p || !d2.atBoundary p
      let next : PaddockState := if q.toHeld then .held else if suspended then .saved else if work then .waiting else .vacant
      let d3 := d2.setPaddockState p next (d.waiterTag q.waiter)
      let d4 := match q.waiter with
        | some w => d3.respond (pathOf w.1 w.2) {}
        | none => d3
      d4.schedule

/-! ### Restoring (R386, R388, R474) -/

/-- Bytes of a block's record that a restore reads: bells at least, the generators once a save has written them, and after an
IMMEDIATE save the whole. -/
def Paddock.restoreBytes (x : Paddock) (b : Nat) : Nat :=
  if x.fullRecord then 5451776 else if x.generatorsSaved.contains b then 0xA00 else 0x900

/-- A block's bells are in the block as its record holds them. -/
def Device.restoreBells (d : Device) (p : Nat) (b : Nat) : Device :=
  (List.range 64).foldl (fun d i =>
    let v := d.blockBell p (64 * b + i)
    let put := fun (t : Table Bell) => if v = {} then Table.del t (64 * b + i) else Table.put t (64 * b + i) v
    d.updPaddock p fun x => { x with bells := put x.bells }) d

/-- What a block's record gives back beside its bells. -/
def Device.restoreRecord (d : Device) (x : Paddock) (b : Nat) : Device :=
  let at' := x.recordOf b
  let gens := d.load (at' + 0x900) 256
  let d1 := if x.generatorsSaved.contains b then
      d.updBlock b fun k => { k with generators := Vector.ofFn fun l => BitVec.ofNat 32 (fieldU32 gens (4 * l.val)) }
    else d
  if x.fullRecord then
    let flags := d1.load (at' + 0xA00) 32
    let d2 := d1.updBlock b fun k =>
      { k with accFlags := Vector.ofFn fun a => BitVec.ofNat 5 (fieldU8 flags a.val),
               threads := Vector.ofFn fun t => threadOf (d1.load (at' + 0x1000 + 4608 * t.val) 4608) }
    let d3 := d2.mapFabric fun f =>
      { f with acc := f.acc.replace (32768 * b) 32768 (words32 d2.mem (at' + 0x13000) 32768),
               scratch := f.scratch.replace (4194304 * b) 4194304 (d2.mem.slice (at' + 0x133000) 4194304) }
    d3.storeSparse (bufferAddr b 0) 1048576 (d3.mem.slice (at' + 0x33000) 1048576)
  else d1

/-- One block is restored: code from the resident image, bells and the rest from its record; the first block whose record
meets a lasting error ends the restore with it. -/
def Device.restoreBlocks (p : Nat) (x : Paddock) : List Nat → Device → Device × Option Report
  | [], d => (d, none)
  | b :: bs, d =>
    let r := d.checkedRead (x.recordOf b) (x.restoreBytes b) (d.src (srcRegion (regionOf b) 0)) p
    match r.2 with
    | some report => (r.1, some report)
    | none =>
      let d1 := r.1.restoreBells p b
      let d2 := d1.updBlock b fun k =>
        { k with istore := (match d1.resident p with
          | some e => imageStore e.2.bytes b
          | none => []) }
      Device.restoreBlocks p x bs (d2.restoreRecord x b)

/-- RESTORE_DONE: every block of an incoming paddock is restored, once all have left DEEP; one whose record cannot be read
puts the paddock in FAULTED (R393). -/
def Device.restoreDone (d : Device) (p : Nat) : Device :=
  match d.paddock p with
  | none => d
  | some x =>
    if x.state ≠ .restoring ∨ x.restored ∨ x.blockList.any fun b => decide (d.blockPower b = .deep) then d else
      let d1 := x.blockList.foldl (fun d b => d.setBlockPower b .run) d
      let r := Device.restoreBlocks p x x.blockList d1
      match r.2 with
      | some report => r.1.strike p report
      | none => r.1.updPaddock p fun x => { x with restored := true }

/-- A stopped thread goes on in the state saved with it; an instruction that waited is issued afresh, and its thread is READY
for it (R131, R157). -/
def Thread.goOn (t : Thread) : Thread :=
  match t.state with
  | .stopped => { t with state := if t.before = .held then .held else .ready, before := .idle, waits := .nothing }
  | _ => t

/-- The threads of a block that was saved whole go on, and an MMAC that was interrupted is completed (R157). -/
def Device.goOnBlock (d : Device) (p b : Nat) : Device :=
  (List.range 16).foldl (fun d t => d.resumeMmac p b t) (d.updBlock b fun k => { k with threads := k.threads.map Thread.goOn })

/-- The preemptions that this paddock's start ends: for each paddock whose blocks it took, the ticks since the preemption
began (R392). -/
def Device.endSwitches (d : Device) (x : Paddock) : Device :=
  { d with paddocks := Table.mapAll d.paddocks fun _ y =>
      match y.switchFrom with
      | some t => if !y.holds && decide (y.blocks &&& x.blocks ≠ 0) then { y with lastSwitch := d.now - t, switchFrom := none } else y
      | none => y }

/-- The threads of a paddock that has been restored start or go on. -/
def Device.startThreads (d : Device) (p : Nat) (x : Paddock) : Device :=
  if x.fullRecord then x.blockList.foldl (fun d b => d.goOnBlock p b) d
  else match d.resident p with
    | some e => x.blockList.foldl (fun d b => d.startBlock e.2.bytes b) d
    | none => d

/-- PADDOCK_RUNNING: at the first frame boundary of its image the paddock runs. -/
def Device.paddockRunning (d : Device) (p : Nat) : Device :=
  match d.paddock p with
  | none => d
  | some x =>
    if x.state ≠ .restoring ∨ x.restored = false then d else
      let span := d.spanOf p
      d.atInstant (ceilDiv d.now span * span) fun d =>
        let d1 := (d.startThreads p x).setPaddockState p .running
        let d2 := x.blockList.foldl (fun d b => d.updBlock b fun k => { k with frameStart := d.frameBase p, busyAt := d.now }) d1
        ((d2.endSwitches x).updPaddock p fun x =>
          { x with suspended := false, fullRecord := false, restored := false, switchFrom := none }).schedule

/-! ### Work, slices and escalation (R376 to R380) -/

/-- PADDOCK_WORK: a paddock that has work has a demand stamp, and waits for its blocks unless it holds them. -/
def Device.paddockWork (d : Device) (p : Nat) : Device :=
  match d.paddock p with
  | none => d
  | some x =>
    if !d.hasWork p then d else
      let d1 := d.updPaddock p fun x => { x with demand := if x.demand = 0 then d.now else x.demand }
      (if x.state = .vacant then d1.setPaddockState p .waiting else d1).schedule

/-- SLICE_EXPIRY: an occupant's slice ends while a paddock of equal priority waits for one of its blocks. -/
def Device.sliceExpiry (d : Device) (p : Nat) : Device :=
  match d.paddock p with
  | none => d
  | some x =>
    let waits := d.ranking.any fun w => decide (w.2.priority = x.priority ∧ w.2.blocks &&& x.blocks ≠ 0)
    if x.state = .running ∧ waits then d.atInstant (x.tookAt + x.slice) Device.schedule else d

/-- PREEMPTION_ESCALATION: the escalation instant passes without a boundary. -/
def Device.preemptionEscalation (d : Device) (p : Nat) : Device :=
  match (d.paddock p).bind (·.preempt) with
  | none => d
  | some q =>
    match q.escalateAt with
    | none => d
    | some t =>
      d.atDeadline t fun d =>
        match d.paddock p with
        | some x => if x.state = .stopping ∧ d.atBoundary p = false then d.escalate p else d
        | none => d

/-! ### The rows -/

/-- A STEP or IMAGE_LOAD reaches a ring head. -/
def execPaddockWork (paddock : Fin 64) (s : State) : Outcome := .next (s.on (·.paddockWork paddock.val))

/-- An occupant's time slice passes. -/
def execSliceExpiry (paddock : Fin 64) (s : State) : Outcome := .next (s.on (·.sliceExpiry paddock.val))

/-- The escalation instant of a preemption passes. -/
def execPreemptionEscalation (paddock : Fin 64) (s : State) : Outcome := .next (s.on (·.preemptionEscalation paddock.val))

/-- A stopping paddock is at its boundary, or its threads have stopped. -/
def execPreemptStopped (paddock : Fin 64) (s : State) : Outcome := .next (s.on (·.preemptStopped paddock.val))

/-- The save of a paddock's blocks completes. -/
def execSaveDone (paddock : Fin 64) (s : State) : Outcome := .next (s.on (·.saveDone paddock.val))

/-- Every block of an incoming paddock is restored. -/
def execRestoreDone (paddock : Fin 64) (s : State) : Outcome := .next (s.on (·.restoreDone paddock.val))

/-- The first frame boundary after the restore arrives. -/
def execPaddockRunning (paddock : Fin 64) (s : State) : Outcome := .next (s.on (·.paddockRunning paddock.val))

end Sys2Proof.Machine
end

