-- ==== Sys2Proof/Machine/Sync.lean ====
section
/-! DEFINITION. Bells, hurdles and edge windows as threads use them (R152, R153, R165, R182 to R200). -/

namespace Sys2Proof.Machine

/-! ### Bells (R152, R182, R183, R190) -/

/-- Number of bells. -/
def bellCount : Nat := 69632

/-- A bell reference names a bell of the paddock. -/
def Device.bellOfPaddock (d : Device) (p : Nat) (ref : Word) : Bool :=
  let n := ref.toNat
  if n < 65536 then (match d.paddock p with
    | some x => x.names (n / 64)
    | none => false)
  else decide (n < bellCount) && decide ((d.netBellOwner ((n - 65536) / 1024) (n % 1024)).map (·.1) = some p)

/-- A bell reference names a bell of the issuing block. -/
def ownBell (i : Issue) (ref : Word) : Bool := decide (ref.toNat / 64 = i.block)

/-- A threshold is out of its range. -/
def badThreshold (v : Word) : Bool := decide (v.toNat = 0 ∨ 2 ^ 31 ≤ v.toNat)

/-- BRING: a block bell is rung on the bell lane; the ring of a network bell joins the OUT window to its die, and needs one
(R190, R195). -/
def seqBring (i : Issue) (d : Device) : Device :=
  let ref := d.sB i
  let inc := immUnsigned i.w
  let n := ref.toNat
  let die := (n - 65536) / 1024
  let reached := decide (n < 65536) || (d.windowFor i.paddock 1 die (bellAddress (64 * i.block)) 16).isSome
  d.guarded i [(decide (inc = 0 ∨ 65535 < inc), exBound), (!d.bellOfPaddock i.paddock ref || !reached, exAddress)] fun d =>
    if n < 65536 then (d.complete i id).perform [.ring i.paddock n inc (d.sourceOf i)]
    else
      (d.complete i id).sendThrough i.paddock 1 die 16
        { size := 0, cls := 1, link := none, address := bellAddress (64 * i.block), data := [],
          kind := .ring n inc (d.sourceOf i) d.now } id

/-- Waiter key of a thread. -/
def waiterKey (block thread : Nat) : Nat := block * 16 + thread

/-- BWAIT: the thread joins the bell's waiters, which are examined at once. -/
def seqBwait (i : Issue) (d : Device) : Device :=
  let ref := d.sB i
  let threshold := d.sC i
  let imm := immUnsigned i.w
  let bell := ref.toNat
  d.guarded i [(badThreshold threshold, exBound), (!d.bellOfPaddock i.paddock ref || !ownBell i ref, exAddress)] fun d =>
    let deadline := if imm = 0 then 0 else d.now + imm
    let b := d.bell i.paddock bell
    let waiters := b.waiters ++ [(waiterKey i.block i.thread, threshold.toNat, deadline)]
    let d1 := (d.waitAt i (.bell i.w.a.toNat bell threshold.toNat deadline)).setBell i.paddock bell { b with waiters := waiters }
    let r := d1.examine i.paddock bell (d.sourceOf i)
    r.1.perform r.2

/-- BTRY: a waiter that comes after all others and does not stay (R193). -/
def seqBtry (i : Issue) (d : Device) : Device :=
  let ref := d.sB i
  let threshold := d.sC i
  let bell := ref.toNat
  d.guarded i [(badThreshold threshold, exBound), (!d.bellOfPaddock i.paddock ref || !ownBell i ref, exAddress)] fun d =>
    let b := d.bell i.paddock bell
    if threshold.toNat ≤ b.value then
      let after := b.value - threshold.toNat
      ((d.setBell i.paddock bell { b with value := after, unseen := [] }).traced 2 bell threshold.toNat after i.paddock (d.sourceOf i)).completeS
        i 0
    else d.completeS i 1

/-- BREAD: a value that is not zero shows the bell's rings (R135). -/
def seqBread (i : Issue) (d : Device) : Device :=
  let ref := d.sB i
  d.guarded i [(!d.bellOfPaddock i.paddock ref, exAddress)] fun d =>
    let b := d.bell i.paddock ref.toNat
    let seen := if b.value = 0 ∨ b.unseen.isEmpty then d else d.setBell i.paddock ref.toNat { b with unseen := [] }
    seen.completeS i (BitVec.ofNat 64 b.value)

/-- The deadline of a thread's BWAIT passes: it leaves the list with nothing consumed (R194). -/
def Device.bellTimeout (d : Device) (b t : Nat) : Device :=
  match (d.thread b t).waits with
  | .bell _ _ _ 0 => d
  | .bell _ _ _ deadline =>
    if (d.thread b t).state ≠ .waiting then d
    else
      d.atDeadline deadline fun d =>
        match d.occupant b, (d.thread b t).waits with
        | some (p, _), .bell dest bell _ _ =>
          let old := d.bell p bell
          let left := old.waiters.filter fun w => decide (w.1 ≠ waiterKey b t)
          ((d.setBell p bell { old with waiters := left }).updThread b t fun x => x.resume dest 1).rouse b
        | _, _ => d
  | _ => d

/-! ### Hurdles (R197 to R200) -/

/-- A hurdle of the issuing paddock. -/
def Device.ownHurdle (d : Device) (i : Issue) (ref : Word) : Bool :=
  decide ((d.hurdleOwner (ref.toNat % 256)).map (·.1) = some i.paddock)

/-- N of an arrival. -/
def arrivalCount (ref : Word) : Nat := bitsOf ref.toNat 30 16

/-- The checks of HARRIVE and HPASS. -/
def Device.arrivalGuards (d : Device) (i : Issue) (ref : Word) : List (Bool × Nat) :=
  [(decide (arrivalCount ref = 0 ∨ 16384 < arrivalCount ref), exBound),
   (decide (bitsOf ref.toNat 15 8 ≠ 0 ∨ bitsOf ref.toNat 63 31 ≠ 0) || !d.ownHurdle i ref, exAddress)]

/-- CCLKs of an arrival's leg from one region to another (R202). -/
def arrivalLeg (from' to' : Nat) : Nat := if from' = to' then 6 else 24 + 9 * (meshHops from' to' - 1)

/-- Tick in which an arrival that issues now reaches its hurdle: its leg takes CCLKs of the slowest region on its way (log entry
104). -/
def Device.arrivalDue (d : Device) (i : Issue) (h : Nat) : Nat :=
  let from' := regionOf i.block
  let mhz := (regionPath from' (h / 16)).foldl (fun m n => Nat.min m (d.runningMhz n)) (d.runningMhz from')
  d.now + ceilDiv (800 * arrivalLeg from' (h / 16)) mhz

/-- An arrival leaves for its hurdle on the bell lane. -/
def Device.sendArrival (d : Device) (i : Issue) (ref : Word) (pass : Bool) : Device :=
  let h := ref.toNat % 256
  let a : Arrival := { hurdle := h, n := arrivalCount ref, block := i.block, thread := i.thread, dest := i.w.a.toNat, pass := pass,
                       due := d.arrivalDue i h }
  d.mapFabric fun f => { f with arrivals := f.arrivals ++ [a] }

/-- HARRIVE. -/
def seqHarrive (i : Issue) (d : Device) : Device :=
  let ref := d.sB i
  d.guarded i (d.arrivalGuards i ref) fun d => (d.sendArrival i ref false).complete i id

/-- The thread waits for a round of a hurdle to complete; with the round over it goes on. -/
def Device.awaitRound (d : Device) (i : Issue) (h round : Nat) (pass : Bool) : Device :=
  if round < (d.hurdle h).round then d.complete i fun t => { t with resumePass := false }
  else (d.waitAt i (.hurdle h round pass)).updThread i.block i.thread fun t => { t with resumePass := false }

/-- HWAIT. -/
def seqHwait (i : Issue) (d : Device) : Device :=
  let ref := d.sB i
  d.guarded i [(!d.ownHurdle i ref, exAddress)] fun d => d.awaitRound i (ref.toNat % 256) (d.sC i).toNat false

/-- HPASS: the thread arrives and waits; one whose arrival has counted before a preemption only waits (R157). -/
def seqHpass (i : Issue) (d : Device) : Device :=
  let ref := d.sB i
  if (d.self i).resumePass then
    d.guarded i [(!d.ownHurdle i ref, exAddress)] fun d => d.awaitRound i (ref.toNat % 256) (d.sA i).toNat true
  else
    d.guarded i (d.arrivalGuards i ref) fun d =>
      (d.sendArrival i ref true).waitAt i (.hurdle (ref.toNat % 256) answerOut true)

/-- How an arrival is counted. -/
inductive Arriving where
  /-- In this round. -/
  | counted (round : Nat)
  /-- HURDLE_MISMATCH. -/
  | mismatch
  /-- HURDLE_OVERRUN. -/
  | overrun
  deriving DecidableEq, Repr

/-- A key put in its place in an ascending list. -/
def keyInsert (x : Nat) : List Nat → List Nat
  | [] => [x]
  | y :: ys => if x < y then x :: y :: ys else y :: keyInsert x ys

/-- An arrival of a thread is applied: N, then the current set, then the next. -/
def Hurdle.arrive (h : Hurdle) (n key : Nat) : Hurdle × Arriving :=
  let h1 := { h with n := some (h.n.getD n) }
  if h.n.getD n ≠ n then (h, .mismatch)
  else if ¬ h.current.contains key then ({ h1 with current := keyInsert key h.current }, .counted h.round)
  else if ¬ h.nextSet.contains key then ({ h1 with nextSet := keyInsert key h.nextSet }, .counted (h.round + 1))
  else (h, .overrun)

/-- The rounds that a full current set completes, at an instant; `fuel` bounds them. -/
def Hurdle.advance (now : Nat) : Nat → Hurdle → Hurdle
  | 0, h => h
  | fuel + 1, h =>
    if h.n = some h.current.length then
      ({ h with completedAt := now, round := h.round + 1, current := h.nextSet, nextSet := [] } : Hurdle).advance now fuel
    else h

/-- A thread that waits for a round now complete goes on. -/
def Thread.roundOver (h round : Nat) (t : Thread) : Thread :=
  match t.waits with
  | .hurdle g r _ => if g = h ∧ r < round ∧ t.state = .waiting then t.resume 0 0 else t
  | _ => t

/-- The answer reaches the thread: s[a] holds the round, and an HPASS waits for that round, or goes on. -/
def Thread.answered (a : Arrival) (counted round : Nat) (t : Thread) : Thread :=
  let t1 := t.setS a.dest (BitVec.ofNat 64 counted)
  if a.pass ∧ t.waits = .hurdle a.hurdle answerOut true then
    if counted < round then t1.resume 0 0 else { t1 with waits := .hurdle a.hurdle counted true }
  else t1

/-- Sleeping blocks in which a thread has become READY start to wake (R473). -/
def Device.rouseReady (d : Device) (blocks : List Nat) : Device :=
  blocks.foldl (fun d b => if (d.block b).threads.any fun t => decide (t.state = .ready) then d.rouse b else d) d

/-- A lasting fault of a hurdle. -/
def hurdleReport (source paddock code h addr : Nat) : Report :=
  { source := source, paddock := paddock, cls := 2, level := 4, code := code, aux := h, addr := addr }

/-- The completed rounds are traced. -/
def Device.traceRounds (d : Device) (h p source : Nat) : Nat → Nat → Device
  | _, 0 => d
  | r, n + 1 => (d.traced 4 h 0 r p source).traceRounds h p source (r + 1) n

/-- An arrival reaches its hurdle, and is applied (R199). -/
def Device.arriveAt (d : Device) (a : Arrival) : Device :=
  match d.hurdleOwner a.hurdle with
  | none => d
  | some (p, x) =>
    let old := d.hurdle a.hurdle
    let source := d.src (srcThread a.block a.thread)
    let r := old.arrive a.n (waiterKey a.block a.thread)
    match r.2 with
    | .mismatch =>
      (d.updHurdle a.hurdle fun h => { h with mismatch := true }).strike p (hurdleReport source p 0x33 a.hurdle a.n)
    | .overrun =>
      (d.updHurdle a.hurdle fun h => { h with overrun := true }).strike p (hurdleReport source p 0x32 a.hurdle old.round)
    | .counted round =>
      let new := ({ r.1 with lastStamp := d.now, lastSource := source } : Hurdle).advance d.now 2
      let d2 := (d.updHurdle a.hurdle fun _ => new).traced 3 a.hurdle (round % 2 ^ 32) a.n p source
      let d3 := d2.traceRounds a.hurdle p source old.round (new.round - old.round)
      let d4 := if x.holds && x.names a.block then d3.resumeThread a.block a.thread (Thread.answered a round new.round) else d3
      (d4.mapThreadsOf p (Thread.roundOver a.hurdle new.round)).rouseReady x.blockList

/-- The arrival that comes next in the order of R65: the least stamp, and of one stamp the least source. -/
def Device.nextArrival (d : Device) : Option Arrival :=
  leastBy (fun a => 16384 * a.due + waiterKey a.block a.thread) d.fabric.arrivals

/-- HURDLE_ARRIVAL: the next arrival reaches its hurdle, and threads of its region that it held are READY (R65, R195, R199). -/
def Device.applyArrival (d : Device) : Device :=
  match d.nextArrival with
  | none => d
  | some a =>
    d.atInstant a.due fun d =>
      let region := regionOf a.block
      ((List.range 64).map (64 * region + ·)).foldl Device.unhold
        ((d.mapFabric fun f => { f with arrivals := f.arrivals.erase a }).arriveAt a)

/-! ### Edge windows (R153, R165) -/

/-- WWAIT. -/
def seqWwait (i : Issue) (d : Device) : Device := d.waitAt i (.window (immUnsigned i.w % 256))

/-- WLEFT. -/
def seqWleft (i : Issue) (d : Device) : Device :=
  d.completeS i (BitVec.ofNat 64 (slotsLeft (d.runsOf i.paddock i.block) (immUnsigned i.w % 256)
    (d.slotCounter i.paddock i.block i.cclk)))

/-! ### The rows -/

/-- BRING issues. -/
def execBring (t : ThreadId) (w : IWord) (s : State) : Outcome := .next (s.on (·.issue t 0x90 w seqBring))

/-- BWAIT issues. -/
def execBwait (t : ThreadId) (w : IWord) (s : State) : Outcome := .next (s.on (·.issue t 0x91 w seqBwait))

/-- A BWAIT's timeout passes. -/
def execBellWaitTimeout (t : ThreadId) (s : State) : Outcome :=
  .next (s.on fun d => d.bellTimeout t.block.val t.thread.val)

/-- BTRY issues. -/
def execBtry (t : ThreadId) (w : IWord) (s : State) : Outcome := .next (s.on (·.issue t 0x92 w seqBtry))

/-- BREAD issues. -/
def execBread (t : ThreadId) (w : IWord) (s : State) : Outcome := .next (s.on (·.issue t 0x93 w seqBread))

/-- HARRIVE issues. -/
def execHarrive (t : ThreadId) (w : IWord) (s : State) : Outcome := .next (s.on (·.issue t 0xA0 w seqHarrive))

/-- HWAIT issues. -/
def execHwait (t : ThreadId) (w : IWord) (s : State) : Outcome := .next (s.on (·.issue t 0xA1 w seqHwait))

/-- HPASS issues. -/
def execHpass (t : ThreadId) (w : IWord) (s : State) : Outcome := .next (s.on (·.issue t 0xA2 w seqHpass))

/-- An arrival reaches its hurdle. -/
def execHurdleArrival (s : State) : Outcome := .next (s.on (·.applyArrival))

/-- WWAIT issues. -/
def execWwait (t : ThreadId) (w : IWord) (s : State) : Outcome := .next (s.on (·.issue t 0xB0 w seqWwait))

/-- WLEFT issues. -/
def execWleft (t : ThreadId) (w : IWord) (s : State) : Outcome := .next (s.on (·.issue t 0xB1 w seqWleft))

end Sys2Proof.Machine
end

