-- ==== Sys2Proof/Machine/Timers.lean ====
section
/-! DEFINITION. The instants of the control plane: a committed set applies, a lease expires, a claim window ends, an offer
lapses (R70, R88, R90, R92). -/

namespace Sys2Proof.Machine

/-- STAGE_APPLY: the commit instant that comes first arrives, and every set of that instant applies. -/
def Device.stageApply (d : Device) : Device :=
  match d.committed.head? with
  | none => d
  | some e => d.advanceTo e.2.instant

/-- LEASE_EXPIRY: the lease runs out, and the device has no owner. -/
def Device.leaseExpiry (d : Device) : Device :=
  match d.own.owner with
  | none => d
  | some _ => d.atDeadline d.own.leaseExpiry fun d => d.setOwner none d.own.leaseExpiry

/-- CLAIM_WINDOW_END: the highest claimant becomes owner. -/
def Device.claimWindowEnd (d : Device) : Device :=
  match d.own.claimEnd with
  | none => d
  | some e => d.atDeadline e Device.closeClaims

/-- HANDOVER_OFFER_LAPSE: the offer's deadline passes. -/
def Device.offerLapse (d : Device) : Device :=
  match d.own.offerTarget with
  | none => d
  | some _ => d.atDeadline d.own.offerEnd fun d => d.mapOwn fun o => { o with offerTarget := none, offerEnd := 0 }

/-- The commit instant of a committed set arrives. -/
def execStageApply (s : State) : Outcome := .next (s.on Device.stageApply)

/-- The owner's lease expires. -/
def execLeaseExpiry (s : State) : Outcome := .next (s.on Device.leaseExpiry)

/-- The claim window ends. -/
def execClaimWindowEnd (s : State) : Outcome := .next (s.on Device.claimWindowEnd)

/-- A handover offer lapses. -/
def execHandoverOfferLapse (s : State) : Outcome := .next (s.on Device.offerLapse)

end Sys2Proof.Machine
end

