-- ==== Sys2Proof/Machine/Dispatch.lean ====
section
/-! DEFINITION. The dispatch of a command to its meaning: one arm for each constructor of `Instr`. -/

namespace Sys2Proof.Machine

/-- What a command does to the state (the queue is left as it is). -/
def exec (i : Instr) (s : State) : Host.Outcome State Fault Refusal :=
  match i with
  | .identify c => Sys2Proof.Machine.execIdentify c s
  | .mbxNext c => Sys2Proof.Machine.execMbxNext c s
  | .deviceIdSet c => Sys2Proof.Machine.execDeviceIdSet c s
  | .ownClaim c => Sys2Proof.Machine.execOwnClaim c s
  | .ownRenew c => Sys2Proof.Machine.execOwnRenew c s
  | .ownRelease c => Sys2Proof.Machine.execOwnRelease c s
  | .ownHandover c => Sys2Proof.Machine.execOwnHandover c s
  | .ownAccept c => Sys2Proof.Machine.execOwnAccept c s
  | .ownStatus c => Sys2Proof.Machine.execOwnStatus c s
  | .ownFabricBind c => Sys2Proof.Machine.execOwnFabricBind c s
  | .stageOpen c => Sys2Proof.Machine.execStageOpen c s
  | .stageCheck c => Sys2Proof.Machine.execStageCheck c s
  | .stageCommit c => Sys2Proof.Machine.execStageCommit c s
  | .stageAbort c => Sys2Proof.Machine.execStageAbort c s
  | .stageStatus c => Sys2Proof.Machine.execStageStatus c s
  | .paddockCreate c => Sys2Proof.Machine.execPaddockCreate c s
  | .paddockDestroy c => Sys2Proof.Machine.execPaddockDestroy c s
  | .paddockModify c => Sys2Proof.Machine.execPaddockModify c s
  | .paddockWindowSet c => Sys2Proof.Machine.execPaddockWindowSet c s
  | .paddockPreempt c => Sys2Proof.Machine.execPaddockPreempt c s
  | .paddockResume c => Sys2Proof.Machine.execPaddockResume c s
  | .paddockStatus c => Sys2Proof.Machine.execPaddockStatus c s
  | .imageRegister c => Sys2Proof.Machine.execImageRegister c s
  | .imageInfo c => Sys2Proof.Machine.execImageInfo c s
  | .imageRetire c => Sys2Proof.Machine.execImageRetire c s
  | .foldJoin c => Sys2Proof.Machine.execFoldJoin c s
  | .foldLeave c => Sys2Proof.Machine.execFoldLeave c s
  | .foldMapSet c => Sys2Proof.Machine.execFoldMapSet c s
  | .foldStatus c => Sys2Proof.Machine.execFoldStatus c s
  | .foldMeter c => Sys2Proof.Machine.execFoldMeter c s
  | .queueCreate c => Sys2Proof.Machine.execQueueCreate c s
  | .queueDestroy c => Sys2Proof.Machine.execQueueDestroy c s
  | .queueStatus c => Sys2Proof.Machine.execQueueStatus c s
  | .connOpen c => Sys2Proof.Machine.execConnOpen c s
  | .connClose c => Sys2Proof.Machine.execConnClose c s
  | .connStatus c => Sys2Proof.Machine.execConnStatus c s
  | .exposeCreate c => Sys2Proof.Machine.execExposeCreate c s
  | .exposeRevoke c => Sys2Proof.Machine.execExposeRevoke c s
  | .exposeStatus c => Sys2Proof.Machine.execExposeStatus c s
  | .portConfig c => Sys2Proof.Machine.execPortConfig c s
  | .portStatus c => Sys2Proof.Machine.execPortStatus c s
  | .trafficClassSet c => Sys2Proof.Machine.execTrafficClassSet c s
  | .trafficPolicerSet c => Sys2Proof.Machine.execTrafficPolicerSet c s
  | .trafficShaperSet c => Sys2Proof.Machine.execTrafficShaperSet c s
  | .trafficGateList c => Sys2Proof.Machine.execTrafficGateList c s
  | .trafficOverheadSet c => Sys2Proof.Machine.execTrafficOverheadSet c s
  | .trafficStatus c => Sys2Proof.Machine.execTrafficStatus c s
  | .droveConfig c => Sys2Proof.Machine.execDroveConfig c s
  | .droveStatus c => Sys2Proof.Machine.execDroveStatus c s
  | .prefixConfig c => Sys2Proof.Machine.execPrefixConfig c s
  | .prefixStatus c => Sys2Proof.Machine.execPrefixStatus c s
  | .baleCodebookLoad c => Sys2Proof.Machine.execBaleCodebookLoad c s
  | .baleCodebookBuild c => Sys2Proof.Machine.execBaleCodebookBuild c s
  | .baleCodebookStatus c => Sys2Proof.Machine.execBaleCodebookStatus c s
  | .baleTensorSet c => Sys2Proof.Machine.execBaleTensorSet c s
  | .serveConfig c => Sys2Proof.Machine.execServeConfig c s
  | .serveMaskLoad c => Sys2Proof.Machine.execServeMaskLoad c s
  | .serveMaskRetire c => Sys2Proof.Machine.execServeMaskRetire c s
  | .serveStatus c => Sys2Proof.Machine.execServeStatus c s
  | .bellRead c => Sys2Proof.Machine.execBellRead c s
  | .hurdleRead c => Sys2Proof.Machine.execHurdleRead c s
  | .faultRingSet c => Sys2Proof.Machine.execFaultRingSet c s
  | .faultRead c => Sys2Proof.Machine.execFaultRead c s
  | .faultClear c => Sys2Proof.Machine.execFaultClear c s
  | .faultInject c => Sys2Proof.Machine.execFaultInject c s
  | .attestReport c => Sys2Proof.Machine.execAttestReport c s
  | .attestCerts c => Sys2Proof.Machine.execAttestCerts c s
  | .worldSet c => Sys2Proof.Machine.execWorldSet c s
  | .worldStatus c => Sys2Proof.Machine.execWorldStatus c s
  | .powerStateSet c => Sys2Proof.Machine.execPowerStateSet c s
  | .powerLimitSet c => Sys2Proof.Machine.execPowerLimitSet c s
  | .powerStatus c => Sys2Proof.Machine.execPowerStatus c s
  | .clockRegionSet c => Sys2Proof.Machine.execClockRegionSet c s
  | .clockStatus c => Sys2Proof.Machine.execClockStatus c s
  | .clockTallyConfig c => Sys2Proof.Machine.execClockTallyConfig c s
  | .clockTallyStatus c => Sys2Proof.Machine.execClockTallyStatus c s
  | .fwInfo c => Sys2Proof.Machine.execFwInfo c s
  | .fwWrite c => Sys2Proof.Machine.execFwWrite c s
  | .fwActivate c => Sys2Proof.Machine.execFwActivate c s
  | .traceConfig c => Sys2Proof.Machine.execTraceConfig c s
  | .traceRead c => Sys2Proof.Machine.execTraceRead c s
  | .nopDescriptor d => Sys2Proof.Machine.execNopDescriptor d s
  | .writeDescriptor d => Sys2Proof.Machine.execWriteDescriptor d s
  | .readDescriptor d => Sys2Proof.Machine.execReadDescriptor d s
  | .atomicDescriptor d => Sys2Proof.Machine.execAtomicDescriptor d s
  | .sendDescriptor d => Sys2Proof.Machine.execSendDescriptor d s
  | .recv d => Sys2Proof.Machine.execRecv d s
  | .wait d => Sys2Proof.Machine.execWait d s
  | .imageLoad d => Sys2Proof.Machine.execImageLoad d s
  | .droveCreate d => Sys2Proof.Machine.execDroveCreate d s
  | .droveOffer d => Sys2Proof.Machine.execDroveOffer d s
  | .drovePull d => Sys2Proof.Machine.execDrovePull d s
  | .droveRelease d => Sys2Proof.Machine.execDroveRelease d s
  | .prefixLookup d => Sys2Proof.Machine.execPrefixLookup d s
  | .prefixInsert d => Sys2Proof.Machine.execPrefixInsert d s
  | .prefixUnpin d => Sys2Proof.Machine.execPrefixUnpin d s
  | .prefixEvict d => Sys2Proof.Machine.execPrefixEvict d s
  | .tierMove d => Sys2Proof.Machine.execTierMove d s
  | .pageSelect d => Sys2Proof.Machine.execPageSelect d s
  | .step d => Sys2Proof.Machine.execStep d s
  | .stepStart paddock => Sys2Proof.Machine.execStepStart paddock s
  | .stepMask paddock => Sys2Proof.Machine.execStepMask paddock s
  | .stepSample paddock => Sys2Proof.Machine.execStepSample paddock s
  | .stepDeadline paddock => Sys2Proof.Machine.execStepDeadline paddock s
  | .nop t w => Sys2Proof.Machine.execNop t w s
  | .halt t w => Sys2Proof.Machine.execHalt t w s
  | .jump t w => Sys2Proof.Machine.execJump t w s
  | .beq t w => Sys2Proof.Machine.execBeq t w s
  | .bne t w => Sys2Proof.Machine.execBne t w s
  | .blt t w => Sys2Proof.Machine.execBlt t w s
  | .bge t w => Sys2Proof.Machine.execBge t w s
  | .bltu t w => Sys2Proof.Machine.execBltu t w s
  | .bgeu t w => Sys2Proof.Machine.execBgeu t w s
  | .call t w => Sys2Proof.Machine.execCall t w s
  | .jumpr t w => Sys2Proof.Machine.execJumpr t w s
  | .yield t w => Sys2Proof.Machine.execYield t w s
  | .slotwait t w => Sys2Proof.Machine.execSlotwait t w s
  | .slotCounterMatch t => Sys2Proof.Machine.execSlotCounterMatch t s
  | .tstart t w => Sys2Proof.Machine.execTstart t w s
  | .add t w => Sys2Proof.Machine.execAdd t w s
  | .sub t w => Sys2Proof.Machine.execSub t w s
  | .and t w => Sys2Proof.Machine.execAnd t w s
  | .or t w => Sys2Proof.Machine.execOr t w s
  | .xor t w => Sys2Proof.Machine.execXor t w s
  | .sll t w => Sys2Proof.Machine.execSll t w s
  | .srl t w => Sys2Proof.Machine.execSrl t w s
  | .sra t w => Sys2Proof.Machine.execSra t w s
  | .mul t w => Sys2Proof.Machine.execMul t w s
  | .mulhu t w => Sys2Proof.Machine.execMulhu t w s
  | .min t w => Sys2Proof.Machine.execMin t w s
  | .max t w => Sys2Proof.Machine.execMax t w s
  | .slt t w => Sys2Proof.Machine.execSlt t w s
  | .sltu t w => Sys2Proof.Machine.execSltu t w s
  | .addi t w => Sys2Proof.Machine.execAddi t w s
  | .andi t w => Sys2Proof.Machine.execAndi t w s
  | .ori t w => Sys2Proof.Machine.execOri t w s
  | .xori t w => Sys2Proof.Machine.execXori t w s
  | .slli t w => Sys2Proof.Machine.execSlli t w s
  | .srli t w => Sys2Proof.Machine.execSrli t w s
  | .srai t w => Sys2Proof.Machine.execSrai t w s
  | .lih t w => Sys2Proof.Machine.execLih t w s
  | .ld t w => Sys2Proof.Machine.execLd t w s
  | .st t w => Sys2Proof.Machine.execSt t w s
  | .mloadw t w => Sys2Proof.Machine.execMloadw t w s
  | .mmac t w => Sys2Proof.Machine.execMmac t w s
  | .mdrain t w => Sys2Proof.Machine.execMdrain t w s
  | .mzero t w => Sys2Proof.Machine.execMzero t w s
  | .vld t w => Sys2Proof.Machine.execVld t w s
  | .vst t w => Sys2Proof.Machine.execVst t w s
  | .vadd t w => Sys2Proof.Machine.execVadd t w s
  | .vsub t w => Sys2Proof.Machine.execVsub t w s
  | .vmul t w => Sys2Proof.Machine.execVmul t w s
  | .vfma t w => Sys2Proof.Machine.execVfma t w s
  | .vmax t w => Sys2Proof.Machine.execVmax t w s
  | .vmin t w => Sys2Proof.Machine.execVmin t w s
  | .vexp2 t w => Sys2Proof.Machine.execVexp2 t w s
  | .vrcp t w => Sys2Proof.Machine.execVrcp t w s
  | .vrsqrt t w => Sys2Proof.Machine.execVrsqrt t w s
  | .vlog2 t w => Sys2Proof.Machine.execVlog2 t w s
  | .vbcast t w => Sys2Proof.Machine.execVbcast t w s
  | .vredmax t w => Sys2Proof.Machine.execVredmax t w s
  | .vredsum t w => Sys2Proof.Machine.execVredsum t w s
  | .vmovs t w => Sys2Proof.Machine.execVmovs t w s
  | .vcvt t w => Sys2Proof.Machine.execVcvt t w s
  | .vqmx t w => Sys2Proof.Machine.execVqmx t w s
  | .vunpk t w => Sys2Proof.Machine.execVunpk t w s
  | .bsetx t w => Sys2Proof.Machine.execBsetx t w s
  | .bload t w => Sys2Proof.Machine.execBload t w s
  | .bstore t w => Sys2Proof.Machine.execBstore t w s
  | .bexpand t w => Sys2Proof.Machine.execBexpand t w s
  | .bcopy t w => Sys2Proof.Machine.execBcopy t w s
  | .baleTransferDone block index => Sys2Proof.Machine.execBaleTransferDone block index s
  | .amax t w => Sys2Proof.Machine.execAmax t w s
  | .aexp t w => Sys2Proof.Machine.execAexp t w s
  | .aresc t w => Sys2Proof.Machine.execAresc t w s
  | .amerge t w => Sys2Proof.Machine.execAmerge t w s
  | .abias t w => Sys2Proof.Machine.execAbias t w s
  | .rload t w => Sys2Proof.Machine.execRload t w s
  | .rstore t w => Sys2Proof.Machine.execRstore t w s
  | .rflag t w => Sys2Proof.Machine.execRflag t w s
  | .ratom t w => Sys2Proof.Machine.execRatom t w s
  | .rput t w => Sys2Proof.Machine.execRput t w s
  | .rget t w => Sys2Proof.Machine.execRget t w s
  | .remoteLoadBound => Sys2Proof.Machine.execRemoteLoadBound s
  | .bring t w => Sys2Proof.Machine.execBring t w s
  | .bwait t w => Sys2Proof.Machine.execBwait t w s
  | .bellWaitTimeout t => Sys2Proof.Machine.execBellWaitTimeout t s
  | .btry t w => Sys2Proof.Machine.execBtry t w s
  | .bread t w => Sys2Proof.Machine.execBread t w s
  | .harrive t w => Sys2Proof.Machine.execHarrive t w s
  | .hwait t w => Sys2Proof.Machine.execHwait t w s
  | .hpass t w => Sys2Proof.Machine.execHpass t w s
  | .hurdleArrival => Sys2Proof.Machine.execHurdleArrival s
  | .wwait t w => Sys2Proof.Machine.execWwait t w s
  | .wleft t w => Sys2Proof.Machine.execWleft t w s
  | .rdstat t w => Sys2Proof.Machine.execRdstat t w s
  | .clrstat t w => Sys2Proof.Machine.execClrstat t w s
  | .vseed t w => Sys2Proof.Machine.execVseed t w s
  | .rdtally t w => Sys2Proof.Machine.execRdtally t w s
  | .rdid t w => Sys2Proof.Machine.execRdid t w s
  | .rdslot t w => Sys2Proof.Machine.execRdslot t w s
  | .blockFrameStart block => Sys2Proof.Machine.execBlockFrameStart block s
  | .edgeWindowOpen paddock window => Sys2Proof.Machine.execEdgeWindowOpen paddock window s
  | .write link f => Sys2Proof.Machine.execWrite link f s
  | .writeFlag link f => Sys2Proof.Machine.execWriteFlag link f s
  | .readReq link f => Sys2Proof.Machine.execReadReq link f s
  | .readResp link f => Sys2Proof.Machine.execReadResp link f s
  | .atomic link f => Sys2Proof.Machine.execAtomic link f s
  | .atomicResp link f => Sys2Proof.Machine.execAtomicResp link f s
  | .send link f => Sys2Proof.Machine.execSend link f s
  | .ack link f => Sys2Proof.Machine.execAck link f s
  | .nak link f => Sys2Proof.Machine.execNak link f s
  | .syncReq link f => Sys2Proof.Machine.execSyncReq link f s
  | .syncResp link f => Sys2Proof.Machine.execSyncResp link f s
  | .mgmtCmd link f => Sys2Proof.Machine.execMgmtCmd link f s
  | .peerNote link f => Sys2Proof.Machine.execPeerNote link f s
  | .pullPages link f => Sys2Proof.Machine.execPullPages link f s
  | .pagesHeld link f => Sys2Proof.Machine.execPagesHeld link f s
  | .pullRecord link f => Sys2Proof.Machine.execPullRecord link f s
  | .record link f => Sys2Proof.Machine.execRecord link f s
  | .confirm link f => Sys2Proof.Machine.execConfirm link f s
  | .released link f => Sys2Proof.Machine.execReleased link f s
  | .abort link f => Sys2Proof.Machine.execAbort link f s
  | .refuse link f => Sys2Proof.Machine.execRefuse link f s
  | .retag link f => Sys2Proof.Machine.execRetag link f s
  | .retagDone link f => Sys2Proof.Machine.execRetagDone link f s
  | .releasePages link f => Sys2Proof.Machine.execReleasePages link f s
  | .releaseDone link f => Sys2Proof.Machine.execReleaseDone link f s
  | .drovePullDeadline record => Sys2Proof.Machine.execDrovePullDeadline record s
  | .contextFetchDone => Sys2Proof.Machine.execContextFetchDone s
  | .retransmissionTimer conn => Sys2Proof.Machine.execRetransmissionTimer conn s
  | .ackTimer conn => Sys2Proof.Machine.execAckTimer conn s
  | .nakResend conn => Sys2Proof.Machine.execNakResend conn s
  | .connGiveUp conn => Sys2Proof.Machine.execConnGiveUp conn s
  | .revocationGraceEnd index => Sys2Proof.Machine.execRevocationGraceEnd index s
  | .foldDrainEnd fold => Sys2Proof.Machine.execFoldDrainEnd fold s
  | .linkSelect link => Sys2Proof.Machine.execLinkSelect link s
  | .gateEntryChange port => Sys2Proof.Machine.execGateEntryChange port s
  | .mbxDoorbell page value => Sys2Proof.Machine.execMbxDoorbell page value s
  | .mbxDone page value => Sys2Proof.Machine.execMbxDone page value s
  | .mbxIrq page value => Sys2Proof.Machine.execMbxIrq page value s
  | .bellRing core value => Sys2Proof.Machine.execBellRing core value s
  | .ringDoorbell core ring value => Sys2Proof.Machine.execRingDoorbell core ring value s
  | .stgRegisterWrite page offset value => Sys2Proof.Machine.execStgRegisterWrite page offset value s
  | .registerWrite page offset bytes => Sys2Proof.Machine.execRegisterWrite page offset bytes s
  | .hostAccess core access => Sys2Proof.Machine.execHostAccess core access s
  | .stageApply => Sys2Proof.Machine.execStageApply s
  | .leaseExpiry => Sys2Proof.Machine.execLeaseExpiry s
  | .claimWindowEnd => Sys2Proof.Machine.execClaimWindowEnd s
  | .handoverOfferLapse => Sys2Proof.Machine.execHandoverOfferLapse s
  | .syncBurst => Sys2Proof.Machine.execSyncBurst s
  | .holdoverLimit => Sys2Proof.Machine.execHoldoverLimit s
  | .laneClockLoss => Sys2Proof.Machine.execLaneClockLoss s
  | .tallyPpsIn => Sys2Proof.Machine.execTallyPpsIn s
  | .ppsEdgeMissed => Sys2Proof.Machine.execPpsEdgeMissed s
  | .tallyPpsOut => Sys2Proof.Machine.execTallyPpsOut s
  | .paddockWork paddock => Sys2Proof.Machine.execPaddockWork paddock s
  | .sliceExpiry paddock => Sys2Proof.Machine.execSliceExpiry paddock s
  | .preemptionEscalation paddock => Sys2Proof.Machine.execPreemptionEscalation paddock s
  | .preemptStopped paddock => Sys2Proof.Machine.execPreemptStopped paddock s
  | .saveDone paddock => Sys2Proof.Machine.execSaveDone paddock s
  | .restoreDone paddock => Sys2Proof.Machine.execRestoreDone paddock s
  | .paddockRunning paddock => Sys2Proof.Machine.execPaddockRunning paddock s
  | .imageLoadSwitch paddock => Sys2Proof.Machine.execImageLoadSwitch paddock s
  | .codebookBuildDone paddock slot => Sys2Proof.Machine.execCodebookBuildDone paddock slot s
  | .detectedErrorRetry error retryPasses => Sys2Proof.Machine.execDetectedErrorRetry error retryPasses s
  | .stileFlitReplay stile replayPasses => Sys2Proof.Machine.execStileFlitReplay stile replayPasses s
  | .lockstepMismatch pair => Sys2Proof.Machine.execLockstepMismatch pair s
  | .peerNoteCopy => Sys2Proof.Machine.execPeerNoteCopy s
  | .powerMeasurement reading => Sys2Proof.Machine.execPowerMeasurement reading s
  | .aoclkTrim errorPpm => Sys2Proof.Machine.execAoclkTrim errorPpm s
  | .blockSleep block => Sys2Proof.Machine.execBlockSleep block s
  | .blockWake block => Sys2Proof.Machine.execBlockWake block s
  | .standbyWake => Sys2Proof.Machine.execStandbyWake s
  | .pwrGoodRise => Sys2Proof.Machine.execPwrGoodRise s
  | .coldBoot inputs => Sys2Proof.Machine.execColdBoot inputs s
  | .pwrGoodFall => Sys2Proof.Machine.execPwrGoodFall s
  | .resetNLow => Sys2Proof.Machine.execResetNLow s
  | .resetNHigh => Sys2Proof.Machine.execResetNHigh s
  | .warmReset inputs => Sys2Proof.Machine.execWarmReset inputs s
  | .restartReset => Sys2Proof.Machine.execRestartReset s
  | .ref25Loss => Sys2Proof.Machine.execRef25Loss s
  | .ref25Stable => Sys2Proof.Machine.execRef25Stable s
  | .netrefLoss die => Sys2Proof.Machine.execNetrefLoss die s
  | .netrefStable die => Sys2Proof.Machine.execNetrefStable die s
  | .linkUp link => Sys2Proof.Machine.execLinkUp link s
  | .linkDown link => Sys2Proof.Machine.execLinkDown link s
  | .pacingRelease conn => Sys2Proof.Machine.execPacingRelease conn s
  | .tallyPpsOutFall => Sys2Proof.Machine.execTallyPpsOutFall s
  | .cclkSlewDone region => Sys2Proof.Machine.execCclkSlewDone region s
  | .pageSelectDone region => Sys2Proof.Machine.execPageSelectDone region s
  | .standbyLeft inputs => Sys2Proof.Machine.execStandbyLeft inputs s

end Sys2Proof.Machine
end

