-- ==== Sys2Proof/Safety.lean ====
section
/-! DEFINITION. What counts as a safe run, and the words that claims use: a command at the front of the queue, an
instruction that issues, a mailbox command that runs, and the invariants of the block. -/

namespace Sys2Proof

/-- The outcome is a next state. -/
def Safe (o : Host.Outcome Machine.State Machine.Fault Machine.Refusal) : Prop :=
  match o with
  | .next _ => True
  | .fault _ => False
  | .refused _ => False

namespace Machine

/-! ### Sequencer instructions (R131, R136, R155) -/

/-- The issue of an instruction by a thread for a paddock in a CCLK of the present frame. -/
def issueOf (t : ThreadId) (p c op : Nat) (w : IWord) : Issue :=
  { block := t.block.val, thread := t.thread.val, paddock := p, op := op, w := w, cclk := c }

/-- The thread that a row names. -/
def State.threadOf (s : State) (t : ThreadId) : Thread := s.dev.thread t.block.val t.thread.val

/-- A scalar register of the thread that a row names. -/
def State.reg (s : State) (t : ThreadId) (r : BitVec 5) : Word := (s.threadOf t).getS r.toNat

/-- The lanes of a vector register of the thread that a row names. -/
def State.vreg (s : State) (t : ThreadId) (r : BitVec 5) : List Word32 := (s.threadOf t).lanes r.toNat

/-- The device at the next CCLK in which a block has issued nothing (R129, R132). -/
def State.atCclk (s : State) (p b : Nat) : Device := s.dev.toNextCclk p b

/-- From state `s0` a thread's turn comes in CCLK `c` of the present frame for the paddock `p`, and nothing that falls due
before it changes which instruction is next: its block runs the paddock, the thread may issue, and the choice of R132 falls
on it. `s` is the state in which it has its turn: the Tally stands at that CCLK, and only the block's record of who issued
last has moved with it. -/
structure HasTurn (s0 : State) (t : ThreadId) (op : Nat) (w : IWord) (p c : Nat) (s : State) : Prop where
  /-- The block issues for the paddock, when the row comes and at the CCLK. -/
  paddock : s0.dev.issuesFor t.block.val = some p ∧ (s0.atCclk p t.block.val).issuesFor t.block.val = some p
  /-- The thread is READY, HELD, or WAITING after YIELD. -/
  may : (s0.threadOf t).mayIssue = true
  /-- The word at its PC is this instruction, when the row comes and at the CCLK. -/
  word : s0.dev.nextWord t.block.val t.thread.val = (op, w) ∧
    (s0.atCclk p t.block.val).nextWord t.block.val t.thread.val = (op, w)
  /-- The CCLK of its turn. -/
  turn : (s0.atCclk p t.block.val).turn p t.block.val t.thread.val = some c
  /-- The state in which it has its turn. -/
  state : s = s0.on fun _ => (s0.atCclk p t.block.val).takeTurn p t.block.val t.thread.val c op w

/-- The instruction of a row issues from state `s0` in its turn (state `s`): its PC is in the instruction store and the word
is legal. -/
structure Issues (s0 : State) (t : ThreadId) (op : Nat) (w : IWord) (p c : Nat) (s : State) : Prop where
  /-- It has its turn. -/
  has : HasTurn s0 t op w p c s
  /-- The PC is in the instruction store. -/
  pc : (s.threadOf t).pc < 8192
  /-- The word is legal. -/
  legal : wordLegal op w = true

/-- The instruction of a row issues at a PC with a next one in the instruction store. -/
structure Proceeds (s0 : State) (t : ThreadId) (op : Nat) (w : IWord) (p c : Nat) (s : State) : Prop where
  /-- It issues. -/
  issues : Issues s0 t op w p c s
  /-- The next PC is in the instruction store. -/
  next : (s.threadOf t).pc < 8191

/-- The thread of a row stands READY at its next PC with its registers changed; nothing else changes. -/
def State.completes (s : State) (t : ThreadId) (f : Thread → Thread) : State :=
  s.on (·.updThread t.block.val t.thread.val fun x => { f x with pc := x.pc + 1, state := .ready, waits := .nothing })

/-- The thread stands READY at its next PC with a value in a scalar register. -/
def State.writes (s : State) (t : ThreadId) (r : BitVec 5) (v : Word) : State := s.completes t (·.setS r.toNat v)

/-- The thread stands READY at its next PC with values in a vector register, and flags raised. -/
def State.writesV (s : State) (t : ThreadId) (r : BitVec 5) (vs : List Word32) (flags : BitVec 5) : State :=
  s.completes t fun x => (x.setV r.toNat vs).flag flags

/-- The thread stands READY at a target with its registers changed. -/
def State.jumps (s : State) (t : ThreadId) (target : Nat) (f : Thread → Thread) : State :=
  s.on (·.updThread t.block.val t.thread.val fun x => { f x with pc := target, state := .ready, waits := .nothing })

/-- The thread waits at its instruction. -/
def State.waits (s : State) (t : ThreadId) (f : WaitFor) : State :=
  s.on (·.updThread t.block.val t.thread.val fun x => { x with state := .waiting, waits := f })

/-- Bytes of a block's buffer can be read at once: no error meets the read, and no transfer under way writes them. -/
structure Readable (s : State) (t : ThreadId) (p off n : Nat) : Prop where
  /-- No poisoned word and no injected error. -/
  clean : s.dev.checkedRead (bufferAddr t.block.val off) n (s.dev.src (srcThread t.block.val t.thread.val)) p = (s.dev, none)
  /-- No transfer under way writes them. -/
  quiet : ((s.dev.arriving t.block.val).filter fun r => decide (r.1 < off + n ∧ off < r.1 + r.2)) = []

/-- Bytes of a block's buffer. -/
def State.buffer (s : State) (t : ThreadId) (off n : Nat) : List Byte := s.dev.load (bufferAddr t.block.val off) n

/-- The binding under which a matrix instruction reads its operand: that of the thread's bale context where bit 30 asks for
it (R142). -/
def State.operandBinding (s : State) (t : ThreadId) (p op : Nat) (w : IWord) : Option Binding :=
  if classBit w 30 then s.dev.contextBinding (issueOf t p 0 op w) else none

/-- The operand stream of a matrix instruction: the bytes of the buffer, or the expansion of the bales there; with it the
device after its reads and the report of a failure. -/
def State.operandStream (s : State) (t : ThreadId) (p c op : Nat) (w : IWord) (off n : Nat) :
    Device × Option Report × List Byte :=
  match s.operandBinding t p op w with
  | none => (s.dev, none, s.buffer t off n)
  | some b => s.dev.expandRun (issueOf t p c op w) b off (ceilDiv n rawBlock) []

/-- No poisoned word meets a range of memory. -/
def Unpoisoned (d : Device) (a n : Nat) : Prop := ∀ q ∈ d.faults.poisoned, q + 8 ≤ a ∨ a + n ≤ q

/-- Of the memory of a state only the stored bytes have changed in the next; they read as stored where no poisoned word is
touched. -/
structure StoresOnly (s u : State) (a : Nat) (bs : List Byte) : Prop where
  /-- The stored bytes. -/
  stored : Unpoisoned s.dev a bs.length → u.dev.load a bs.length = bs
  /-- Every byte outside them. -/
  rest : ∀ x, x < a ∨ a + bs.length ≤ x → u.dev.load x 1 = s.dev.load x 1

/-- The next state's memory reads as the state's does, at every address. -/
def SameMemory (s u : State) : Prop := ∀ x, u.dev.load x 1 = s.dev.load x 1

/-- Every sequencer row with its opcode byte. -/
def sequencerRows (t : ThreadId) (w : IWord) : List (Instr × Nat) :=
  [(.nop t w, 0x00), (.halt t w, 0x01), (.jump t w, 0x02), (.beq t w, 0x03), (.bne t w, 0x04), (.blt t w, 0x05),
   (.bge t w, 0x06), (.bltu t w, 0x07), (.bgeu t w, 0x08), (.call t w, 0x09), (.jumpr t w, 0x0A), (.yield t w, 0x0B),
   (.slotwait t w, 0x0C), (.tstart t w, 0x0D), (.add t w, 0x10), (.sub t w, 0x11), (.and t w, 0x12), (.or t w, 0x13),
   (.xor t w, 0x14), (.sll t w, 0x15), (.srl t w, 0x16), (.sra t w, 0x17), (.mul t w, 0x18), (.mulhu t w, 0x19),
   (.min t w, 0x1A), (.max t w, 0x1B), (.slt t w, 0x1C), (.sltu t w, 0x1D), (.addi t w, 0x20), (.andi t w, 0x21),
   (.ori t w, 0x22), (.xori t w, 0x23), (.slli t w, 0x24), (.srli t w, 0x25), (.srai t w, 0x26), (.lih t w, 0x27),
   (.ld t w, 0x28), (.st t w, 0x29), (.mloadw t w, 0x30), (.mmac t w, 0x31), (.mdrain t w, 0x32), (.mzero t w, 0x33),
   (.vld t w, 0x40), (.vst t w, 0x41), (.vadd t w, 0x42), (.vsub t w, 0x43), (.vmul t w, 0x44), (.vfma t w, 0x45),
   (.vmax t w, 0x46), (.vmin t w, 0x47), (.vexp2 t w, 0x48), (.vrcp t w, 0x49), (.vrsqrt t w, 0x4A),
   (.vlog2 t w, 0x4B), (.vbcast t w, 0x4C), (.vredmax t w, 0x4D), (.vredsum t w, 0x4E), (.vmovs t w, 0x4F),
   (.vcvt t w, 0x50), (.vqmx t w, 0x51), (.vunpk t w, 0x52), (.bsetx t w, 0x60), (.bload t w, 0x61),
   (.bstore t w, 0x62), (.bexpand t w, 0x63), (.bcopy t w, 0x64), (.amax t w, 0x70), (.aexp t w, 0x71),
   (.aresc t w, 0x72), (.amerge t w, 0x73), (.abias t w, 0x74), (.rload t w, 0x80), (.rstore t w, 0x81),
   (.rflag t w, 0x82), (.ratom t w, 0x83), (.rput t w, 0x84), (.rget t w, 0x85), (.bring t w, 0x90),
   (.bwait t w, 0x91), (.btry t w, 0x92), (.bread t w, 0x93), (.harrive t w, 0xA0), (.hwait t w, 0xA1),
   (.hpass t w, 0xA2), (.wwait t w, 0xB0), (.wleft t w, 0xB1), (.rdstat t w, 0xC0), (.clrstat t w, 0xC1),
   (.vseed t w, 0xC2), (.rdtally t w, 0xC3), (.rdid t w, 0xC4), (.rdslot t w, 0xC5)]

/-- The rows of the sequencer that no transfer, bell or network follows: they change their own thread alone. -/
def registerRows (t : ThreadId) (w : IWord) : List (Instr × Nat) :=
  [(.nop t w, 0x00), (.add t w, 0x10), (.sub t w, 0x11), (.and t w, 0x12), (.or t w, 0x13), (.xor t w, 0x14),
   (.sll t w, 0x15), (.srl t w, 0x16), (.sra t w, 0x17), (.mul t w, 0x18), (.mulhu t w, 0x19), (.min t w, 0x1A),
   (.max t w, 0x1B), (.slt t w, 0x1C), (.sltu t w, 0x1D), (.addi t w, 0x20), (.andi t w, 0x21), (.ori t w, 0x22),
   (.xori t w, 0x23), (.slli t w, 0x24), (.srli t w, 0x25), (.srai t w, 0x26), (.lih t w, 0x27), (.vadd t w, 0x42),
   (.vsub t w, 0x43), (.vmul t w, 0x44), (.vfma t w, 0x45), (.vmax t w, 0x46), (.vmin t w, 0x47), (.vexp2 t w, 0x48),
   (.vrcp t w, 0x49), (.vrsqrt t w, 0x4A), (.vlog2 t w, 0x4B), (.vbcast t w, 0x4C), (.vredmax t w, 0x4D),
   (.vredsum t w, 0x4E), (.vmovs t w, 0x4F), (.bsetx t w, 0x60), (.amax t w, 0x70), (.aexp t w, 0x71),
   (.aresc t w, 0x72), (.amerge t w, 0x73), (.wleft t w, 0xB1), (.rdstat t w, 0xC0), (.clrstat t w, 0xC1),
   (.rdtally t w, 0xC3), (.rdid t w, 0xC4), (.rdslot t w, 0xC5)]

/-! ### Mailbox commands (R73 to R91) -/

/-- A command of a row as it executes: its header and its inline payload. -/
def callOf (c : Cmd) (opcode : Nat) : Call :=
  { path := c.path, header := cmdHeader c opcode, payload := padTo (c.payloadLength.toNat % 0x4000) c.payload }

/-- The device once the mailbox of a command's path has taken its bytes and is BUSY (R73, R75). -/
def Device.takes (d : Device) (c : Cmd) (opcode : Nat) : Device :=
  (d.updBox c.path fun b => { b with cmd := cmdHeader c opcode ++ c.payload }).acceptBox c.path opcode

/-- A command is accepted with an inline payload and passes steps 1 to 6 of R83: its path is served and its mailbox IDLE,
its `sequence` is new, and state, right, header, deadline and length fit. -/
structure Accepted (s : State) (opcode : Nat) (k : Kind) (c : Cmd) : Prop where
  /-- A FABRIC command has its bound connection. -/
  bound : pathMaster c.path = .fabric → s.dev.security.bound.isSome = true
  /-- The mailbox is IDLE. -/
  idle : (s.dev.paths.box c.path).status = .idle
  /-- The path is served. -/
  served : s.dev.serves c.path = true
  /-- No kept command has the sequence. -/
  fresh : ∀ x ∈ (s.dev.takes c opcode).paths.kept (pathMaster c.path), fieldU32 x.header 4 ≠ c.sequence.toNat
  /-- Its half holds its bytes: no answer that was due before has overwritten them (R78). -/
  held : ((s.dev.takes c opcode).paths.box c.path).cmd = cmdHeader c opcode ++ c.payload
  /-- The payload is inline. -/
  inlined : isIndirect (cmdHeader c opcode) = false
  /-- Step 1. -/
  state : (s.dev.takes c opcode).stateStep k opcode = none
  /-- Step 3. -/
  right : (s.dev.takes c opcode).rightStep k.right c.path (callOf c opcode).payload = none
  /-- Step 4. -/
  header : (s.dev.takes c opcode).headerStep k c.path (cmdHeader c opcode) = none
  /-- Step 5. -/
  deadline : (s.dev.takes c opcode).deadlineStep (cmdHeader c opcode) (s.dev.takes c opcode).now = none
  /-- Step 6 for the header. -/
  length : lengthStep k c.path (cmdHeader c opcode) = none

/-- An immediate command is accepted and passes every check of its own. -/
structure Runs (s : State) (opcode : Nat) (m : Immediate) (c : Cmd) : Prop where
  /-- It is accepted and passes steps 1 to 6. -/
  accepted : Accepted s opcode (.immediate m) c
  /-- Its own checks. -/
  checks : m.check (s.dev.takes c opcode) (callOf c opcode) = none

/-- The immediate commands that only report, with their descriptions and opcodes. -/
def reportingRows (c : Cmd) : List (Instr × Immediate × Nat) :=
  [(.identify c, immIdentify, 0x0000), (.mbxNext c, immMbxNext, 0x0001), (.ownStatus c, immOwnStatus, 0x0015),
   (.stageStatus c, immStageStatus, 0x0104), (.paddockStatus c, immPaddockStatus, 0x0206),
   (.imageInfo c, immImageInfo, 0x0301), (.foldStatus c, immFoldStatus, 0x0403), (.foldMeter c, immFoldMeter, 0x0404),
   (.queueStatus c, immQueueStatus, 0x0502), (.connStatus c, immConnStatus, 0x0512),
   (.exposeStatus c, immExposeStatus, 0x0522), (.portStatus c, immPortStatus, 0x0531),
   (.droveStatus c, immDroveStatus, 0x0701), (.prefixStatus c, immPrefixStatus, 0x0711),
   (.baleCodebookStatus c, immCodebookStatus, 0x0802), (.serveStatus c, immServeStatus, 0x0903),
   (.bellRead c, immBellRead, 0x0A00), (.hurdleRead c, immHurdleRead, 0x0A01), (.faultRead c, immFaultRead, 0x0B01),
   (.attestReport c, immAttestReport, 0x0C00), (.attestCerts c, immAttestCerts, 0x0C01),
   (.worldStatus c, immWorldStatus, 0x0C11), (.powerStatus c, immPowerStatus, 0x0D02),
   (.clockStatus c, immClockStatus, 0x0D11), (.clockTallyStatus c, immTallyStatus, 0x0D21),
   (.fwInfo c, immFwInfo, 0x0E00), (.traceRead c, immTraceRead, 0x0F01)]

/-- The staged commands, with their descriptions and opcodes. -/
def stagedRows (c : Cmd) : List (Instr × Staged × Nat) :=
  [(.deviceIdSet c, stagedDeviceIdSet, 0x0003), (.ownFabricBind c, stagedFabricBind, 0x0016),
   (.paddockCreate c, stagedPaddockCreate, 0x0200), (.paddockDestroy c, stagedPaddockDestroy, 0x0201),
   (.paddockModify c, stagedPaddockModify, 0x0202), (.paddockWindowSet c, stagedPaddockWindowSet, 0x0203),
   (.foldJoin c, stagedFoldJoin, 0x0400), (.foldLeave c, stagedFoldLeave, 0x0401),
   (.foldMapSet c, stagedFoldMapSet, 0x0402), (.queueCreate c, stagedQueueCreate, 0x0500),
   (.queueDestroy c, stagedQueueDestroy, 0x0501), (.connOpen c, stagedConnOpen, 0x0510),
   (.connClose c, stagedConnClose, 0x0511), (.exposeCreate c, stagedExposeCreate, 0x0520),
   (.exposeRevoke c, stagedExposeRevoke, 0x0521), (.portConfig c, stagedPortConfig, 0x0530),
   (.trafficClassSet c, stagedTrafficClassSet, 0x0600), (.trafficPolicerSet c, stagedTrafficPolicerSet, 0x0601),
   (.trafficShaperSet c, stagedTrafficShaperSet, 0x0602), (.trafficGateList c, stagedTrafficGateList, 0x0603),
   (.trafficOverheadSet c, stagedTrafficOverheadSet, 0x0604), (.droveConfig c, stagedDroveConfig, 0x0700),
   (.prefixConfig c, stagedPrefixConfig, 0x0710), (.baleTensorSet c, stagedTensorSet, 0x0803),
   (.serveConfig c, stagedServeConfig, 0x0900), (.faultRingSet c, stagedFaultRingSet, 0x0B00),
   (.worldSet c, stagedWorldSet, 0x0C10), (.powerLimitSet c, stagedPowerLimitSet, 0x0D01),
   (.clockRegionSet c, stagedClockRegionSet, 0x0D10), (.clockTallyConfig c, stagedTallyConfig, 0x0D20),
   (.traceConfig c, stagedTraceConfig, 0x0F00)]

/-! ### Ring descriptors (R328, R329) -/

/-- A descriptor as its ring takes it, by its bytes. -/
def jobOf (x : Desc) (k : DescKind) (r : Ring) : Job :=
  { ring := x.ring.val, index := r.taken, paddock := r.paddock, bytes := rowBytes k x }

/-- The device once a ring has taken its descriptor. -/
def State.taken (s : State) (x : Desc) (k : DescKind) (r : Ring) : Device := s.dev.takeHead x.ring.val r (rowBytes k x)

/-- The descriptor of a row stands at the head of its ring, the ring may take it, and it passes every check: its slot reads
without error, its buffer lies in mapped pages and its connection's context is in the cache. -/
structure Taken (s : State) (x : Desc) (k : DescKind) (r : Ring) : Prop where
  /-- The ring exists. -/
  ring : s.dev.ring x.ring.val = some r
  /-- The descriptor is at its head. -/
  head : s.dev.headOf r = some (rowBytes k x)
  /-- The ring may take it. -/
  may : s.dev.mayTake x.ring.val r (rowBytes k x) = true
  /-- Its buffer meets no unmapped page. -/
  mapped : ((k.buffer (rowBytes k x)).bind fun e => s.dev.unmapped e.1 e.2) = none
  /-- Its connection's context is cached. -/
  cached : ∀ c, (k.conn (rowBytes k x)).bind s.dev.conn = some c → c.cached = true
  /-- Its slot reads without error. -/
  slot : s.dev.checkedRead (r.base + 64 * (r.taken % max r.entries 1)) 64 (s.dev.src (srcRing x.ring.val)) r.paddock =
    (s.dev, none)
  /-- Its paddock does not end it. -/
  sound : (s.taken x k r).faultEnding k r.paddock = none
  /-- Its common header is right. -/
  header : headerEnding (rowBytes k x) = none
  /-- Its own checks. -/
  checks : k.check (s.taken x k r) (jobOf x k r) = none

/-- Heads of unknown types that a ring holds behind a descriptor it has taken leave it. -/
def State.goesOn (s : State) (x : Desc) (d : Device) : State := s.on fun _ => Device.dropUnknown 65536 x.ring.val d

/-! ### Frames (R309 to R332) -/

/-- A frame as it arrives. -/
def State.arrived (s : State) (link : Fin 64) (opcode : Nat) (f : Frame) : Arrived :=
  { link := link.val, opcode := opcode, frame := f, at' := s.dev.now }

/-- The device once a frame has been counted and traced. -/
def State.received (s : State) (link : Fin 64) (opcode : Nat) (f : Frame) : Device :=
  (s.dev.countLink link.val 3).traced 8 link.val f.psn.toNat (f.conn.toNat % 0x100000 + 0x1000000 * opcode) 0xFF
    (s.dev.src (srcLink link.val))

/-- A frame arrives on a link that is UP, its form is right, and it is addressed to this device. -/
structure Arrives (s : State) (link : Fin 64) (opcode : Nat) (f : Frame) : Prop where
  /-- The link is UP. -/
  up : (s.dev.link link.val).state = .up
  /-- Its form is right. -/
  fits : frameFits opcode f = true
  /-- It is addressed to this device. -/
  mine : (s.received link opcode f).addressed opcode f s.dev.now = true

/-- The device once a frame's connection has taken its header. -/
def State.headed (s : State) (link : Fin 64) (opcode : Nat) (f : Frame) : Device :=
  let ce := if f.ce then 1 else 0
  let id := f.conn.toNat
  ((((s.received link opcode f).countConn id 1).countConn id 6 ce).updConn id fun c =>
    { c with lastUse := s.dev.now, ceCount := c.ceCount + ce }).takeHeader id opcode f

/-- A frame arrives for a connection that is OPEN or CLOSING under its generation, whose context is cached; where only the
bound fabric manager may send it, it comes from there. -/
structure Comes (s : State) (link : Fin 64) (opcode : Nat) (f : Frame) (c : Conn) : Prop where
  /-- It arrives. -/
  arrives : Arrives s link opcode f
  /-- Its connection. -/
  conn : (s.received link opcode f).conn f.conn.toNat = some c
  /-- The context is cached. -/
  cached : c.cached = true
  /-- OPEN or CLOSING. -/
  live : c.state = .open ∨ c.state = .closing
  /-- Its generation. -/
  gen : c.gen = f.gen.toNat
  /-- A command or page access of the bound manager. -/
  manager : opcode = 0x21 ∨ c.pageAccess opcode = true → (s.received link opcode f).fromManager f = true

/-- A sequenced frame of a connection is new and within 256 of the stream's place, and meets no refusal; `c` is the
connection once it has taken the header. -/
structure Fresh (s : State) (link : Fin 64) (opcode : Nat) (f : Frame) (c : Conn) : Prop where
  /-- It comes on the connection. -/
  comes : ∃ c0, Comes s link opcode f c0
  /-- The connection. -/
  conn : (s.headed link opcode f).conn f.conn.toNat = some c
  /-- It is not a duplicate. -/
  new : c.rxNext ≤ wirePsn c.rxNext f.psn.toNat ∧ c.rxSeen.contains (wirePsn c.rxNext f.psn.toNat) = false
  /-- It is within 256. -/
  near : wirePsn c.rxNext f.psn.toNat < c.rxNext + 256
  /-- No refusal. -/
  sound : (s.headed link opcode f).refusal c (s.arrived link opcode f) = 0

/-- The device once a new PSN has been seen and the bell of its message kept. -/
def State.seen (s : State) (link : Fin 64) (opcode : Nat) (f : Frame) (c : Conn) : Device :=
  ((s.headed link opcode f).seePsn f.conn.toNat (wirePsn c.rxNext f.psn.toNat)).keepBell f.conn.toNat
    (wirePsn c.rxNext f.psn.toNat) (s.arrived link opcode f) false

/-- An accepted packet is noted for its ACK and the stream goes on as far as it can. -/
def State.streamed (s : State) (link : Fin 64) (opcode : Nat) (f : Frame) (c : Conn) (d : Device) : State :=
  s.on fun _ => (d.noteArrival f.conn.toNat (s.arrived link opcode f) (c.gapBelow (wirePsn c.rxNext f.psn.toNat))).streamPlaced
    f.conn.toNat

/-- An access to an exposure is counted and in use. -/
def Device.accessBegun (d : Device) (f : Frame) : Device :=
  d.updExposure (accessOf f.ext).index fun e => { e with inUse := e.inUse + 1, accesses := e.accesses + 1 }

/-- The frame rows, with their opcodes and the frame each stands for. -/
def frameRows (link : Fin 64) (f : Frame) : List (Instr × Nat × Frame) :=
  [(.write link f, 0x01, f), (.writeFlag link f, 0x02, f), (.readReq link f, 0x03, f), (.readResp link f, 0x04, f),
   (.atomic link f, 0x05, f), (.atomicResp link f, 0x06, f), (.send link f, 0x07, f), (.ack link f, 0x10, f),
   (.nak link f, 0x11, f), (.syncReq link f, 0x20, typed 1 f), (.syncResp link f, 0x20, typed 2 f),
   (.mgmtCmd link f, 0x21, f), (.peerNote link f, 0x24, f), (.pullPages link f, 0x23, typed 1 f),
   (.pagesHeld link f, 0x23, typed 2 f), (.pullRecord link f, 0x23, typed 3 f), (.record link f, 0x23, typed 4 f),
   (.confirm link f, 0x23, typed 5 f), (.released link f, 0x23, typed 6 f), (.abort link f, 0x23, typed 7 f),
   (.refuse link f, 0x23, typed 8 f), (.retag link f, 0x23, typed 9 f), (.retagDone link f, 0x23, typed 10 f),
   (.releasePages link f, 0x23, typed 11 f), (.releaseDone link f, 0x23, typed 12 f)]

/-! ### What is due at an instant (R63 to R71) -/

/-- The Tally counts, and no committed set is due before or at an instant. -/
structure Clear (d : Device) (t : Nat) : Prop where
  /-- The Tally counts. -/
  counts : d.counts = true
  /-- Every committed set applies later. -/
  quiet : ∀ e ∈ d.committed, t < e.2.instant

/-- The state in which an instant has come and something has happened there. -/
def State.due (s : State) (t : Nat) (f : Device → Device) : State := s.on fun d => f (d.passTo t)

/-- A deadline can be decided: the Tally counts, no committed set is due before or at it, and no arrival stamped at or before
it waits inside the device (R67, R68). -/
structure Decided (d : Device) (t : Nat) : Prop where
  /-- Nothing else is due. -/
  clear : Clear d t
  /-- No arrival stamped in time is still inside the device. -/
  seen : d.unseen t = false

/-- The state in which a deadline has been decided: it has had its effect at its instant, and the Tally stands past it, so
that nothing later is stamped in time (R65 to R68). -/
def State.decided (s : State) (t : Nat) (f : Device → Device) : State := s.on fun d => (f (d.passTo t)).advanceTo (t + 1)

/-! ### Invariants -/

/-- Memory is in its canonical form, and the fault ring holds no more than its 4,096 records (R428). -/
structure Sound (s : State) : Prop where
  /-- The canonical form. -/
  mem : Sparse.wf s.dev.mem = true
  /-- The ring's bound. -/
  ring : s.dev.faults.ring.length ≤ 4096

/-- What never goes back from one device to the next: the Tally (R44), the number of the next fault record (R428), the fused
step and the revoked keys (R452), and a committed device id, which is never taken away (R95). -/
structure Onward (a b : Device) : Prop where
  /-- The Tally. -/
  now : a.now ≤ b.now
  /-- The next record's number. -/
  next : a.faults.next ≤ b.faults.next
  /-- The fused step. -/
  fuse : a.security.fusedStep ≤ b.security.fusedStep
  /-- Revoked keys. -/
  revoked : ∀ i, a.security.revoked.getLsbD i = true → b.security.revoked.getLsbD i = true
  /-- The committed id. -/
  id : a.deviceId.isSome = true → b.deviceId.isSome = true

end Machine

end Sys2Proof
end

