-- ==== Sys2Proof/Certificates/Slice0/Obligations.lean ====
section
/-! DEFINITION. The statements for the provers. -/

open Sys2Proof Sys2Proof.Machine

/-- A step runs the command at the front of the queue. For every command c and state s whose queue begins with c, step
answers what exec answers for c on s with the queue's rest.
It rests on 04_control_plane.md. -/
def Obligations.StepRunsFront : Prop :=
  ∀ (c : Instr) (rest : List Instr) (s : State), s.pending = c :: rest →
    step s = exec c { s with pending := rest }

/-- A step on an empty queue lets one tick pass (the model's choice, log entry 1). With no command waiting, a Tally that
counts and no committed set whose instant is the next tick or before it, step answers the state in which the Tally
has moved to the next tick, and otherwise only its fraction, a free value, the phase still to slew and the meters of
the folds have moved with it. That an empty queue lets a tick pass is the model's choice (log entry 1).
It rests on 03_tally_and_ordering.md. -/
def Obligations.IdleStepTicks : Prop :=
  ∀ s : State, s.pending = [] → s.dev.counts = true →
    (∀ e ∈ s.dev.committed, s.dev.now + 1 < e.2.instant) →
      step s = .next (s.on fun d =>
        { d with tally := { d.tally with now := d.tally.now + 1, frac := Config.tallyFrac (d.tally.now + 1),
                                         toSlew := d.tally.slewLeft 1 },
                 service := { d.service with folds := Table.mapAll d.service.folds fun _ f => d.meterFold 1 f } })

/-- Results of the three-operand scalar instructions. ADD, SUB, AND, OR, XOR, SLL, SRL, SRA, MUL, MULHU, MIN, MAX, SLT
and SLTU, where they issue at a PC with a next one, answer the state of their turn (the Tally at the CCLK that the
choice of R132 gives their thread) in which s[a] of their thread holds the result (arithmetic modulo 2^64, shift
counts modulo 64, the low or high half of the unsigned product, signed minimum and maximum, 1 or 0 of a comparison),
the thread is READY at the next PC, and nothing else has changed. A write to s0 writes nothing.
It states R138. -/
def Obligations.ScalarResults : Prop :=
  ∀ (s0 s : State) (t : ThreadId) (w : IWord) (p c : Nat),
    (Proceeds s0 t 0x10 w p c s → exec (.add t w) s0 = .next (s.writes t w.a (BitVec.ofNat 64 ((s.reg t w.b).toNat + (s.reg t w.c).toNat)))) ∧
    (Proceeds s0 t 0x11 w p c s → exec (.sub t w) s0 = .next (s.writes t w.a (BitVec.ofInt 64 ((s.reg t w.b).toInt - (s.reg t w.c).toInt)))) ∧
    (Proceeds s0 t 0x12 w p c s → exec (.and t w) s0 = .next (s.writes t w.a ((s.reg t w.b) &&& (s.reg t w.c)))) ∧
    (Proceeds s0 t 0x13 w p c s → exec (.or t w) s0 = .next (s.writes t w.a ((s.reg t w.b) ||| (s.reg t w.c)))) ∧
    (Proceeds s0 t 0x14 w p c s → exec (.xor t w) s0 = .next (s.writes t w.a ((s.reg t w.b) ^^^ (s.reg t w.c)))) ∧
    (Proceeds s0 t 0x15 w p c s → exec (.sll t w) s0 = .next (s.writes t w.a (BitVec.ofNat 64 ((s.reg t w.b).toNat * 2 ^ ((s.reg t w.c).toNat % 64))))) ∧
    (Proceeds s0 t 0x16 w p c s → exec (.srl t w) s0 = .next (s.writes t w.a (BitVec.ofNat 64 ((s.reg t w.b).toNat / 2 ^ ((s.reg t w.c).toNat % 64))))) ∧
    (Proceeds s0 t 0x17 w p c s → exec (.sra t w) s0 = .next (s.writes t w.a (BitVec.ofInt 64 ((s.reg t w.b).toInt / 2 ^ ((s.reg t w.c).toNat % 64))))) ∧
    (Proceeds s0 t 0x18 w p c s → exec (.mul t w) s0 = .next (s.writes t w.a (BitVec.ofNat 64 ((s.reg t w.b).toNat * (s.reg t w.c).toNat)))) ∧
    (Proceeds s0 t 0x19 w p c s → exec (.mulhu t w) s0 = .next (s.writes t w.a (BitVec.ofNat 64 ((s.reg t w.b).toNat * (s.reg t w.c).toNat / 2 ^ 64)))) ∧
    (Proceeds s0 t 0x1A w p c s → exec (.min t w) s0 = .next (s.writes t w.a (if (s.reg t w.b).toInt ≤ (s.reg t w.c).toInt then (s.reg t w.b) else (s.reg t w.c)))) ∧
    (Proceeds s0 t 0x1B w p c s → exec (.max t w) s0 = .next (s.writes t w.a (if (s.reg t w.b).toInt ≤ (s.reg t w.c).toInt then (s.reg t w.c) else (s.reg t w.b)))) ∧
    (Proceeds s0 t 0x1C w p c s → exec (.slt t w) s0 = .next (s.writes t w.a (if (s.reg t w.b).toInt < (s.reg t w.c).toInt then 1 else 0))) ∧
    (Proceeds s0 t 0x1D w p c s → exec (.sltu t w) s0 = .next (s.writes t w.a (if (s.reg t w.b).toNat < (s.reg t w.c).toNat then 1 else 0)))

/-- Results of the scalar instructions with an immediate. ADDI, ANDI, ORI, XORI, SLLI, SRLI, SRAI and LIH, where they
issue at a PC with a next one, answer the state in which s[a] holds the result of s[b] and the immediate (sign-
extended from 32 bits; a shift by imm[5:0]; LIH the immediate above the low half of s[b]), the thread is READY at
the next PC, and nothing else has changed.
It rests on 06_block_sequencer.md. -/
def Obligations.ImmediateResults : Prop :=
  ∀ (s0 s : State) (t : ThreadId) (w : IWord) (p c : Nat),
    (Proceeds s0 t 0x20 w p c s → exec (.addi t w) s0 = .next (s.writes t w.a (BitVec.ofInt 64 ((s.reg t w.b).toInt + (immSigned w))))) ∧
    (Proceeds s0 t 0x21 w p c s → exec (.andi t w) s0 = .next (s.writes t w.a ((s.reg t w.b) &&& BitVec.ofInt 64 (immSigned w)))) ∧
    (Proceeds s0 t 0x22 w p c s → exec (.ori t w) s0 = .next (s.writes t w.a ((s.reg t w.b) ||| BitVec.ofInt 64 (immSigned w)))) ∧
    (Proceeds s0 t 0x23 w p c s → exec (.xori t w) s0 = .next (s.writes t w.a ((s.reg t w.b) ^^^ BitVec.ofInt 64 (immSigned w)))) ∧
    (Proceeds s0 t 0x24 w p c s → exec (.slli t w) s0 = .next (s.writes t w.a (BitVec.ofNat 64 ((s.reg t w.b).toNat * 2 ^ (w.k.toNat % 64))))) ∧
    (Proceeds s0 t 0x25 w p c s → exec (.srli t w) s0 = .next (s.writes t w.a (BitVec.ofNat 64 ((s.reg t w.b).toNat / 2 ^ (w.k.toNat % 64))))) ∧
    (Proceeds s0 t 0x26 w p c s → exec (.srai t w) s0 = .next (s.writes t w.a (BitVec.ofInt 64 ((s.reg t w.b).toInt / 2 ^ (w.k.toNat % 64))))) ∧
    (Proceeds s0 t 0x27 w p c s → exec (.lih t w) s0 = .next (s.writes t w.a (BitVec.ofNat 64 (w.k.toNat % 2 ^ 32 * 2 ^ 32 + (s.reg t w.b).toNat % 2 ^ 32))))

/-- Where branches, jumps and calls go. BEQ, BNE, BLT, BGE, BLTU and BGEU go to PC + imm when their condition holds and
that is a PC of the instruction store, and to the next PC when it does not hold; JUMP and CALL go to PC + imm and
JUMPR to s[b], CALL and JUMPR with PC + 1 in s[a]. Nothing but the thread changes.
It rests on 06_block_sequencer.md. -/
def Obligations.BranchesAndJumps : Prop :=
  ∀ (s0 s : State) (t : ThreadId) (w : IWord) (p c : Nat),
    (Issues s0 t 0x03 w p c s → ((s.reg t w.b) = (s.reg t w.c)) → 0 ≤ ((s.threadOf t).pc + immSigned w) → ((s.threadOf t).pc + immSigned w) < 8192 →
      exec (.beq t w) s0 = .next (s.jumps t ((s.threadOf t).pc + immSigned w).toNat id)) ∧
    (Proceeds s0 t 0x03 w p c s → ¬ ((s.reg t w.b) = (s.reg t w.c)) → exec (.beq t w) s0 = .next (s.completes t id)) ∧
    (Issues s0 t 0x04 w p c s → ((s.reg t w.b) ≠ (s.reg t w.c)) → 0 ≤ ((s.threadOf t).pc + immSigned w) → ((s.threadOf t).pc + immSigned w) < 8192 →
      exec (.bne t w) s0 = .next (s.jumps t ((s.threadOf t).pc + immSigned w).toNat id)) ∧
    (Proceeds s0 t 0x04 w p c s → ¬ ((s.reg t w.b) ≠ (s.reg t w.c)) → exec (.bne t w) s0 = .next (s.completes t id)) ∧
    (Issues s0 t 0x05 w p c s → ((s.reg t w.b).toInt < (s.reg t w.c).toInt) → 0 ≤ ((s.threadOf t).pc + immSigned w) → ((s.threadOf t).pc + immSigned w) < 8192 →
      exec (.blt t w) s0 = .next (s.jumps t ((s.threadOf t).pc + immSigned w).toNat id)) ∧
    (Proceeds s0 t 0x05 w p c s → ¬ ((s.reg t w.b).toInt < (s.reg t w.c).toInt) → exec (.blt t w) s0 = .next (s.completes t id)) ∧
    (Issues s0 t 0x06 w p c s → ((s.reg t w.c).toInt ≤ (s.reg t w.b).toInt) → 0 ≤ ((s.threadOf t).pc + immSigned w) → ((s.threadOf t).pc + immSigned w) < 8192 →
      exec (.bge t w) s0 = .next (s.jumps t ((s.threadOf t).pc + immSigned w).toNat id)) ∧
    (Proceeds s0 t 0x06 w p c s → ¬ ((s.reg t w.c).toInt ≤ (s.reg t w.b).toInt) → exec (.bge t w) s0 = .next (s.completes t id)) ∧
    (Issues s0 t 0x07 w p c s → ((s.reg t w.b).toNat < (s.reg t w.c).toNat) → 0 ≤ ((s.threadOf t).pc + immSigned w) → ((s.threadOf t).pc + immSigned w) < 8192 →
      exec (.bltu t w) s0 = .next (s.jumps t ((s.threadOf t).pc + immSigned w).toNat id)) ∧
    (Proceeds s0 t 0x07 w p c s → ¬ ((s.reg t w.b).toNat < (s.reg t w.c).toNat) → exec (.bltu t w) s0 = .next (s.completes t id)) ∧
    (Issues s0 t 0x08 w p c s → ((s.reg t w.c).toNat ≤ (s.reg t w.b).toNat) → 0 ≤ ((s.threadOf t).pc + immSigned w) → ((s.threadOf t).pc + immSigned w) < 8192 →
      exec (.bgeu t w) s0 = .next (s.jumps t ((s.threadOf t).pc + immSigned w).toNat id)) ∧
    (Proceeds s0 t 0x08 w p c s → ¬ ((s.reg t w.c).toNat ≤ (s.reg t w.b).toNat) → exec (.bgeu t w) s0 = .next (s.completes t id)) ∧
    (Issues s0 t 0x02 w p c s → 0 ≤ ((s.threadOf t).pc + immSigned w) → ((s.threadOf t).pc + immSigned w) < 8192 → exec (.jump t w) s0 = .next (s.jumps t ((s.threadOf t).pc + immSigned w).toNat id)) ∧
    (Issues s0 t 0x09 w p c s → 0 ≤ ((s.threadOf t).pc + immSigned w) → ((s.threadOf t).pc + immSigned w) < 8192 →
      exec (.call t w) s0 = .next (s.jumps t ((s.threadOf t).pc + immSigned w).toNat (fun x => x.setS w.a.toNat (BitVec.ofNat 64 (x.pc + 1))))) ∧
    (Issues s0 t 0x0A w p c s → (s.reg t w.b).toNat < 8192 →
      exec (.jumpr t w) s0 = .next (s.jumps t (s.reg t w.b).toNat (fun x => x.setS w.a.toNat (BitVec.ofNat 64 (x.pc + 1)))))

/-- A transfer of control outside the instruction store raises ADDRESS. JUMP and CALL to PC + imm, JUMPR to s[b], and
each branch that is taken, answer the ADDRESS exception of the instruction when the target is not a PC from 0 to
8,191: the thread is FAULTED and the lasting fault strikes its paddock.
It rests on 06_block_sequencer.md. -/
def Obligations.ControlOutsideStore : Prop :=
  ∀ (s0 s : State) (t : ThreadId) (w : IWord) (p c : Nat),
    (¬ (0 ≤ ((s.threadOf t).pc + immSigned w) ∧ ((s.threadOf t).pc + immSigned w) < 8192) →
      (Issues s0 t 0x02 w p c s → exec (.jump t w) s0 = .next (s.on (·.raise (issueOf t p c 0x02 w) exAddress))) ∧
      (Issues s0 t 0x09 w p c s → exec (.call t w) s0 = .next (s.on (·.raise (issueOf t p c 0x09 w) exAddress))) ∧
      (Issues s0 t 0x03 w p c s → (s.reg t w.b) = (s.reg t w.c) → exec (.beq t w) s0 = .next (s.on (·.raise (issueOf t p c 0x03 w) exAddress))) ∧
      (Issues s0 t 0x04 w p c s → (s.reg t w.b) ≠ (s.reg t w.c) → exec (.bne t w) s0 = .next (s.on (·.raise (issueOf t p c 0x04 w) exAddress))) ∧
      (Issues s0 t 0x05 w p c s → (s.reg t w.b).toInt < (s.reg t w.c).toInt →
        exec (.blt t w) s0 = .next (s.on (·.raise (issueOf t p c 0x05 w) exAddress))) ∧
      (Issues s0 t 0x06 w p c s → (s.reg t w.c).toInt ≤ (s.reg t w.b).toInt →
        exec (.bge t w) s0 = .next (s.on (·.raise (issueOf t p c 0x06 w) exAddress))) ∧
      (Issues s0 t 0x07 w p c s → (s.reg t w.b).toNat < (s.reg t w.c).toNat →
        exec (.bltu t w) s0 = .next (s.on (·.raise (issueOf t p c 0x07 w) exAddress))) ∧
      (Issues s0 t 0x08 w p c s → (s.reg t w.c).toNat ≤ (s.reg t w.b).toNat →
        exec (.bgeu t w) s0 = .next (s.on (·.raise (issueOf t p c 0x08 w) exAddress)))) ∧
    (Issues s0 t 0x0A w p c s → 8192 ≤ (s.reg t w.b).toNat → exec (.jumpr t w) s0 = .next (s.on (·.raise (issueOf t p c 0x0A w) exAddress)))

/-- NOP, HALT, YIELD, SLOTWAIT, WWAIT, TSTART, BSETX and the status instructions. NOP goes to the next PC; HALT makes
the thread IDLE where it stands; YIELD waits past its instruction and may issue again; SLOTWAIT waits for its slot
of this frame, or of the next when the counter is at or past it; WWAIT waits for its window; TSTART starts an IDLE
thread of its block at imm with registers zero and FSTAT clear; BSETX sets the bale context; RDSTAT, CLRSTAT,
RDTALLY, RDID, RDSLOT, WLEFT read or clear what they name and VSEED seeds the 64 generators of the block. Nothing
else changes.
It rests on 06_block_sequencer.md, 07_compiled_schedules.md. -/
def Obligations.ThreadControl : Prop :=
  ∀ (s0 s : State) (t : ThreadId) (w : IWord) (p c : Nat),
    (Proceeds s0 t 0x00 w p c s → exec (.nop t w) s0 = .next (s.completes t id)) ∧
    (Issues s0 t 0x01 w p c s → exec (.halt t w) s0 =
      .next (s.on (·.updThread t.block.val t.thread.val fun x => { x with state := .idle, waits := .nothing }))) ∧
    (Issues s0 t 0x0B w p c s → exec (.yield t w) s0 =
      .next (s.on (·.updThread t.block.val t.thread.val fun x => { x with pc := x.pc + 1, state := .waiting, waits := .yielded }))) ∧
    (Issues s0 t 0x0C w p c s → immUnsigned w < s.dev.frameOf p → exec (.slotwait t w) s0 =
      .next (s.waits t (.slot (immUnsigned w)
        (if immUnsigned w ≤ s.dev.slotCounter p t.block.val c then s.dev.frameBase p + s.dev.spanOf p else s.dev.frameBase p)))) ∧
    (Issues s0 t 0xB0 w p c s → exec (.wwait t w) s0 = .next (s.waits t (.window (immUnsigned w % 256)))) ∧
    (Proceeds s0 t 0x0D w p c s → 0 ≤ immSigned w → immSigned w < 8192 → (s.reg t w.b).toNat % 16 ≠ t.thread.val →
      (s.dev.thread t.block.val ((s.reg t w.b).toNat % 16)).state = .idle → exec (.tstart t w) s0 =
        .next ((s.on (·.updThread t.block.val ((s.reg t w.b).toNat % 16) fun y =>
          { y with s := [], v := [], fstat := 0, pc := (immSigned w).toNat, state := .ready, waits := .nothing })).completes t id)) ∧
    (Proceeds s0 t 0x60 w p c s → exec (.bsetx t w) s0 = .next (s.completes t fun y => { y with bale := w.k.toNat % 2 ^ 12 })) ∧
    (Proceeds s0 t 0xC0 w p c s → exec (.rdstat t w) s0 = .next (s.writes t w.a ((s.threadOf t).fstat.setWidth 64))) ∧
    (Proceeds s0 t 0xC1 w p c s → exec (.clrstat t w) s0 =
      .next (s.completes t fun y => { y with fstat := y.fstat &&& ~~~ (BitVec.ofNat 5 w.k.toNat) })) ∧
    (Proceeds s0 t 0xC2 w p c s → exec (.vseed t w) s0 =
      .next ((s.on (·.updBlock t.block.val fun k => { k with generators := seeded ((s.reg t w.b).setWidth 32) })).completes t id)) ∧
    (Proceeds s0 t 0xC3 w p c s → exec (.rdtally t w) s0 = .next (s.writes t w.a (BitVec.ofNat 64 s.dev.now))) ∧
    (Proceeds s0 t 0xC4 w p c s → exec (.rdid t w) s0 =
      .next (s.writes t w.a (BitVec.ofNat 64 (s.dev.deviceId.getD 0 * 2 ^ 22 + 16 * t.block.val + t.thread.val)))) ∧
    (Proceeds s0 t 0xC5 w p c s → exec (.rdslot t w) s0 =
      .next (s.writes t w.a (BitVec.ofNat 64 (s.dev.slotCounter p t.block.val c)))) ∧
    (Proceeds s0 t 0xB1 w p c s → exec (.wleft t w) s0 =
      .next (s.writes t w.a (BitVec.ofNat 64 (slotsLeft (s.dev.runsOf p t.block.val) (immUnsigned w % 256)
        (s.dev.slotCounter p t.block.val c)))))

/-- LD, ST, VLD and VST reach the block buffer at s[b] + imm. LD writes s[a] with, and VLD the 64 lanes of v[a] from,
the little-endian bytes of the block's buffer at s[b] + imm, readable there; ST stores s[c], and VST the lanes of
v[c], at those bytes, and every byte of memory outside them reads as before, the stored bytes reading as stored
where no poisoned word is touched (for a memory in its canonical form, which every step keeps). Offsets must be
aligned and lie in the buffer.
It rests on 06_block_sequencer.md. -/
def Obligations.BufferAccess : Prop :=
  ∀ (s0 s : State) (t : ThreadId) (w : IWord) (p c off : Nat), off = ((s.reg t w.b) + BitVec.ofInt 64 (immSigned w)).toNat →
    (Proceeds s0 t 0x28 w p c s → off % 8 = 0 → off < 0x100000 → Readable s t p off 8 →
      exec (.ld t w) s0 = .next (s.writes t w.a (BitVec.ofNat 64 (leValue (s.buffer t off 8))))) ∧
    (Proceeds s0 t 0x40 w p c s → off % 4 = 0 → off + 256 ≤ 0x100000 → Readable s t p off 256 →
      exec (.vld t w) s0 = .next (s.completes t (·.setV w.a.toNat
        ((List.range 64).map fun l => BitVec.ofNat 32 (leValue (s.buffer t (off + 4 * l) 4)))))) ∧
    (Proceeds s0 t 0x29 w p c s → off % 8 = 0 → off < 0x100000 →
      exec (.st t w) s0 = .next ((s.on (·.store (bufferAddr t.block.val off) (leBytes 8 (s.reg t w.c).toNat))).completes t id) ∧
      (Sound s → StoresOnly s ((s.on (·.store (bufferAddr t.block.val off) (leBytes 8 (s.reg t w.c).toNat))).completes t id)
        (bufferAddr t.block.val off) (leBytes 8 (s.reg t w.c).toNat))) ∧
    (Proceeds s0 t 0x41 w p c s → off % 4 = 0 → off + 256 ≤ 0x100000 →
      exec (.vst t w) s0 = .next ((s.on (·.store (bufferAddr t.block.val off)
        ((s.vreg t w.c).flatMap fun v => leBytes 4 v.toNat))).completes t id) ∧
      (Sound s → StoresOnly s ((s.on (·.store (bufferAddr t.block.val off)
        ((s.vreg t w.c).flatMap fun v => leBytes 4 v.toNat))).completes t id)
        (bufferAddr t.block.val off) ((s.vreg t w.c).flatMap fun v => leBytes 4 v.toNat)))

/-- The lane operations of the vector instructions. VADD, VSUB, VMUL, VFMA, VMAX, VMIN, VEXP2, VRCP, VRSQRT and VLOG2,
where they issue at a PC with a next one, answer the state in which every lane of v[a] holds the operation's result
on the lanes of its operands under the word's rounding and overflow, FSTAT has the flags of all lanes added, the
thread is READY at the next PC, and nothing else has changed.
It rests on 05_cells_and_formats.md, 06_block_sequencer.md. -/
def Obligations.VectorArithmetic : Prop :=
  ∀ (s0 s : State) (t : ThreadId) (w : IWord) (p c : Nat),
    (Proceeds s0 t 0x42 w p c s → exec (.vadd t w) s0 =
      .next (let r := List.zipWith (addFp (roundingOf (rmodeField w) 0) (ovfField w)) (s.vreg t w.b) (s.vreg t w.c)
        s.writesV t w.a (r.map (·.1)) (flagsOf r))) ∧
    (Proceeds s0 t 0x43 w p c s → exec (.vsub t w) s0 =
      .next (let r := List.zipWith (subFp (roundingOf (rmodeField w) 0) (ovfField w)) (s.vreg t w.b) (s.vreg t w.c)
        s.writesV t w.a (r.map (·.1)) (flagsOf r))) ∧
    (Proceeds s0 t 0x44 w p c s → exec (.vmul t w) s0 =
      .next (let r := List.zipWith (mulFp (roundingOf (rmodeField w) 0) (ovfField w)) (s.vreg t w.b) (s.vreg t w.c)
        s.writesV t w.a (r.map (·.1)) (flagsOf r))) ∧
    (Proceeds s0 t 0x46 w p c s → exec (.vmax t w) s0 =
      .next (let r := List.zipWith (fun x y => (maxFp x y, 0)) (s.vreg t w.b) (s.vreg t w.c)
        s.writesV t w.a (r.map (·.1)) (flagsOf r))) ∧
    (Proceeds s0 t 0x47 w p c s → exec (.vmin t w) s0 =
      .next (let r := List.zipWith (fun x y => (minFp x y, 0)) (s.vreg t w.b) (s.vreg t w.c)
        s.writesV t w.a (r.map (·.1)) (flagsOf r))) ∧
    (Proceeds s0 t 0x45 w p c s → exec (.vfma t w) s0 =
      .next (let r := List.zipWith (fun (x : Word32 × Word32) z => fmaFp (roundingOf (rmodeField w) 0) (ovfField w) x.1 x.2 z)
               ((s.vreg t w.b).zip (s.vreg t w.c)) (s.vreg t w.a)
        s.writesV t w.a (r.map (·.1)) (flagsOf r))) ∧
    (Proceeds s0 t 0x48 w p c s → exec (.vexp2 t w) s0 =
      .next (let r := (s.vreg t w.b).map (exp2Fp (ovfField w))
        s.writesV t w.a (r.map (·.1)) (flagsOf r))) ∧
    (Proceeds s0 t 0x49 w p c s → exec (.vrcp t w) s0 =
      .next (let r := (s.vreg t w.b).map (rcpFp (ovfField w))
        s.writesV t w.a (r.map (·.1)) (flagsOf r))) ∧
    (Proceeds s0 t 0x4A w p c s → exec (.vrsqrt t w) s0 =
      .next (let r := (s.vreg t w.b).map (rsqrtFp (ovfField w))
        s.writesV t w.a (r.map (·.1)) (flagsOf r))) ∧
    (Proceeds s0 t 0x4B w p c s → exec (.vlog2 t w) s0 =
      .next (let r := (s.vreg t w.b).map (log2Fp (ovfField w))
        s.writesV t w.a (r.map (·.1)) (flagsOf r)))

/-- Broadcast, reductions and moves between lanes and scalars. VBCAST puts the low 32 bits of s[b] in all 64 lanes of
v[a]; VREDMAX puts the greatest lane of v[b], VREDSUM the tree sum of R124 with its flags, and VMOVS one lane of
v[b] in s[a]. Nothing but the thread changes.
It rests on 05_cells_and_formats.md, 06_block_sequencer.md. -/
def Obligations.VectorScalars : Prop :=
  ∀ (s0 s : State) (t : ThreadId) (w : IWord) (p c : Nat),
    (Proceeds s0 t 0x4C w p c s → exec (.vbcast t w) s0 =
      .next (s.completes t (·.setV w.a.toNat (List.replicate 64 ((s.reg t w.b).setWidth 32))))) ∧
    (Proceeds s0 t 0x4D w p c s → exec (.vredmax t w) s0 =
      .next (s.writes t w.a (((s.vreg t w.b).foldl maxFp ((s.vreg t w.b).headD 0)).setWidth 64))) ∧
    (Proceeds s0 t 0x4E w p c s → exec (.vredsum t w) s0 =
      .next (s.completes t fun y => (y.setS w.a.toNat ((treeSum false 6 (s.vreg t w.b)).1.setWidth 64)).flag
        (treeSum false 6 (s.vreg t w.b)).2)) ∧
    (Proceeds s0 t 0x4F w p c s → exec (.vmovs t w) s0 =
      .next (s.writes t w.a (((s.threadOf t).lane w.b.toNat (w.k.toNat % 64)).setWidth 64)))

/-- VCVT, VQMX and VUNPK. VCVT packs the 64 lanes of v[b] in its format, each rounded once under its scale, at buffer
offset s[a]; VQMX packs two MX groups of 32 lanes there and their two scale bytes at s[c]; VUNPK widens 64 packed
elements at s[b], with the MX scales at s[c] or the per-tensor scale in s[c], to the lanes of v[a]. FSTAT has the
flags added, and under stochastic rounding every generator has drawn once. Nothing else changes.
It rests on 05_cells_and_formats.md, 06_block_sequencer.md. -/
def Obligations.Conversions : Prop :=
  ∀ (s0 s : State) (t : ThreadId) (w : IWord) (p c : Nat),
    (Proceeds s0 t 0x50 w p c s → formatAllowed (fmtField w) (smField w) = true → smField w ≤ 1 →
      (s.reg t w.a).toNat + 8 * elemBits (fmtField w) ≤ 0x100000 →
      exec (.vcvt t w) s0 = .next (
        let g := s.dev.convertDraws (issueOf t p c 0x50 w)
        let r := (s.vreg t w.b).zipIdx.map fun e =>
          cvtElement (fmtField w) (smField w) ((s.reg t w.c).setWidth 32) (laneRounding (issueOf t p c 0x50 w) g e.2) (ovfField w) e.1
        ((s.on (·.updBlock t.block.val fun k => { k with generators := g })).on
          (·.store (bufferAddr t.block.val (s.reg t w.a).toNat) (packElems (fmtField w) (r.map (·.1))))).completes t
            (·.flag (flagsOf r)))) ∧
    (Proceeds s0 t 0x51 w p c s → formatAllowed (fmtField w) (smField w) = true → smField w = 2 →
      (s.reg t w.a).toNat + 8 * elemBits (fmtField w) ≤ 0x100000 → (s.reg t w.c).toNat + 2 ≤ 0x100000 →
      exec (.vqmx t w) s0 = .next (
        let g := s.dev.convertDraws (issueOf t p c 0x51 w)
        let xs := (s.vreg t w.b).map fp
        let low := quantise (fmtField w) (fun l => laneRounding (issueOf t p c 0x51 w) g l) (xs.take 32)
        let high := quantise (fmtField w) (fun l => laneRounding (issueOf t p c 0x51 w) g (32 + l)) (xs.drop 32)
        let r := low.2 ++ high.2
        (((s.on (·.updBlock t.block.val fun k => { k with generators := g })).on
          (·.store (bufferAddr t.block.val (s.reg t w.a).toNat) (packElems (fmtField w) (r.map (·.1))))).on
          (·.store (bufferAddr t.block.val (s.reg t w.c).toNat) (leBytes 1 low.1 ++ leBytes 1 high.1))).completes t
            (·.flag (flagsOf r)))) ∧
    (Proceeds s0 t 0x52 w p c s → formatAllowed (fmtField w) (smField w) = true →
      (s.reg t w.b).toNat + 8 * elemBits (fmtField w) ≤ 0x100000 → (smField w = 2 → (s.reg t w.c).toNat + 2 ≤ 0x100000) →
      Readable s t p (s.reg t w.b).toNat (8 * elemBits (fmtField w)) →
      Readable s t p (if smField w = 2 then (s.reg t w.c).toNat else 0) (if smField w = 2 then 2 else 0) →
      exec (.vunpk t w) s0 = .next (
        let scales := s.buffer t (if smField w = 2 then (s.reg t w.c).toNat else 0) (if smField w = 2 then 2 else 0)
        let r := (unpackElems (fmtField w) 64 (s.buffer t (s.reg t w.b).toNat (8 * elemBits (fmtField w)))).zipIdx.map fun e =>
          widen (fmtField w) (smField w) (fieldU8 scales (e.2 / 32)) ((s.reg t w.c).setWidth 32) e.1
        s.writesV t w.a (r.map (·.1)) (flagsOf r)))

/-- MLOADW, MMAC, MDRAIN and MZERO. With operands, raw or (bit 30) bales of the bound tensor that expand without
failure, that lie in the buffer and are readable there, and words that R109, R110 and the scratch size allow: MLOADW
copies n bytes to the scratch of each of the 1,024 cells from its part of the operand stream; MMAC runs its rounds
in order over the cells, each round's products added to accumulator a of its cell, and its block keeps what an
interruption needs; MDRAIN stores the 32 column sums converted to its format and, with clear, zeroes accumulator a
of every cell; MZERO zeroes accumulator a, or all 32, of every cell. The thread goes on to the next PC.
It rests on 05_cells_and_formats.md, 06_block_sequencer.md. -/
def Obligations.MatrixInstructions : Prop :=
  ∀ (s0 s : State) (t : ThreadId) (w : IWord) (p c : Nat),
    (∀ (n : Nat) (b : Option Binding), n = 4 * (classBits w 40 31 + 1) → b = s.operandBinding t p 0x30 w →
      let r := s.operandStream t p c 0x30 w (s.reg t w.b).toNat (1024 * n)
      Proceeds s0 t 0x30 w p c s → (classBit w 30 = true → b.isSome = true) → classBits w 29 18 % 4 = 0 →
      classBits w 29 18 + n ≤ 4096 → (s.reg t w.b).toNat + streamBytes b (1024 * n) ≤ 0x100000 →
      (b = none → Readable s t p (s.reg t w.b).toNat (1024 * n)) → r.2.1 = none →
      exec (.mloadw t w) s0 = .next ((s.on fun _ => (List.range 1024).foldl (fun d cell =>
        d.setScratch (scratchKey t.block.val cell (classBits w 29 18)) (bytesAt r.2.2 (cell * n) n)) r.1).completes t id)) ∧
    (∀ (groups n : Nat) (b : Option Binding), groups = 32 * classBits w 29 18 →
      n = groupOffset (classBits w 40 38) (groups - 1) + groupBytes (classBits w 40 38) → b = s.operandBinding t p 0x31 w →
      let r := s.operandStream t p c 0x31 w (s.reg t w.b).toNat n
      let scales := if classBits w 37 36 = 2 then groups else 0
      Proceeds s0 t 0x31 w p c s → (classBit w 30 = true → b.isSome = true) →
      pairAllowed (classBits w 40 38) (classBits w 35 33) = true → formatAllowed (classBits w 40 38) (classBits w 37 36) = true →
      formatAllowed (classBits w 35 33) (classBits w 32 31) = true → classBits w 29 18 ≠ 0 →
      classBits w 17 6 + classBits w 29 18 * weightBytes (classBits w 35 33) (classBits w 32 31) ≤ 4096 →
      (s.reg t w.b).toNat + streamBytes b n ≤ 0x100000 → (classBits w 37 36 = 2 → (s.reg t w.c).toNat + groups ≤ 0x100000) →
      (b = none → Readable s t p (s.reg t w.b).toNat n) → r.2.1 = none → Readable ({ s with dev := r.1 } : State) t p (s.reg t w.c).toNat scales →
      exec (.mmac t w) s0 = .next (((s.on fun _ => r.1.keepMmac (issueOf t p c 0x31 w) (s.threadOf t).pc (s.threadOf t).bale
        (s.reg t w.b).toNat (s.reg t w.c).toNat 0).completes t id).on fun d => (List.range (classBits w 29 18)).foldl (Device.matrixRound
        { a := w.a.toNat, afmt := classBits w 40 38, asm := classBits w 37 36, wfmt := classBits w 35 33,
           wsm := classBits w 32 31, wsoff := classBits w 17 6, stream := r.2.2,
           scales := ({ s with dev := r.1 } : State).buffer t (s.reg t w.c).toNat scales } t.block.val) d)) ∧
    (Proceeds s0 t 0x32 w p c s → fmtField w ≤ 2 → (s.reg t w.b).toNat + 4 * elemBits (fmtField w) ≤ 0x100000 →
      ∃ (codes : List Nat) (flags : BitVec 5) (u : State), codes.length = 32 ∧ exec (.mdrain t w) s0 = .next u ∧
        u.dev.mem = (s.dev.store (bufferAddr t.block.val (s.reg t w.b).toNat) (packElems (fmtField w) codes)).mem ∧
        (u.threadOf t).pc = (s.threadOf t).pc + 1 ∧ (u.threadOf t).fstat = (s.threadOf t).fstat ||| flags ∧
        (classBit w 31 = false → u.dev.fabric.acc = s.dev.fabric.acc) ∧
        (classBit w 31 = true → u.dev.fabric.acc = (List.range 1024).foldl
          (fun m cell => m.set (accKey t.block.val cell w.a.toNat) 0) s.dev.fabric.acc)) ∧
    (Proceeds s0 t 0x33 w p c s → exec (.mzero t w) s0 = .next ((s.on (·.mapFabric fun f =>
      { f with acc := ((List.range 1024).flatMap fun cell => (if classBit w 0 then List.range 32 else [w.a.toNat]).map
        fun a => accKey t.block.val cell a).foldl (fun m k => m.set k 0) f.acc })).completes t id))

/-- AMAX, AEXP, ARESC, AMERGE and ABIAS. The online-softmax helpers in every lane: AMAX puts the greater of v[a] and
v[b] in v[a] and the factor exp2(old − new) in v[c]; AEXP gives exp2(v[b] − v[c]), +0 where v[b] is −infinity; ARESC
gives v[a] × v[b] + v[c] rounded once; AMERGE merges the pairs (m, l) of v[a] and v[b] and their factors; ABIAS adds
the FP16 entry of the bucket of v[c] in the table at imm to v[b]. FSTAT has the flags added, and nothing but the
thread changes.
It rests on 05_cells_and_formats.md, 09_attention_and_pages.md. -/
def Obligations.AttentionHelpers : Prop :=
  ∀ (s0 s : State) (t : ThreadId) (w : IWord) (p c : Nat),
    (Proceeds s0 t 0x70 w p c s → exec (.amax t w) s0 = .next (
      let r := List.zipWith amaxLane (s.vreg t w.a) (s.vreg t w.b)
      s.completes t fun z => ((z.setV w.c.toNat (r.map (·.1.1))).setV w.a.toNat (r.map (·.2))).flag (flagsOf (r.map (·.1))))) ∧
    (Proceeds s0 t 0x71 w p c s → exec (.aexp t w) s0 = .next (
      let r := List.zipWith aexpLane (s.vreg t w.b) (s.vreg t w.c)
      s.writesV t w.a (r.map (·.1)) (flagsOf r))) ∧
    (Proceeds s0 t 0x72 w p c s → exec (.aresc t w) s0 = .next (
      let r := List.zipWith (fun (q : Word32 × Word32) z => fmaFp .rne false q.1 q.2 z) ((s.vreg t w.a).zip (s.vreg t w.b)) (s.vreg t w.c)
      s.writesV t w.a (r.map (·.1)) (flagsOf r))) ∧
    (Proceeds s0 t 0x73 w p c s → exec (.amerge t w) s0 = .next (
      let q := s.threadOf t
      let r := (List.range 64).map fun l => mergeLane (q.lane w.a.toNat l) (q.lane (w.a.toNat + 1) l) (q.lane w.b.toNat l)
        (q.lane (w.b.toNat + 1) l)
      s.completes t fun z => ((((z.setV w.a.toNat (r.map (·.m))).setV (w.a.toNat + 1) (r.map (·.l))).setV w.c.toNat
        (r.map (·.f1))).setV (w.c.toNat + 1) (r.map (·.f2))).flag (r.foldl (fun f e => f ||| e.flags) 0))) ∧
    (Proceeds s0 t 0x74 w p c s → immUnsigned w % 2 = 0 → immUnsigned w + 2048 ≤ 0x100000 → Readable s t p (immUnsigned w) 2048 →
      exec (.abias t w) s0 = .next (
        let r := List.zipWith (abiasLane (s.buffer t (immUnsigned w) 2048)) (s.vreg t w.b) (s.vreg t w.c)
        s.writesV t w.a (r.map (·.1)) (flagsOf r)))

/-- BRING, BWAIT, BTRY and BREAD. With a bell of the paddock (its own block's for BWAIT and BTRY): BRING completes and
rings a block bell by imm; its ring of a network bell joins the queue of the lowest-numbered OUT window to the
bell's die, whose route is up, with its stamp; BWAIT waits at its instruction, joins the bell's waiters with its
threshold and deadline, and the waiters are examined; BTRY consumes its threshold, has observed the bell and writes
0 when the bell has it, and otherwise consumes nothing and writes 1; BREAD writes the bell's value, and one that is
not zero has been observed.
It rests on 08_bells_and_hurdles.md. -/
def Obligations.BellInstructions : Prop :=
  ∀ (s0 s : State) (t : ThreadId) (w : IWord) (p c : Nat),
    (Proceeds s0 t 0x90 w p c s → 1 ≤ immUnsigned w → immUnsigned w ≤ 65535 → s.dev.bellOfPaddock p (s.reg t w.b) = true →
      ((s.reg t w.b).toNat < 65536 → exec (.bring t w) s0 = .next ((s.completes t id).on
        (·.perform [.ring p (s.reg t w.b).toNat (immUnsigned w) (s.dev.src (srcThread t.block.val t.thread.val))]))) ∧
      (∀ win, 65536 ≤ (s.reg t w.b).toNat →
        s.dev.windowFor p 1 (((s.reg t w.b).toNat - 65536) / 1024) (bellAddress (64 * t.block.val)) 16 = some win →
        s.dev.routeDown win = false → exec (.bring t w) s0 = .next ((s.completes t id).on (·.joinWindow p win
          { size := 0, cls := 1, link := none, address := bellAddress (64 * t.block.val), data := [],
             kind := .ring (s.reg t w.b).toNat (immUnsigned w) (s.dev.src (srcThread t.block.val t.thread.val)) s.dev.now })))) ∧
    (Issues s0 t 0x91 w p c s → 1 ≤ (s.reg t w.c).toNat → (s.reg t w.c).toNat < 2 ^ 31 → s.dev.bellOfPaddock p (s.reg t w.b) = true →
      (s.reg t w.b).toNat / 64 = t.block.val →
      exec (.bwait t w) s0 = .next (s.on fun d =>
        let b := d.bell p (s.reg t w.b).toNat
        let deadline := if immUnsigned w = 0 then 0 else d.now + immUnsigned w
        let d1 := (d.updThread t.block.val t.thread.val fun q =>
            { q with state := .waiting, waits := .bell w.a.toNat (s.reg t w.b).toNat (s.reg t w.c).toNat deadline }).setBell p (s.reg t w.b).toNat
          { b with waiters := b.waiters ++ [(waiterKey t.block.val t.thread.val, (s.reg t w.c).toNat, deadline)] }
        let r := d1.examine p (s.reg t w.b).toNat (d.src (srcThread t.block.val t.thread.val))
        r.1.perform r.2)) ∧
    (Proceeds s0 t 0x92 w p c s → 1 ≤ (s.reg t w.c).toNat → (s.reg t w.c).toNat < 2 ^ 31 → s.dev.bellOfPaddock p (s.reg t w.b) = true →
      (s.reg t w.b).toNat / 64 = t.block.val →
      ((s.reg t w.c).toNat ≤ (s.dev.bell p (s.reg t w.b).toNat).value → exec (.btry t w) s0 = .next ((s.on fun d =>
          let b := d.bell p (s.reg t w.b).toNat
          (d.setBell p (s.reg t w.b).toNat { b with value := b.value - (s.reg t w.c).toNat, unseen := [] }).traced 2 (s.reg t w.b).toNat (s.reg t w.c).toNat
            (b.value - (s.reg t w.c).toNat) p (d.src (srcThread t.block.val t.thread.val))).writes t w.a 0)) ∧
      ((s.dev.bell p (s.reg t w.b).toNat).value < (s.reg t w.c).toNat → exec (.btry t w) s0 = .next (s.writes t w.a 1))) ∧
    (Proceeds s0 t 0x93 w p c s → s.dev.bellOfPaddock p (s.reg t w.b) = true →
      let b := s.dev.bell p (s.reg t w.b).toNat
      (b.value = 0 ∨ b.unseen = [] → exec (.bread t w) s0 = .next (s.writes t w.a (BitVec.ofNat 64 b.value))) ∧
      (b.value ≠ 0 → b.unseen ≠ [] → exec (.bread t w) s0 =
        .next ((s.on (·.setBell p (s.reg t w.b).toNat { b with unseen := [] })).writes t w.a (BitVec.ofNat 64 b.value))))

/-- HARRIVE, HWAIT and HPASS. With a hurdle of the paddock: HARRIVE sends the arrival of its thread to the hurdle, which
it reaches after the CCLKs of its leg in the slowest region on its way (log entry 104), and goes on; HWAIT goes on
when the round named by s[c] is over and else waits for it; HPASS sends the arrival and waits for the round its
answer names, or, resumed after a preemption, only waits for the round in s[a].
It rests on 08_bells_and_hurdles.md. -/
def Obligations.HurdleInstructions : Prop :=
  ∀ (s0 s : State) (t : ThreadId) (w : IWord) (p c : Nat),
    let mhz := (regionPath (regionOf t.block.val) ((s.reg t w.b).toNat % 256 / 16)).foldl (fun m n => Nat.min m (s.dev.runningMhz n))
      (s.dev.runningMhz (regionOf t.block.val))
    (Proceeds s0 t 0xA0 w p c s → 1 ≤ arrivalCount (s.reg t w.b) → arrivalCount (s.reg t w.b) ≤ 16384 → bitsOf (s.reg t w.b).toNat 15 8 = 0 → bitsOf (s.reg t w.b).toNat 63 31 = 0 →
      (s.dev.hurdleOwner ((s.reg t w.b).toNat % 256)).map (·.1) = some p →
      exec (.harrive t w) s0 = .next ((s.on (·.mapFabric fun f => { f with arrivals := f.arrivals ++
        [{ hurdle := (s.reg t w.b).toNat % 256, n := arrivalCount (s.reg t w.b), block := t.block.val, thread := t.thread.val, dest := w.a.toNat, pass := false,
           due := s.dev.now + ceilDiv (800 * arrivalLeg (regionOf t.block.val) ((s.reg t w.b).toNat % 256 / 16)) mhz }] })).completes t id)) ∧
    (Issues s0 t 0xA2 w p c s → (s.threadOf t).resumePass = false → 1 ≤ arrivalCount (s.reg t w.b) → arrivalCount (s.reg t w.b) ≤ 16384 → bitsOf (s.reg t w.b).toNat 15 8 = 0 → bitsOf (s.reg t w.b).toNat 63 31 = 0 →
      (s.dev.hurdleOwner ((s.reg t w.b).toNat % 256)).map (·.1) = some p →
      exec (.hpass t w) s0 = .next ((s.on (·.mapFabric fun f => { f with arrivals := f.arrivals ++
        [{ hurdle := (s.reg t w.b).toNat % 256, n := arrivalCount (s.reg t w.b), block := t.block.val, thread := t.thread.val, dest := w.a.toNat, pass := true,
           due := s.dev.now + ceilDiv (800 * arrivalLeg (regionOf t.block.val) ((s.reg t w.b).toNat % 256 / 16)) mhz }] })).waits t (.hurdle ((s.reg t w.b).toNat % 256) answerOut true))) ∧
    ((s.dev.hurdleOwner ((s.reg t w.b).toNat % 256)).map (·.1) = some p →
      (Proceeds s0 t 0xA1 w p c s → (s.reg t w.c).toNat < (s.dev.hurdle ((s.reg t w.b).toNat % 256)).round →
        exec (.hwait t w) s0 = .next (s.completes t fun q => { q with resumePass := false })) ∧
      (Issues s0 t 0xA1 w p c s → (s.dev.hurdle ((s.reg t w.b).toNat % 256)).round ≤ (s.reg t w.c).toNat →
        exec (.hwait t w) s0 = .next (s.on (·.updThread t.block.val t.thread.val fun q =>
          { q with state := .waiting, waits := .hurdle ((s.reg t w.b).toNat % 256) (s.reg t w.c).toNat false, resumePass := false }))) ∧
      (Proceeds s0 t 0xA2 w p c s → (s.threadOf t).resumePass = true → (s.reg t w.a).toNat < (s.dev.hurdle ((s.reg t w.b).toNat % 256)).round →
        exec (.hpass t w) s0 = .next (s.completes t fun q => { q with resumePass := false })))

/-- BLOAD, BSTORE, BEXPAND and BCOPY start their transfers. With a bound tensor (BCOPY needs none), a count from 1 to
1,024, buffer ranges in the buffer, memory of the paddock's windows and its world, each of BLOAD, BSTORE, BEXPAND
and BCOPY adds its transfer to the block's and its thread goes on at once. With 16 transfers of the block
outstanding none of the four has its turn: its thread is HELD.
It rests on 06_block_sequencer.md, 10_bales.md. -/
def Obligations.BaleInstructions : Prop :=
  ∀ (s0 s : State) (t : ThreadId) (w : IWord) (p c : Nat) (b : List Byte),
    (Proceeds s0 t 0x61 w p c s → s.dev.binding p (s.threadOf t).bale = some b → 1 ≤ countField w → countField w ≤ 1024 →
      (s.reg t w.a).toNat + ((countField w * (bindingOf b).size) + 4096 * (bindingOf b).annex) ≤ 0x100000 →
      s.dev.baleMemory p (s.reg t w.b).toNat (countField w * (bindingOf b).size) = true → s.dev.worldClash p (s.reg t w.b).toNat (countField w * (bindingOf b).size) = false →
      exec (.bload t w) s0 = .next ((s.on (·.updBlock t.block.val fun k => { k with bales := k.bales ++
        [{ op := .load, thread := t.thread.val, buffer := (s.reg t w.a).toNat, address := (s.reg t w.b).toNat, count := countField w,
           tensor := (s.threadOf t).bale, binding := b, bell := baleBell w }] })).completes t id)) ∧
    (Proceeds s0 t 0x62 w p c s → s.dev.binding p (s.threadOf t).bale = some b → 1 ≤ countField w → countField w ≤ 1024 →
      (s.reg t w.a).toNat + 4096 * countField w ≤ 0x100000 →
      s.dev.baleMemory p (s.reg t w.b).toNat (countField w * (bindingOf b).size) = true → s.dev.worldClash p (s.reg t w.b).toNat (countField w * (bindingOf b).size) = false →
      exec (.bstore t w) s0 = .next ((s.on (·.updBlock t.block.val fun k => { k with bales := k.bales ++
        [{ op := .store, thread := t.thread.val, buffer := (s.reg t w.a).toNat, address := (s.reg t w.b).toNat, count := countField w,
           tensor := (s.threadOf t).bale, binding := b, bell := baleBell w }] })).completes t id)) ∧
    (Proceeds s0 t 0x63 w p c s → s.dev.binding p (s.threadOf t).bale = some b → 1 ≤ countField w → countField w ≤ 1024 →
      (s.reg t w.a).toNat + 4096 * countField w ≤ 0x100000 → (s.reg t w.b).toNat + (countField w * (bindingOf b).size) ≤ 0x100000 →
      exec (.bexpand t w) s0 = .next ((s.on (·.updBlock t.block.val fun k => { k with bales := k.bales ++
        [{ op := .expand, thread := t.thread.val, buffer := (s.reg t w.a).toNat, address := (s.reg t w.b).toNat, count := countField w,
           tensor := (s.threadOf t).bale, binding := b, bell := baleBell w }] })).completes t id)) ∧
    (Proceeds s0 t 0x64 w p c s → 1 ≤ countField w → countField w ≤ 1024 →
      (s.reg t w.a).toNat + 4096 * countField w ≤ 0x100000 →
      s.dev.baleMemory p (s.reg t w.b).toNat (4096 * countField w) = true → s.dev.worldClash p (s.reg t w.b).toNat (4096 * countField w) = false →
      exec (.bcopy t w) s0 = .next ((s.on (·.updBlock t.block.val fun k => { k with bales := k.bales ++
        [{ op := (if classBit w 31 then .copyOut else .copyIn), thread := t.thread.val, buffer := (s.reg t w.a).toNat, address := (s.reg t w.b).toNat, count := countField w,
           tensor := (s.threadOf t).bale, binding := [], bell := baleBell w }] })).completes t id)) ∧
    (∀ e ∈ [(Instr.bload t w, 0x61), (.bstore t w, 0x62), (.bexpand t w, 0x63), (.bcopy t w, 0x64)],
      let d := s0.atCclk p t.block.val
      s0.dev.issuesFor t.block.val = some p → (s0.threadOf t).mayIssue = true → s0.dev.nextWord t.block.val t.thread.val = (e.2, w) →
      d.issuesFor t.block.val = some p → (d.thread t.block.val t.thread.val).pc < 8192 →
      (d.thread t.block.val t.thread.val).waits ≠ .yielded → d.nextWord t.block.val t.thread.val = (e.2, w) →
      wordLegal e.2 w = true → 16 ≤ (d.block t.block.val).bales.length →
        exec e.1 s0 = .next (s0.on fun _ => d.updThread t.block.val t.thread.val fun q => { q with state := .held, waits := .nothing }))

/-- RLOAD, RSTORE, RFLAG, RATOM, RPUT and RGET start their accesses. With a context of the paddock in its world, windows
between the block and the context's die in both directions, the OUT route up, an aligned global address and, for
RPUT and RGET, a length and a buffer range that fit, each remote-access instruction joins the block's outstanding
accesses under a fresh number, its request (R338) joins the queue of its OUT window, and its thread waits past the
instruction. The bound counts for loads, atomics and RGET only.
It rests on 13_memory_semantic_access.md, 06_block_sequencer.md. -/
def Obligations.RemoteInstructions : Prop :=
  ∀ (s0 s : State) (t : ThreadId) (w : IWord) (p c home : Nat) (k : Ctx) (out back : Win),
    s.dev.contextOf p (ctxField w) = some k → k.secure = s.dev.isSecure p → s.dev.contextHome k = some home →
    s.dev.windowFor p 1 home (bellAddress (64 * t.block.val)) 16 = some out →
    s.dev.windowFor p 0 home (bellAddress (64 * t.block.val)) 16 = some back → s.dev.routeDown out = false →
    let started : Request → List Byte → State := fun r data => s.on fun d =>
      let a : RemoteAccess :=
        { id := d.fabric.nextRemote, op := r.op, block := t.block.val, thread := t.thread.val, paddock := p, ctx := k.ctx,
          address := (s.reg t w.b).toNat, len := r.len, dest := r.dest, buffer := ((r.buffer.map (·.toNat)).getD 0), bell := r.bell,
          bound := if r.op = .load ∨ r.op = .atomic ∨ r.op = .get then d.now + 800 * (if k.boundUs = 0 then 100 else k.boundUs)
            else 0,
          conn := if k.isLocal then 0x100000 + home else k.conn % 0x100000, asked := r.asked k home data }
      ((d.mapFabric fun f => { f with remote := f.remote ++ [a], nextRemote := f.nextRemote + 1 }).updThread t.block.val
        t.thread.val fun q => { q with pc := q.pc + 1, state := .waiting, waits := .remote d.fabric.nextRemote }).joinWindow p out
          { size := a.payload, cls := (if k.cls = 0xFF then 1 else k.cls), link := none,
            address := bellAddress (64 * t.block.val), data := [], kind := .remote d.fabric.nextRemote }
    (Issues s0 t 0x80 w p c s → (s.reg t w.b).toNat % 8 = 0 → 
      exec (.rload t w) s0 = .next (started { op := .load, len := 8, align := 8, dest := w.a.toNat } [])) ∧
    (Issues s0 t 0x81 w p c s → (s.reg t w.b).toNat % 8 = 0 → 
      exec (.rstore t w) s0 = .next (started { op := .store, len := 8, align := 8, value := (s.reg t w.c) } [])) ∧
    (Issues s0 t 0x82 w p c s → (s.reg t w.b).toNat % 8 = 0 → 
      exec (.rflag t w) s0 = .next (started { op := .flag, len := 8, align := 8, value := (s.reg t w.c) } [])) ∧
    (Issues s0 t 0x83 w p c s → (s.reg t w.b).toNat % 8 = 0 → 
      exec (.ratom t w) s0 = .next (started { op := .atomic, len := 8, align := 8, value := (s.reg t w.c), compare := s.reg t w.a, aop := aopField w, dest := w.a.toNat } [])) ∧
    (Issues s0 t 0x84 w p c s → (s.reg t w.b).toNat % 64 = 0 → 1 ≤ lenField w → lenField w ≤ 128 → (s.reg t w.c).toNat + 64 * lenField w ≤ 0x100000 →
      Readable s t p (s.reg t w.c).toNat (64 * lenField w) → 
      exec (.rput t w) s0 = .next (started { op := .put, len := 64 * lenField w, align := 64, buffer := some (s.reg t w.c), bell := remoteBell w } (s.buffer t (s.reg t w.c).toNat (64 * lenField w)))) ∧
    (Issues s0 t 0x85 w p c s → (s.reg t w.b).toNat % 64 = 0 → 1 ≤ lenField w → lenField w ≤ 128 → (s.reg t w.a).toNat + 64 * lenField w ≤ 0x100000 → 
      exec (.rget t w) s0 = .next (started { op := .get, len := 64 * lenField w, align := 64, buffer := some (s.reg t w.a), bell := remoteBell w } []))

/-- What leaving its window does with a remote access. An access on a connection that is IDLE, which has no die, ends
refused NO_CONN as it issues. An access that its window admits lets its thread go on unless it is a load or atomic;
one that is refused there (R334, R337, R344) ends with that refusal and nothing is sent; one through a LOCAL context
goes to the device's own endpoint; any other is posted as one packet on its connection.
It rests on 13_memory_semantic_access.md. -/
def Obligations.RemoteAccessStarts : Prop :=
  (∀ (d : Device) (i : Issue) (k : Ctx) (r : Request) (data : List Byte), d.contextHome k = none →
    ∃ a : RemoteAccess, a.id = d.fabric.nextRemote ∧ a.block = i.block ∧ a.thread = i.thread ∧ a.op = r.op ∧
      a.address = (d.sB i).toNat ∧ a.bound = (if r.op = .load ∨ r.op = .atomic ∨ r.op = .get then d.now + k.bound else 0) ∧
      d.startRemote i k r data = (((d.mapFabric fun f =>
        { f with remote := f.remote ++ [a], nextRemote := f.nextRemote + 1 }).updThread i.block i.thread fun q =>
          { q with pc := q.pc + 1, state := .waiting, waits := .remote d.fabric.nextRemote }).endRemote d.fabric.nextRemote
            (.refused 0x0A))) ∧
  (∀ (d : Device) (id : Nat) (a : RemoteAccess), d.remoteAccess id = some a → a.expired = false →
    let d1 := d.requestLeft a
    d.remoteLeaves id =
      (if d1.localRefusal a ≠ 0 then d1.endRemote id (.refused (d1.localRefusal a))
       else if a.asked.isLocal then d1.localArrives a
       else d1.post a.conn [d1.remotePacket a]))

/-- When a sequencer row does not issue, and the exceptions of its form. For every sequencer row: where the block issues
for no paddock, the thread may not issue, or the word at its PC is another legal one, nothing changes. Where the
block no longer issues for the paddock at its next CCLK, only the time passes. Where its turn does not come in the
tick of that CCLK, a thread whose instruction needs a slotted resource or is held by what is outstanding is HELD and
any other stays, the Tally at that tick. In its turn an illegal word raises ILLEGAL, and a PC past the instruction
store raises ADDRESS for the instruction at PC 8,191.
It rests on 06_block_sequencer.md. -/
def Obligations.InstructionsThatDoNotIssue : Prop :=
  ∀ (t : ThreadId) (w : IWord) (e : Instr × Nat), e ∈ sequencerRows t w → ∀ (s : State) (p : Nat),
    let b := t.block.val
    let n := t.thread.val
    let next := s.dev.nextWord b n
    (s.dev.issuesFor b = none → exec e.1 s = .next s) ∧
    ((s.threadOf t).mayIssue = false → exec e.1 s = .next s) ∧
    ((s.threadOf t).pc < 8192 → wordLegal next.1 next.2 = true → next ≠ (e.2, w) → exec e.1 s = .next s) ∧
    (s.dev.issuesFor b = some p → (s.threadOf t).mayIssue = true → next = (e.2, w) →
      let d := s.atCclk p b
      (d.issuesFor b ≠ some p → exec e.1 s = .next (s.on fun _ => d)) ∧
      (d.issuesFor b = some p → d.nextWord b n = (e.2, w) →
      (d.turn p b n = none → (d.thread b n).waits ≠ .yielded →
        (((slotRes e.2).isSome = true ∨ d.awaits p b n e.2 w = true) → exec e.1 s = .next (s.on fun _ =>
          d.updThread b n fun q => { q with state := .held, waits := .nothing })) ∧
        (slotRes e.2 = none → d.awaits p b n e.2 w = false → exec e.1 s = .next (s.on fun _ => d))) ∧
      (∀ c, d.turn p b n = some c →
        (8192 ≤ (d.thread b n).pc → exec e.1 s = .next (s.on fun _ => (d.takeTurn p b n c e.2 w).exception (issueOf t p c e.2 w)
          8191 (((d.block b).istore.get 8191).toNat / 2 ^ 56) exAddress)) ∧
        ((d.thread b n).pc < 8192 → wordLegal e.2 w = false → exec e.1 s = .next (s.on fun _ =>
          (d.takeTurn p b n c e.2 w).raise (issueOf t p c e.2 w) exIllegal)))))

/-- An instruction that completes at the last PC raises ADDRESS. Each row of the sequencer that changes its thread
alone, where it issues at PC 8,191, leaves its thread past the last word, and the thread raises ADDRESS for the
instruction at PC 8,191 instead of issuing again.
It rests on 06_block_sequencer.md. -/
def Obligations.LastWordOfStore : Prop :=
  ∀ (t : ThreadId) (w : IWord) (e : Instr × Nat), e ∈ registerRows t w → ∀ (s0 s : State) (p c : Nat),
    Issues s0 t e.2 w p c s → (s.threadOf t).pc = 8191 →
      ∃ f : Thread → Thread, exec e.1 s0 = .next ((s.completes t f).on (·.exception (issueOf t p c e.2 w) 8191 e.2 exAddress))

/-- What the register instructions leave unchanged. Each row of the sequencer that changes its thread alone leaves,
where it issues at a PC with a next one: every byte of memory, every other thread of every block, the Tally, the
network, the paddocks, the fault ring and the control paths as they were in the state of its turn, and s[r] and v[r]
of its thread for every register but those its fields a and c name (and the register after an even one for AMERGE).
That state differs from the one the row came in by what the passing of the time to that CCLK and the block's record
of who issued last change.
It rests on 06_block_sequencer.md. -/
def Obligations.RegisterRowsFrame : Prop :=
  ∀ (t : ThreadId) (w : IWord) (e : Instr × Nat), e ∈ registerRows t w → ∀ (s0 s : State) (p c : Nat), Proceeds s0 t e.2 w p c s →
    s.dev = (s0.atCclk p t.block.val).takeTurn p t.block.val t.thread.val c e.2 w ∧
    ∃ u, exec e.1 s0 = .next u ∧ SameMemory s u ∧ u.pending = s0.pending ∧
      (∀ b th, (b, th) ≠ (t.block.val, t.thread.val) → u.dev.thread b th = s.dev.thread b th) ∧
      u.dev.tally = s.dev.tally ∧ u.dev.net = s.dev.net ∧ u.dev.paddocks = s.dev.paddocks ∧ u.dev.faults = s.dev.faults ∧
      u.dev.paths = s.dev.paths ∧ (u.threadOf t).pc = (s.threadOf t).pc + 1 ∧
      (∀ r : BitVec 5, r ≠ w.a → u.reg t r = s.reg t r) ∧
      (∀ r : BitVec 5, r.toNat < 16 → r ≠ w.a → r.toNat ≠ w.a.toNat + 1 → r ≠ w.c → r.toNat ≠ w.c.toNat + 1 → u.vreg t r = s.vreg t r)

/-- The reporting commands answer OK and change nothing else. Every command that only reports (IDENTIFY, MBX_NEXT, the
STATUS and INFO commands, BELL_READ, HURDLE_READ, FAULT_READ, TRACE_READ, ATTEST_REPORT, ATTEST_CERTS), accepted and
passing its checks, answers the state in which its mailbox has taken it and a response OK with some payload has been
given on its path: nothing else changes.
It rests on 04_control_plane.md. -/
def Obligations.ReportingCommands : Prop :=
  ∀ (c : Cmd) (e : Instr × Immediate × Nat), e ∈ reportingRows c → ∀ s : State, Runs s e.2.2 e.2.1 c →
    ∃ payload : List Byte, exec e.1 s =
      .next (s.on fun d => (d.takes c e.2.2).respond c.path { payload := payload })

/-- What IDENTIFY, MBX_NEXT, OWN_, WORLD_ and QUEUE_STATUS, HURDLE_READ and CLOCK_TALLY_STATUS return. Accepted and
passing their checks: IDENTIFY returns the identity fields of R94; MBX_NEXT the rest of the mailbox's long response;
OWN_STATUS owner, asker, priority, flags, offer, lease and counts; WORLD_STATUS the world settings; QUEUE_STATUS of
a live ring its state and counters; HURDLE_READ its hurdles' entries; CLOCK_TALLY_STATUS the Tally's state, level,
parent, children, offset, delay and times.
It rests on 03_tally_and_ordering.md, 04_control_plane.md, 08_bells_and_hurdles.md, 12_fabric_transport.md, 18_security_and_firmware_trust.md. -/
def Obligations.ReportedPayloads : Prop :=
  ∀ (s : State) (c : Cmd),
    (Runs s 0x0000 immIdentify c → exec (.identify c) s = .next (s.on fun _ =>
      let d := s.dev.takes c 0x0000
      let payload : List Byte := leBytes 2 0xE032 ++ ([0x41, 0x31] : List Byte) ++ leBytes 4 (match d.deviceId with
          | some i => i + 2 ^ 31
          | none => 0) ++ leBytes 8 d.boot.serial ++ leBytes 1 d.stateCode ++ leBytes 1 d.boot.fwSlot ++ leBytes 2 0x0100 ++
        leBytes 4 d.boot.fwVersion ++ leBytes 4 d.security.fusedStep ++ zeros 4 ++ padTo 64 d.boot.fwDigest
      d.respond c.path { payload := payload })) ∧
    (Runs s 0x0001 immMbxNext c → exec (.mbxNext c) s = .next (s.on fun _ =>
      let d := s.dev.takes c 0x0001
      d.respond c.path { payload := (d.paths.box c.path).rest })) ∧
    (Runs s 0x0015 immOwnStatus c → exec (.ownStatus c) s = .next (s.on fun _ =>
      let d := s.dev.takes c 0x0015
      let o := d.own
      let m := pathMaster c.path
      let timer := if o.claimEnd.isSome then o.claimEnd.getD 0 else if o.offerTarget.isSome then o.offerEnd else 0
      let payload := leBytes 1 (masterCode o.owner) ++ leBytes 1 (masterCode (some m)) ++ leBytes 1 d.boot.ownPrio.toNat ++
        leBytes 1 (b2n o.claimEnd.isSome + 2 * b2n o.offerTarget.isSome +
          4 * b2n (d.paddocks.any fun e => decide (e.2.operator = some m))) ++
        leBytes 1 (masterCode o.offerTarget) ++ zeros 3 ++ leBytes 8 (if o.owner.isSome then o.leaseExpiry else 0) ++
        leBytes 8 (if o.owner.isSome then o.ownerSince else 0) ++ leBytes 8 timer ++
        leBytes 4 (d.countSets fun x => x.pending && decide (some x.owner = o.owner)) ++
        leBytes 4 (d.countSets fun x => decide (x.state = .committed))
      d.respond c.path { payload := payload })) ∧
    (Runs s 0x0C11 immWorldStatus c → exec (.worldStatus c) s = .next (s.on fun _ =>
      let d := s.dev.takes c 0x0C11
      let payload := leBytes 8 d.security.harts.toNat ++ leBytes 1 d.security.pairs.toNat ++
        leBytes 1 (b2n d.security.fabric) ++ zeros 6 ++ leBytes 1 d.security.origin ++ zeros 7 ++ leBytes 8 d.security.since
      d.respond c.path { payload := payload })) ∧
    (Runs s 0x0A01 immHurdleRead c → exec (.hurdleRead c) s = .next (s.on fun _ =>
      let d := s.dev.takes c 0x0A01
      let p := (callOf c 0x0A01).payload
      d.respond c.path { payload := (List.range (fieldU8 p 1)).flatMap fun i => d.hurdleEntry (fieldU8 p 0 + i) })) ∧
    (Runs s 0x0D21 immTallyStatus c → exec (.clockTallyStatus c) s = .next (s.on fun _ =>
      let d := s.dev.takes c 0x0D21
      let payload := leBytes 1 (tallyStateCode d.tally.state) ++
        leBytes 1 (if d.tally.state = .free then 0xFF else d.tally.level) ++
        leBytes 1 (if d.tally.isSource ∨ d.tally.link = 0xFF then 0xFF else b2n d.tally.useBackup) ++
        leBytes 1 d.tally.childCount ++ leBytes 4 (unsigned 32 d.tally.offset) ++ leBytes 4 d.tally.delay ++
        leBytes 4 (if d.tally.state = .holdover then (d.tally.holdoverEnd - d.tally.now) / 800000 else 0) ++
        leBytes 8 d.tally.stateSince ++ leBytes 8 d.tally.missedBursts
      d.respond c.path { payload := payload })) ∧
    (∀ r : Ring, Runs s 0x0502 immQueueStatus c →
      (s.dev.takes c 0x0502).ring (fieldU16 (callOf c 0x0502).payload 0) = some r →
      exec (.queueStatus c) s = .next (s.on fun _ =>
        let payload := leBytes 1 (ringStateCode r.state) ++ zeros 7 ++ leBytes 4 r.produced ++ leBytes 4 r.taken ++
          leBytes 4 r.completed ++ leBytes 4 r.consumed ++ leBytes 8 r.stallAddr
        (s.dev.takes c 0x0502).respond c.path { payload := payload }))

/-- TRAFFIC_STATUS brings a port's credits up to date and reports. Accepted and passing its checks, TRAFFIC_STATUS with
scope 0 brings the credits of both links of its port up to now and returns their 16 class entries; with scope 1 it
returns the policer counts and buckets of its ring, zeros for a ring that is FREE, and with scope 2 the 16 class
entries of its die's arbiter, each after the stamp, and nothing else changes.
It rests on 14_traffic_scheduling.md. -/
def Obligations.TrafficReport : Prop :=
  ∀ (s : State) (c : Cmd),
    (Runs s 0x0605 immTrafficStatus c →
      let d := s.dev.takes c 0x0605
      let n := fieldU16 (callOf c 0x0605).payload 2
      let scope := fieldU8 (callOf c 0x0605).payload 0
      (scope = 0 → exec (.trafficStatus c) s = .next (s.on fun _ =>
        let e := (d.runCredits (2 * n)).runCredits (2 * n + 1)
        let entry := fun (l : Link) (k : Nat) =>
          leBytes 8 ((l.frames[k]?).getD 0) ++ leBytes 8 ((l.bytes[k]?).getD 0) ++
            leBytes 4 (unsigned 32 (Int.fdiv ((l.credit[k]?).getD 0) 6400)) ++
            leBytes 4 (if 3 ≤ k then (l.deficit[k - 3]?).getD 0 else 0) ++ leBytes 4 (l.queuedBytes k) ++
            leBytes 1 (b2n (((e.port n).gatesAt d.now).getLsbD k) + 2 * b2n (Table.find (e.port n).shapers k).isSome) ++ zeros 3
        e.respond c.path { payload := leBytes 8 d.now ++ ((List.range 16).flatMap (entry (e.port n).link0)) ++
          (List.range 16).flatMap (entry (e.port n).link1) })) ∧
      (∀ r, scope = 1 → d.ring n = some r → exec (.trafficStatus c) s = .next (s.on fun _ => d.respond c.path
        { payload := leBytes 8 d.now ++ leBytes 8 r.green ++ leBytes 8 r.yellow ++ leBytes 8 r.red ++
            leBytes 4 (r.tc / 6400) ++ leBytes 4 (r.tp / 6400) })) ∧
      (scope = 1 → d.ring n = none → exec (.trafficStatus c) s = .next (s.on fun _ => d.respond c.path
        { payload := leBytes 8 d.now ++ zeros 32 })) ∧
      (scope = 2 → exec (.trafficStatus c) s = .next (s.on fun _ => d.respond c.path
        { payload :=
            let a := (d.net.arbiters[n]?).getD {}
            leBytes 8 d.now ++ (List.range 16).flatMap fun k =>
              leBytes 8 ((a.deliveries[k]?).getD 0) ++ leBytes 4 (d.arbiterQueued n k) ++
                leBytes 4 (if 3 ≤ k then (a.deficit[k - 3]?).getD 0 else 0) })))

/-- OWN_CLAIM, OWN_RENEW, OWN_RELEASE, OWN_HANDOVER and OWN_ACCEPT. Accepted and passing their checks: a claim with no
owner joins the claim window, which its first claim ends 50 ms after its stamp, and its response waits; one by the
owner answers OK; OWN_RENEW answers OK, its acceptance having set the lease to end 500 ms from now; OWN_RELEASE
leaves no owner; OWN_HANDOVER opens an offer to its target for its time (1,000 ms for 0); OWN_ACCEPT makes its
master the owner.
It rests on 04_control_plane.md. -/
def Obligations.OwnershipCommands : Prop :=
  ∀ (s : State) (c : Cmd),
    (Runs s 0x0010 immOwnClaim c → ((s.dev.takes c 0x0010).paths.box c.path).ownerAt = some (pathMaster c.path) →
      exec (.ownClaim c) s = .next (s.on fun _ =>
      let d := s.dev.takes c 0x0010
      d.respond c.path {})) ∧
    (Runs s 0x0010 immOwnClaim c → ((s.dev.takes c 0x0010).paths.box c.path).ownerAt = none →
      exec (.ownClaim c) s = .next (s.on fun _ =>
      let d := s.dev.takes c 0x0010
      (d.mapOwn fun o => { o with
        claimEnd := some (o.claimEnd.getD ((d.paths.box c.path).accepted + 40000000)),
        claims := o.claims ++ [(pathMaster c.path, pathBox c.path, (d.paths.box c.path).accepted)] }).updBox c.path fun b => { b with begun := true })) ∧
    (Runs s 0x0011 immOwnRenew c → exec (.ownRenew c) s = .next (s.on fun _ =>
      let d := s.dev.takes c 0x0011
      d.respond c.path {}) ∧
      (s.dev.takes c 0x0011).own.leaseExpiry = (s.dev.takes c 0x0011).now + 400000000) ∧
    (Runs s 0x0012 immOwnRelease c → exec (.ownRelease c) s = .next (s.on fun _ =>
      let d := s.dev.takes c 0x0012
      (d.setOwner none d.now (callOf c 0x0012).tag).respond c.path {})) ∧
    (Runs s 0x0013 immOwnHandover c → exec (.ownHandover c) s = .next (s.on fun _ =>
      let d := s.dev.takes c 0x0013
      let p := (callOf c 0x0013).payload
      (d.mapOwn fun o => { o with
        offerTarget := some (match fieldU8 p 0 with
          | 1 => .host
          | 2 => .fabric
          | _ => .board),
        offerEnd := (d.paths.box c.path).accepted + 800000 * (if fieldU16 p 2 = 0 then 1000 else fieldU16 p 2) }).respond c.path {})) ∧
    (Runs s 0x0014 immOwnAccept c → exec (.ownAccept c) s = .next (s.on fun _ =>
      let d := s.dev.takes c 0x0014
      (d.setOwner (some (pathMaster c.path)) (d.paths.box c.path).accepted (callOf c 0x0014).tag).respond c.path {}))

/-- What the passing of ownership does. When ownership passes from an owner to another master or to none: the old
owner's OPEN and CHECKED sets are ABORTED and every other set is unchanged, an open offer closes, the new owner
holds a lease of 500 ms from the stamp, the Tally is untouched, and one event 0x8002 naming old and new owner, with
the tag of the command that caused it, enters the fault ring.
It rests on 04_control_plane.md. -/
def Obligations.OwnershipPasses : Prop :=
  ∀ (d : Device) (old : Master) (new : Option Master) (stamp tag : Nat), d.own.owner = some old → new ≠ some old →
    (d.setOwner new stamp tag).own.owner = new ∧ (d.setOwner new stamp tag).own.offerTarget = none ∧
    (∀ m, new = some m → (d.setOwner new stamp tag).own.leaseExpiry = stamp + 400000000) ∧
    (∀ id x, Table.find d.staging.sets id = some x →
      Table.find (d.setOwner new stamp tag).staging.sets id = some
        (if x.owner = old ∧ (x.state = .open ∨ x.state = .checked) then { x with state := .aborted } else x)) ∧
    (d.setOwner new stamp tag).tally = d.tally ∧ (d.setOwner new stamp tag).faults.next = d.faults.next + 1 ∧
    (d.setOwner new stamp tag).faults.ring.head? = some (Report.bytes { source := d.src srcFirmware, code := 0x8002, sub := 256 * masterCode (some old) + masterCode new, addr := tag } stamp)

/-- STAGE_OPEN, STAGE_CHECK, STAGE_COMMIT and STAGE_ABORT. Accepted and passing their checks: STAGE_OPEN gives a new
OPEN set of the path's master under a free id and returns the id; STAGE_CHECK makes the set CHECKED; STAGE_COMMIT
makes it COMMITTED for its instant T, in the order of commits; STAGE_ABORT makes it ABORTED. Nothing else changes
but the response.
It rests on 04_control_plane.md. -/
def Obligations.StageSetCommands : Prop :=
  ∀ (s : State) (c : Cmd),
    (Runs s 0x0100 immStageOpen c → exec (.stageOpen c) s = .next (s.on fun _ =>
      let d := s.dev.takes c 0x0100
      let fresh : StageSet := { owner := pathMaster c.path }
      (d.mapStaging fun x => { x with sets := Table.put x.sets d.freeSetId fresh, nextId := (d.freeSetId + 1) % 65535 }).respond
        c.path { payload := leBytes 2 d.freeSetId ++ zeros 2 })) ∧
    (Runs s 0x0101 immStageCheck c → exec (.stageCheck c) s = .next (s.on fun _ =>
      let d := s.dev.takes c 0x0101
      let p := (callOf c 0x0101).payload
      (d.updSet (fieldU16 p 0) fun x => { x with state := .checked }).respond c.path {})) ∧
    (Runs s 0x0102 immStageCommit c → exec (.stageCommit c) s = .next (s.on fun _ =>
      let d := s.dev.takes c 0x0102
      let p := (callOf c 0x0102).payload
      ((d.updSet (fieldU16 p 0) fun x => { x with
        state := .committed, instant := fieldU64 p 8, order := d.staging.commits, tag := (callOf c 0x0102).tag }).mapStaging
        fun x => { x with commits := x.commits + 1 }).respond c.path {})) ∧
    (Runs s 0x0103 immStageAbort c → exec (.stageAbort c) s = .next (s.on fun _ =>
      let d := s.dev.takes c 0x0103
      let p := (callOf c 0x0103).payload
      (d.updSet (fieldU16 p 0) fun x => { x with state := .aborted }).respond c.path {}))

/-- When STAGE_COMMIT is refused for its instant. A STAGE_COMMIT that names a CHECKED set with its reserved bytes zero,
accepted: with T more than 1,000 s after now it is answered BAD_ARGUMENT for byte 8; with T less than 50
microseconds after now (and room among the committed sets) it is answered LATE with the present stamp; no set
changes.
It rests on 04_control_plane.md, 03_tally_and_ordering.md. -/
def Obligations.CommitWindow : Prop :=
  ∀ (s : State) (c : Cmd),
    Accepted s 0x0102 (.immediate immStageCommit) c →
      let d := s.dev.takes c 0x0102
      let p := (callOf c 0x0102).payload
      d.setNamed (callOf c 0x0102) = none → reserved p 2 6 = none → d.setState (callOf c 0x0102) = .checked →
        (d.now + 800000000000 < fieldU64 p 8 →
          exec (.stageCommit c) s = .next (s.on fun _ => d.respond c.path { result := resBadArgument, detail := 8 })) ∧
        (fieldU64 p 8 < d.now + 40000 → d.committed.length < 32 →
          exec (.stageCommit c) s = .next (s.on fun _ => d.respond c.path { result := resLate, detail := d.now }))

/-- A staged command joins its set. Every staged command, accepted into a set that exists and passing its form, its
judgement on the configuration with the set's earlier commands applied, and the room of the set, joins the set
(which is OPEN again) and is answered ACCEPTED with the set and its index in it; the configuration itself does not
change.
It rests on 04_control_plane.md. -/
def Obligations.StagedCommands : Prop :=
  ∀ (c : Cmd) (e : Instr × Staged × Nat), e ∈ stagedRows c → ∀ (s : State) (x : StageSet), Accepted s e.2.2 (.staged e.2.1) c →
    let d := s.dev.takes c e.2.2
    let id := c.stageSet.toNat
    let held : StagedCommand := { opcode := e.2.2, header := cmdHeader c e.2.2, payload := (callOf c e.2.2).payload,
                                  world := d.pathWorld c.path }
    let before := d.applyCommands x.commands
    Table.find d.staging.sets id = some x → e.2.1.form d held.payload = none →
    e.2.1.judge { staging := true, world := held.world, before := before, after := before } held.payload = none →
    d.setHasRoom x held = true →
      exec e.1 s = .next (s.on fun _ =>
        (d.mapStaging fun y => { y with sets := Table.update y.sets id fun z =>
          { z with state := .open, commands := z.commands ++ [held] } }).respond c.path
          { result := resAccepted, detail := 65536 * id + x.commands.length })

/-- A committed set applies all its commands in order at its instant. Where the Tally counts and the set with the
earliest instant T among the COMMITTED ones (the earliest commit at that instant) has no other due with it,
STAGE_APPLY moves the Tally to T and applies the set's commands in their staging order, all of them; the set is
APPLIED, the configuration measurement takes the set's digest in, and one event 0x8003 with the set and its tag is
recorded and traced, under the device id that the set leaves.
It rests on 04_control_plane.md, 03_tally_and_ordering.md. -/
def Obligations.SetApplies : Prop :=
  ∀ (s : State) (id : Nat) (x : StageSet) (rest : List (Nat × StageSet)), s.dev.counts = true →
    s.dev.committed = (id, x) :: rest →
    let d0 := s.dev.passTo x.instant
    let d1 := x.commands.foldl Device.applyStaged d0
    let d2 := (d1.mapStaging fun y => { y with sets := Table.update y.sets id fun z => { z with state := .applied } }).mapSecurity
      fun y => { y with cfgMeasure := digest (y.cfgMeasure ++ setDigest x.commands), setsApplied := y.setsApplied + 1 }
    let d3 := (d2.record { source := d2.src srcFirmware, code := 0x8003, aux := id, addr := x.tag }).traced 9 id 0 x.tag 0xFF
      (d2.src srcFirmware)
    (∀ e ∈ d3.committed, x.instant < e.2.instant) →
      exec .stageApply s = .next (s.on fun _ => d3.passTo x.instant)

/-- PADDOCK_PREEMPT and PADDOCK_RESUME. Accepted and passing their checks: PADDOCK_PREEMPT of a RUNNING paddock begins
its preemption to HELD in the mode asked for (IMMEDIATE where its image keeps state, log entry 109), a BOUNDARY one
to escalate after its budget from the command's stamp, and its response waits; of a HELD one it answers OK; of a
WAITING or SAVED one it makes it HELD, schedules and answers OK. PADDOCK_RESUME of a HELD paddock makes it SAVED,
WAITING or VACANT by what it holds and the work it has, schedules, and answers OK.
It rests on 15_paddocks_and_preemption.md. -/
def Obligations.PaddockCommands : Prop :=
  ∀ (s : State) (c : Cmd),
    (∀ x : Paddock, Runs s 0x0204 immPaddockPreempt c →
      let d := s.dev.takes c 0x0204
      let p := (callOf c 0x0204).payload
      d.paddock (fieldU8 p 0) = some x → x.state = .running → fieldU8 p 1 = 0 → d.maxStep (fieldU8 p 0) ≠ 0 →
        exec (.paddockPreempt c) s = .next (s.on fun _ => (d.updBox c.path fun b => { b with begun := true }).beginPreempt (fieldU8 p 0) .boundary
          (some ((d.paths.box c.path).accepted + (if fieldU32 p 4 = 0 then x.budget else fieldU32 p 4))) true
          (some (pathMaster c.path, pathBox c.path)))) ∧
    (∀ x : Paddock, Runs s 0x0204 immPaddockPreempt c →
      let d := s.dev.takes c 0x0204
      let p := (callOf c 0x0204).payload
      d.paddock (fieldU8 p 0) = some x → x.state = .running → (fieldU8 p 1 = 1 ∨ d.maxStep (fieldU8 p 0) = 0) →
        exec (.paddockPreempt c) s = .next (s.on fun _ => (d.updBox c.path fun b => { b with begun := true }).beginPreempt (fieldU8 p 0) .immediate none true
          (some (pathMaster c.path, pathBox c.path)))) ∧
    (∀ x : Paddock, Runs s 0x0204 immPaddockPreempt c →
      let d := s.dev.takes c 0x0204
      let p := (callOf c 0x0204).payload
      d.paddock (fieldU8 p 0) = some x → x.state = .held →
        exec (.paddockPreempt c) s = .next (s.on fun _ => d.respond c.path {})) ∧
    (∀ x : Paddock, Runs s 0x0204 immPaddockPreempt c →
      let d := s.dev.takes c 0x0204
      let p := (callOf c 0x0204).payload
      d.paddock (fieldU8 p 0) = some x → x.state ≠ .running → x.state ≠ .held →
        exec (.paddockPreempt c) s = .next (s.on fun _ => ((d.updPaddock (fieldU8 p 0) fun y => { y with
          suspended := y.suspended || decide (x.state = .saved) }).setPaddockState (fieldU8 p 0) .held (callOf c 0x0204).tag).schedule.respond c.path {})) ∧
    (∀ x : Paddock, Runs s 0x0205 immPaddockResume c →
      let d := s.dev.takes c 0x0205
      let n := fieldU8 (callOf c 0x0205).payload 0
      d.paddock n = some x →
        exec (.paddockResume c) s = .next (s.on fun _ => ((d.setPaddockState n
          (if x.suspended then .saved else if d.hasWork n then .waiting else .vacant) (callOf c 0x0205).tag).schedule).respond c.path {}))

/-- Images, codebooks and grammars: registration, loading, building and retirement. Accepted and passing their checks:
IMAGE_REGISTER of an image that reads without error and passes every check registers it under the paddock's next
handle and returns handle and digest; IMAGE_RETIRE removes it; BALE_CODEBOOK_LOAD makes the slot READY with its
record; BALE_CODEBOOK_BUILD books its sample with the regions that hold it, makes the slot BUILDING until the last
of them ends, and its response waits; SERVE_MASK_LOAD of a grammar that reads without error and passes its checks
adds it, and SERVE_MASK_RETIRE removes it.
It rests on 07_compiled_schedules.md, 10_bales.md, 16_serving_steps_and_sampling.md. -/
def Obligations.ImageBookGrammarCommands : Prop :=
  ∀ (s : State) (c : Cmd),
    (∀ x : Paddock, Runs s 0x0300 immImageRegister c →
      let d := s.dev.takes c 0x0300
      let p := (callOf c 0x0300).payload
      let im := d.load (fieldU64 p 0) (fieldU32 p 8)
      d.paddock (fieldU8 p 12) = some x →
      d.checkedRead (fieldU64 p 0) (fieldU32 p 8) (d.src srcFirmware) 0xFF = (d, none) →
      d.imageCheck (fieldU8 p 12) x im (fieldU32 p 8) = none →
        exec (.imageRegister c) s = .next (s.on fun _ =>
          let image : Image := { bytes := im, address := fieldU64 p 0 }
          let images := Table.put d.images (0x4000000 * fieldU8 p 12 + x.nextSerial % 0x4000000) image
          (({ d with images := images }).updPaddock (fieldU8 p 12)
            fun y => { y with nextSerial := y.nextSerial + 1 }).respond c.path
            { payload := leBytes 4 (0x4000000 * fieldU8 p 12 + x.nextSerial % 0x4000000) ++ zeros 4 ++ bytesAt im 32 64 })) ∧
    (Runs s 0x0302 immImageRetire c → exec (.imageRetire c) s = .next (s.on fun _ =>
      let d := s.dev.takes c 0x0302
      let p := (callOf c 0x0302).payload
      ({ d with images := Table.del d.images (fieldU32 p 0) }).respond c.path {})) ∧
    (Runs s 0x0800 immCodebookLoad c → exec (.baleCodebookLoad c) s = .next (s.on fun _ =>
      let d := s.dev.takes c 0x0800
      let p := (callOf c 0x0800).payload
      (d.putBook (fieldU8 p 0) (fieldU8 p 1) { state := .ready, generation := fieldU8 p 9, record := p.drop 8, since := d.now }).respond
        c.path {})) ∧
    (Runs s 0x0801 immCodebookBuild c → exec (.baleCodebookBuild c) s = .next (s.on fun _ =>
      let d := s.dev.takes c 0x0801
      let p := (callOf c 0x0801).payload
      let w := d.bookWork ((rangeShares (fieldU64 p 8) (4096 * fieldU32 p 4)).filter fun e => decide (0 < e.2))
      (w.1.putBook (fieldU8 p 0) (fieldU8 p 1) { d.book (fieldU8 p 0) (fieldU8 p 1) with
          state := .building, build := some (pathMaster c.path, pathBox c.path, p),
          before := some ((d.book (fieldU8 p 0) (fieldU8 p 1)).state, (d.book (fieldU8 p 0) (fieldU8 p 1)).generation,
            (d.book (fieldU8 p 0) (fieldU8 p 1)).record), ends := w.2 }).updBox c.path fun b => { b with begun := true })) ∧
    (Runs s 0x0901 immMaskLoad c →
      let d := s.dev.takes c 0x0901
      let p := (callOf c 0x0901).payload
      d.readGrammar (fieldU64 p 8) (fieldU32 p 16) = (d, none) →
      d.grammarCheck (fieldU8 p 0) (fieldU8 p 1) (fieldU64 p 8) (fieldU32 p 16) = none →
        exec (.serveMaskLoad c) s = .next (s.on fun _ => (d.updServing (fieldU8 p 0) fun y =>
          { y with grammars := y.grammars ++ [(fieldU8 p 1, fieldU64 p 8, fieldU32 p 16)] }).respond c.path {})) ∧
    (Runs s 0x0902 immMaskRetire c → exec (.serveMaskRetire c) s = .next (s.on fun _ =>
      let d := s.dev.takes c 0x0902
      let p := (callOf c 0x0902).payload
      (d.updServing (fieldU8 p 0) fun y =>
        { y with grammars := y.grammars.filter fun e => decide (e.1 ≠ fieldU8 p 1) }).respond c.path {}))

/-- FAULT_INJECT, FAULT_CLEAR, POWER_STATE_SET, FW_WRITE and FW_ACTIVATE. Accepted and passing their checks:
FAULT_INJECT arms its error; FAULT_CLEAR of a paddock clears it, of the chip clears each flag whose condition has
ended, and records event 0x800A; POWER_STATE_SET answers OK and then enters STANDBY, leaves it, or arms a reset 1 ms
away; FW_WRITE writes its bytes to its slot; FW_ACTIVATE confirms the running slot, blowing the fuses, or checks the
other and puts it on trial when it is valid, and else answers with the reason why it is not.
It rests on 17_faults_and_recovery.md, 18_security_and_firmware_trust.md, 19_clocks_power_and_reset.md. -/
def Obligations.FaultPowerFirmwareCommands : Prop :=
  ∀ (s : State) (c : Cmd),
    (Runs s 0x0B03 immFaultInject c → exec (.faultInject c) s = .next (s.on fun _ =>
      let d := s.dev.takes c 0x0B03
      let p := (callOf c 0x0B03).payload
      let arm : Injection :=
        { kind := fieldU8 p 0, persist := decide (fieldU8 p 1 = 1), paddock := fieldU8 p 2, target := fieldU64 p 8 }
      (d.mapFaults fun f => { f with injection := some arm }).respond c.path {})) ∧
    (Runs s 0x0B02 immFaultClear c → fieldU8 (callOf c 0x0B02).payload 0 = 0 →
      exec (.faultClear c) s = .next (s.on fun _ =>
      let d := s.dev.takes c 0x0B02
      let p := (callOf c 0x0B02).payload
      let e := d.clearPaddock (fieldU8 p 1) (fieldU8 p 2) (callOf c 0x0B02).tag
      let r : Report := { source := d.src srcFirmware, paddock := fieldU8 p 1, code := 0x800A, aux := e.faults.flags, addr := c.tag.toNat }
      (e.record r).respond c.path {})) ∧
    (Runs s 0x0B02 immFaultClear c → fieldU8 (callOf c 0x0B02).payload 0 = 1 →
      exec (.faultClear c) s = .next (s.on fun _ =>
      let d := s.dev.takes c 0x0B02
      let e := d.clearChip
      let r : Report := { source := d.src srcFirmware, code := 0x800A, sub := 1, aux := e.faults.flags, addr := c.tag.toNat }
      (e.record r).respond c.path { detail := e.faults.flags })) ∧
    (Runs s 0x0D00 immPowerStateSet c → fieldU8 (callOf c 0x0D00).payload 0 = 1 → (s.dev.takes c 0x0D00).inStandby = false →
      exec (.powerStateSet c) s = .next (s.on fun _ =>
      let d := s.dev.takes c 0x0D00
      let p := (callOf c 0x0D00).payload
      (d.respond c.path {}).enterStandby (fieldU64 p 8))) ∧
    (Runs s 0x0D00 immPowerStateSet c → fieldU8 (callOf c 0x0D00).payload 0 = 3 →
      exec (.powerStateSet c) s = .next (s.on fun _ =>
      let d := s.dev.takes c 0x0D00
      (d.respond c.path {}).leaveStandby)) ∧
    (Runs s 0x0D00 immPowerStateSet c → (fieldU8 (callOf c 0x0D00).payload 0 = 5 ∨ fieldU8 (callOf c 0x0D00).payload 0 = 6) →
      exec (.powerStateSet c) s = .next (s.on fun _ =>
      let d := s.dev.takes c 0x0D00
      let p := (callOf c 0x0D00).payload
      (d.respond c.path {}).mapBoot fun b =>
        { b with resetAt := some (d.now + 800000, decide (fieldU8 p 0 = 6)) })) ∧
    (Runs s 0x0E01 immFwWrite c → exec (.fwWrite c) s = .next (s.on fun _ =>
      let d := s.dev.takes c 0x0E01
      let p := (callOf c 0x0E01).payload
      (d.writeSlot (fieldU8 p 0) (fieldU32 p 4) (p.drop 8)).respond c.path {})) ∧
    (Runs s 0x0E02 immFwActivate c → fieldU8 (callOf c 0x0E02).payload 1 = 1 →
      exec (.fwActivate c) s = .next (s.on fun _ =>
      let d := s.dev.takes c 0x0E02
      let p := (callOf c 0x0E02).payload
      (((d.writeBootRecord (fieldU8 p 0) 0 0).blowFuses).mapSecurity fun y => { y with onTrial := false }).respond c.path {})) ∧
    (Runs s 0x0E02 immFwActivate c → fieldU8 (callOf c 0x0E02).payload 1 = 0 →
      exec (.fwActivate c) s = .next (s.on fun _ =>
      let d := s.dev.takes c 0x0E02
      let p := (callOf c 0x0E02).payload
      let n := fieldU8 p 0
      let reason := d.checkSlot n
      if reason = 0 then
        ((d.setSlotState n 1 0 d.now).writeBootRecord n 1 (if fieldU8 p 2 = 0 then 3 else fieldU8 p 2)).respond c.path {}
      else (d.setSlotState n 2 reason d.now).respond c.path
        { result := if reason = 3 ∨ reason = 4 ∨ reason = 8 then resAuthFailed else resVersion, detail := reason }))

/-- NOP, WRITE, READ, ATOMIC, SEND, RECV and WAIT descriptors. Taken from the head of its ring and passing its checks:
NOP completes OK; each packet of a WRITE, and a SEND's one, goes to its connection through the OUT window of its
bytes (and ends the descriptor with NO_ADDRESS where that is gone), and READ and ATOMIC post their one request
there, each descriptor in flight until what it expects has come; RECV leaves its buffer for a SEND; a WAIT for a
ring's count completes when the count has been reached and else stays in flight; a WAIT for a bell joins the bell's
waiters, which are examined.
It rests on 12_fabric_transport.md. -/
def Obligations.TransportDescriptors : Prop :=
  ∀ (s : State) (x : Desc) (r : Ring),
    (Taken s x kindNop r → exec (.nopDescriptor x) s = .next (s.goesOn x (
      let d := s.taken x kindNop r
      let j := jobOf x kindNop r
      d.finish j resOk))) ∧
    (Taken s x kindWrite r → (s.taken x kindWrite r).checkedRead (fieldU64 (rowBytes kindWrite x) 24) (fieldU32 (rowBytes kindWrite x) 40) ((s.taken x kindWrite r).src (srcRing x.ring.val)) r.paddock =
      (s.taken x kindWrite r, none) →
      exec (.writeDescriptor x) s = .next (s.goesOn x (
      let d := s.taken x kindWrite r
      let j := jobOf x kindWrite r
      let b := rowBytes kindWrite x
      let packets := writePackets (fieldU64 b 32 % 2 ^ 46) (fieldU32 b 20) (fieldU32 b 44) (fieldU16 b 48)
        (d.load (fieldU64 b 24) (fieldU32 b 40)) (bitOf (fieldU8 b 51) 0) (d.descOutgoing j 1)
      packets.foldl (fun d' o => d'.postThrough j.paddock (fieldU32 b 16)
        (fieldU64 b 24 + (if o.ext.isEmpty then 0 else fieldBe o.ext 20 4)) o fun d' => d'.finish j resConflict 1)
        (d.updRing j.ring fun q => { q with inFlight := q.inFlight.map fun i => if i.index = j.index then { i with left := packets.length } else i })))) ∧
    (Taken s x kindRead r → exec (.readDescriptor x) s = .next (s.goesOn x (
      let d := s.taken x kindRead r
      let j := jobOf x kindRead r
      let b := rowBytes kindRead x
      let request : Outgoing :=
        { d.descOutgoing j 3 with ext := accessExt (fieldU64 b 32 % 2 ^ 46) (fieldU32 b 20) noBell 0 0 0 (fieldU32 b 40), wants := true }
      (d.updRing j.ring fun q => { q with inFlight := q.inFlight.map fun i => if i.index = j.index then { i with left := fieldU32 b 40 } else i }).post (fieldU32 b 16) [request]))) ∧
    (Taken s x kindAtomic r → exec (.atomicDescriptor x) s = .next (s.goesOn x (
      let d := s.taken x kindAtomic r
      let j := jobOf x kindAtomic r
      let b := rowBytes kindAtomic x
      let request : Outgoing :=
        { d.descOutgoing j 5 with ext := accessExt (fieldU64 b 32 % 2 ^ 46) (fieldU32 b 20) noBell 0 (fieldU8 b 50) 0 8,
                                  payload := bytesAt b 56 8 ++ bytesAt b 40 8, wants := true }
      (d.updRing j.ring fun q => { q with inFlight := q.inFlight.map fun i => if i.index = j.index then { i with left := 1 } else i }).post (fieldU32 b 16) [request]))) ∧
    (Taken s x kindSend r → (s.taken x kindSend r).checkedRead (fieldU64 (rowBytes kindSend x) 24) (fieldU32 (rowBytes kindSend x) 40) ((s.taken x kindSend r).src (srcRing x.ring.val)) r.paddock =
      (s.taken x kindSend r, none) →
      exec (.sendDescriptor x) s = .next (s.goesOn x (
      let d := s.taken x kindSend r
      let j := jobOf x kindSend r
      let b := rowBytes kindSend x
      let request : Outgoing := { d.descOutgoing j 7 with payload := d.load (fieldU64 b 24) (fieldU32 b 40) }
      (d.updRing j.ring fun q => { q with inFlight := q.inFlight.map fun i => if i.index = j.index then { i with left := 1 } else i }).postThrough j.paddock (fieldU32 b 16) (fieldU64 b 24) request fun d' => d'.finish j resConflict 1))) ∧
    (Taken s x kindRecv r → exec (.recv x) s = .next (s.goesOn x (
      let d := s.taken x kindRecv r
      let j := jobOf x kindRecv r
      let b := rowBytes kindRecv x
      d.updRing j.ring fun q => { q with recvs := q.recvs ++ [(j.index, fieldU64 b 24, fieldU32 b 40)] }))) ∧
    (∀ q : Ring, Taken s x kindWait r → fieldU8 (rowBytes kindWait x) 16 = 0 →
      (s.taken x kindWait r).ring (fieldU32 (rowBytes kindWait x) 20) = some q →
      exec (.wait x) s = .next (s.goesOn x (
        if 0 ≤ signed 32 (q.completed + 2 ^ 32 - fieldU32 (rowBytes kindWait x) 24) then
          (s.taken x kindWait r).finish (jobOf x kindWait r) resOk else s.taken x kindWait r))) ∧
    (Taken s x kindWait r → fieldU8 (rowBytes kindWait x) 16 = 1 →
      exec (.wait x) s = .next (s.goesOn x (
      let d := s.taken x kindWait r
      let j := jobOf x kindWait r
      let b := rowBytes kindWait x
      let bell := 65536 + 1024 * ringDie j.ring + fieldU32 b 20
      let q := (d.setBell j.paddock bell { d.bell j.paddock bell with
          waiters := (d.bell j.paddock bell).waiters ++ [(2 ^ 20 + j.ring, fieldU32 b 24, 0)] }).examine j.paddock bell
        (d.src (srcRing j.ring))
      q.1.perform q.2)))

/-- IMAGE_LOAD, PAGE_SELECT and STEP descriptors. Taken from the head of its ring and passing its checks: IMAGE_LOAD
books its writes with the regions' managers, makes its image LOADING and joins the paddock's loads with the tick at
which the last write ends; PAGE_SELECT joins the selections of its region, whose unit begins it when it is free;
STEP, its entries read without error, joins the paddock's steps with one lane for each entry. Each stays in flight.
It rests on 07_compiled_schedules.md, 09_attention_and_pages.md, 16_serving_steps_and_sampling.md. -/
def Obligations.ServiceDescriptors : Prop :=
  ∀ (s : State) (x : Desc) (r : Ring),
    (Taken s x kindImageLoad r → exec (.imageLoad x) s = .next (s.goesOn x (
      let d := s.taken x kindImageLoad r
      let j := jobOf x kindImageLoad r
      let b := rowBytes kindImageLoad x
      let w := d.writeImage (((Table.find d.images (fieldU32 b 16)).map (·.bytes)).getD [])
      let load : Loading :=
        { ring := j.ring, index := j.index, handle := fieldU32 b 16, start := fieldU64 b 24, written := w.2 }
      (w.1.updImage (fieldU32 b 16) fun y => { y with state := .loading }).mapService fun y =>
        { y with loading := y.loading ++ [(j.paddock, load)] }))) ∧
    (Taken s x kindSelect r → exec (.pageSelect x) s = .next (s.goesOn x (
      let d := s.taken x kindSelect r
      let j := jobOf x kindSelect r
      let b := rowBytes kindSelect x
      let one : Selecting := { ring := j.ring, index := j.index, bytes := b }
      (d.mapService fun y => { y with
        selecting := y.selecting.setIfInBounds (fieldU8 b 60) ((y.selecting[fieldU8 b 60]?).getD [] ++ [one]) }).startSelect
        (fieldU8 b 60)))) ∧
    (∀ c : ServeConfig, Taken s x kindStep r → ((s.taken x kindStep r).serving r.paddock).cfg = some c →
      (s.taken x kindStep r).checkedRead (fieldU64 (rowBytes kindStep x) 16) (64 * fieldU16 (rowBytes kindStep x) 32)
        ((s.taken x kindStep r).src (srcRing x.ring.val)) r.paddock = (s.taken x kindStep r, none) →
      exec (.step x) s = .next (s.goesOn x (
        let d := s.taken x kindStep r
        let b := rowBytes kindStep x
        let step : ServeStep :=
          { ring := x.ring.val, index := r.taken, phase := .queued, takenAt := d.now, entries := fieldU64 b 16,
            completions := fieldU64 b 24, deadline := fieldU64 b 40, cfg := c,
            lanes := (d.stepEntries b).map fun e => { entry := e } }
        d.updServing r.paddock fun y => { y with steps := y.steps ++ [step] })))

/-- CREATE, OFFER, PULL and RELEASE descriptors of droves. Taken from the head of its ring and passing its checks:
CREATE writes a new OWNED record with the content given, its table and tag fields from the descriptor, and completes
OK. OFFER of an OWNED record that is not waited for, with a sound plan and room, makes it HANDING until D = its
taking stamp + ticks with its plan, and stays in flight. PULL, with its source reachable and sets enough, takes its
sets, writes its tables, joins the pulls and sends PULL_PAGES. RELEASE of an OWNED record frees its own tables and
asks each remote holder in the map to release its pages; with none it is RELEASED and completes OK.
It rests on 11_droves_folds_and_tiers.md. -/
def Obligations.DroveDescriptors : Prop :=
  ∀ (s : State) (x : Desc) (r : Ring),
    (Taken s x kindCreate r → fieldU64 (rowBytes kindCreate x) 40 = 0 →
      exec (.droveCreate x) s = .next (s.goesOn x (
      let d := s.taken x kindCreate r
      let j := jobOf x kindCreate r
      let b := rowBytes kindCreate x
      let content := overwrite (overwrite (zeros 184) 0 (leBytes 8 (fieldU64 b 24))) 8 (leBytes 8 (fieldU64 b 32))
      (d.newRecord j.paddock (fieldU64 b 16) 1 0 false content).finish j resOk))) ∧
    (Taken s x kindCreate r → fieldU64 (rowBytes kindCreate x) 40 ≠ 0 →
      (s.taken x kindCreate r).checkedRead (fieldU64 (rowBytes kindCreate x) 40) (184) ((s.taken x kindCreate r).src (droveSource x.ring.val)) r.paddock =
      (s.taken x kindCreate r, none) →
      exec (.droveCreate x) s = .next (s.goesOn x (
      let d := s.taken x kindCreate r
      let j := jobOf x kindCreate r
      let b := rowBytes kindCreate x
      let content := overwrite (overwrite (d.load (fieldU64 b 40) 184) 0 (leBytes 8 (fieldU64 b 24))) 8 (leBytes 8 (fieldU64 b 32))
      (d.newRecord j.paddock (fieldU64 b 16) 1 0 false content).finish j resOk))) ∧
    (Taken s x kindOffer r →
      let d := s.taken x kindOffer r
      let j := jobOf x kindOffer r
      let b := rowBytes kindOffer x
      let rec' := fieldU64 b 16
      let a := fieldU64 b 24
      let n := fieldU8 b 36
      let at' := d.takenAt j + (if fieldU32 b 32 = 0 then (d.droveState j.paddock).deadline else fieldU32 b 32)
      d.mustWait j.paddock rec' = false → d.checkedRead a (16 * n) (d.src (droveSource j.ring)) j.paddock = (d, none) →
      d.recState rec' = 1 → d.recEpoch rec' ≠ 0xFFFFFFFF → d.handingCount < 8192 → d.planCheck j.paddock rec' a n = none →
        exec (.droveOffer x) s = .next (s.goesOn x (
          let offer : Offer := { ring := j.ring, index := j.index, paddock := j.paddock, epoch := d.recEpoch rec',
                                 deadline := at', plan := d.readPlan a n }
          ((d.setRecState rec' 2 false).setHanding rec' at' a).mapService fun y =>
            { y with offers := Table.put y.offers rec' offer, ended := Table.del y.ended rec' }))) ∧
    (∀ (c : ServeConfig) (conn : Nat) (sets shades : List Nat × Device), Taken s x kindPull r →
      let d := s.taken x kindPull r
      let j := jobOf x kindPull r
      let b := rowBytes kindPull x
      let source := fieldU64 b 16
      let mode := fieldU8 b 45
      let shadow := if bitOf (fieldU8 b 46) 0 then fieldU64 b 56 else 0
      let recordAt := if mode = 0 then d.globalOf (fieldU64 b 24) else source
      (d.serving r.paddock).cfg = some c → d.holderConn j.paddock source = some conn →
      d.popSets j.paddock (fieldU8 b 44) j.pullRange.2 = some sets →
      sets.2.popSets j.paddock (fieldU8 b 47) j.shadowRange.2 = some shades →
      c.arrivals j.pullRange.2 + j.shadowRange.2 * c.setPages ≠ 0 →
        exec (.drovePull x) s = .next (s.goesOn x (
          let d1 := shades.2.writeTable j.paddock (fieldU64 b 32) c sets.1 (fieldU32 b 40) recordAt source j.pullRange.1 false
          let d2 := if shadow = 0 then d1
            else d1.writeTable j.paddock shadow c shades.1 (fieldU32 b 40) recordAt source j.shadowRange.1 true
          let pull : Pull :=
            { ring := j.ring, index := j.index, paddock := j.paddock, mode := mode, source := source, record := fieldU64 b 24,
              table := fieldU64 b 32, shadow := shadow, epoch := fieldU32 b 40,
              left := c.arrivals j.pullRange.2 + j.shadowRange.2 * c.setPages, conn := conn }
          let d3 := d2.mapService fun y => { y with pulls := y.pulls ++ [pull] }
          d3.sendDrove j.paddock (source / 2 ^ 46) (holderPaddock source) (d3.ringClass j.ring)
            { type := 1, flags := b2n (decide (shadow ≠ 0)), epoch := fieldU32 b 40, record := source,
              table := d3.globalOf (fieldU64 b 32), first := if mode = 2 then fieldU32 b 48 else 0,
              count := if mode = 2 then fieldU32 b 52 else 0 }))) ∧
    (Taken s x kindRelease r →
      let d := s.taken x kindRelease r
      let j := jobOf x kindRelease r
      let rec' := fieldU64 (rowBytes kindRelease x) 16
      let content := d.recContent rec'
      let remotes := remotesOf content
      let source := droveSource j.ring
      let freed := (d.freeTable j.paddock (d.recTable rec') source).freeTable j.paddock (d.recShadow rec') source
      let reach := remotes.filterMap fun e => (d.holderConn j.paddock e.1).map fun c => (e.1, c)
      let release : Release := { ring := some (j.ring, j.index), paddock := j.paddock, waiting := reach,
                                 lost := decide (reach.length ≠ remotes.length) }
      let begun := freed.mapService fun y => { y with releases := Table.put y.releases rec' release }
      d.mustWait j.paddock rec' = false → d.recState rec' = 1 → Table.find d.service.releases rec' = none →
      (∀ e ∈ remotes, d.pairInMap (d.foldNumber j.paddock) (e.1 / 2 ^ 46) (holderPaddock e.1) = true) →
        (remotes = [] → exec (.droveRelease x) s = .next (s.goesOn x (
          ((begun.mapService fun y => { y with releases := Table.del y.releases rec' }).setRecState rec' 4 false).perform
            [.done j.ring j.index resOk 0 0]))) ∧
        (remotes ≠ [] → exec (.droveRelease x) s = .next (s.goesOn x (
          ((List.range remotes.length).foldl (fun d' i =>
            match remotes[i]? with
            | none => d'
            | some e =>
              let unpin := decide (i = fieldU8 content 32 ∧ fieldU32 content 28 ≠ noNode)
              d'.sendDrove j.paddock (e.1 / 2 ^ 46) (holderPaddock e.1) (d.ringClass j.ring)
                { type := 0x0B, flags := b2n unpin, epoch := d'.recEpoch rec', record := d'.globalOf rec', table := e.1,
                  first := if unpin then fieldU32 content 28 else 0 }) begun).endRelease rec'))))

/-- The descriptors of the prefix tree and TIER_MOVE. Taken from the head of its ring and passing its checks, in a
paddock with a prefix tree: LOOKUP, its tokens read without error, writes the table of the matched path's sets,
stamps its nodes, with PIN pins the deepest, and completes with the chunks matched and that node; INSERT adds what
is missing of the path, pins alike, and completes with what it reached; UNPIN takes one reference from its node and
EVICT frees up to the number asked of nodes, and both complete; TIER_MOVE's first block joins the queue of the
window from or to its tier die.
It rests on 11_droves_folds_and_tiers.md. -/
def Obligations.PrefixDescriptors : Prop :=
  ∀ (s : State) (x : Desc) (r : Ring),
    (∀ (t : PrefixTree) (c : ServeConfig), Taken s x kindLookup r →
      let d := s.taken x kindLookup r
      let j := jobOf x kindLookup r
      let b := rowBytes kindLookup x
      let out := fieldU64 b 32
      d.prefixTree r.paddock = some t → (d.serving r.paddock).cfg = some c → d.readTokens j = (d, none) →
        exec (.prefixLookup x) s = .next (s.goesOn x (
          let nodes := d.matched t (d.chunkKeys (fieldU64 b 16) (chunksOf b) 0)
          let entries := (List.range nodes.length).flatMap fun i => setEntry (d.nodeSet t (nodes.getD i 0)) (16 * i) 16 1
          let d1 := d.store out (tableHeader nodes.length (fieldU32 b 40) (d.tableCapacity out) (fieldU64 b 48) c ++ entries)
          let d2 := nodes.foldl (fun d i => d.storeLe (t.node i + 40) 8 d.now) d1
          (match nodes.getLast? with
          | some i => if bitOf (fieldU8 b 28) 0 then d2.storeLe (t.node i + 24) 4 (d2.nodeRefs t i + 1) else d2
          | none => d2).finish j resOk 0 (nodes.length + 2 ^ 32 * nodes.getLast?.getD noNode)))) ∧
    (∀ t : PrefixTree, Taken s x kindInsert r →
      let d := s.taken x kindInsert r
      let j := jobOf x kindInsert r
      let b := rowBytes kindInsert x
      d.prefixTree r.paddock = some t → d.readTokens j = (d, none) →
        exec (.prefixInsert x) s = .next (s.goesOn x (
          let w := Device.insertWalk r.paddock t (fieldU64 b 32) 0 none (d.chunkKeys (fieldU64 b 16) (chunksOf b) 0) d
          (match w.2.1 with
          | some i => if bitOf (fieldU8 b 28) 0 then w.2.2.storeLe (t.node i + 24) 4 (w.2.2.nodeRefs t i + 1) else w.2.2
          | none => w.2.2).finish j resOk 0 (w.1 + 2 ^ 32 * w.2.1.getD noNode)))) ∧
    (∀ t : PrefixTree, Taken s x kindUnpin r →
      let d := s.taken x kindUnpin r
      let i := fieldU32 (rowBytes kindUnpin x) 16
      d.prefixTree r.paddock = some t →
        exec (.prefixUnpin x) s = .next (s.goesOn x (
          (d.storeLe (t.node i + 24) 4 (d.nodeRefs t i - 1)).finish (jobOf x kindUnpin r) resOk))) ∧
    (∀ t : PrefixTree, Taken s x kindEvict r →
      (s.taken x kindEvict r).prefixTree r.paddock = some t →
      exec (.prefixEvict x) s = .next (s.goesOn x (
        let q := Device.evictNodes r.paddock t (walkerSource x.ring.val) (fieldU32 (rowBytes kindEvict x) 16)
          (s.taken x kindEvict r)
        q.2.finish (jobOf x kindEvict r) resOk 0 q.1))) ∧
    (∀ win : Win, Taken s x kindTierMove r →
      let d := s.taken x kindTierMove r
      let j := jobOf x kindTierMove r
      let src := fieldU64 (rowBytes kindTierMove x) 16
      let dst := fieldU64 (rowBytes kindTierMove x) 24
      let toHbm := decide (dst < hbmEnd)
      d.windowFor j.paddock (if toHbm then 0 else 1) (tierEdge (if toHbm then src else dst)) (if toHbm then dst else src) 16 = some win →
      d.routeDown win = false →
        exec (.tierMove x) s = .next (s.goesOn x (d.joinWindow j.paddock win
          { size := (d.moveStride j).getD 0, cls := d.ringClass j.ring, link := none, address := if toHbm then dst else src,
            data := [], kind := .moved j.ring j.index 0 })))

/-- A descriptor row on an empty LIVE ring posts its descriptor first. Where the ring of a descriptor row is LIVE and
stands empty, the 64 bytes of the descriptor are stored in the slot at the head, the producer count moves past it,
and the ring takes it if it may.
It rests on 12_fabric_transport.md. -/
def Obligations.DescriptorPosted : Prop :=
  ∀ (s : State) (x : Desc) (r : Ring) (e : Instr × DescKind), e ∈ [(.nopDescriptor x, kindNop),
      (.writeDescriptor x, kindWrite), (.readDescriptor x, kindRead), (.atomicDescriptor x, kindAtomic),
      (.sendDescriptor x, kindSend), (.recv x, kindRecv), (.wait x, kindWait), (.imageLoad x, kindImageLoad),
      (.droveCreate x, kindCreate), (.droveOffer x, kindOffer), (.drovePull x, kindPull), (.droveRelease x, kindRelease),
      (.prefixLookup x, kindLookup), (.prefixInsert x, kindInsert), (.prefixUnpin x, kindUnpin), (.prefixEvict x, kindEvict),
      (.tierMove x, kindTierMove), (.pageSelect x, kindSelect), (.step x, kindStep)] →
    s.dev.ring x.ring.val = some r → r.state = .live → s.dev.headOf r = none →
      exec e.1 s = .next (s.goesOn x ((((s.dev.store (r.base + 64 * (r.taken % max r.entries 1)) (rowBytes e.2 x)).updRing
        x.ring.val fun q => { q with produced := (q.taken + 1) % 2 ^ 32 })).takeDescriptor e.2 x.ring.val))

/-- WRITE, WRITE_FLAG, READ_REQ, ATOMIC, SEND and MGMT_CMD frames that are accepted. A new request on an OPEN or CLOSING
connection that meets no refusal: a WRITE to an exposure joins the queue of its window, and one to the FABRIC page
is written; WRITE_FLAG, ATOMIC and a READ_REQ of an exposure are held for their turn in the stream, the access
counted and in use (a READ_REQ of the FABRIC page is held alike, no exposure being accessed); a SEND takes the
oldest posted RECV of the connection's ring and its data joins the window to that buffer; a MGMT_CMD of the bound
manager takes a queue entry, is accepted and executed. In each case its PSN is seen, its ACK noted, and the stream
goes on.
It rests on 12_fabric_transport.md, 04_control_plane.md. -/
def Obligations.RequestFrames : Prop :=
  ∀ (s : State) (link : Fin 64) (f : Frame) (c : Conn),
    let id := f.conn.toNat
    let a := accessOf f.ext
    (∀ w : Win, Fresh s link 0x01 f c → c.mgmt = false →
      let d := ((s.seen link 0x01 f c).accessBegun f).rxWaits id (wirePsn c.rxNext f.psn.toNat)
      d.windowFor c.paddock 0 c.home a.address f.cls.toNat = some w → d.routeDown w = false →
        exec (.write link f) s = .next (s.streamed link 0x01 f c (d.joinWindow c.paddock w
          { size := f.payload.length, cls := f.cls.toNat, link := some link.val, address := a.address, data := f.payload,
            kind := .packet id (wirePsn c.rxNext f.psn.toNat) a.index a.bell }))) ∧
    (Fresh s link 0x01 f c → c.mgmt = true → exec (.write link f) s =
      .next (s.streamed link 0x01 f c ((s.seen link 0x01 f c).pageWrite .fabric a.address f.payload))) ∧
    (Fresh s link 0x02 f c → exec (.writeFlag link f) s = .next (s.streamed link 0x02 f c (((s.seen link 0x02 f c).accessBegun f).updConn id fun q =>
        { q with held := q.held ++ [{ psn := wirePsn c.rxNext f.psn.toNat, opcode := 0x02, frame := f, link := link.val }] }))) ∧
    (Fresh s link 0x03 f c → c.mgmt = false → exec (.readReq link f) s = .next (s.streamed link 0x03 f c (((s.seen link 0x03 f c).accessBegun f).updConn id fun q =>
        { q with held := q.held ++ [{ psn := wirePsn c.rxNext f.psn.toNat, opcode := 0x03, frame := f, link := link.val }] }))) ∧
    (Fresh s link 0x03 f c → c.mgmt = true → exec (.readReq link f) s = .next (s.streamed link 0x03 f c ((s.seen link 0x03 f c).updConn id fun q =>
        { q with held := q.held ++ [{ psn := wirePsn c.rxNext f.psn.toNat, opcode := 0x03, frame := f, link := link.val }] }))) ∧
    (Fresh s link 0x05 f c → exec (.atomic link f) s = .next (s.streamed link 0x05 f c (((s.seen link 0x05 f c).accessBegun f).updConn id fun q =>
        { q with held := q.held ++ [{ psn := wirePsn c.rxNext f.psn.toNat, opcode := 0x05, frame := f, link := link.val }] }))) ∧
    (∀ (e : Nat × Nat × Nat) (w : Win), Fresh s link 0x07 f c → ((s.seen link 0x07 f c).ring c.recvRing).bind (·.recvs.head?) = some e →
      let d := ((s.seen link 0x07 f c).updRing c.recvRing fun r => { r with recvs := r.recvs.drop 1 }).rxWaits id (wirePsn c.rxNext f.psn.toNat)
      d.windowFor c.paddock 0 c.home e.2.1 f.cls.toNat = some w → d.routeDown w = false →
        exec (.send link f) s = .next (s.streamed link 0x07 f c (d.joinWindow c.paddock w
          { size := f.payload.length, cls := f.cls.toNat, link := some link.val, address := e.2.1, data := f.payload,
            kind := .recv id (wirePsn c.rxNext f.psn.toNat) c.recvRing e.1 e.2.1 e.2.2 }))) ∧
    (∀ e : Nat, Fresh s link 0x21 f c → (s.seen link 0x21 f c).mgmtEntry (fieldU16 f.payload 0) = some e →
      let path := pathOf .fabric e
      let d := ((s.seen link 0x21 f c).updBox path fun b => { b with cmd := f.payload, psn := wirePsn c.rxNext f.psn.toNat }).acceptBox path
        (fieldU16 f.payload 0)
      (d.serves path = true → exec (.mgmtCmd link f) s = .next (s.streamed link 0x21 f c (d.executeStored path))) ∧
      (d.serves path = false → exec (.mgmtCmd link f) s = .next (s.streamed link 0x21 f c (d))))

/-- Messages of a drove that its source, its receivers and its holders accept. Each new message that meets no refusal,
from a member of the map, for an offer at its epoch that is not released and whose D has not passed: PULL_PAGES of
the plan has its range served; PAGES_HELD marks its entry, and answers a held PULL_RECORD when all are held;
PULL_RECORD is held until all are held, then RECORD goes out; CONFIRM of the record receiver that was sent RECORD
makes the source RELEASED, frees its own table and retags the remotes; the last RETAG_DONE ends the offer with
RELEASED to the receivers; the last RELEASE_DONE makes the record RELEASED. From the source of a pull or, for RETAG
and RELEASE_PAGES, from a member of the map: RECORD whose CRC fits writes the copy OWNED at e + 1 with SETTLING,
sends CONFIRM and completes the pull; RELEASED ends the receiver's part, the copy settling and a page receiver's
table going to e + 1 (log entry 99); ABORT discards what the pull received, and ends one in progress with
DROVE_ABORTED; REFUSE ends a pull in progress with its code; RETAG of a table at e takes it to e + 1 and answers 1,
of any other answers 0; RELEASE_PAGES of a table at e frees it and answers 0, of any other answers WRONG_EPOCH. In
each case the PSN is seen, its ACK noted, and the stream goes on.
It rests on 11_droves_folds_and_tiers.md, 12_fabric_transport.md. -/
def Obligations.DroveFrames : Prop :=
  ∀ (s : State) (link : Fin 64) (f : Frame) (c q : Conn),
    (∀ (o : Offer) (e : PlanEntry), Fresh s link 0x23 (typed 1 f) c →
      let d := s.seen link 0x23 (typed 1 f) c
      let m := droveMsgOf (typed 1 f).payload
      let r := m.record % 2 ^ 46
      d.conn f.conn.toNat = some q → d.pairInMap (d.foldNumber q.paddock) q.peer q.peerPaddock = true →
      Table.find d.service.offers r = some o → o.retags = none → s.dev.now ≤ o.deadline → o.epoch = m.epoch →
      (o.entryFor q false).isSome = true ∨ (o.entryFor q true).isSome = true →
      o.pagesEntry q = some e → m.count = 0 → d.pullMismatch o.paddock r o.epoch q = 0 → (e.record = false ∨ bitOf m.flags 0 = false) →
        exec (.pullPages link f) s = .next (s.streamed link 0x23 (typed 1 f) c (d.serveSets o.paddock (d.recTable r) e.first e.count (d.ringClass o.ring) r (q.peer, q.peerPaddock) o.epoch
          (d.src (droveSource o.ring)) false))) ∧
    (∀ o : Offer, Fresh s link 0x23 (typed 2 f) c →
      let d := s.seen link 0x23 (typed 2 f) c
      let m := droveMsgOf (typed 2 f).payload
      let r := m.record % 2 ^ 46
      d.conn f.conn.toNat = some q → d.pairInMap (d.foldNumber q.paddock) q.peer q.peerPaddock = true →
      let o' : Offer := { o with plan := o.plan.map fun e => if e.device = q.peer ∧ e.paddock = q.peerPaddock ∧ e.record = false then { e with held := m.table } else e }
      Table.find d.service.offers r = some o → o.retags = none → s.dev.now ≤ o.deadline → o.epoch = m.epoch →
      (o.entryFor q false).isSome = true ∨ (o.entryFor q true).isSome = true →
      (o.pullHeld = none ∨ o'.allHeld = false) →
        exec (.pagesHeld link f) s = .next (s.streamed link 0x23 (typed 2 f) c ((d.mapService fun y => { y with offers := Table.update y.offers r fun o => { o with plan := o.plan.map fun e => if e.device = q.peer ∧ e.paddock = q.peerPaddock ∧ e.record = false then { e with held := m.table } else e } })))) ∧
    (∀ (o : Offer) (t : Nat), Fresh s link 0x23 (typed 2 f) c →
      let d := s.seen link 0x23 (typed 2 f) c
      let m := droveMsgOf (typed 2 f).payload
      let r := m.record % 2 ^ 46
      d.conn f.conn.toNat = some q → d.pairInMap (d.foldNumber q.paddock) q.peer q.peerPaddock = true →
      let o' : Offer := { o with plan := o.plan.map fun e => if e.device = q.peer ∧ e.paddock = q.peerPaddock ∧ e.record = false then { e with held := m.table } else e }
      Table.find d.service.offers r = some o → o.retags = none → s.dev.now ≤ o.deadline → o.epoch = m.epoch →
      (o.entryFor q false).isSome = true ∨ (o.entryFor q true).isSome = true →
      o.pullHeld = some t → o'.allHeld = true →
        exec (.pagesHeld link f) s = .next (s.streamed link 0x23 (typed 2 f) c ((d.mapService fun y => { y with offers := Table.update y.offers r fun o => { o with plan := o.plan.map fun e => if e.device = q.peer ∧ e.paddock = q.peerPaddock ∧ e.record = false then { e with held := m.table } else e } }).sendRecord r o' t))) ∧
    (∀ o : Offer, Fresh s link 0x23 (typed 3 f) c →
      let d := s.seen link 0x23 (typed 3 f) c
      let m := droveMsgOf (typed 3 f).payload
      let r := m.record % 2 ^ 46
      d.conn f.conn.toNat = some q → d.pairInMap (d.foldNumber q.paddock) q.peer q.peerPaddock = true →
      Table.find d.service.offers r = some o → o.retags = none → s.dev.now ≤ o.deadline → o.epoch = m.epoch →
      (o.entryFor q true).isSome = true → o.allHeld = false →
        exec (.pullRecord link f) s = .next (s.streamed link 0x23 (typed 3 f) c ((d.mapService fun y => { y with offers := Table.update y.offers r fun o => { o with pullHeld := some m.table } })))) ∧
    (∀ (o : Offer) (e : PlanEntry), Fresh s link 0x23 (typed 3 f) c →
      let d := s.seen link 0x23 (typed 3 f) c
      let m := droveMsgOf (typed 3 f).payload
      let r := m.record % 2 ^ 46
      d.conn f.conn.toNat = some q → d.pairInMap (d.foldNumber q.paddock) q.peer q.peerPaddock = true →
      Table.find d.service.offers r = some o → o.retags = none → s.dev.now ≤ o.deadline → o.epoch = m.epoch →
      o.entryFor q true = some e → o.recordEntry = some e → o.allHeld = true →
        exec (.pullRecord link f) s = .next (s.streamed link 0x23 (typed 3 f) c (
          let old := d.recContent r
          let remotes := remotesOf old ++ (o.plan.filter fun e => !e.record).map (d.remoteOf (d.recTable r))
          let content := withRemotes (overwrite old 8 (leBytes 8 (m.table % 2 ^ 46) ++ zeros 8)) remotes
          ((d.mapService fun y => { y with offers := Table.update y.offers r fun o => { o with pullHeld := some m.table } }).mapService fun y =>
            { y with offers := Table.update y.offers r fun o => { o with recordSent := true, pullHeld := none } }).sendDrove
              o.paddock e.device e.paddock (d.ringClass o.ring)
          { type := 4, epoch := o.epoch, record := d.globalOf r, table := d.globalOf r, deadline := o.deadline,
            rest := content ++ leBytes 4 (crc32c content) ++ zeros 4 }))) ∧
    (∀ o : Offer, Fresh s link 0x23 (typed 5 f) c →
      let d := s.seen link 0x23 (typed 5 f) c
      let m := droveMsgOf (typed 5 f).payload
      let r := m.record % 2 ^ 46
      d.conn f.conn.toNat = some q → d.pairInMap (d.foldNumber q.paddock) q.peer q.peerPaddock = true →
      Table.find d.service.offers r = some o → o.retags = none → s.dev.now ≤ o.deadline → o.epoch = m.epoch →
      o.recordSent = true → (o.entryFor q true).isSome = true →
        exec (.confirm link f) s = .next (s.streamed link 0x23 (typed 5 f) c (
          let remotes := remotesOf (d.recContent r)
          let reach := remotes.filterMap fun e => (d.holderConn o.paddock e.1).map fun k => (e.1, k)
          let freed := ((d.setRecState r 4 false).setHanding r 0 0).freeTable o.paddock (d.recTable r) (droveSource o.ring)
          let asked := freed.mapService fun y => { y with offers := Table.update y.offers r fun o =>
            { o with retags := some reach, lost := decide (reach.length ≠ remotes.length) } }
          (reach.foldl (fun d' e => d'.sendDrove o.paddock (e.1 / 2 ^ 46) (holderPaddock e.1) (d'.ringClass o.ring)
            { type := 9, epoch := o.epoch, record := d'.globalOf r, table := e.1, deadline := o.deadline }) asked).endOffer r))) ∧
    (∀ (o : Offer) (l : List (Nat × Nat)), Fresh s link 0x23 (typed 10 f) c →
      let d := s.seen link 0x23 (typed 10 f) c
      let m := droveMsgOf (typed 10 f).payload
      let r := m.record % 2 ^ 46
      d.conn f.conn.toNat = some q → d.pairInMap (d.foldNumber q.paddock) q.peer q.peerPaddock = true →
      Table.find d.service.offers r = some o → o.retags = some l → withoutHolder l q m.table ≠ [] →
        exec (.retagDone link f) s = .next (s.streamed link 0x23 (typed 10 f) c ((d.mapService fun y => { y with offers := Table.update y.offers r fun o => { o with retags := o.retags.map fun l => withoutHolder l q m.table } })))) ∧
    (∀ (o : Offer) (l : List (Nat × Nat)), Fresh s link 0x23 (typed 10 f) c →
      let d := s.seen link 0x23 (typed 10 f) c
      let m := droveMsgOf (typed 10 f).payload
      let r := m.record % 2 ^ 46
      d.conn f.conn.toNat = some q → d.pairInMap (d.foldNumber q.paddock) q.peer q.peerPaddock = true →
      Table.find d.service.offers r = some o → o.retags = some l → withoutHolder l q m.table = [] →
        exec (.retagDone link f) s = .next (s.streamed link 0x23 (typed 10 f) c (
          let closed := (d.mapService fun y => { y with offers := Table.update y.offers r fun o => { o with retags := o.retags.map fun l => withoutHolder l q m.table } }).mapService fun y =>
            { y with offers := Table.del y.offers r,
                     ended := Table.put y.ended r { epoch := o.epoch, deadline := o.deadline, released := true } }
          ((o.plan.foldl (fun d' e => d'.sendDrove o.paddock e.device e.paddock (d'.ringClass o.ring)
          { type := 6, epoch := o.epoch, record := d'.globalOf r, table := d'.globalOf r, deadline := o.deadline }) closed).updMeter o.paddock fun y => { y with drovesOut := y.drovesOut + 1 }).perform
            [.done o.ring o.index resOk 0 (2 ^ 32 * (o.epoch + 1) + (if o.lost then 256 else 0))]))) ∧
    (∀ y : Release, Fresh s link 0x23 (typed 12 f) c →
      let d := s.seen link 0x23 (typed 12 f) c
      let m := droveMsgOf (typed 12 f).payload
      let r := m.record % 2 ^ 46
      d.conn f.conn.toNat = some q → d.pairInMap (d.foldNumber q.paddock) q.peer q.peerPaddock = true →
      Table.find d.service.releases r = some y → withoutHolder y.waiting q m.table ≠ [] →
        exec (.releaseDone link f) s = .next (s.streamed link 0x23 (typed 12 f) c (d.mapService fun z => { z with releases := Table.update z.releases r fun y =>
          { y with waiting := withoutHolder y.waiting q m.table } }))) ∧
    (∀ (y : Release) (e : Nat × Nat), Fresh s link 0x23 (typed 12 f) c →
      let d := s.seen link 0x23 (typed 12 f) c
      let m := droveMsgOf (typed 12 f).payload
      let r := m.record % 2 ^ 46
      d.conn f.conn.toNat = some q → d.pairInMap (d.foldNumber q.paddock) q.peer q.peerPaddock = true →
      Table.find d.service.releases r = some y → withoutHolder y.waiting q m.table = [] → y.ring = some e →
        exec (.releaseDone link f) s = .next (s.streamed link 0x23 (typed 12 f) c ((((d.mapService fun z => { z with releases := Table.update z.releases r fun y =>
          { y with waiting := withoutHolder y.waiting q m.table } }).mapService fun z =>
          { z with releases := Table.del z.releases r }).setRecState r 4 false).perform
            [.done e.1 e.2 resOk 0 (if y.lost then droveHolderLost else 0)]))) ∧
    (∀ x : Pull, Fresh s link 0x23 (typed 4 f) c →
      let d := s.seen link 0x23 (typed 4 f) c
      let m := droveMsgOf (typed 4 f).payload
      d.conn f.conn.toNat = some q → d.pairInMap (d.foldNumber q.paddock) q.peer q.peerPaddock = true →
      (d.pullsFor f.conn.toNat m).find? (fun x => decide (x.mode = 0)) = some x → x.done = false → x.retryAt = none →
      fieldU32 m.rest 184 = crc32c (padTo 184 m.rest) →
        exec (.record link f) s = .next (s.streamed link 0x23 (typed 4 f) c (
          let full := overwrite (padTo 184 m.rest) 16 (leBytes 8 x.shadow)
          let d1 := (d.newRecord x.paddock x.record (x.epoch + 1) x.source true full).setTableEpoch x.table (x.epoch + 1)
          let d2 := if x.shadow = 0 then d1 else d1.setTableEpoch x.shadow (x.epoch + 1)
          let d3 := d2.updPull x fun y => { y with done := true, retryAt := none, deadline := m.deadline }
          let d4 := d3.sendDrove x.paddock (x.source / 2 ^ 46) (holderPaddock x.source) (d3.ringClass x.ring)
            { type := 5, epoch := x.epoch, record := x.source, table := d3.globalOf x.record, deadline := m.deadline }
          (d4.updMeter x.paddock fun y => { y with drovesIn := y.drovesIn + 1 }).perform
            [.done x.ring x.index resOk 0 (2 ^ 32 * (x.epoch + 1))]))) ∧
    (∀ x : Pull, Fresh s link 0x23 (typed 6 f) c →
      let d := s.seen link 0x23 (typed 6 f) c
      let m := droveMsgOf (typed 6 f).payload
      d.conn f.conn.toNat = some q → d.pairInMap (d.foldNumber q.paddock) q.peer q.peerPaddock = true →
      (d.pullsFor f.conn.toNat m).filter (·.done) = [x] →
      x.mode = 0 → (d.dropPull x).recState x.record = 1 → (d.dropPull x).settling x.record = true →
        exec (.released link f) s = .next (s.streamed link 0x23 (typed 6 f) c (
          (((d.dropPull x).setRecState x.record 1 false).updDrove x.paddock fun y =>
            { y with unsettled := y.unsettled.filter fun z => decide (z ≠ x.record) }).resumeDroves))) ∧
    (∀ x : Pull, Fresh s link 0x23 (typed 6 f) c →
      let d := s.seen link 0x23 (typed 6 f) c
      let m := droveMsgOf (typed 6 f).payload
      d.conn f.conn.toNat = some q → d.pairInMap (d.foldNumber q.paddock) q.peer q.peerPaddock = true →
      (d.pullsFor f.conn.toNat m).filter (·.done) = [x] →
      x.mode = 1 → (d.dropPull x).tableEpoch x.table = x.epoch →
        exec (.released link f) s = .next (s.streamed link 0x23 (typed 6 f) c ((d.dropPull x).setTableEpoch x.table (x.epoch + 1)))) ∧
    (∀ x : Pull, Fresh s link 0x23 (typed 7 f) c →
      let d := s.seen link 0x23 (typed 7 f) c
      let m := droveMsgOf (typed 7 f).payload
      d.conn f.conn.toNat = some q → d.pairInMap (d.foldNumber q.paddock) q.peer q.peerPaddock = true →
      d.pullsFor f.conn.toNat m = [x] →
        exec (.abort link f) s = .next (s.streamed link 0x23 (typed 7 f) c (
          let freed := (d.freeTable x.paddock x.table (droveSource x.ring)).freeTable x.paddock x.shadow (droveSource x.ring)
          let gone := ((if x.mode = 0 ∧ x.done then freed.setRecState x.record 3 false else freed).dropPull x).resumeDroves
          if x.done then gone else gone.perform [.done x.ring x.index resConflict 0 droveAborted]))) ∧
    (∀ x : Pull, Fresh s link 0x23 (typed 8 f) c →
      let d := s.seen link 0x23 (typed 8 f) c
      let m := droveMsgOf (typed 8 f).payload
      d.conn f.conn.toNat = some q → d.pairInMap (d.foldNumber q.paddock) q.peer q.peerPaddock = true →
      (d.pullsFor f.conn.toNat m).filter (fun x => !x.done) = [x] →
        exec (.refuse link f) s = .next (s.streamed link 0x23 (typed 8 f) c (
          let freed := (d.freeTable x.paddock x.table (droveSource x.ring)).freeTable x.paddock x.shadow (droveSource x.ring)
          ((freed.dropPull x).resumeDroves).perform [.done x.ring x.index resConflict 0 m.code]))) ∧
    (Fresh s link 0x23 (typed 9 f) c →
      let d := s.seen link 0x23 (typed 9 f) c
      let m := droveMsgOf (typed 9 f).payload
      d.conn f.conn.toNat = some q → d.pairInMap (d.foldNumber q.paddock) q.peer q.peerPaddock = true →
      d.answeredBefore q m = none →
        exec (.retag link f) s = .next (s.streamed link 0x23 (typed 9 f) c (
          let t := m.table % 2 ^ 46
          let hit := d.tableCovered q.paddock t && decide (d.tableEpoch t = m.epoch)
          ((if hit then d.setTableEpoch t (m.epoch + 1) else d).keepAnswer q m (b2n hit)).answerDrove f.conn.toNat
            { type := 0x0A, flags := b2n hit, epoch := m.epoch, record := m.record, table := m.table, deadline := m.deadline }))) ∧
    (Fresh s link 0x23 (typed 11 f) c →
      let d := s.seen link 0x23 (typed 11 f) c
      let m := droveMsgOf (typed 11 f).payload
      d.conn f.conn.toNat = some q → d.pairInMap (d.foldNumber q.paddock) q.peer q.peerPaddock = true →
      d.answeredBefore q m = none → d.tableCovered q.paddock (m.table % 2 ^ 46) = true →
      d.tableEpoch (m.table % 2 ^ 46) = m.epoch → m.epoch ≠ 0 →
        exec (.releasePages link f) s = .next (s.streamed link 0x23 (typed 11 f) c (
          let d1 := if bitOf m.flags 0 then d.unpinNode q.paddock m.first else d
          ((d1.freeTable q.paddock (m.table % 2 ^ 46) (srcTier 0 0)).keepAnswer q m 0).answerDrove f.conn.toNat
            { type := 0x0C, code := 0, epoch := m.epoch, record := m.record, table := m.table }))) ∧
    (Fresh s link 0x23 (typed 11 f) c →
      let d := s.seen link 0x23 (typed 11 f) c
      let m := droveMsgOf (typed 11 f).payload
      d.conn f.conn.toNat = some q → d.pairInMap (d.foldNumber q.paddock) q.peer q.peerPaddock = true →
      d.answeredBefore q m = none →
      (d.tableCovered q.paddock (m.table % 2 ^ 46) = false ∨ d.tableEpoch (m.table % 2 ^ 46) ≠ m.epoch ∨ m.epoch = 0) →
        exec (.releasePages link f) s = .next (s.streamed link 0x23 (typed 11 f) c (
          (d.keepAnswer q m droveWrongEpoch).answerDrove f.conn.toNat
            { type := 0x0C, code := droveWrongEpoch, epoch := m.epoch, record := m.record, table := m.table })))

/-- READ_RESP, ATOMIC_RESP, ACK, NAK, sync frames and PEER_NOTE. On an OPEN or CLOSING connection an answer is taken:
the last READ_RESP of a request, and an ATOMIC_RESP, with status 0 take the request from its stream and bring their
data to what waits for it; with another status they refuse it; an ACK gives a round-trip sample, moves the window
and frees what it acknowledges; a NAK other than NO_CONN and STALE_MAP refuses its PSN, RX_FULL and PAGE_WAIT asking
for a copy 8,000 ticks later. A sync request of a fold member is answered by a LOCKED device; a sync response of the
open burst from a usable parent is kept. A PEER_NOTE of a known sender not seen before is recorded as event 0x8009.
It rests on 12_fabric_transport.md, 03_tally_and_ordering.md, 17_faults_and_recovery.md. -/
def Obligations.AnswerFrames : Prop :=
  ∀ (s : State) (link : Fin 64) (f : Frame) (c : Conn),
    let id := f.conn.toNat
    let status := fieldBe f.ext 8 1
    let now := s.dev.now
    (∀ (q : Conn) (t : TxPacket), Comes s link 0x04 f c →
      let d := s.headed link 0x04 f
      let psn := wirePsn q.ackedTo (fieldBe f.ext 0 4)
      let total := fieldBe t.ext 24 4
      d.conn id = some q → q.tx.find? (fun t => decide (t.psn = psn ∧ t.opcode = 3) && t.wantsAnswer) = some t →
        (status ≠ 0 → exec (.readResp link f) s = .next (s.on fun _ =>
          ((d.answered id psn f now).packetRefused id t status).streamMoved id true)) ∧
        (status = 0 → t.answered.any (fun e => decide (e.1 = fieldBe f.ext 4 4)) = false →
          total ≤ (t.answered.map (·.2)).sum + f.payload.length → exec (.readResp link f) s = .next (s.on fun _ =>
            ((d.answered id psn f now).readData t (fieldBe f.ext 4 4) (f.payload.take (total - fieldBe f.ext 4 4)) link.val f
              now).streamMoved id true))) ∧
    (∀ (q : Conn) (t : TxPacket), Comes s link 0x06 f c →
      let d := s.headed link 0x06 f
      let psn := wirePsn q.ackedTo (fieldBe f.ext 0 4)
      d.conn id = some q → q.tx.find? (fun t => decide (t.psn = psn ∧ t.opcode = 5) && t.wantsAnswer) = some t →
        (status ≠ 0 → exec (.atomicResp link f) s = .next (s.on fun _ =>
          ((d.answered id psn f now).packetRefused id t status).streamMoved id true)) ∧
        (∀ ring index, status = 0 → t.origin = .descriptor ring index → exec (.atomicResp link f) s = .next (s.on fun _ =>
          ((d.answered id psn f now).descData link.val ring index 0 f (f.payload.take 8)).streamMoved id true)) ∧
        (∀ n, status = 0 → t.origin = .remote n → exec (.atomicResp link f) s = .next (s.on fun _ =>
          ((d.answered id psn f now).remoteResult n (f.payload.take 8) now).streamMoved id true))) ∧
    (∀ q : Conn, Comes s link 0x10 f c → (s.headed link 0x10 f).conn id = some q →
      exec (.ack link f) s = .next (s.on fun _ =>
        let r := q.ackReport f.ackPsn.toNat (bytesAt f.ext 0 32)
        let at' := (s.headed link 0x10 f).now
        let echo := fieldBe f.ext 32 8
        let owd := signed 32 (fieldBe f.ext 40 4)
        let sampled := fun (c : Conn) => if echo ≤ at' ∧ echo ≠ 0 then c.sampleRtt (at' - echo) else c
        ((s.headed link 0x10 f).updConn id fun c =>
          { (sampled c).congest at' owd (fieldBe f.ext 44 1) (q.newlyAcked r) with lastReport := some owd }).applyAck id r)) ∧
    (∀ (q : Conn) (t : TxPacket), Comes s link 0x11 f c → (s.headed link 0x11 f).conn id = some q →
      let d := s.headed link 0x11 f
      let code := fieldBe f.ext 4 1
      let psn := wirePsn q.ackedTo (fieldBe f.ext 0 4)
      let report := if f.flags.getLsbD 5 then q.ackReport f.ackPsn.toNat [] else { upTo := q.ackedTo }
      let d1 := ((d.countConn id 4).updConn id fun c =>
        { c.congestNak d.now (q.newlyAcked report) with progressAt := d.now, backoff := 0 }).applyAck id report
      q.tx.find? (fun t => decide (t.psn = psn)) = some t →
        (code = 7 ∨ code = 9 → exec (.nak link f) s = .next (s.on fun _ => d1.updConn id fun c =>
          { c with tx := c.tx.map fun t => if t.psn = psn then { t with resendAt := some (d1.now + 8000) } else t })) ∧
        (code ≠ 7 → code ≠ 8 → code ≠ 9 → code ≠ 0x0A → exec (.nak link f) s = .next (s.on fun _ =>
          (((d1.updConn id fun c => { c with tx := c.tx.filter fun t => decide (t.psn ≠ psn) }).packetRefused id t
            code).streamMoved id true).respMoved id q.respPoint f now))) ∧
    (let g := typed 1 f
     Arrives s link 0x20 g → (s.received link 0x20 g).tally.state = .locked →
      (s.received link 0x20 g).inSomeFold f.src.toNat = true → exec (.syncReq link f) s = .next (s.on fun _ =>
        let d := s.received link 0x20 g
        let t := d.tally
        let payload := [2, 2, BitVec.ofNat 8 t.level] ++ bytesAt g.payload 3 1 ++ bytesAt g.payload 4 4 ++ bytesAt g.payload 8 8 ++
          leBytes 8 t.now ++ zeros 8 ++ bytesAt g.payload 32 2 ++ leBytes 2 t.frac.toNat ++ zeros 4 ++ leBytes 4 t.cfg.rootId ++
          zeros 20
        (d.mapTally fun t => { t with
          children := (f.src.toNat, t.now) :: t.children.filter fun k => decide (k.1 ≠ f.src.toNat) }).sendLoose [link.val] 0x20 0 f.src.toNat payload)) ∧
    (∀ sent : Nat × Nat,
      let g := typed 2 f
      let d := s.received link 0x20 g
      let p := g.payload
      Arrives s link 0x20 g → d.tally.isSource = false → fieldU8 p 1 ≠ 0 → fieldU8 p 1 ≠ 1 → fieldU8 p 2 < 4 →
      fieldU32 p 40 = d.tally.cfg.rootId → d.tally.burstSent.find? (fun e => decide (e.1 = fieldU32 p 4)) = some sent →
        let kept := d.mapTally fun t =>
          let t2 : Int := 65536 * fieldU64 p 16 + fieldU16 p 34
          let t3 : Int := 65536 * fieldU64 p 24 + fieldU16 p 36
          { t with burstDone := t.burstDone ++ [{ roundTrip := ((d.fineNow : Int) - sent.2) - (t3 - t2),
                                                  twiceOffset := ((sent.2 : Int) - t2) + ((d.fineNow : Int) - t3) }],
                   burstAccepted := true, missedInRow := 0, useBackup := t.burstBackup, parentLevel := fieldU8 p 2 }
        (d.tally.state = .locked ∨ d.tally.state = .acquire → exec (.syncResp link f) s = .next (s.on fun _ => kept)) ∧
        (d.tally.state = .free ∨ d.tally.state = .holdover → exec (.syncResp link f) s = .next (s.on fun _ =>
          (kept.mapTally fun t => { t with goodBursts := 0 }).setTallyState .acquire))) ∧
    (Arrives s link 0x24 f →
      let d := s.received link 0x24 f
      let key := (f.src.toNat, fieldU8 f.payload 4, fieldU8 f.payload 0, fieldU64 f.payload 16)
      let known := d.inSomeFold f.src.toNat || d.net.conns.any fun e => decide (e.2.peer = f.src.toNat)
      (known = true → d.faults.notesSeen.contains key = false → exec (.peerNote link f) s = .next (s.on fun _ =>
        let note : Report := { source := d.src srcFirmware, code := 0x8009, sub := fieldU8 f.payload 0, aux := f.src.toNat,
                               addr := fieldU8 f.payload 4 % 64 * 2 ^ 40 + leValue (bytesAt f.payload 24 5) }
        (d.mapFaults fun y => { y with notesSeen := (key :: y.notesSeen).take 64 }).record note)) ∧
      ((known = false ∨ d.faults.notesSeen.contains key = true) → exec (.peerNote link f) s = .next (s.on fun _ => d)))

/-- Which frames a link drops, and what it counts. Every frame row: on a link that is not UP nothing changes; otherwise
the frame is counted as received and traced, and one whose form is wrong is counted as bad and has no other effect,
and one that is not addressed to this device is counted as misaddressed and has no other effect.
It rests on 12_fabric_transport.md. -/
def Obligations.FramesTurnedAway : Prop :=
  ∀ (link : Fin 64) (f : Frame) (e : Instr × Nat × Frame), e ∈ frameRows link f → ∀ s : State,
    ((s.dev.link link.val).state ≠ .up → exec e.1 s = .next s) ∧
    ((s.dev.link link.val).state = .up →
      (frameFits e.2.1 e.2.2 = false →
        exec e.1 s = .next (s.on fun _ => (s.received link e.2.1 e.2.2).countLink link.val 4)) ∧
      (frameFits e.2.1 e.2.2 = true → (s.received link e.2.1 e.2.2).addressed e.2.1 e.2.2 s.dev.now = false →
        exec e.1 s = .next (s.on fun _ => (s.received link e.2.1 e.2.2).countLink link.val 5)))

/-- A new packet that meets a refusal is answered with a NAK. A new sequenced packet (WRITE, WRITE_FLAG, READ_REQ,
ATOMIC, SEND, MGMT_CMD) on a connection, within 256 of the stream's place, that meets a refusal draws a NAK with its
code. With RX_FULL (9) nothing else happens, but that a WRITE or WRITE_FLAG counts in the port link's `drop_full`; a
final refusal (not PAGE_WAIT) consumes its PSN; a duplicate is answered as R322 says; one farther ahead than 256 is
counted and dropped.
It rests on 12_fabric_transport.md. -/
def Obligations.FramesRefused : Prop :=
  ∀ (s : State) (link : Fin 64) (f : Frame) (c0 c : Conn) (e : Instr × Nat), e ∈ [(.write link f, 0x01),
      (.writeFlag link f, 0x02), (.readReq link f, 0x03), (.atomic link f, 0x05), (.send link f, 0x07),
      (.mgmtCmd link f, 0x21)] → Comes s link e.2 f c0 → (s.headed link e.2 f).conn f.conn.toNat = some c →
    let d := s.headed link e.2 f
    let x := s.arrived link e.2 f
    let id := f.conn.toNat
    let psn := wirePsn c.rxNext f.psn.toNat
    (psn < c.rxNext ∨ c.rxSeen.contains psn = true → exec e.1 s = .next (s.on fun _ => d.duplicate id c x psn)) ∧
    (c.rxNext + 256 ≤ psn → c.rxSeen.contains psn = false →
      exec e.1 s = .next (s.on fun _ => d.countLink link.val 7)) ∧
    (c.rxNext ≤ psn → psn < c.rxNext + 256 → c.rxSeen.contains psn = false → d.refusal c x ≠ 0 →
      (d.refusal c x = 9 → exec e.1 s = .next (s.on fun _ =>
        if e.2 = 0x01 ∨ e.2 = 0x02 then (d.sendNak id f.cls.toNat psn 9).countLink link.val 6
        else d.sendNak id f.cls.toNat psn 9)) ∧
      (d.refusal c x ≠ 9 → d.refusal c x ≠ 7 → exec e.1 s = .next (s.on fun _ =>
        ((((d.sendNak id f.cls.toNat psn (d.refusal c x)).seePsn id psn).keepBell id psn x true).noteArrival id x
          (c.gapBelow psn)).streamPlaced id)))

/-- An OWN_CLAIM against a live lease. An OWN_CLAIM accepted while an owner holds a live lease: from another master it
is answered CONFLICT with the owner in `detail`, and the device does not remember it (the claims and the claim
window stay as they are, and owner and lease too); from the owner itself it is answered OK, and the lease expires
500 ms after its acceptance.
It states R89. -/
def Obligations.ClaimAgainstLease : Prop :=
  ∀ (s : State) (c : Cmd) (m : Master), Accepted s 0x0010 (.immediate immOwnClaim) c →
    s.dev.own.owner = some m → s.dev.now ≤ s.dev.own.leaseExpiry → (∀ e, s.dev.own.claimEnd = some e → s.dev.now ≤ e) →
    (m ≠ pathMaster c.path →
      exec (.ownClaim c) s = .next (s.on fun _ => (s.dev.takes c 0x0010).respond c.path
        { result := resConflict, detail := masterCode (some m) }) ∧
      (s.dev.takes c 0x0010).own.claims = s.dev.own.claims ∧ (s.dev.takes c 0x0010).own.claimEnd = s.dev.own.claimEnd ∧
      (s.dev.takes c 0x0010).own.owner = some m ∧ (s.dev.takes c 0x0010).own.leaseExpiry = s.dev.own.leaseExpiry) ∧
    (m = pathMaster c.path →
      exec (.ownClaim c) s = .next (s.on fun _ => (s.dev.takes c 0x0010).respond c.path {}) ∧
      (s.dev.takes c 0x0010).own.owner = some m ∧
      (s.dev.takes c 0x0010).own.leaseExpiry = s.dev.now + 400000000)

/-- How a command is answered on its path. A response is written with the result, the first part of the payload, the
stamp and the detail; on the HOST and BOARD paths the mailbox is then DONE and no longer executing, its response
half holds the response and the rest of a long one is kept for MBX_NEXT, where an MBX_NEXT that is refused leaves
the rest there was; the header and the response head the list that the path keeps, of at most sixteen. Every other
mailbox and every register of the control pages, ownership, the stage sets and memory stay.
It rests on 04_control_plane.md. -/
def Obligations.MailboxAnswered : Prop :=
  ∀ (d : Device) (p : Path) (r : Reply),
    let part := r.payload.take (inlineLimit p)
    let rest := r.payload.drop (inlineLimit p)
    let resp := responseBytes (d.paths.box p).cmd r part rest.length d.now
    let u := d.respond p r
    (pathMaster p ≠ .fabric →
      (u.paths.box p).status = .done ∧ (u.paths.box p).begun = false ∧ (u.paths.box p).resp = resp ∧
      (u.paths.box p).rest = (if fieldU16 resp 0 = 1 ∧ fieldU16 resp 2 ≠ resOk then (d.paths.box p).rest else rest) ∧
      u.paths.kept (pathMaster p) = (({ header := padTo 32 ((d.paths.box p).cmd.take 32), response := resp, rest := rest } ::
        d.paths.kept (pathMaster p)).take 16) ∧
      (∀ m, m ≠ pathMaster p → u.paths.kept m = d.paths.kept m)) ∧
    (pathMaster p ≠ .fabric → ∀ q, q ≠ p → u.paths.box q = d.paths.box q) ∧
    (∀ m, u.paths.page m = d.paths.page m) ∧ u.own = d.own ∧ u.staging = d.staging ∧ u.mem = d.mem

/-- Writes to a control page. MBX_DOORBELL, MBX_DONE, MBX_IRQ, BELL_RING, an STG register and any register, written by a
HOST core to a page that is served, are the write of that register. An MBX_DOORBELL bit of an IDLE pair that the
core may use accepts the command its half holds, where the path is served and R106 lists the command; of a pair that
is not IDLE it sets MBX_ERROR. MBX_DONE frees each DONE pair whose bit the core may use and writes 1, and no other
pair. MBX_IRQ sets the interrupt that a completion raises. GPIO_DIR and GPIO_OUT enter the open set that STAGE_SEL
names, or set STG_IGNORED. BELL_RING rings a block bell that a window of the host die reaches. A ring's doorbell is
posted. A reserved offset sets RESERVED_OFFSET and changes nothing else.
It rests on 21_register_reference.md, 04_control_plane.md, 08_bells_and_hurdles.md. -/
def Obligations.PageRows : Prop :=
  ∀ (s : State) (core : Fin 48) (v : Word), s.dev.pageServed .host = true →
    let a : PageAgent := .host core
    let d := s.dev
    (exec (.mbxDoorbell a v) s = .next (s.on (·.writeRegister a 0x0080 v.toNat)) ∧
     exec (.mbxDone a v) s = .next (s.on (·.writeRegister a 0x0090 v.toNat)) ∧
     exec (.mbxIrq a v) s = .next (s.on (·.writeRegister a 0x00A0 v.toNat)) ∧
     exec (.bellRing core v) s = .next (s.on (·.writeRegister a 0x0200 v.toNat)) ∧
     (∀ off : BitVec 16, off.toNat % 8 = 0 → off.toNat < 0x8000 →
       exec (.stgRegisterWrite a off v) s = .next (s.on (·.writeRegister a off.toNat v.toNat)) ∧
       exec (.registerWrite a off (leBytes 8 v.toNat)) s = .next (s.on (·.writeRegister a off.toNat v.toNat)))) ∧
    (∀ p : Fin 8, v.toNat = 2 ^ p.val → (d.pageBits a).getLsbD p.val = true →
      let box := d.paths.box (.host p)
      let opcode := fieldU16 (padTo 32 box.cmd) 0
      (box.status = .idle → d.serves (.host p) = true → (kindOf opcode).isSome = true →
        d.writeRegister a 0x0080 v.toNat = d.acceptBox (.host p) opcode) ∧
      (box.status ≠ .idle → d.writeRegister a 0x0080 v.toNat =
        d.updPage .host fun g => { g with mbxError := g.mbxError ||| BitVec.ofNat 8 (2 ^ p.val) })) ∧
    (let freed := fun (p : Fin 8) (b : Mailbox) =>
      if (d.pageBits a).getLsbD p.val = true ∧ v.getLsbD p.val = true ∧ b.status = .done then { b with status := .idle } else b
     d.writeRegister a 0x0090 v.toNat =
      d.mapPaths fun c => { c with hostPairs := Vector.ofFn fun p : Fin 8 => freed p (c.hostPairs.get p) }) ∧
    (bitOf v.toNat 0 = true → bitsOf v.toNat 13 8 ≤ 47 → bitsOf v.toNat 26 16 ≠ 0 →
      d.writeRegister a 0x00A0 v.toNat = d.updPage .host fun g => { g with
        irqEnable := true, irqHart := BitVec.ofNat 6 (bitsOf v.toNat 13 8), irqId := BitVec.ofNat 11 (bitsOf v.toNat 26 16) }) ∧
    (∀ off, off = 0x0148 ∨ off = 0x0150 →
      let id := (d.paths.page .host).stageSel.toNat
      let c := registerCommand .nonsecure off (v.toNat % 2 ^ 16)
      (∀ x, d.openSet id .host = some x → d.setHasRoom x c = true → d.writeRegister a off v.toNat = d.joinSet id c) ∧
      (d.openSet id .host = none → d.writeRegister a off v.toNat = d.updPage .host fun g => { g with stgIgnored := true })) ∧
    (∀ x, d.paddock (bitsOf v.toNat 22 17) = some x → bitsOf v.toNat 31 23 = 0 → bitsOf v.toNat 63 48 = 0 →
      bitsOf v.toNat 47 32 ≠ 0 → v.toNat % 2 ^ 17 < 65536 → x.names (v.toNat % 2 ^ 17 / 64) = true →
      (d.coreSecure core.val = true ∨ x.world = .nonsecure) → x.holds = true →
      (d.windowFor (bitsOf v.toNat 22 17) 0 6 (bellAddress (v.toNat % 2 ^ 17)) 16).isSome = true →
      d.writeRegister a 0x0200 v.toNat = d.ringThrough (bitsOf v.toNat 22 17) 6 (v.toNat % 2 ^ 17) (bitsOf v.toNat 47 32)
        (d.src (srcCore core.val))) ∧
    (∀ (q : Fin 16384) (r : Ring), d.ring q.val = some r → (d.isSecure r.paddock = false ∨ d.coreSecure core.val = true) →
      exec (.ringDoorbell core q v) s =
        .next (s.on fun _ => (d.postDoorbell q.val v.toNat (d.src (srcCore core.val))).dropUnknown 65536 q.val)) ∧
    (∀ off, d.registerAt a off = none →
      d.writeRegister a off v.toNat = d.updPage .host fun g => { g with pageErr := g.pageErr ||| 2 })

/-- Lease expiry, the end of a claim window, and a lapsed offer. LEASE_EXPIRY, CLAIM_WINDOW_END and
HANDOVER_OFFER_LAPSE, decided at their instants with no set due before and no earlier arrival unseen: the lease ends
and there is no owner; the claimant of the highest priority owns from the window's end with a lease of 500 ms, every
claim being answered, the winner's OK and the others CONFLICT with the winner, and the ownership event carries the
winner's tag; the offer is closed and the owner keeps the device.
It rests on 04_control_plane.md, 03_tally_and_ordering.md. -/
def Obligations.OwnershipTimers : Prop :=
  ∀ (s : State) (m : Master),
    (s.dev.own.owner = some m → Decided s.dev s.dev.own.leaseExpiry →
      exec .leaseExpiry s = .next (s.decided s.dev.own.leaseExpiry (·.setOwner none s.dev.own.leaseExpiry))) ∧
    (∀ e x, s.dev.own.claimEnd = some e → Decided s.dev e → s.dev.claimWinner = some m →
      s.dev.own.claims.find? (fun c => decide (some c.1 = some m)) = some x →
      let tag := fieldU64 (s.dev.paths.box (pathOf x.1 x.2.1)).cmd 24
      exec .claimWindowEnd s = .next (s.decided e fun d =>
        s.dev.own.claims.foldl (fun d c => d.respond (pathOf c.1 c.2.1)
          (if c.1 = m then {} else { result := resConflict, detail := masterCode (some m) }))
          ((d.mapOwn fun o => { o with claimEnd := none, claims := [] }).setOwner (some m) e tag))) ∧
    (s.dev.claimWinner = some m →
      (∃ x ∈ s.dev.own.claims, x.1 = m) ∧
      (∀ x ∈ s.dev.own.claims, x.1 ≠ m → ∀ before after,
        ownPriority s.dev.boot.ownPrio = before ++ m :: after → x.1 ∉ before)) ∧
    (s.dev.own.offerTarget = some m → Decided s.dev s.dev.own.offerEnd →
      exec .handoverOfferLapse s = .next (s.decided s.dev.own.offerEnd
        (·.mapOwn fun o => { o with offerTarget := none, offerEnd := 0 })))

/-- Hurdle arrivals, slot matches, bell timeouts, block frames, bale transfers and remote bounds. HURDLE_ARRIVAL counts,
at its stamp, the arrival of the least stamp and source, or strikes the paddock with a mismatch or an overrun;
threads of the region that it held are READY. SLOT_COUNTER_MATCH makes the thread READY past its SLOTWAIT.
BELL_WAIT_TIMEOUT takes the thread off the bell's list with 1 in its register and nothing consumed.
BLOCK_FRAME_START starts the frame of the block. BALE_TRANSFER_DONE ends the transfer and rings its bell, or strikes
the paddock. REMOTE_LOAD_BOUND ends every access due by the earliest bound as timed out.
It rests on 08_bells_and_hurdles.md, 07_compiled_schedules.md, 10_bales.md, 13_memory_semantic_access.md. -/
def Obligations.BlockEvents : Prop :=
  ∀ s : State,
    (∀ a p x, s.dev.nextArrival = some a → s.dev.hurdleOwner a.hurdle = some (p, x) → Clear s.dev a.due →
      let old := s.dev.hurdle a.hurdle
      let source := s.dev.src (srcThread a.block a.thread)
      let r := old.arrive a.n (waiterKey a.block a.thread)
      let came := fun (d : Device) => d.mapFabric fun f => { f with arrivals := f.arrivals.erase a }
      let freed := fun (d : Device) => ((List.range 64).map (64 * regionOf a.block + ·)).foldl Device.unhold d
      (r.2 = .mismatch → exec .hurdleArrival s = .next (s.due a.due fun d =>
        freed (((came d).updHurdle a.hurdle fun h => { h with mismatch := true }).strike p
          (hurdleReport source p 0x33 a.hurdle a.n)))) ∧
      (r.2 = .overrun → exec .hurdleArrival s = .next (s.due a.due fun d =>
        freed (((came d).updHurdle a.hurdle fun h => { h with overrun := true }).strike p
          (hurdleReport source p 0x32 a.hurdle old.round)))) ∧
      (∀ round, r.2 = .counted round →
        let t := max s.dev.now a.due
        let new := ({ r.1 with lastStamp := t, lastSource := source } : Hurdle).advance t 2
        exec .hurdleArrival s = .next (s.due a.due fun d =>
          let d2 := ((came d).updHurdle a.hurdle fun _ => new).traced 3 a.hurdle (round % 2 ^ 32) a.n p source
          let d3 := d2.traceRounds a.hurdle p source old.round (new.round - old.round)
          let d4 := if x.holds && x.names a.block then d3.resumeThread a.block a.thread (Thread.answered a round new.round) else d3
          freed ((d4.mapThreadsOf p (Thread.roundOver a.hurdle new.round)).rouseReady x.blockList)))) ∧
    (∀ (t : ThreadId) (v frame at' : Nat), (s.threadOf t).waits = .slot v frame → (s.threadOf t).state = .waiting →
      s.dev.slotInstant t.block.val v frame = some at' → Clear s.dev (max s.dev.now at') →
      exec (.slotCounterMatch t) s = .next (s.due (max s.dev.now at')
        (·.updThread t.block.val t.thread.val fun x => { x with state := .ready, waits := .nothing, pc := x.pc + 1 }))) ∧
    (∀ (t : ThreadId) (p : Nat) (x : Paddock) (dest bell need deadline : Nat),
      (s.threadOf t).waits = .bell dest bell need deadline → (s.threadOf t).state = .waiting → deadline ≠ 0 →
      s.dev.occupant t.block.val = some (p, x) → Decided s.dev deadline →
      exec (.bellWaitTimeout t) s = .next (s.decided deadline fun d =>
        let others := (d.bell p bell).waiters.filter fun w => decide (w.1 ≠ waiterKey t.block.val t.thread.val)
        ((d.setBell p bell { d.bell p bell with waiters := others }).updThread t.block.val t.thread.val (·.resume dest 1)).rouse
          t.block.val)) ∧
    (∀ (b : Fin 1024) (p : Nat) (x : Paddock) (e : Nat × Image), s.dev.occupant b.val = some (p, x) →
      s.dev.resident p = some e →
      let span := imageSpan e.2.bytes
      let base := s.dev.now / span * span
      let t := if s.dev.now = base ∧ (s.dev.block b.val).frameStart ≠ base then base else base + span
      Clear s.dev t → exec (.blockFrameStart b) s = .next (s.due t fun d => d.updBlock b.val fun k =>
        { k with frameStart := t })) ∧
    (∀ (b : Fin 1024) (i : Fin 16) (p : Nat) (y : Paddock) (x : BaleTransfer), s.dev.occupant b.val = some (p, y) →
      (s.dev.block b.val).bales[i.val]? = some x →
      let r := ((s.dev.updBlock b.val fun k => { k with bales := k.bales.eraseIdx i.val, busyAt := s.dev.now }).unhold b.val).runBale
        p b.val x
      (∀ e, r.2 = some e → exec (.baleTransferDone b i) s = .next (s.on fun _ => r.1.strike p e)) ∧
      (r.2 = none → x.bell = none → exec (.baleTransferDone b i) s = .next (s.on fun _ => r.1)) ∧
      (∀ k, r.2 = none → x.bell = some k → exec (.baleTransferDone b i) s = .next (s.on fun _ =>
        (r.1.signalsRange p b.val k x).perform [.ring p (64 * b.val + k) 1 (r.1.src (srcThread b.val x.thread))]))) ∧
    (∀ a : RemoteAccess,
      let waiting := s.dev.fabric.remote.filter fun b =>
        !b.expired && !b.inTime && decide (b.op = .load ∨ b.op = .atomic ∨ b.op = .get)
      leastBy (fun b : RemoteAccess => b.bound) waiting = some a → Decided s.dev a.bound →
      exec .remoteLoadBound s = .next (s.decided a.bound fun d =>
        (waiting.filter fun b => decide (b.bound ≤ a.bound)).foldl (fun d b => d.endRemote b.id .timedOut) d))

/-- An opening of a window, a host access, and a replayed flit. EDGE_WINDOW_OPEN of a window that serves admits, in the
slot of its next opening, from the head of its queue what fits; threads whose run for the window begins earlier go
on first, and nothing is admitted. HOST_ACCESS joins the queue of its window with class 3 where the address is
served, the core may use it and a window carries it with its route up; a cacheable load that finds its line is
answered from it; where no window or no right exists the core takes an access fault. STILE_FLIT_REPLAY of a link
that is up, with no injection armed, counts a replay and is recorded as transient when it passes, and takes the link
DOWN when it does not.
It rests on 07_compiled_schedules.md, 01_architecture.md, 17_faults_and_recovery.md. -/
def Obligations.WindowsAndHostAccesses : Prop :=
  ∀ s : State,
    (∀ (p : Fin 64) (w : Fin 255) (x : Paddock) (win : Win), s.dev.awake = true → s.dev.paddock p.val = some x →
      (s.dev.windowsOf p.val).find? (fun y => decide (y.window = w.val)) = some win →
      let slot := s.dev.openingSlot p.val win
      let waits := s.dev.windowWaits p.val w.val x
      (waits = [] → Clear s.dev (slotTick slot) →
        (s.dev.windowServes x win = true → exec (.edgeWindowOpen p w) s = .next (s.due (slotTick slot)
          (Device.admitHead p.val win win.len slot (win.leftAt slot)))) ∧
        (s.dev.windowServes x win = false → exec (.edgeWindowOpen p w) s = .next (s.due (slotTick slot) id))) ∧
      (∀ t, waits.foldl (fun t e => Nat.min t e.2.2) (slotTick slot) = t → t < slotTick slot → Clear s.dev t →
        exec (.edgeWindowOpen p w) s = .next (s.due t fun d =>
          (waits.filter fun e => decide (e.2.2 ≤ t)).foldl (fun d e => d.updThread e.1 e.2.1 Thread.windowOpens) d))) ∧
    (∀ (core : Fin 48) (x : HostAccess), s.dev.awake = true →
      let n := if x.store then x.data.length else x.size
      let a := x.address.toNat
      let sound := s.dev.rangeOk a n = true ∧ (s.dev.touchesSecure a n = true → s.dev.security.harts.getLsbD core.val = true)
      let hit := if x.cached && !x.store then s.dev.cacheHit core.val a n else none
      (∀ d, sound → hit = some d → exec (.hostAccess core x) s = .next (s.on fun _ => d)) ∧
      (∀ p w, sound → hit = none → s.dev.hostWindow (if x.store then 0 else 1) a n = some (p, w) → s.dev.routeDown w = false →
        exec (.hostAccess core x) s = .next (s.on (·.joinWindow p w
          { size := n, cls := 3, link := none, address := a, data := x.data,
            kind := if x.store then .hostStore core.val else .hostLoad core.val n x.cached }))) ∧
      (¬ sound ∨ hit = none ∧ s.dev.hostWindow (if x.store then 0 else 1) a n = none →
        exec (.hostAccess core x) s = .next (s.on (·.emit (.accessFault core.val))))) ∧
    (∀ n : Fin 40, s.dev.awake = true ∨ s.dev.inStandby = true ∨ s.dev.state = .safe → s.dev.stileIsDown n.val = false →
      s.dev.faults.injection = none →
      let d := s.dev.mapFaults fun f =>
        { f with replays := Table.put f.replays n.val ((Table.find f.replays n.val).getD 0 + 1) }
      exec (.stileFlitReplay n true) s = .next (s.on fun _ => d.record (d.stileReport n.val false false)) ∧
      exec (.stileFlitReplay n false) s = .next (s.on fun _ => d.stileGoesDown n.val (d.stileReport n.val true false)))

/-- Timers of connections, exposures, folds, links, gates, and context fetches. At their instants, with no committed set
in between and, for the deadlines, no earlier arrival unseen: RETRANSMISSION_TIMER sends the oldest unacknowledged
packet again with its backoff raised and the window at 8,192; ACK_TIMER sends the ACK 800 ticks after the oldest
unacknowledged arrival; NAK_RESEND sends the packet again; CONN_GIVE_UP takes the connection to ERROR;
PACING_RELEASE lets packets out; REVOCATION_GRACE_END drains the exposure; FOLD_DRAIN_END drops what has drained;
LINK_SELECT selects the next eligible frame; GATE_ENTRY_CHANGE moves the gate list on after its credits;
CONTEXT_FETCH_DONE caches the oldest context being fetched over a route that is up, and what waited for it goes on.
It rests on 12_fabric_transport.md, 14_traffic_scheduling.md, 11_droves_folds_and_tiers.md. -/
def Obligations.NetworkTimers : Prop :=
  ∀ s : State,
    (∀ (id : BitVec 20) (c : Conn), s.dev.conn id.toNat = some c →
      (∀ (x : TxPacket) (at' : Nat), c.oldest = some x → x.sentAt = some at' → Decided s.dev (at' + c.rto) →
        exec (.retransmissionTimer id) s = .next (s.decided (at' + c.rto) fun d =>
          ((d.countConn id.toNat 3).updConn id.toNat fun c => { c with backoff := c.backoff + 1, cwnd := 8192 }).repair id.toNat
            x.psn)) ∧
      (∀ at', c.unackedSince = some at' → Clear s.dev (at' + 800) →
        exec (.ackTimer id) s = .next (s.due (at' + 800) (·.sendAck id.toNat c.cls c.oldestEcho c.oldestOwd))) ∧
      (∀ at' psn, c.nextResend = some (at', psn) → Clear s.dev at' →
        exec (.nakResend id) s = .next (s.due at' fun d => (d.updConn id.toNat fun c =>
          { c with tx := c.tx.map fun x => if x.psn = psn then { x with resendAt := none } else x }).repair id.toNat psn)) ∧
      (c.tx ≠ [] → Clear s.dev (c.progressAt + 800 * c.giveUpUs) →
        exec (.connGiveUp id) s = .next (s.due (c.progressAt + 800 * c.giveUpUs) (·.connError id.toNat))) ∧
      (∀ x, c.nextOut = some x → Clear s.dev (max s.dev.now (c.lastSend + c.gap x.payload.length)) →
        exec (.pacingRelease id) s = .next (s.due (max s.dev.now (c.lastSend + c.gap x.payload.length)) (·.pump id.toNat)))) ∧
    (∀ (i : BitVec 20) (e : Exposure), s.dev.exposure i.toNat = some e → e.state = .revoking →
      Decided s.dev (e.revokeAt + e.grace) →
      exec (.revocationGraceEnd i) s = .next (s.decided (e.revokeAt + e.grace) fun d =>
        (d.updExposure i.toNat fun e => { e with state := .draining }).freeIfDrained i.toNat)) ∧
    (∀ (n : BitVec 16) (f : Fold) (t : Nat), s.dev.fold n.toNat = some f → leastBy id f.drains = some t → Decided s.dev t →
      exec (.foldDrainEnd n) s = .next (s.decided t fun d =>
        ((d.fold n.toNat).map fun f => d.putFold n.toNat (f.dropDrained (max s.dev.now t))).getD d)) ∧
    (∀ l : Fin 64, (s.dev.link l.val).sending = none → Clear s.dev s.dev.now →
      (∃ k ∈ List.range 16, ((s.dev.runCredits l.val).link l.val).eligible ((s.dev.runCredits l.val).port (l.val / 2)) s.dev.now
        k = true) →
      exec (.linkSelect l) s = .next (s.on fun d => (d.runCredits l.val).selectLink l.val)) ∧
    (∀ (p : Fin 32) (g : GateList) (e : Nat × Nat) (more : List (Nat × Nat)), (s.dev.port p.val).gates = some g →
      (g.ahead s.dev.now).map (fun x => (0, x.2)) = e :: more → Clear s.dev (s.dev.now + e.2) →
      exec (.gateEntryChange p) s = .next (s.due (s.dev.now + e.2) fun d =>
        ((d.runCredits (2 * p.val)).runCredits (2 * p.val + 1)).updPort p.val fun q =>
          { q with gatesNow := q.gatesAt (s.dev.now + e.2) })) ∧
    (∀ (id : Nat) (c : Conn), s.dev.net.fetching.find? (fun k =>
        !s.dev.serviceDown (((s.dev.conn k).map (·.home)).getD 0) (s.dev.contextEdge k)) = some id →
      s.dev.conn id = some c →
      exec .contextFetchDone s = .next (s.on fun d =>
        let d1 := d.mapNet fun n => { n with fetching := n.fetching.filter fun k => decide (k ≠ id) }
        let d2 := (d1.evictFor c.home).updConn id fun c => { c with cached := true, lastUse := d.now }
        let d3 := (d2.drainMisses id).pump id
        d3.net.rings.foldl (fun d e => d.retakeHead id e.1) d3))

/-- Sync bursts, the holdover limit, lane loss and the PPS pins. SYNC_BURST at a device with a parent closes the burst
before and sends the next, an interval after the last. HOLDOVER_LIMIT, decided, takes a device in HOLDOVER to FREE,
and a BACKUP_ROOT to LOCKED as the time source. LANE_CLOCK_LOSS takes a LOCKED device with a parent to HOLDOVER. A
TALLY_PPS_IN edge at a disciplined ROOT sets the phase to slew, starts ACQUIRE from FREE or HOLDOVER, and locks an
acquiring ROOT at its fourth good edge in a row; a third missed edge in a row takes a LOCKED ROOT to HOLDOVER, and
an edge out of bounds of a LOCKED ROOT is a missed one. TALLY_PPS_OUT rises at a multiple of 800,000,000 where it
pulses and falls 80,000,000 ticks later.
It rests on 03_tally_and_ordering.md. -/
def Obligations.TallyEvents : Prop :=
  ∀ s : State,
    let t := s.dev.tally
    (t.isSource = false → t.link ≠ 0xFF → Clear s.dev t.burstDue →
      exec .syncBurst s = .next (s.due t.burstDue fun d => d.closeBurst.sendBurst)) ∧
    (∀ b, t.lastBurst = some b → t.burstDue = b + 800 * t.cfg.intervalUs) ∧
    (t.state = .holdover → Decided s.dev t.holdoverEnd →
      (t.cfg.role = .backupRoot → exec .holdoverLimit s = .next (s.decided t.holdoverEnd fun d =>
        (d.mapTally fun t => { t with actingRoot := true }).setTallyState .locked (some t.holdoverEnd))) ∧
      (t.cfg.role ≠ .backupRoot → exec .holdoverLimit s = .next (s.decided t.holdoverEnd fun d =>
        (d.mapTally fun t => { t with useBackup := false }).setTallyState .free (some t.holdoverEnd)))) ∧
    (let lost := s.dev.mapTally fun t => { t with laneLostAt := some (t.laneLostAt.getD t.now) }
     (t.state = .locked → t.isSource = false → exec .laneClockLoss s = .next (s.on fun _ => lost.enterHoldover)) ∧
     (t.state ≠ .locked ∨ t.isSource = true → exec .laneClockLoss s = .next (s.on fun _ => lost))) ∧
    (t.cfg.role = .root → t.cfg.ppsIn = true →
      let nearest := (s.dev.now + second / 2) / second * second
      let err : Int := (65536 * nearest : Nat) - ((65536 * s.dev.now + t.frac.toNat : Nat) : Int)
      let slew := fun (n : Nat) => s.dev.mapTally fun t =>
        { t with toSlew := err, offset := -err, missedInRow := 0, goodBursts := n }
      (t.state = .free ∨ t.state = .holdover → exec .tallyPpsIn s = .next (s.on fun _ => (slew 0).setTallyState .acquire)) ∧
      (t.state = .acquire → (-8192 ≤ err ∧ err ≤ 8192) →
        (t.goodBursts + 1 < 4 → exec .tallyPpsIn s = .next (s.on fun _ => slew (t.goodBursts + 1))) ∧
        (4 ≤ t.goodBursts + 1 →
          exec .tallyPpsIn s = .next (s.on fun _ => (slew (t.goodBursts + 1)).setTallyState .locked))) ∧
      (t.state = .acquire → ¬ (-8192 ≤ err ∧ err ≤ 8192) → exec .tallyPpsIn s = .next (s.on fun _ => slew 0)) ∧
      (t.state = .locked → (-6553600 ≤ err ∧ err ≤ 6553600) → exec .tallyPpsIn s = .next (s.on fun _ => slew 0)) ∧
      (t.state = .locked → ¬ (-6553600 ≤ err ∧ err ≤ 6553600) → exec .tallyPpsIn s = exec .ppsEdgeMissed s) ∧
      (let missed := s.dev.mapTally fun t => { t with missedInRow := t.missedInRow + 1, goodBursts := 0 }
       (t.state = .locked → 3 ≤ t.missedInRow + 1 →
         exec .ppsEdgeMissed s = .next (s.on fun _ => missed.enterHoldover)) ∧
       (t.state ≠ .locked ∨ t.missedInRow + 1 < 3 → exec .ppsEdgeMissed s = .next (s.on fun _ => missed)))) ∧
    (let sec := (s.dev.now + second - 1) / second * second
     Clear s.dev sec →
      (t.state = .locked ∨ t.state = .holdover ∨ t.cfg.role = .root →
        exec .tallyPpsOut s = .next (s.due sec (·.mapTally fun t => { t with ppsOut := true }))) ∧
      (¬ (t.state = .locked ∨ t.state = .holdover ∨ t.cfg.role = .root) →
        exec .tallyPpsOut s = .next (s.due sec id))) ∧
    (t.ppsOut = true → Clear s.dev (s.dev.now / second * second + second / 10) →
      exec .tallyPpsOutFall s = .next (s.due (s.dev.now / second * second + second / 10)
        (·.mapTally fun t => { t with ppsOut := false })))

/-- Power measurements, AOCLK, sleep and wake, slewing, NETREF and links. In a device that is awake: POWER_MEASUREMENT
at the end of its interval takes the readings, and trips after the third reading of 115 C in a row, or throttles the
group with a limit passed, or undoes a step where all is eased. AOCLK_TRIM keeps the measured error. A RUN block
idle for its limit sleeps; a SLEEP block that starts to wake is in RUN at its instant, and a DEEP one that a paddock
names too, its region leaving DEEP. CCLK_SLEW_DONE comes 80 ticks for each MHz between the region's running and
target clock later, and settles the region's clock. NETREF_LOSS takes the links of its die down and NETREF_STABLE
retrains them. A link that comes UP carries what waited, and one that goes down moves its queues.
It rests on 19_clocks_power_and_reset.md, 12_fabric_transport.md. -/
def Obligations.PowerAndLinkEvents : Prop :=
  ∀ s : State, s.dev.awake = true →
    (∀ r : PowerReading,
      let t := (s.dev.now / 80000 + 1) * 80000
      let d := ((List.range 16).foldl (fun d n => d.updClock n id) (s.dev.passTo t)).mapPower fun w => w.take r
      let closing := fun (d : Device) =>
        let e := d.clampTargets.settleThrottle
        e.mapPower fun w => { w with flagsAtMeasure := BitVec.ofNat 8 w.flags, stateAtMeasure := e.stateCode }
      Clear s.dev t →
        (3 ≤ d.power.tripCount → exec (.powerMeasurement r) s = .next (s.on fun _ => d.trip)) ∧
        (d.power.tripCount < 3 → d.power.overCause ≠ 0 → exec (.powerMeasurement r) s = .next (s.on fun _ =>
          closing (d.throttleDown d.power.throttleGroup))) ∧
        (d.power.tripCount < 3 → d.power.overCause = 0 → d.power.eased = true → exec (.powerMeasurement r) s = .next (s.on fun _ =>
          closing d.throttleUp)) ∧
        (d.power.tripCount < 3 → d.power.overCause = 0 → d.power.eased = false →
          exec (.powerMeasurement r) s = .next (s.on fun _ => closing d))) ∧
    (∀ e : Int, exec (.aoclkTrim e) s = .next (s.on (·.mapPower fun w =>
      { w with aoError := e, aoOnTally := decide (s.dev.tally.state = .locked) }))) ∧
    (∀ b : Fin 1024,
      (let us := (s.dev.clock (regionOf b.val)).sleepUs
       let t := (s.dev.block b.val).busyAt + 800 * us
       s.dev.blockPower b.val = .run → us ≠ 0 → s.dev.blockIdle b.val = true → Clear s.dev t →
        exec (.blockSleep b) s = .next (s.due t (·.setBlockPower b.val .sleep))) ∧
      (∀ t, s.dev.blockPower b.val = .sleep → Table.find s.dev.power.waking b.val = some t → Clear s.dev t →
        exec (.blockWake b) s = .next (s.due t (·.setBlockPower b.val .run))) ∧
      (let t := (Table.find s.dev.power.waking b.val).getD s.dev.now
       s.dev.blockPower b.val = .deep → s.dev.named b.val = true → Clear s.dev t →
        exec (.blockWake b) s = .next (s.due t fun d =>
          ((d.setBlockPower b.val .run).updClock (regionOf b.val) fun r =>
            { r with deep := false, runningMhz := if r.deep then r.targetMhz else r.runningMhz }).settleThrottle))) ∧
    (∀ n : Fin 16, s.dev.power.avsFailed.getLsbD (n.val / 2) = false →
      let r := s.dev.clock n.val
      let t := s.dev.now + 80 * ((r.targetMhz - r.runningMhz) + (r.runningMhz - r.targetMhz))
      Clear s.dev t → exec (.cclkSlewDone n) s = .next (s.due t fun d => (d.updClock n.val id).settleThrottle)) ∧
    (∀ die : Fin 4,
      exec (.netrefLoss die) s = .next (s.on fun d =>
        ((List.range 16).map (16 * die.val + ·)).foldl
          (fun d l => if (d.link l).state = .training then d.setLink l .down 1 else d.linkDown l)
          (d.mapPower fun w => { w with netrefStable := w.netrefStable &&& ~~~(BitVec.ofNat 4 (2 ^ die.val)) })) ∧
      exec (.netrefStable die) s = .next (s.on fun d =>
        ((List.range 16).map (16 * die.val + ·)).foldl
          (fun d l => if (d.link l).state = .down then d.setLink l .training 2 else d)
          (d.mapPower fun w => { w with netrefStable := w.netrefStable ||| BitVec.ofNat 4 (2 ^ die.val) }))) ∧
    (∀ l : Fin 64,
      ((s.dev.link l.val).state = .down ∨ (s.dev.link l.val).state = .training →
        s.dev.power.netrefStable.getLsbD (l.val / 16) = true → exec (.linkUp l) s = .next (s.on fun d =>
          let d1 := d.setLink l.val .up 3
          ((if d1.isLaneLink l.val then d1.mapTally fun t => { t with laneLostAt := none } else d1).unstrand.sendStarted).pumpAll)) ∧
      ((s.dev.link l.val).state = .up → exec (.linkDown l) s = .next (s.on fun d =>
        let d1 := (d.setLink l.val .down 1).moveQueues l.val
        if d1.isLaneLink l.val then d1.loseLane else d1)))

/-- Power good, cold and warm boots, RESTART, RESET_N, REF25 and STANDBY. PWR_GOOD rising takes an OFF device into its
boot; with RESET_N high and REF25 stable COLD_BOOT runs it to READY, or to SAFE with no valid slot. PWR_GOOD falling
leaves OFF, the Tally at zero and memory empty, with fuses and pins kept. RESET_N low forces the safe states until
it rises, and a WARM reset starts. REF25 lost forces the safe states and FREE; stable again it starts the Tally or a
WARM reset. WARM_RESET boots, at its armed instant. RESTART_RESET leaves no owner and no stage set. STANDBY is left
at `wake_at`, and ends READY.
It rests on 19_clocks_power_and_reset.md, 18_security_and_firmware_trust.md. -/
def Obligations.ResetEvents : Prop :=
  ∀ (s : State) (i : BootInputs),
    let d := s.dev
    (d.state = .off → exec .pwrGoodRise s = .next (s.on fun _ =>
      { (d.mapBoot fun b => { b with step := .coldRef }) with state := .booting, stateSince := d.now })) ∧
    (d.state = .booting → d.boot.step = .cold → d.boot.resetN = true → d.power.refStable = true →
      exec (.coldBoot i) s = .next (s.on (·.bootUp i true))) ∧
    (∃ u, exec .pwrGoodFall s = .next u ∧ u.dev.state = .off ∧ u.dev.mem = [] ∧ u.dev.now = 0 ∧ u.dev.own = {} ∧
      u.dev.staging = {} ∧ u.dev.paddocks = [] ∧ u.dev.paths.gpioPins = d.paths.gpioPins ∧
      u.dev.security.fusedStep = d.security.fusedStep ∧ u.dev.security.revoked = d.security.revoked ∧
      u.dev.boot.serial = d.boot.serial) ∧
    (let low := d.mapBoot fun b => { b with resetN := false }
     (d.state = .off ∨ d.state = .tripped ∨ (d.state = .booting ∧ (d.boot.step = .coldRef ∨ d.boot.step = .cold)) →
       exec .resetNLow s = .next (s.on fun _ => low)) ∧
     (d.state = .ready ∨ d.state = .run ∨ d.state = .safe ∨ d.state = .standby →
       exec .resetNLow s = .next (s.on fun _ =>
        (low.safeStates.mapBoot fun b => { b with xspiResetN := false }).setDevState .resetHeld))) ∧
    (let high := d.mapBoot fun b => { b with resetN := true }
     (d.state = .resetHeld → d.power.refStable = true → exec .resetNHigh s = .next (s.on fun _ => high.warmStart)) ∧
     (d.state = .resetHeld → d.power.refStable = false →
       exec .resetNHigh s = .next (s.on fun _ => high.setDevState .refLost)) ∧
     (d.state ≠ .resetHeld → exec .resetNHigh s = .next (s.on fun _ => high))) ∧
    (d.state = .booting → d.boot.step = .warm → exec (.warmReset i) s = .next (s.on (·.bootUp i false))) ∧
    (∀ t, d.resettable = true → d.state ≠ .booting → d.boot.resetAt = some (t, false) → Clear d t →
      exec (.warmReset i) s = .next (s.due t fun d => d.warmStart.bootUp i false)) ∧
    (∀ t, d.awake = true → d.boot.resetAt = some (t, true) → Clear d t →
      exec .restartReset s = .next (s.due t Device.restart)) ∧
    (d.awake = true → d.boot.resetAt = none → exec .restartReset s = .next (s.on Device.restart)) ∧
    (d.restart.own = {} ∧ d.restart.staging = {} ∧ d.restart.mem = d.mem ∧ d.restart.now = d.now) ∧
    (d.power.refStable = true → d.state = .ready ∨ d.state = .run →
      exec .ref25Loss s = .next (s.on fun d =>
        ((((d.mapPower fun w => { w with refStable := false, refLosses := w.refLosses + 1 }).mapTally fun t =>
          { t with onAoclk := true, toSlew := 0, useBackup := false }).setTallyState .free).safeStates).setDevState .refLost)) ∧
    (d.power.refStable = false →
      let back := (d.mapPower fun w => { w with refStable := true, refSince := d.now }).mapTally fun t => { t with onAoclk := false }
      (d.state = .refLost → exec .ref25Stable s = .next (s.on fun _ => back.warmStart)) ∧
      (d.state = .booting → d.boot.step = .coldRef →
        exec .ref25Stable s = .next (s.on fun _ => back.mapBoot fun b => { b with step := .cold }))) ∧
    (d.state = .standby → d.boot.wakeAt ≠ 0 → Clear d d.boot.wakeAt →
      exec .standbyWake s = .next (s.due d.boot.wakeAt fun d => (d.mapBoot fun b => { b with wakeAt := 0 }).setDevState .leaving)) ∧
    (d.state = .leaving → exec (.standbyLeft i) s = .next (s.on fun d =>
      ((((d.mapNet fun n => { n with conns := Table.mapAll n.conns fun _ c => { c with cached := c.cached || c.pin } }).setDevState
        .ready).trainLinks i).settleState).schedule))

/-- Work, slices, escalation, saving, restoring, running and image switches. PADDOCK_WORK stamps the demand of a paddock
with work, and a VACANT one waits. SLICE_EXPIRY at the end of the slice shares the blocks again where an equal
waits. PREEMPTION_ESCALATION, decided, turns a BOUNDARY preemption without a boundary IMMEDIATE. PREEMPT_STOPPED
starts the save, an interrupted MMAC stopping at its round. SAVE_DONE writes the records, clears and frees the
blocks, answers the master that waits, and shares the blocks. RESTORE_DONE restores every block; PADDOCK_RUNNING
starts the paddock at a frame boundary. IMAGE_LOAD_SWITCH switches at its boundary after the writes, or ends the
load with CONFLICT where a clock cannot carry it.
It rests on 15_paddocks_and_preemption.md, 07_compiled_schedules.md. -/
def Obligations.SwitchingEvents : Prop :=
  ∀ (s : State) (p : Fin 64) (x : Paddock), s.dev.paddock p.val = some x →
    (s.dev.hasWork p.val = true →
      let d := s.dev.updPaddock p.val fun x => { x with demand := if x.demand = 0 then s.dev.now else x.demand }
      (x.state = .vacant → exec (.paddockWork p) s = .next (s.on fun _ => (d.setPaddockState p.val .waiting).schedule)) ∧
      (x.state ≠ .vacant → exec (.paddockWork p) s = .next (s.on fun _ => d.schedule))) ∧
    (x.state = .running →
      (∃ w ∈ s.dev.ranking, w.2.priority = x.priority ∧ w.2.blocks &&& x.blocks ≠ 0) → Clear s.dev (x.tookAt + x.slice) →
      exec (.sliceExpiry p) s = .next (s.due (x.tookAt + x.slice) Device.schedule)) ∧
    (∀ q t, x.preempt = some q → q.escalateAt = some t → x.state = .stopping → s.dev.atBoundary p.val = false →
      Decided s.dev t → exec (.preemptionEscalation p) s = .next (s.decided t (·.escalate p.val))) ∧
    (∀ q, x.state = .stopping → x.preempt = some q →
      (if q.mode = .immediate then s.dev.allStopped x else s.dev.atBoundary p.val) = true →
      s.dev.blocksQuiet p.val x = true →
      exec (.preemptStopped p) s = .next (s.on fun d =>
        let d1 := d.stopThreads p.val
        let d2 := if q.mode = .immediate then x.blockList.foldl (fun d b => d.cutMmac p.val q.stopAt b) d1 else d1
        (x.blockList.foldl Device.rouse d2).setPaddockState p.val .saving (d.waiterTag q.waiter))) ∧
    (∀ q : Preemption, x.state = .saving → x.preempt = some q →
      let whole := q.mode == .immediate
      let suspended := whole && !s.dev.atBoundary p.val
      let d1 := (x.blockList.foldl (fun d b => d.saveBlock p.val x whole b) s.dev).saveRings p.val x whole
      let written := x.blockList.length * savedBytes whole + 64 * (d1.ringsOf p.val).length
      let d2 := (d1.clearBlocksOf p.val).updPaddock p.val fun x =>
        { x with holds := false, preempt := none, suspended := suspended, fullRecord := whole, generatorsSaved := x.blockList,
                 restored := false,
                 savedBytes := x.savedBytes + written }
      let next : PaddockState := if q.toHeld then .held else if suspended then .saved
        else if d2.workAtHead p.val || !d2.atBoundary p.val then .waiting else .vacant
      let d3 := d2.setPaddockState p.val next (s.dev.waiterTag q.waiter)
      exec (.saveDone p) s = .next (s.on fun _ =>
        ((q.waiter.map fun w => d3.respond (pathOf w.1 w.2) {}).getD d3).schedule)) ∧
    (x.state = .restoring → x.restored = false → (∀ b ∈ x.blockList, s.dev.blockPower b ≠ .deep) →
      let r := Device.restoreBlocks p.val x x.blockList (x.blockList.foldl (fun d b => d.setBlockPower b .run) s.dev)
      (r.2 = none → exec (.restoreDone p) s = .next (s.on fun _ => r.1.updPaddock p.val fun x => { x with restored := true })) ∧
      (∀ e, r.2 = some e → exec (.restoreDone p) s = .next (s.on fun _ => r.1.strike p.val e))) ∧
    (x.state = .restoring → x.restored = true →
      let span : Nat := ((s.dev.resident p.val).map fun e => imageSpan e.2.bytes).getD 4096
      let t := ceilDiv s.dev.now span * span
      Clear s.dev t → exec (.paddockRunning p) s = .next (s.due t fun d =>
        let d1 := (d.startThreads p.val x).setPaddockState p.val .running
        let d2 := x.blockList.foldl (fun d b => d.updBlock b fun k => { k with frameStart := d.frameBase p.val, busyAt := d.now }) d1
        ((d2.endSwitches x).updPaddock p.val fun x =>
          { x with suspended := false, fullRecord := false, restored := false, switchFrom := none }).schedule)) ∧
    (∀ (l : Loading) (im : Image), s.dev.service.loading.find? (fun e => decide (e.1 = p.val)) = some (p.val, l) →
      Table.find s.dev.images l.handle = some im → x.holds = true → x.stoppingNow = false →
      let span := max 1 (imageSpan im.bytes)
      let t := ceilDiv (max s.dev.now (max l.start l.written)) span * span
      let left := fun (d : Device) => d.mapService fun s => { s with loading := s.loading.filter fun e => decide (e ≠ (p.val, l)) }
      Clear s.dev t →
        (s.dev.clocksCarry im.bytes = true →
          exec (.imageLoadSwitch p) s = .next (s.due t fun d => (left d).switchTo p.val x l im)) ∧
        (s.dev.clocksCarry im.bytes = false → exec (.imageLoadSwitch p) s = .next (s.due t fun d =>
          ((left d).updImage l.handle fun y => { y with state := .registered }).perform
            [.done l.ring l.index resConflict 0 0])))

/-- Phases of a step, page selections, codebook builds and the pull deadline. When the service runs that a phase takes
have ended: STEP_START writes the step's header and each lane's, enters DRAFT and rings the start bell; STEP_MASK
takes the draft bell, walks the automata of each lane, enters MAIN and rings the mask bell; STEP_SAMPLE takes the
sample bell, chooses and verifies each lane and completes the STEP. STEP_DEADLINE, decided, ends a step that has not
begun as TIMED_OUT. PAGE_SELECT_DONE starts the unit's next selection, writes the outputs and completes;
CODEBOOK_BUILD_DONE makes the slot READY and answers with its record; a DROVE_PULL deadline, decided, gives the
record back to its source.
It rests on 16_serving_steps_and_sampling.md, 09_attention_and_pages.md, 10_bales.md, 11_droves_folds_and_tiers.md, 07_compiled_schedules.md. -/
def Obligations.ServiceEvents : Prop :=
  ∀ s : State,
    (∀ (p : Fin 64) (x : Paddock) (y : ServeStep) (more : List ServeStep), s.dev.paddock p.val = some x →
      (s.dev.serving p.val).steps = y :: more →
      (y.phase = .queued → (y.deadline ≠ 0 → s.dev.now ≤ y.deadline) →
        let w := s.dev.bookWork (y.loads fun i _ => startBytes i)
        let d0 := w.1.passTo w.2
        let header := leBytes 2 y.lanes.length ++ leBytes 1 1 ++ zeros 5 ++ leBytes 8 s.dev.now ++ leBytes 8 y.entries ++ zeros 40
        let r := Device.eachLane p.val y (fun l _ => recordRange x l) (fun d i l => d.startLane p.val x y i l) 0 y.lanes
          ((d0.updStep p.val fun z => { z with phase := .start }).store y.cfg.area header)
        Clear w.1 w.2 → r.2.2 = none → exec (.stepStart p) s = .next (s.on fun _ =>
          let d := (r.1.updStep p.val fun z => { z with lanes := r.2.1 }).enterPhase p.val y .draft
          d.ringThrough p.val y.cfg.stepDie (64 * y.cfg.leadBlock + y.cfg.startBell) 1 (d.engineSource y.cfg 0))) ∧
      (∀ d1, y.phase = .draft → s.dev.takeBell p.val (s.dev.stepBell p.val y.cfg y.cfg.draftBell) = some d1 →
        let w := d1.bookWork (y.loads (d1.maskBytes y))
        let d0 := (w.1.passTo w.2).enterPhase p.val y .mask
        let r := Device.eachLane p.val y (d0.maskReads p.val y) (fun d i l => d.maskLane p.val y i l) 0 y.lanes d0
        Clear w.1 w.2 → r.2.2 = none → exec (.stepMask p) s = .next (s.on fun _ =>
          let d := (r.1.updStep p.val fun z => { z with lanes := r.2.1 }).enterPhase p.val y .main
          d.ringThrough p.val y.cfg.stepDie (64 * y.cfg.leadBlock + y.cfg.maskBell) 1 (d.engineSource y.cfg 0))) ∧
      (∀ d1, y.phase = .main → s.dev.takeBell p.val (s.dev.stepBell p.val y.cfg y.cfg.sampleBell) = some d1 →
        let w := d1.bookWork (y.loads fun _ l => y.sampleBytes l)
        let d0 := (w.1.passTo w.2).enterPhase p.val y .sample
        let r := Device.eachLane p.val y (d0.sampleReads p.val y) (fun d _ l => (d, l)) 0 y.lanes d0
        Clear w.1 w.2 → r.2.2 = none → exec (.stepSample p) s = .next (s.on fun _ =>
          let w := Device.sampleLanes p.val x y 0 y.lanes r.1
          w.1.endStep p.val y resOk (w.2.1 + 2 ^ 32 * w.2.2)))) ∧
    (∀ (p : Fin 64) (y : ServeStep), s.dev.lateStep p.val = some y → Decided s.dev y.deadline → s.dev.now ≤ y.deadline →
      exec (.stepDeadline p) s = .next (s.decided y.deadline (·.endStep p.val y resTimedOut y.deadline))) ∧
    (∀ (n : Fin 16) (x : Selecting) (rest : List Selecting),
      s.dev.service.selecting[n.val]? = some (x :: rest) → Clear s.dev x.ends →
      let d := ((s.dev.passTo x.ends).mapService fun y =>
        { y with selecting := y.selecting.setIfInBounds n.val rest }).startSelect n.val
      ∀ (r : Ring) (c : ServeConfig), d.ring x.ring = some r → (d.serving r.paddock).cfg = some c →
        let read := d.checkedRead (fieldU64 x.bytes 24) (selQueryBytes x.bytes c) (d.src (srcRegion n.val 4)) r.paddock
        read.2 = none → exec (.pageSelectDone n) s = .next (s.on fun _ =>
          let w := read.1.writeOutputs x.bytes c
          w.1.perform [.done x.ring x.index resOk 0 w.2])) ∧
    (∀ (p : Fin 64) (n : Fin 4) (m : Master) (q : Nat) (b : List Byte),
      let t := (s.dev.book p.val n.val).ends
      let d := s.dev.passTo t
      let count := fieldU32 b 4
      let a := fieldU64 b 8
      let r := d.checkedRead a (rawBlock * count) (d.bookBaler a) 0xFF
      let made := buildRecord (fieldU8 b 2) (fieldU8 b 3) count (r.1.load a (rawBlock * count))
      (s.dev.book p.val n.val).build = some (m, q, b) → Clear s.dev t → d.faults.injection = none → r.2 = none →
        exec (.codebookBuildDone p n) s = .next (s.on fun _ =>
          ((r.1.putBook p.val n.val { state := .ready, generation := fieldU8 b 3, record := made, since := d.now }).respond
            (pathOf m q) { payload := made }).restRegions)) ∧
    (∀ (r : BitVec 46) (o : Offer), Table.find s.dev.service.offers r.toNat = some o → o.retags = none → Decided s.dev o.deadline →
      exec (.drovePullDeadline r) s = .next (s.decided o.deadline (·.revertOffer r.toNat o)))

/-- Detected errors, lockstep mismatches and copies of peer notes. DETECTED_ERROR_RETRY while the Shepherd runs counts a
corrected error, records a corrected pair too, records a transient error whose retry passes, stamped at its first
detection, and takes the lasting path when it does not; POISONED is lasting at once. LOCKSTEP_MISMATCH with no
injection armed: a re-execution that passes is recorded as transient; one that mismatches again, which of the two
being a free draw (log entry 26), records a lasting fault, sets the flag and restarts the firmware. PEER_NOTE_COPY
sends the earliest copy at its instant, the second copy staying due after the first.
It rests on 17_faults_and_recovery.md. -/
def Obligations.FaultEvents : Prop :=
  ∀ s : State, s.dev.shepherdOn = true →
    (∀ e : ErrorReport,
      let first := some (s.dev.now - e.retryTicks.toNat)
      let bits := if e.code = 2 then (d16Corrects e.flips.toNat).getD 0 else 0
      (∀ b, bits = 1 → exec (.detectedErrorRetry e b) s =
        .next (s.on (·.mapFaults fun f => { f with corrected1 := f.corrected1 + 1 }))) ∧
      (∀ b, bits = 2 → exec (.detectedErrorRetry e b) s =
        .next (s.on fun d => (d.mapFaults fun f => { f with corrected2 := f.corrected2 + 1 }).record
          { errorReport e 1 with level := 1, code := 1, sub := 2 } first)) ∧
      (e.code.toNat ∈ [0x10, 0x12, 0x13] ∨ e.code = 2 ∧ d16Corrects e.flips.toNat = none →
        exec (.detectedErrorRetry e true) s = .next (s.on (·.record (errorReport e 1) first)) ∧
        exec (.detectedErrorRetry e false) s = .next (s.on (·.lastingError e))) ∧
      (∀ b, e.code = 3 → exec (.detectedErrorRetry e b) s = .next (s.on (·.lastingError e)))) ∧
    (∀ pair : Fin 2, s.dev.faults.injection = none →
      let w := s.dev.draw
      (w.1.getLsbD 0 = true → exec (.lockstepMismatch pair) s = .next (s.on fun _ =>
        w.2.record (s.dev.lockstepReport pair.val false false))) ∧
      (w.1.getLsbD 0 = false → s.dev.awake = true → exec (.lockstepMismatch pair) s = .next (s.on fun _ =>
        ((w.2.record (w.2.lockstepReport pair.val true false)).mapFaults fun f => { f with lockstep := true }).restart))) ∧
    (∀ (x : NoteDue) (i : Nat),
      leastBy (fun e : NoteDue × Nat => e.1.dueAt) s.dev.faults.notesDue.zipIdx = some (x, i) → Clear s.dev x.dueAt →
      exec .peerNoteCopy s = .next (s.due x.dueAt fun d =>
        let rest := s.dev.faults.notesDue.eraseIdx i
        (d.sendNotes x.conns x.copy x.payload).mapFaults fun f =>
          { f with notesDue := if x.copy = 1 then rest ++ [{ x with copy := 2 }] else rest }))

/-- What reset leaves, where the spec gives the value. After reset the device is READY with no owner, no stage set, no
paddock, no committed id, an empty fault ring with number 0, worlds NONSECURE, the Tally at zero and every mailbox
IDLE; no command waits. READY rather than SAFE is the model's choice (log entry 5).
It rests on 03_tally_and_ordering.md, 04_control_plane.md, 17_faults_and_recovery.md. -/
def Obligations.ResetValues : Prop :=
  State.reset.pending = [] ∧ State.reset.dev.now = 0 ∧ State.reset.dev.own.owner = none ∧ State.reset.dev.staging.sets = [] ∧
    State.reset.dev.paddocks = [] ∧ State.reset.dev.deviceId = none ∧ State.reset.dev.faults.ring = [] ∧
    State.reset.dev.faults.next = 0 ∧ State.reset.dev.faults.lost = 0 ∧ State.reset.dev.security.pairs = 0 ∧
    State.reset.dev.security.fabric = false ∧ (∀ p, (State.reset.dev.paths.box p).status = .idle) ∧
    State.reset.dev.mem = [] ∧ State.reset.dev.state = .ready

/-- The invariants hold after reset. Memory of the reset state is in its canonical form and its fault ring within its
bound.
It rests on 17_faults_and_recovery.md. -/
def Obligations.ResetSound : Prop :=
  Sound State.reset

/-- Every step answers a next state and keeps memory canonical and the fault ring within 4,096. For every state whose
memory is in its canonical form and whose fault ring holds at most 4,096 records, whatever command is at the front
of its queue or none, step answers a next state, which has both and whose queue is the rest: no command stops the
block, and none touches the queue.
It rests on 17_faults_and_recovery.md, 01_architecture.md. -/
def Obligations.StepKeepsSound : Prop :=
  ∀ s : State, Sound s → ∃ u, step s = .next u ∧ Sound u ∧ u.pending = s.pending.tail

/-- Until power goes, no step takes the Tally, the fault numbers, the fuses or the id back. Unless PWR_GOOD_FALL is at
the front of the queue, a step never decreases the Tally, the number of the next fault record or the fused step,
never clears a revoked key, and never takes a committed device id away. PWR_GOOD_FALL keeps the fused step and the
revoked keys too.
It rests on 03_tally_and_ordering.md, 17_faults_and_recovery.md, 18_security_and_firmware_trust.md, 04_control_plane.md. -/
def Obligations.StepGoesOnward : Prop :=
  ∀ s u : State, step s = .next u →
    (s.pending.head? ≠ some .pwrGoodFall → Onward s.dev u.dev) ∧
    s.dev.security.fusedStep ≤ u.dev.security.fusedStep ∧
    (∀ i, s.dev.security.revoked.getLsbD i = true → u.dev.security.revoked.getLsbD i = true)
end

