-- ==== Sys2Proof/Laws/Keeps.lean ====
section
/-! SUPPORT. What every operation of the block keeps, whatever command runs it (PWR_GOOD falling apart): the relation, and the
lemmas of the operations that write memory, the Tally, the fault ring, the fuses or the committed id. -/

namespace Sys2Proof.Machine

/-- From one device to a later one: memory stays canonical, the Tally does not go back, the fault ring keeps its bound and
its numbers rise, fuses stay blown, and a committed id stays committed. -/
structure Keeps (a d : Device) : Prop where
  mem : Sparse.wf a.mem = true → Sparse.wf d.mem = true
  now : a.tally.now ≤ d.tally.now
  ring : a.faults.ring.length ≤ 4096 → d.faults.ring.length ≤ 4096
  next : a.faults.next ≤ d.faults.next
  fuse : a.security.fusedStep ≤ d.security.fusedStep
  revoked : ∀ i, a.security.revoked.getLsbD i = true → d.security.revoked.getLsbD i = true
  id : a.deviceId.isSome = true → d.deviceId.isSome = true

variable {a d d' : Device}

theorem Keeps.refl (d : Device) : Keeps d d := ⟨fun h => h, Nat.le_refl _, fun h => h, Nat.le_refl _, Nat.le_refl _, fun _ h => h, fun h => h⟩

theorem Keeps.congr (h : Keeps a d) (hm : d'.mem = d.mem) (ht : d'.tally.now = d.tally.now)
    (hr : d'.faults.ring = d.faults.ring) (hn : d'.faults.next = d.faults.next)
    (hf : d'.security.fusedStep = d.security.fusedStep) (hv : d'.security.revoked = d.security.revoked)
    (hi : d'.deviceId = d.deviceId) : Keeps a d' :=
  ⟨by rw [hm]; exact h.mem, by rw [ht]; exact h.now, by rw [hr]; exact h.ring, by rw [hn]; exact h.next,
   by rw [hf]; exact h.fuse, by rw [hv]; exact h.revoked, by rw [hi]; exact h.id⟩

theorem Keeps.ite {c : Prop} [Decidable c] {x y : Device} (hx : c → Keeps a x) (hy : ¬c → Keeps a y) :
    Keeps a (if c then x else y) := by
  by_cases h : c
  · rw [if_pos h]; exact hx h
  · rw [if_neg h]; exact hy h

theorem Keeps.foldl {α : Type} {f : Device → α → Device} {l : List α} {d : Device}
    (hf : ∀ d x, Keeps a d → Keeps a (f d x)) (h : Keeps a d) : Keeps a (l.foldl f d) := by
  induction l generalizing d with
  | nil => exact h
  | cons x l ih => exact ih (hf d x h)

theorem Keeps.foldl_fst {α β : Type} {f : Device × β → α → Device × β} {l : List α} {p : Device × β}
    (hf : ∀ p x, Keeps a p.1 → Keeps a (f p x).1) (h : Keeps a p.1) : Keeps a (l.foldl f p).1 := by
  induction l generalizing p with
  | nil => exact h
  | cons x l ih => exact ih (hf p x h)

theorem Device.mapNet_keeps {f : Network → Network} (h : Keeps a d) : Keeps a (d.mapNet f) := h.congr rfl rfl rfl rfl rfl rfl rfl
theorem Device.mapBoot_keeps {f : Boot → Boot} (h : Keeps a d) : Keeps a (d.mapBoot f) := h.congr rfl rfl rfl rfl rfl rfl rfl
theorem Device.mapPower_keeps {f : Power → Power} (h : Keeps a d) : Keeps a (d.mapPower f) := h.congr rfl rfl rfl rfl rfl rfl rfl
theorem Device.mapPaths_keeps {f : ControlPaths → ControlPaths} (h : Keeps a d) : Keeps a (d.mapPaths f) := h.congr rfl rfl rfl rfl rfl rfl rfl
theorem Device.mapOwn_keeps {f : Ownership → Ownership} (h : Keeps a d) : Keeps a (d.mapOwn f) := h.congr rfl rfl rfl rfl rfl rfl rfl
theorem Device.mapStaging_keeps {f : Staging → Staging} (h : Keeps a d) : Keeps a (d.mapStaging f) := h.congr rfl rfl rfl rfl rfl rfl rfl
theorem Device.mapTrace_keeps {f : Trace → Trace} (h : Keeps a d) : Keeps a (d.mapTrace f) := h.congr rfl rfl rfl rfl rfl rfl rfl
theorem Device.mapFabric_keeps {f : Fabric → Fabric} (h : Keeps a d) : Keeps a (d.mapFabric f) := h.congr rfl rfl rfl rfl rfl rfl rfl
theorem Device.mapService_keeps {f : Service → Service} (h : Keeps a d) : Keeps a (d.mapService f) := h.congr rfl rfl rfl rfl rfl rfl rfl

theorem Device.mapTally_keeps {f : Tally → Tally} (h : Keeps a d) (hf : ∀ t : Tally, t.now ≤ (f t).now) :
    Keeps a (d.mapTally f) :=
  ⟨h.mem, Nat.le_trans h.now (hf _), h.ring, h.next, h.fuse, h.revoked, h.id⟩

theorem Device.mapFaults_keeps {f : Faults → Faults} (h : Keeps a d)
    (hf : ∀ x : Faults, (f x).ring = x.ring ∧ (f x).next = x.next) : Keeps a (d.mapFaults f) :=
  h.congr rfl rfl (hf _).1 (hf _).2 rfl rfl rfl

theorem Device.mapSecurity_keeps {f : Security → Security} (h : Keeps a d)
    (hf : ∀ x : Security, (f x).fusedStep = x.fusedStep ∧ (f x).revoked = x.revoked) : Keeps a (d.mapSecurity f) :=
  h.congr rfl rfl rfl rfl (hf _).1 (hf _).2 rfl

/-! ### memory -/

theorem table_rising_put {α : Type} (t : Table α) (k : Nat) (v : α) (h : Table.rising t = true) :
    Table.rising (Table.put t k v) = true ∧ ∀ b, b < k → (t.all fun e => decide (b < e.1)) = true →
      ((Table.put t k v).all fun e => decide (b < e.1)) = true := by
  induction t with
  | nil => simp [Table.put, Table.rising]
  | cons e t ih =>
    obtain ⟨q, x⟩ := e
    simp only [Table.rising, Bool.and_eq_true] at h
    have ih := ih h.2
    unfold Table.put
    split
    · rename_i hk
      refine ⟨?_, ?_⟩
      · simp only [Table.rising, Bool.and_eq_true, List.all_cons, decide_eq_true_eq, List.all_eq_true] at h ⊢
        exact ⟨⟨hk, fun e he => Nat.lt_trans hk (h.1 e he)⟩, h⟩
      · intro b hb hall
        simp only [List.all_cons, Bool.and_eq_true, decide_eq_true_eq] at hall ⊢
        exact ⟨hb, hall⟩
    · split
      · rename_i hk; subst hk
        refine ⟨?_, ?_⟩
        · simp only [Table.rising, Bool.and_eq_true]; exact h
        · intro b hb hall
          simp only [List.all_cons, Bool.and_eq_true, decide_eq_true_eq] at hall ⊢
          exact hall
      · rename_i hk hk'
        have hlt : q < k := by omega
        refine ⟨?_, ?_⟩
        · simp only [Table.rising, Bool.and_eq_true]
          exact ⟨ih.2 q hlt h.1, ih.1⟩
        · intro b hb hall
          simp only [List.all_cons, Bool.and_eq_true, decide_eq_true_eq] at hall ⊢
          exact ⟨hall.1, ih.2 b hb hall.2⟩

theorem table_mem_put {α : Type} (t : Table α) (k : Nat) (v : α) {e : Nat × α} (h : e ∈ Table.put t k v) :
    e = (k, v) ∨ e ∈ t := by
  induction t with
  | nil => simpa [Table.put] using h
  | cons x t ih =>
    obtain ⟨q, y⟩ := x
    unfold Table.put at h
    split at h
    · simpa using h
    · split at h
      · rcases List.mem_cons.1 h with h | h
        · exact .inl h
        · exact .inr (List.mem_cons_of_mem _ h)
      · rcases List.mem_cons.1 h with h | h
        · exact .inr (h ▸ List.mem_cons_self)
        · rcases ih h with h | h
          · exact .inl h
          · exact .inr (List.mem_cons_of_mem _ h)

theorem table_rising_sublist {α : Type} {t u : Table α} (h : u.Sublist t) (ht : Table.rising t = true) :
    Table.rising u = true := by
  induction h with
  | slnil => rfl
  | cons e _ ih =>
    simp only [Table.rising, Bool.and_eq_true] at ht
    exact ih ht.2
  | cons_cons e h ih =>
    obtain ⟨q, x⟩ := e
    simp only [Table.rising, Bool.and_eq_true, List.all_eq_true] at ht ⊢
    exact ⟨fun y hy => ht.1 y (h.subset hy), ih ht.2⟩

theorem table_del_sublist {α : Type} (t : Table α) (k : Nat) : (Table.del t k).Sublist t := by
  induction t with
  | nil => exact List.Sublist.slnil
  | cons e t ih =>
    obtain ⟨q, x⟩ := e
    unfold Table.del
    split
    · exact List.sublist_cons_self _ _
    · exact ih.cons_cons _

theorem sparse_wf_sublist {w : Nat} {t u : Sparse w} (h : u.Sublist t) (ht : Sparse.wf t = true) : Sparse.wf u = true := by
  unfold Sparse.wf at ht ⊢
  rw [Bool.and_eq_true] at ht ⊢
  exact ⟨table_rising_sublist h ht.1, List.all_eq_true.2 fun e he => List.all_eq_true.1 ht.2 e (h.subset he)⟩

theorem sparse_wf_set {w : Nat} {m : Sparse w} (k : Nat) (v : BitVec w) (h : Sparse.wf m = true) :
    Sparse.wf (m.set k v) = true := by
  unfold Sparse.set
  split
  · exact sparse_wf_sublist (table_del_sublist m k) h
  · rename_i hv
    unfold Sparse.wf at h ⊢
    rw [Bool.and_eq_true] at h ⊢
    refine ⟨(table_rising_put m k v h.1).1, List.all_eq_true.2 fun e he => ?_⟩
    rcases table_mem_put m k v he with he | he
    · subst he; simpa using hv
    · exact List.all_eq_true.1 h.2 e he

theorem sparse_wf_setMany {w : Nat} {m : Sparse w} (k : Nat) (vs : List (BitVec w)) (h : Sparse.wf m = true) :
    Sparse.wf (m.setMany k vs) = true := by
  induction vs generalizing m k with
  | nil => exact h
  | cons v vs ih => exact ih (k + 1) (sparse_wf_set k v h)

theorem sparse_wf_replace {w : Nat} {m : Sparse w} (base len : Nat) (part : Sparse w) (h : Sparse.wf m = true) :
    Sparse.wf (m.replace base len part) = true := by
  unfold Sparse.replace
  have h0 : Sparse.wf (m.filter fun e => decide (e.1 < base ∨ base + len ≤ e.1)) = true :=
    sparse_wf_sublist List.filter_sublist h
  generalize (m.filter fun e => decide (e.1 < base ∨ base + len ≤ e.1)) = m0 at h0
  generalize (part.filter fun e => decide (e.1 < len)) = l
  induction l generalizing m0 with
  | nil => exact h0
  | cons e l ih => exact ih _ (sparse_wf_set _ _ h0)

theorem Device.mapMem_keeps {f : Sparse 8 → Sparse 8} (h : Keeps a d)
    (hf : ∀ m : Sparse 8, Sparse.wf m = true → Sparse.wf (f m) = true) : Keeps a (d.mapMem f) :=
  ⟨fun x => hf _ (h.mem x), h.now, h.ring, h.next, h.fuse, h.revoked, h.id⟩

theorem Device.store_keeps (x : Nat) (bs : List Byte) (h : Keeps a d) : Keeps a (d.store x bs) :=
  ⟨fun hm => sparse_wf_setMany _ _ (h.mem hm), h.now, h.ring, h.next, h.fuse, h.revoked, h.id⟩

theorem Keeps.recorded {bs : List Byte} {n : Nat} (h : Keeps a d) (hn : n = d.faults.next := by rfl) :
    Keeps a (d.mapFaults fun f => { f with ring := (bs :: f.ring).take 4096, next := n + 1, lost := if 4096 ≤ n then f.lost + 1 else f.lost }) :=
  ⟨h.mem, h.now, fun _ => by simp only [Device.mapFaults, List.length_take]; omega,
   by simp only [Device.mapFaults]; have := h.next; omega, h.fuse, h.revoked, h.id⟩

theorem deviceIdApply_keeps' {p : List Byte} (h : Keeps a d) : Keeps a (deviceIdApply d p) := by
  refine ⟨?_, ?_, ?_, ?_, ?_, ?_, ?_⟩ <;> unfold deviceIdApply <;> dsimp only <;> split <;> try split
  all_goals first | exact h.mem | exact h.now | exact h.ring | exact h.next | exact h.fuse | exact h.revoked | exact h.id | exact fun _ => rfl

theorem Device.blowFuses_keeps' (h : Keeps a d) : Keeps a d.blowFuses :=
  ⟨h.mem, h.now, h.ring, h.next, Nat.le_trans h.fuse (Nat.le_max_left _ _),
   fun i hi => by simp only [Device.blowFuses, Device.mapSecurity, BitVec.getLsbD_or, h.revoked i hi, Bool.true_or], h.id⟩

theorem Device.passTo_keeps' {t : Nat} (h : Keeps a d) : Keeps a (d.passTo t) := by
  unfold Device.passTo
  split
  · exact h
  · rename_i ht
    exact ⟨h.mem, Nat.le_trans h.now (Nat.le_of_lt (Nat.lt_of_not_le ht)), h.ring, h.next, h.fuse, h.revoked, h.id⟩

theorem Device.warmClear_keeps' (h : Keeps a d) : Keeps a d.warmClear :=
  ⟨fun hm => sparse_wf_sublist List.filter_sublist (h.mem hm), h.now, h.ring, h.next, h.fuse, h.revoked, h.id⟩

theorem Device.clearBlock_keeps' {b : Nat} (h : Keeps a d) : Keeps a (d.clearBlock b) := by
  refine ⟨fun hm => ?_, h.now, h.ring, h.next, h.fuse, h.revoked, h.id⟩
  exact sparse_wf_replace _ _ _ (h.mem hm)

theorem Keeps.getD {o : Option Device} {y : Device} (ho : ∀ y, o = some y → Keeps a y) (hy : Keeps a y) :
    Keeps a (o.getD y) := by
  cases o with
  | none => exact hy
  | some x => exact ho x rfl

/-- A row of the command index changes the device only in ways that keep. -/
def Immediate.Keeps (m : Immediate) : Prop := ∀ a d c, Machine.Keeps a d → Machine.Keeps a (m.run d c)

def Staged.Keeps (s : Staged) : Prop := ∀ a d p, Machine.Keeps a d → Machine.Keeps a (s.apply d p)

def Kind.Keeps : Kind → Prop
  | .immediate m => m.Keeps
  | .staged s => s.Keeps

def DescKind.Keeps (k : DescKind) : Prop := ∀ a d j, Machine.Keeps a d → Machine.Keeps a (k.run d j)

end Sys2Proof.Machine
end

