-- ==== Sys2Proof/Laws/Keeps1.lean ====
section
/-! SUPPORT. One lemma for each function that yields a device, in the order they call one another (part 1 of 7): what the
function does is kept in the sense of `Keeps`. -/

namespace Sys2Proof.Machine

theorem Device.abortSets_keeps {a : Device} (p0 : Device) (p1 : Master) (h0 : Keeps a p0) :
    Keeps a (Device.abortSets p0 p1) := by
  unfold Device.abortSets
  with_reducible apply Device.mapStaging_keeps
  assumption

theorem Device.storeLe_keeps {a : Device} (p0 : Device) (p1 : Nat) (p2 : Nat) (p3 : Nat) (h0 : Keeps a p0) :
    Keeps a (Device.storeLe p0 p1 p2 p3) := by
  unfold Device.storeLe
  with_reducible apply Device.store_keeps
  assumption

theorem Device.emit_keeps {a : Device} (p0 : Device) (p1 : OutEvent) (h0 : Keeps a p0) :
    Keeps a (Device.emit p0 p1) := by
  unfold Device.emit
  refine Keeps.congr (d := p0) ?_ rfl rfl rfl rfl rfl rfl rfl
  assumption

theorem Device.mirrorRecord_keeps {a : Device} (p0 : Device) (p1 : Nat) (p2 : List Byte) (h0 : Keeps a p0) :
    Keeps a (Device.mirrorRecord p0 p1 p2) := by
  unfold Device.mirrorRecord
  extract_lets +onlyGivenNames x0
  clear_value x0
  refine Keeps.ite (fun _ => ?_) (fun _ => ?_)
  · rename_i v1
    extract_lets +onlyGivenNames x2
    have h_x2 : Keeps a x2 := by
      unfold x2
      with_reducible apply Device.storeLe_keeps
      with_reducible apply Device.store_keeps
      assumption
    clear_value x2
    refine Keeps.ite (fun _ => ?_) (fun _ => ?_)
    · rename_i v3
      with_reducible apply Device.emit_keeps
      assumption
    · rename_i v4
      assumption
  · rename_i v5
    assumption

theorem Device.recordBytes_keeps {a : Device} (p0 : Device) (p1 : List Byte) (h0 : Keeps a p0) :
    Keeps a (Device.recordBytes p0 p1) := by
  (unfold Device.recordBytes; apply Device.mirrorRecord_keeps; exact h0.recorded)

theorem Device.record_keeps {a : Device} (p0 : Device) (p1 : Report) (p2 : optParam (Option Nat) none) (h0 : Keeps a p0) :
    Keeps a (Device.record p0 p1 p2) := by
  unfold Device.record
  with_reducible apply Device.recordBytes_keeps
  assumption

theorem Device.setOwner_keeps {a : Device} (p0 : Device) (p1 : Option Master) (p2 : Nat) (p3 : optParam Nat 0) (h0 : Keeps a p0) :
    Keeps a (Device.setOwner p0 p1 p2 p3) := by
  unfold Device.setOwner
  extract_lets +onlyGivenNames x0 x1 x2
  clear_value x0
  have h_x1 : Keeps a x1 := by
    unfold x1
    split
    · rename_i v3 v4
      refine Keeps.ite (fun _ => ?_) (fun _ => ?_)
      · rename_i v5
        assumption
      · rename_i v6
        with_reducible apply Device.abortSets_keeps
        assumption
    · rename_i v7
      assumption
  clear_value x1
  have h_x2 : Keeps a x2 := by
    unfold x2
    with_reducible apply Device.mapOwn_keeps
    assumption
  clear_value x2
  refine Keeps.ite (fun _ => ?_) (fun _ => ?_)
  · rename_i v8
    assumption
  · rename_i v9
    with_reducible apply Device.record_keeps
    assumption

theorem Device.updBox_keeps {a : Device} (p0 : Device) (p1 : Path) (p2 : Mailbox → Mailbox) (h0 : Keeps a p0) :
    Keeps a (Device.updBox p0 p1 p2) := by
  unfold Device.updBox
  with_reducible apply Device.mapPaths_keeps
  assumption

theorem Device.updPort_keeps {a : Device} (p0 : Device) (p1 : Nat) (p2 : Port → Port) (h0 : Keeps a p0) :
    Keeps a (Device.updPort p0 p1 p2) := by
  unfold Device.updPort
  with_reducible apply Device.mapNet_keeps
  assumption

theorem Device.updLink_keeps {a : Device} (p0 : Device) (p1 : Nat) (p2 : Link → Link) (h0 : Keeps a p0) :
    Keeps a (Device.updLink p0 p1 p2) := by
  unfold Device.updLink
  with_reducible apply Device.updPort_keeps
  assumption

theorem Device.runCredits_keeps {a : Device} (p0 : Device) (p1 : Nat) (h0 : Keeps a p0) :
    Keeps a (Device.runCredits p0 p1) := by
  unfold Device.runCredits
  with_reducible apply Device.updLink_keeps
  assumption

theorem Device.enqueue_keeps {a : Device} (p0 : Device) (p1 : Nat) (p2 : OutFrame) (p3 : Option Nat) (p4 : Option (Nat × Nat)) (p5 : optParam Bool false) (h0 : Keeps a p0) :
    Keeps a (Device.enqueue p0 p1 p2 p3 p4 p5) := by
  unfold Device.enqueue
  extract_lets +onlyGivenNames x0 x1
  clear_value x0
  clear_value x1
  with_reducible apply Device.updLink_keeps
  with_reducible apply Device.runCredits_keeps
  assumption

theorem Device.sendOn_keeps {a : Device} (p0 : Device) (p1 : Nat) (p2 : Nat) (p3 : Nat) (p4 : Nat) (p5 : List Byte) (p6 : List Byte) (p7 : optParam (BitVec 16) 0) (h0 : Keeps a p0) :
    Keeps a (Device.sendOn p0 p1 p2 p3 p4 p5 p6 p7) := by
  unfold Device.sendOn
  split
  · rename_i v0 v1
    assumption
  · rename_i v2 v3 v4
    extract_lets +onlyGivenNames x5
    clear_value x5
    extract_lets +onlyGivenNames x6
    clear_value x6
    split
    · rename_i v7 v8 v9
      with_reducible apply Device.enqueue_keeps
      assumption
    · rename_i v10 v11
      with_reducible apply Device.mapNet_keeps
      assumption

theorem Device.signalDone_keeps {a : Device} (p0 : Device) (p1 : Master) (h0 : Keeps a p0) :
    Keeps a (Device.signalDone p0 p1) := by
  unfold Device.signalDone
  extract_lets +onlyGivenNames x0
  clear_value x0
  refine Keeps.ite (fun _ => ?_) (fun _ => ?_)
  · rename_i v1
    split
    · rename_i v2
      with_reducible apply Device.emit_keeps
      assumption
    · rename_i v3
      with_reducible apply Device.emit_keeps
      assumption
    · rename_i v4
      assumption
  · rename_i v5
    assumption

theorem Device.deliver_keeps {a : Device} (p0 : Device) (p1 : Path) (p2 : List Byte) (p3 : List Byte) (h0 : Keeps a p0) :
    Keeps a (Device.deliver p0 p1 p2 p3) := by
  unfold Device.deliver
  extract_lets +onlyGivenNames x0 x1
  clear_value x0
  have h_x1 : Keeps a x1 := by
    unfold x1
    with_reducible apply Device.updBox_keeps
    assumption
  clear_value x1
  split
  · rename_i v2 v3
    extract_lets +onlyGivenNames x4 x5
    clear_value x4
    have h_x5 : Keeps a x5 := by
      unfold x5
      with_reducible apply Device.updBox_keeps
      assumption
    clear_value x5
    split
    · rename_i v6 v7
      assumption
    · rename_i v8 v9 v10
      with_reducible apply Device.sendOn_keeps
      assumption
  · rename_i v11 v12
    with_reducible apply Device.signalDone_keeps
    assumption

theorem Device.respond_keeps {a : Device} (p0 : Device) (p1 : Path) (p2 : Reply) (h0 : Keeps a p0) :
    Keeps a (Device.respond p0 p1 p2) := by
  unfold Device.respond
  extract_lets +onlyGivenNames x0 x1 x2 x3 x4
  clear_value x0
  clear_value x1
  clear_value x2
  clear_value x3
  clear_value x4
  with_reducible apply Device.deliver_keeps
  with_reducible apply Device.mapPaths_keeps
  assumption

theorem Device.closeClaims_keeps {a : Device} (p0 : Device) (h0 : Keeps a p0) :
    Keeps a (Device.closeClaims p0) := by
  unfold Device.closeClaims
  split
  · rename_i v0 v1
    assumption
  · rename_i v2 v3 v4
    extract_lets +onlyGivenNames x5 x6 x7
    clear_value x5
    clear_value x6
    have h_x7 : Keeps a x7 := by
      unfold x7
      with_reducible apply Device.setOwner_keeps
      with_reducible apply Device.mapOwn_keeps
      assumption
    clear_value x7
    refine Keeps.foldl (fun d8 x9 h10 => ?_) ?_
    · with_reducible apply Device.respond_keeps
      assumption
    · assumption

theorem Device.settleOwnership_keeps {a : Device} (p0 : Device) (h0 : Keeps a p0) :
    Keeps a (Device.settleOwnership p0) := by
  unfold Device.settleOwnership
  extract_lets +onlyGivenNames x0 x1
  have h_x0 : Keeps a x0 := by
    unfold x0
    split
    · rename_i v2 v3 v4
      refine Keeps.ite (fun _ => ?_) (fun _ => ?_)
      · rename_i v5
        with_reducible apply Device.setOwner_keeps
        assumption
      · rename_i v6
        assumption
    · rename_i v7 v8
      assumption
  have h_x1 : Keeps a x1 := by
    unfold x1
    split
    · rename_i v9 v10 v11
      refine Keeps.ite (fun _ => ?_) (fun _ => ?_)
      · rename_i v12
        with_reducible apply Device.closeClaims_keeps
        assumption
      · rename_i v13
        assumption
    · rename_i v14 v15
      assumption
  refine Keeps.ite (fun _ => ?_) (fun _ => ?_)
  · rename_i v16
    with_reducible apply Device.mapOwn_keeps
    assumption
  · rename_i v17
    assumption

theorem Device.renew_keeps {a : Device} (p0 : Device) (h0 : Keeps a p0) :
    Keeps a (Device.renew p0) := by
  unfold Device.renew
  with_reducible apply Device.mapOwn_keeps
  assumption

theorem Device.acceptBox_keeps {a : Device} (p0 : Device) (p1 : Path) (p2 : Nat) (h0 : Keeps a p0) :
    Keeps a (Device.acceptBox p0 p1 p2) := by
  unfold Device.acceptBox
  extract_lets +onlyGivenNames x0 x1 x2
  have h_x0 : Keeps a x0 := by
    unfold x0
    with_reducible apply Device.settleOwnership_keeps
    assumption
  clear_value x0
  clear_value x1
  have h_x2 : Keeps a x2 := by
    unfold x2
    with_reducible apply Device.updBox_keeps
    assumption
  clear_value x2
  refine Keeps.ite (fun _ => ?_) (fun _ => ?_)
  · rename_i v3
    with_reducible apply Device.renew_keeps
    assumption
  · rename_i v4
    assumption

theorem Device.updExposure_keeps {a : Device} (p0 : Device) (p1 : Nat) (p2 : Exposure → Exposure) (h0 : Keeps a p0) :
    Keeps a (Device.updExposure p0 p1 p2) := by
  unfold Device.updExposure
  with_reducible apply Device.mapNet_keeps
  assumption

theorem Device.updPage_keeps {a : Device} (p0 : Device) (p1 : Master) (p2 : ControlPage → ControlPage) (h0 : Keeps a p0) :
    Keeps a (Device.updPage p0 p1 p2) := by
  unfold Device.updPage
  with_reducible apply Device.mapPaths_keeps
  assumption

theorem Device.pageError_keeps {a : Device} (p0 : Device) (p1 : Master) (p2 : Nat) (h0 : Keeps a p0) :
    Keeps a (Device.pageError p0 p1 p2) := by
  unfold Device.pageError
  with_reducible apply Device.updPage_keeps
  assumption

theorem plainCommand_keeps (p0 : Right) (p1 : Device → Call → Check) (p2 : Device → Call → Device)
    (h2 : ∀ a d c, Keeps a d → Keeps a (p2 d c)) : Immediate.Keeps (plainCommand p0 p1 p2) :=
  fun a d c h => h2 a d c h

theorem Device.answerOk_keeps {a : Device} (p0 : Device) (p1 : Call) (p2 : List Byte) (h0 : Keeps a p0) :
    Keeps a (Device.answerOk p0 p1 p2) := by
  unfold Device.answerOk
  with_reducible apply Device.respond_keeps
  assumption

theorem immIdentify_keeps :
    Immediate.Keeps immIdentify := by
  unfold immIdentify
  with_reducible apply plainCommand_keeps
  intro d0
  intro d1
  intro x2
  intro x3
  with_reducible apply Device.answerOk_keeps
  assumption

theorem immMbxNext_keeps :
    Immediate.Keeps immMbxNext := by
  unfold immMbxNext
  with_reducible apply plainCommand_keeps
  intro d0
  intro d1
  intro x2
  intro x3
  with_reducible apply Device.answerOk_keeps
  assumption

theorem Device.joinClaims_keeps {a : Device} (p0 : Device) (p1 : Call) (h0 : Keeps a p0) :
    Keeps a (Device.joinClaims p0 p1) := by
  unfold Device.joinClaims
  extract_lets +onlyGivenNames x0 x1
  clear_value x0
  clear_value x1
  with_reducible apply Device.updBox_keeps
  with_reducible apply Device.mapOwn_keeps
  assumption

theorem immOwnClaim_keeps :
    Immediate.Keeps immOwnClaim := by
  unfold immOwnClaim
  with_reducible apply plainCommand_keeps
  intro d0
  intro d1
  intro x2
  intro x3
  split
  · rename_i v4 v5 v6
    with_reducible apply Device.answerOk_keeps
    assumption
  · rename_i v7 v8
    with_reducible apply Device.joinClaims_keeps
    assumption

theorem immOwnRenew_keeps :
    Immediate.Keeps immOwnRenew := by
  unfold immOwnRenew
  with_reducible apply plainCommand_keeps
  intro d0
  intro d1
  intro x2
  intro x3
  with_reducible apply Device.answerOk_keeps
  assumption

theorem immOwnRelease_keeps :
    Immediate.Keeps immOwnRelease := by
  unfold immOwnRelease
  with_reducible apply plainCommand_keeps
  intro d0
  intro d1
  intro x2
  intro x3
  with_reducible apply Device.answerOk_keeps
  with_reducible apply Device.setOwner_keeps
  assumption

theorem immOwnHandover_keeps :
    Immediate.Keeps immOwnHandover := by
  unfold immOwnHandover
  intro b0 d1 c2 h3
  dsimp -zeta only
  extract_lets +onlyGivenNames x4 x5
  clear_value x4
  clear_value x5
  with_reducible apply Device.answerOk_keeps
  with_reducible apply Device.mapOwn_keeps
  assumption

theorem immOwnAccept_keeps :
    Immediate.Keeps immOwnAccept := by
  unfold immOwnAccept
  with_reducible apply plainCommand_keeps
  intro d0
  intro d1
  intro x2
  intro x3
  with_reducible apply Device.answerOk_keeps
  with_reducible apply Device.setOwner_keeps
  assumption

theorem immOwnStatus_keeps :
    Immediate.Keeps immOwnStatus := by
  unfold immOwnStatus
  with_reducible apply plainCommand_keeps
  intro d0
  intro d1
  intro x2
  intro x3
  extract_lets +onlyGivenNames x4 x5 x6 x7 x8
  clear_value x4
  clear_value x5
  clear_value x6
  clear_value x7
  clear_value x8
  with_reducible apply Device.answerOk_keeps
  assumption

theorem immStageOpen_keeps :
    Immediate.Keeps immStageOpen := by
  unfold immStageOpen
  with_reducible apply plainCommand_keeps
  intro d0
  intro d1
  intro x2
  intro x3
  extract_lets +onlyGivenNames x4
  clear_value x4
  with_reducible apply Device.answerOk_keeps
  with_reducible apply Device.mapStaging_keeps
  assumption

theorem deviceIdApply_keeps {a : Device} (p0 : Device) (p1 : List Byte) (h0 : Keeps a p0) :
    Keeps a (deviceIdApply p0 p1) := by
  exact deviceIdApply_keeps' h0

theorem stagedDeviceIdSet_keeps :
    Staged.Keeps stagedDeviceIdSet := by
  unfold stagedDeviceIdSet
  intro b0 d1 c2 h3
  dsimp -zeta only
  with_reducible apply deviceIdApply_keeps
  assumption

theorem fabricBindApply_keeps {a : Device} (p0 : Device) (p1 : List Byte) (h0 : Keeps a p0) :
    Keeps a (fabricBindApply p0 p1) := by
  unfold fabricBindApply
  refine Keeps.ite (fun _ => ?_) (fun _ => ?_)
  · rename_i v0
    with_reducible apply Device.mapSecurity_keeps
    · assumption
    · exact fun _ => ⟨rfl, rfl⟩
  · rename_i v1
    with_reducible apply Device.mapSecurity_keeps
    · assumption
    · exact fun _ => ⟨rfl, rfl⟩

theorem stagedFabricBind_keeps :
    Staged.Keeps stagedFabricBind := by
  unfold stagedFabricBind
  intro b0 d1 c2 h3
  dsimp -zeta only
  with_reducible apply fabricBindApply_keeps
  assumption

theorem Device.setDevState_keeps {a : Device} (p0 : Device) (p1 : DevState) (h0 : Keeps a p0) :
    Keeps a (Device.setDevState p0 p1) := by
  unfold Device.setDevState
  refine Keeps.ite (fun _ => ?_) (fun _ => ?_)
  · rename_i v0
    assumption
  · rename_i v1
    refine Keeps.congr (d := p0) ?_ rfl rfl rfl rfl rfl rfl rfl
    assumption

theorem Device.settleState_keeps {a : Device} (p0 : Device) (h0 : Keeps a p0) :
    Keeps a (Device.settleState p0) := by
  unfold Device.settleState
  split
  · rename_i v0 v1
    refine Keeps.ite (fun _ => ?_) (fun _ => ?_)
    · rename_i v2
      with_reducible apply Device.setDevState_keeps
      assumption
    · rename_i v3
      assumption
  · rename_i v4 v5
    refine Keeps.ite (fun _ => ?_) (fun _ => ?_)
    · rename_i v6
      assumption
    · rename_i v7
      with_reducible apply Device.setDevState_keeps
      assumption
  · rename_i v8 v9 v10
    assumption

theorem Device.updPaddock_keeps {a : Device} (p0 : Device) (p1 : Nat) (p2 : Paddock → Paddock) (h0 : Keeps a p0) :
    Keeps a (Device.updPaddock p0 p1 p2) := by
  unfold Device.updPaddock
  refine Keeps.congr (d := p0) ?_ rfl rfl rfl rfl rfl rfl rfl
  assumption

theorem Device.setPaddockState_keeps {a : Device} (p0 : Device) (p1 : Nat) (p2 : PaddockState) (p3 : optParam Nat 0) (h0 : Keeps a p0) :
    Keeps a (Device.setPaddockState p0 p1 p2 p3) := by
  unfold Device.setPaddockState
  split
  · rename_i v0 v1
    assumption
  · rename_i v2 v3 v4
    refine Keeps.ite (fun _ => ?_) (fun _ => ?_)
    · rename_i v5
      assumption
    · rename_i v6
      with_reducible apply Device.record_keeps
      with_reducible apply Device.settleState_keeps
      with_reducible apply Device.updPaddock_keeps
      assumption

theorem Device.startWake_keeps {a : Device} (p0 : Device) (p1 : BlockPower) (p2 : Nat) (p3 : Nat) (h0 : Keeps a p0) :
    Keeps a (Device.startWake p0 p1 p2 p3) := by
  unfold Device.startWake
  refine Keeps.ite (fun _ => ?_) (fun _ => ?_)
  · rename_i v0
    with_reducible apply Device.mapPower_keeps
    assumption
  · rename_i v1
    assumption

theorem Device.rouse_keeps {a : Device} (p0 : Device) (p1 : Nat) (h0 : Keeps a p0) :
    Keeps a (Device.rouse p0 p1) := by
  unfold Device.rouse
  with_reducible apply Device.startWake_keeps
  assumption

theorem Device.takeBlocks_keeps {a : Device} (p0 : Device) (p1 : Nat) (h0 : Keeps a p0) :
    Keeps a (Device.takeBlocks p0 p1) := by
  unfold Device.takeBlocks
  extract_lets +onlyGivenNames x0
  have h_x0 : Keeps a x0 := by
    unfold x0
    with_reducible apply Device.setPaddockState_keeps
    with_reducible apply Device.updPaddock_keeps
    assumption
  clear_value x0
  refine Keeps.foldl (fun d1 x2 h3 => ?_) ?_
  · with_reducible apply Device.rouse_keeps
    assumption
  · assumption

theorem Device.takeInOrder_keeps {a : Device} (p0 : Device) (p1 : BitVec 1024) (p2 : List (Nat × Paddock)) (h0 : Keeps a p0) :
    Keeps a (Device.takeInOrder p0 p1 p2) := by
  induction p2 generalizing p0 p1
  · unfold Device.takeInOrder
    assumption
  · rename_i r0 r1 r2
    unfold Device.takeInOrder
    refine Keeps.ite (fun _ => ?_) (fun _ => ?_)
    · rename_i v0
      with_reducible apply r2
      with_reducible apply Device.takeBlocks_keeps
      assumption
    · rename_i v1
      with_reducible apply r2
      assumption

theorem Device.updBlock_keeps {a : Device} (p0 : Device) (p1 : Nat) (p2 : Block → Block) (h0 : Keeps a p0) :
    Keeps a (Device.updBlock p0 p1 p2) := by
  unfold Device.updBlock
  with_reducible apply Device.mapFabric_keeps
  assumption

theorem Device.mapThreadsOf_keeps {a : Device} (p0 : Device) (p1 : Nat) (p2 : Thread → Thread) (h0 : Keeps a p0) :
    Keeps a (Device.mapThreadsOf p0 p1 p2) := by
  unfold Device.mapThreadsOf
  split
  · rename_i v0 v1
    assumption
  · rename_i v2 v3 v4
    refine Keeps.foldl (fun d5 x6 h7 => ?_) ?_
    · with_reducible apply Device.updBlock_keeps
      assumption
    · assumption

theorem Device.stopThreads_keeps {a : Device} (p0 : Device) (p1 : Nat) (h0 : Keeps a p0) :
    Keeps a (Device.stopThreads p0 p1) := by
  unfold Device.stopThreads
  with_reducible apply Device.updPaddock_keeps
  with_reducible apply Device.mapThreadsOf_keeps
  assumption

theorem Device.beginPreempt_keeps {a : Device} (p0 : Device) (p1 : Nat) (p2 : PreemptMode) (p3 : Option Nat) (p4 : Bool) (p5 : Option (Master × Nat)) (h0 : Keeps a p0) :
    Keeps a (Device.beginPreempt p0 p1 p2 p3 p4 p5) := by
  unfold Device.beginPreempt
  extract_lets +onlyGivenNames x0 x1 x2
  clear_value x0
  have h_x1 : Keeps a x1 := by
    unfold x1
    with_reducible apply Device.updPaddock_keeps
    assumption
  clear_value x1
  have h_x2 : Keeps a x2 := by
    unfold x2
    with_reducible apply Device.mapNet_keeps
    with_reducible apply Device.setPaddockState_keeps
    assumption
  clear_value x2
  refine Keeps.ite (fun _ => ?_) (fun _ => ?_)
  · rename_i v3
    assumption
  · rename_i v4
    with_reducible apply Device.stopThreads_keeps
    assumption

theorem Device.escalate_keeps {a : Device} (p0 : Device) (p1 : Nat) (h0 : Keeps a p0) :
    Keeps a (Device.escalate p0 p1) := by
  unfold Device.escalate
  split
  · rename_i v0 v1
    assumption
  · rename_i v2 v3 v4
    split
    · rename_i v5 v6
      assumption
    · rename_i v7 v8 v9
      refine Keeps.ite (fun _ => ?_) (fun _ => ?_)
      · rename_i v10
        assumption
      · rename_i v11
        with_reducible apply Device.stopThreads_keeps
        with_reducible apply Device.updPaddock_keeps
        assumption

theorem Device.clearBlock_keeps {a : Device} (p0 : Device) (p1 : Nat) (h0 : Keeps a p0) :
    Keeps a (Device.clearBlock p0 p1) := by
  exact Device.clearBlock_keeps' h0

theorem Device.clearBlocksOf_keeps {a : Device} (p0 : Device) (p1 : Nat) (h0 : Keeps a p0) :
    Keeps a (Device.clearBlocksOf p0 p1) := by
  unfold Device.clearBlocksOf
  split
  · rename_i v0 v1
    assumption
  · rename_i v2 v3 v4
    refine Keeps.foldl (fun d5 x6 h7 => ?_) ?_
    · with_reducible apply Device.rouse_keeps
      with_reducible apply Device.clearBlock_keeps
      assumption
    · assumption

theorem Device.considerPreempt_keeps {a : Device} (p0 : Device) (p1 : Nat × Paddock) (p2 : Nat × Paddock) (h0 : Keeps a p0) :
    Keeps a (Device.considerPreempt p0 p1 p2) := by
  unfold Device.considerPreempt
  extract_lets +onlyGivenNames x0 x1 x2
  clear_value x0
  clear_value x1
  clear_value x2
  split
  · rename_i v3 v4
    refine Keeps.ite (fun _ => ?_) (fun _ => ?_)
    · rename_i v5
      with_reducible apply Device.beginPreempt_keeps
      assumption
    · rename_i v6
      refine Keeps.ite (fun _ => ?_) (fun _ => ?_)
      · rename_i v7
        refine Keeps.ite (fun _ => ?_) (fun _ => ?_)
        · rename_i v8
          with_reducible apply Device.beginPreempt_keeps
          assumption
        · rename_i v9
          refine Keeps.ite (fun _ => ?_) (fun _ => ?_)
          · rename_i v10
            with_reducible apply Device.beginPreempt_keeps
            assumption
          · rename_i v11
            with_reducible apply Device.beginPreempt_keeps
            assumption
      · rename_i v12
        refine Keeps.ite (fun _ => ?_) (fun _ => ?_)
        · rename_i v13
          with_reducible apply Device.beginPreempt_keeps
          assumption
        · rename_i v14
          assumption
  · rename_i v15 v16
    split
    · rename_i v17 v18
      assumption
    · rename_i v19 v20 v21
      refine Keeps.ite (fun _ => ?_) (fun _ => ?_)
      · rename_i v22
        refine Keeps.ite (fun _ => ?_) (fun _ => ?_)
        · rename_i v23
          with_reducible apply Device.updPaddock_keeps
          assumption
        · rename_i v24
          with_reducible apply Device.escalate_keeps
          assumption
      · rename_i v25
        assumption
  · rename_i v26 v27
    with_reducible apply Device.updPaddock_keeps
    with_reducible apply Device.clearBlocksOf_keeps
    assumption
  · rename_i v28 v29 v30 v31
    assumption

theorem Device.askOccupants_keeps {a : Device} (p0 : Device) (p1 : Nat × Paddock) (h0 : Keeps a p0) :
    Keeps a (Device.askOccupants p0 p1) := by
  unfold Device.askOccupants
  refine Keeps.foldl (fun d0 x1 h2 => ?_) ?_
  · with_reducible apply Device.considerPreempt_keeps
    assumption
  · assumption

theorem Device.schedule_keeps {a : Device} (p0 : Device) (h0 : Keeps a p0) :
    Keeps a (Device.schedule p0) := by
  unfold Device.schedule
  extract_lets +onlyGivenNames x0 x1
  have h_x0 : Keeps a x0 := by
    unfold x0
    with_reducible apply Device.takeInOrder_keeps
    assumption
  clear_value x0
  have h_x1 : Keeps a x1 := by
    unfold x1
    refine Keeps.foldl (fun d2 x3 h4 => ?_) ?_
    · with_reducible apply Device.askOccupants_keeps
      assumption
    · assumption
  clear_value x1
  with_reducible apply Device.takeInOrder_keeps
  assumption

theorem Device.wakeNamed_keeps {a : Device} (p0 : Device) (p1 : List Nat) (h0 : Keeps a p0) :
    Keeps a (Device.wakeNamed p0 p1) := by
  unfold Device.wakeNamed
  refine Keeps.foldl (fun d0 x1 h2 => ?_) ?_
  · with_reducible apply Device.startWake_keeps
    assumption
  · assumption

theorem Device.resetHurdles_keeps {a : Device} (p0 : Device) (p1 : Nat) (h0 : Keeps a p0) :
    Keeps a (Device.resetHurdles p0 p1) := by
  unfold Device.resetHurdles
  split
  · rename_i v0 v1
    assumption
  · rename_i v2 v3 v4
    with_reducible apply Device.mapFabric_keeps
    assumption

theorem Device.resetNetBells_keeps {a : Device} (p0 : Device) (p1 : Nat) (h0 : Keeps a p0) :
    Keeps a (Device.resetNetBells p0 p1) := by
  unfold Device.resetNetBells
  split
  · rename_i v0 v1
    assumption
  · rename_i v2 v3 v4
    with_reducible apply Device.mapFabric_keeps
    assumption

theorem Device.zeroBells_keeps {a : Device} (p0 : Device) (p1 : Nat) (p2 : List Nat) (h0 : Keeps a p0) :
    Keeps a (Device.zeroBells p0 p1 p2) := by
  unfold Device.zeroBells
  split
  · rename_i v0 v1
    assumption
  · rename_i v2 v3 v4
    refine Keeps.foldl (fun d5 x6 h7 => ?_) ?_
    · with_reducible apply Device.store_keeps
      assumption
    · assumption

theorem paddockCreateApply_keeps {a : Device} (p0 : Device) (p1 : List Byte) (h0 : Keeps a p0) :
    Keeps a (paddockCreateApply p0 p1) := by
  unfold paddockCreateApply
  extract_lets +onlyGivenNames x0 x1 x2
  clear_value x0
  have h_x1 : Keeps a x1 := by
    unfold x1
    refine Keeps.congr (d := p0) ?_ rfl rfl rfl rfl rfl rfl rfl
    assumption
  clear_value x1
  clear_value x2
  with_reducible apply Device.schedule_keeps
  with_reducible apply Device.wakeNamed_keeps
  with_reducible apply Device.resetHurdles_keeps
  with_reducible apply Device.resetNetBells_keeps
  with_reducible apply Device.zeroBells_keeps
  assumption

theorem stagedPaddockCreate_keeps :
    Staged.Keeps stagedPaddockCreate := by
  unfold stagedPaddockCreate
  intro b0 d1 c2 h3
  dsimp -zeta only
  with_reducible apply paddockCreateApply_keeps
  assumption

theorem Device.restRegions_keeps {a : Device} (p0 : Device) (h0 : Keeps a p0) :
    Keeps a (Device.restRegions p0) := by
  unfold Device.restRegions
  with_reducible apply Device.mapPower_keeps
  assumption

theorem Device.restBlocks_keeps {a : Device} (p0 : Device) (h0 : Keeps a p0) :
    Keeps a (Device.restBlocks p0) := by
  unfold Device.restBlocks
  extract_lets +onlyGivenNames x0 x1
  clear_value x0
  have h_x1 : Keeps a x1 := by
    unfold x1
    refine Keeps.foldl (fun d2 x3 h4 => ?_) ?_
    · with_reducible apply Device.clearBlock_keeps
      assumption
    · assumption
  clear_value x1
  with_reducible apply Device.restRegions_keeps
  with_reducible apply Device.mapPower_keeps
  assumption

theorem paddockDestroyApply_keeps {a : Device} (p0 : Device) (p1 : List Byte) (h0 : Keeps a p0) :
    Keeps a (paddockDestroyApply p0 p1) := by
  unfold paddockDestroyApply
  extract_lets +onlyGivenNames x0 x1 x2 x3 x4
  clear_value x0
  have h_x1 : Keeps a x1 := by
    unfold x1
    with_reducible apply Device.resetNetBells_keeps
    with_reducible apply Device.resetHurdles_keeps
    assumption
  clear_value x1
  have h_x2 : Keeps a x2 := by
    unfold x2
    split
    · rename_i v5 v6 v7
      refine Keeps.ite (fun _ => ?_) (fun _ => ?_)
      · rename_i v8
        with_reducible apply Device.clearBlocksOf_keeps
        assumption
      · rename_i v9
        assumption
    · rename_i v10 v11
      assumption
  clear_value x2
  have h_x3 : Keeps a x3 := by
    unfold x3
    refine Keeps.congr (d := x2) ?_ rfl rfl rfl rfl rfl rfl rfl
    assumption
  clear_value x3
  have h_x4 : Keeps a x4 := by
    unfold x4
    with_reducible apply Device.mapService_keeps
    assumption
  clear_value x4
  with_reducible apply Device.schedule_keeps
  with_reducible apply Device.settleState_keeps
  with_reducible apply Device.restBlocks_keeps
  with_reducible apply Device.mapNet_keeps
  assumption

theorem stagedPaddockDestroy_keeps :
    Staged.Keeps stagedPaddockDestroy := by
  unfold stagedPaddockDestroy
  intro b0 d1 c2 h3
  dsimp -zeta only
  with_reducible apply paddockDestroyApply_keeps
  assumption

theorem paddockModifyApply_keeps {a : Device} (p0 : Device) (p1 : List Byte) (h0 : Keeps a p0) :
    Keeps a (paddockModifyApply p0 p1) := by
  unfold paddockModifyApply
  extract_lets +onlyGivenNames x0
  clear_value x0
  split
  · rename_i v1 v2
    assumption
  · rename_i v3 v4 v5
    extract_lets +onlyGivenNames x6 x7 x8
    clear_value x6
    clear_value x7
    have h_x8 : Keeps a x8 := by
      unfold x8
      with_reducible apply Device.updPaddock_keeps
      assumption
    clear_value x8
    with_reducible apply Device.schedule_keeps
    with_reducible apply Device.wakeNamed_keeps
    with_reducible apply Device.restBlocks_keeps
    with_reducible apply Device.zeroBells_keeps
    assumption

theorem stagedPaddockModify_keeps :
    Staged.Keeps stagedPaddockModify := by
  unfold stagedPaddockModify
  intro b0 d1 c2 h3
  dsimp -zeta only
  with_reducible apply paddockModifyApply_keeps
  assumption

theorem windowSetApply_keeps {a : Device} (p0 : Device) (p1 : List Byte) (h0 : Keeps a p0) :
    Keeps a (windowSetApply p0 p1) := by
  unfold windowSetApply
  with_reducible apply Device.updPaddock_keeps
  assumption

theorem stagedPaddockWindowSet_keeps :
    Staged.Keeps stagedPaddockWindowSet := by
  unfold stagedPaddockWindowSet
  intro b0 d1 c2 h3
  dsimp -zeta only
  with_reducible apply windowSetApply_keeps
  assumption

theorem Device.putFold_keeps {a : Device} (p0 : Device) (p1 : Nat) (p2 : Fold) (h0 : Keeps a p0) :
    Keeps a (Device.putFold p0 p1 p2) := by
  unfold Device.putFold
  with_reducible apply Device.mapService_keeps
  assumption

theorem foldJoinApply_keeps {a : Device} (p0 : Device) (p1 : List Byte) (h0 : Keeps a p0) :
    Keeps a (foldJoinApply p0 p1) := by
  unfold foldJoinApply
  extract_lets +onlyGivenNames x0 x1 x2
  clear_value x0
  clear_value x1
  clear_value x2
  with_reducible apply Device.putFold_keeps
  assumption

theorem stagedFoldJoin_keeps :
    Staged.Keeps stagedFoldJoin := by
  unfold stagedFoldJoin
  intro b0 d1 c2 h3
  dsimp -zeta only
  with_reducible apply foldJoinApply_keeps
  assumption

theorem foldLeaveApply_keeps {a : Device} (p0 : Device) (p1 : List Byte) (h0 : Keeps a p0) :
    Keeps a (foldLeaveApply p0 p1) := by
  unfold foldLeaveApply
  extract_lets +onlyGivenNames x0 x1
  clear_value x0
  clear_value x1
  split
  · rename_i v2 v3
    assumption
  · rename_i v4 v5 v6
    split
    · rename_i v7 v8
      assumption
    · rename_i v9 v10 v11
      extract_lets +onlyGivenNames x12
      clear_value x12
      with_reducible apply Device.putFold_keeps
      assumption

theorem stagedFoldLeave_keeps :
    Staged.Keeps stagedFoldLeave := by
  unfold stagedFoldLeave
  intro b0 d1 c2 h3
  dsimp -zeta only
  with_reducible apply foldLeaveApply_keeps
  assumption

theorem foldMapApply_keeps {a : Device} (p0 : Device) (p1 : List Byte) (h0 : Keeps a p0) :
    Keeps a (foldMapApply p0 p1) := by
  unfold foldMapApply
  extract_lets +onlyGivenNames x0 x1 x2
  clear_value x0
  clear_value x1
  clear_value x2
  with_reducible apply Device.putFold_keeps
  assumption

theorem stagedFoldMapSet_keeps :
    Staged.Keeps stagedFoldMapSet := by
  unfold stagedFoldMapSet
  intro b0 d1 c2 h3
  dsimp -zeta only
  with_reducible apply foldMapApply_keeps
  assumption

theorem queueCreateApply_keeps {a : Device} (p0 : Device) (p1 : List Byte) (h0 : Keeps a p0) :
    Keeps a (queueCreateApply p0 p1) := by
  unfold queueCreateApply
  extract_lets +onlyGivenNames x0 x1
  clear_value x0
  clear_value x1
  with_reducible apply Device.mapNet_keeps
  assumption

theorem stagedQueueCreate_keeps :
    Staged.Keeps stagedQueueCreate := by
  unfold stagedQueueCreate
  intro b0 d1 c2 h3
  dsimp -zeta only
  with_reducible apply queueCreateApply_keeps
  assumption

theorem Device.settleDemand_keeps {a : Device} (p0 : Device) (p1 : Nat) (h0 : Keeps a p0) :
    Keeps a (Device.settleDemand p0 p1) := by
  unfold Device.settleDemand
  split
  · rename_i v0 v1
    assumption
  · rename_i v2 v3 v4
    refine Keeps.ite (fun _ => ?_) (fun _ => ?_)
    · rename_i v5
      assumption
    · rename_i v6
      extract_lets +onlyGivenNames x7
      have h_x7 : Keeps a x7 := by
        unfold x7
        with_reducible apply Device.updPaddock_keeps
        assumption
      clear_value x7
      refine Keeps.ite (fun _ => ?_) (fun _ => ?_)
      · rename_i v8
        with_reducible apply Device.setPaddockState_keeps
        assumption
      · rename_i v9
        assumption

theorem Device.updRing_keeps {a : Device} (p0 : Device) (p1 : Nat) (p2 : Ring → Ring) (h0 : Keeps a p0) :
    Keeps a (Device.updRing p0 p1 p2) := by
  unfold Device.updRing
  with_reducible apply Device.mapNet_keeps
  assumption

theorem queueDestroyApply_keeps {a : Device} (p0 : Device) (p1 : List Byte) (h0 : Keeps a p0) :
    Keeps a (queueDestroyApply p0 p1) := by
  unfold queueDestroyApply
  extract_lets +onlyGivenNames x0
  clear_value x0
  split
  · rename_i v1 v2
    assumption
  · rename_i v3 v4 v5
    refine Keeps.ite (fun _ => ?_) (fun _ => ?_)
    · rename_i v6
      with_reducible apply Device.schedule_keeps
      with_reducible apply Device.settleDemand_keeps
      with_reducible apply Device.mapNet_keeps
      assumption
    · rename_i v7
      with_reducible apply Device.updRing_keeps
      assumption

theorem stagedQueueDestroy_keeps :
    Staged.Keeps stagedQueueDestroy := by
  unfold stagedQueueDestroy
  intro b0 d1 c2 h3
  dsimp -zeta only
  with_reducible apply queueDestroyApply_keeps
  assumption

theorem Device.connEvent_keeps {a : Device} (p0 : Device) (p1 : Nat) (p2 : Conn) (p3 : Nat) (h0 : Keeps a p0) :
    Keeps a (Device.connEvent p0 p1 p2 p3) := by
  unfold Device.connEvent
  extract_lets +onlyGivenNames x0
  have h_x0 : Keeps a x0 := by
    unfold x0
    with_reducible apply Device.record_keeps
    assumption
  clear_value x0
  refine Keeps.ite (fun _ => ?_) (fun _ => ?_)
  · rename_i v1
    with_reducible apply Device.record_keeps
    assumption
  · rename_i v2
    assumption

theorem Device.updConn_keeps {a : Device} (p0 : Device) (p1 : Nat) (p2 : Conn → Conn) (h0 : Keeps a p0) :
    Keeps a (Device.updConn p0 p1 p2) := by
  unfold Device.updConn
  with_reducible apply Device.mapNet_keeps
  assumption

theorem Device.evictFor_keeps {a : Device} (p0 : Device) (p1 : Nat) (h0 : Keeps a p0) :
    Keeps a (Device.evictFor p0 p1) := by
  unfold Device.evictFor
  extract_lets +onlyGivenNames x0
  clear_value x0
  refine Keeps.ite (fun _ => ?_) (fun _ => ?_)
  · rename_i v1
    assumption
  · rename_i v2
    split
    · rename_i v3 v4
      assumption
    · rename_i v5 v6 v7
      with_reducible apply Device.updConn_keeps
      assumption

theorem connOpenApply_keeps {a : Device} (p0 : Device) (p1 : List Byte) (h0 : Keeps a p0) :
    Keeps a (connOpenApply p0 p1) := by
  unfold connOpenApply
  extract_lets +onlyGivenNames x0 x1 x2
  clear_value x0
  clear_value x1
  clear_value x2
  with_reducible apply Device.connEvent_keeps
  with_reducible apply Device.mapNet_keeps
  with_reducible apply Device.evictFor_keeps
  assumption

theorem stagedConnOpen_keeps :
    Staged.Keeps stagedConnOpen := by
  unfold stagedConnOpen
  intro b0 d1 c2 h3
  dsimp -zeta only
  with_reducible apply connOpenApply_keeps
  assumption

theorem Device.connIdle_keeps {a : Device} (p0 : Device) (p1 : Nat) (p2 : Conn) (h0 : Keeps a p0) :
    Keeps a (Device.connIdle p0 p1 p2) := by
  unfold Device.connIdle
  with_reducible apply Device.connEvent_keeps
  with_reducible apply Device.mapNet_keeps
  assumption

theorem Device.closeIfDrained_keeps {a : Device} (p0 : Device) (p1 : Nat) (h0 : Keeps a p0) :
    Keeps a (Device.closeIfDrained p0 p1) := by
  unfold Device.closeIfDrained
  split
  · rename_i v0 v1
    assumption
  · rename_i v2 v3 v4
    refine Keeps.ite (fun _ => ?_) (fun _ => ?_)
    · rename_i v5
      with_reducible apply Device.connIdle_keeps
      assumption
    · rename_i v6
      assumption

theorem connCloseApply_keeps {a : Device} (p0 : Device) (p1 : List Byte) (h0 : Keeps a p0) :
    Keeps a (connCloseApply p0 p1) := by
  unfold connCloseApply
  extract_lets +onlyGivenNames x0
  clear_value x0
  split
  · rename_i v1 v2
    assumption
  · rename_i v3 v4 v5
    refine Keeps.ite (fun _ => ?_) (fun _ => ?_)
    · rename_i v6
      with_reducible apply Device.connIdle_keeps
      assumption
    · rename_i v7
      refine Keeps.ite (fun _ => ?_) (fun _ => ?_)
      · rename_i v8
        with_reducible apply Device.closeIfDrained_keeps
        with_reducible apply Device.connEvent_keeps
        with_reducible apply Device.updConn_keeps
        assumption
      · rename_i v9
        assumption

theorem stagedConnClose_keeps :
    Staged.Keeps stagedConnClose := by
  unfold stagedConnClose
  intro b0 d1 c2 h3
  dsimp -zeta only
  with_reducible apply connCloseApply_keeps
  assumption

theorem exposeCreateApply_keeps {a : Device} (p0 : Device) (p1 : List Byte) (h0 : Keeps a p0) :
    Keeps a (exposeCreateApply p0 p1) := by
  unfold exposeCreateApply
  extract_lets +onlyGivenNames x0 x1 x2
  clear_value x0
  clear_value x1
  clear_value x2
  with_reducible apply Device.mapNet_keeps
  assumption

theorem stagedExposeCreate_keeps :
    Staged.Keeps stagedExposeCreate := by
  unfold stagedExposeCreate
  intro b0 d1 c2 h3
  dsimp -zeta only
  with_reducible apply exposeCreateApply_keeps
  assumption

theorem exposeRevokeApply_keeps {a : Device} (p0 : Device) (p1 : List Byte) (h0 : Keeps a p0) :
    Keeps a (exposeRevokeApply p0 p1) := by
  unfold exposeRevokeApply
  extract_lets +onlyGivenNames x0
  clear_value x0
  with_reducible apply Device.updExposure_keeps
  assumption

theorem stagedExposeRevoke_keeps :
    Staged.Keeps stagedExposeRevoke := by
  unfold stagedExposeRevoke
  intro b0 d1 c2 h3
  dsimp -zeta only
  with_reducible apply exposeRevokeApply_keeps
  assumption

theorem Device.moveQueues_keeps {a : Device} (p0 : Device) (p1 : Nat) (h0 : Keeps a p0) :
    Keeps a (Device.moveQueues p0 p1) := by
  unfold Device.moveQueues
  extract_lets +onlyGivenNames x0 x1
  clear_value x0
  have h_x1 : Keeps a x1 := by
    unfold x1
    with_reducible apply Device.updLink_keeps
    assumption
  clear_value x1
  refine Keeps.foldl (fun d2 x3 h4 => ?_) ?_
  · split
    · rename_i v5 v6
      assumption
    · rename_i v7 v8 v9
      split
      · rename_i v10 v11
        assumption
      · rename_i v12 v13 v14
        split
        · rename_i v15 v16 v17
          with_reducible apply Device.enqueue_keeps
          assumption
        · rename_i v18 v19
          with_reducible apply Device.mapNet_keeps
          assumption
  · assumption

theorem Device.setLink_keeps {a : Device} (p0 : Device) (p1 : Nat) (p2 : LinkState) (p3 : Nat) (h0 : Keeps a p0) :
    Keeps a (Device.setLink p0 p1 p2 p3) := by
  unfold Device.setLink
  refine Keeps.ite (fun _ => ?_) (fun _ => ?_)
  · rename_i v0
    assumption
  · rename_i v1
    with_reducible apply Device.record_keeps
    with_reducible apply Device.updLink_keeps
    assumption

theorem Device.linkGoesDown_keeps {a : Device} (p0 : Device) (p1 : Nat) (h0 : Keeps a p0) :
    Keeps a (Device.linkGoesDown p0 p1) := by
  unfold Device.linkGoesDown
  refine Keeps.ite (fun _ => ?_) (fun _ => ?_)
  · rename_i v0
    with_reducible apply Device.moveQueues_keeps
    with_reducible apply Device.setLink_keeps
    assumption
  · rename_i v1
    assumption

theorem portConfigApply_keeps {a : Device} (p0 : Device) (p1 : List Byte) (h0 : Keeps a p0) :
    Keeps a (portConfigApply p0 p1) := by
  unfold portConfigApply
  extract_lets +onlyGivenNames x0 x1 x2 x3 x4 x5 x6
  clear_value x0
  clear_value x1
  clear_value x2
  clear_value x3
  clear_value x4
  have h_x5 : Keeps a x5 := by
    unfold x5
    refine Keeps.ite (fun _ => ?_) (fun _ => ?_)
    · rename_i v7
      with_reducible apply Device.linkGoesDown_keeps
      with_reducible apply Device.linkGoesDown_keeps
      assumption
    · rename_i v8
      assumption
  clear_value x5
  have h_x6 : Keeps a x6 := by
    unfold x6
    with_reducible apply Device.updPort_keeps
    assumption
  clear_value x6
  refine Keeps.ite (fun _ => ?_) (fun _ => ?_)
  · rename_i v9
    extract_lets +onlyGivenNames x10
    have h_x10 : Keeps a x10 := by
      unfold x10
      refine Keeps.ite (fun _ => ?_) (fun _ => ?_)
      · rename_i v11
        with_reducible apply Device.setLink_keeps
        assumption
      · rename_i v12
        with_reducible apply Device.setLink_keeps
        assumption
    clear_value x10
    refine Keeps.ite (fun _ => ?_) (fun _ => ?_)
    · rename_i v13
      with_reducible apply Device.setLink_keeps
      assumption
    · rename_i v14
      with_reducible apply Device.setLink_keeps
      assumption
  · rename_i v15
    assumption

theorem stagedPortConfig_keeps :
    Staged.Keeps stagedPortConfig := by
  unfold stagedPortConfig
  intro b0 d1 c2 h3
  dsimp -zeta only
  with_reducible apply portConfigApply_keeps
  assumption

theorem trafficClassApply_keeps {a : Device} (p0 : Device) (p1 : List Byte) (h0 : Keeps a p0) :
    Keeps a (trafficClassApply p0 p1) := by
  unfold trafficClassApply
  extract_lets +onlyGivenNames x0
  clear_value x0
  refine Keeps.ite (fun _ => ?_) (fun _ => ?_)
  · rename_i v1
    with_reducible apply Device.updPort_keeps
    assumption
  · rename_i v2
    extract_lets +onlyGivenNames x3
    clear_value x3
    with_reducible apply Device.mapNet_keeps
    assumption

theorem stagedTrafficClassSet_keeps :
    Staged.Keeps stagedTrafficClassSet := by
  unfold stagedTrafficClassSet
  intro b0 d1 c2 h3
  dsimp -zeta only
  with_reducible apply trafficClassApply_keeps
  assumption

theorem trafficPolicerApply_keeps {a : Device} (p0 : Device) (p1 : List Byte) (h0 : Keeps a p0) :
    Keeps a (trafficPolicerApply p0 p1) := by
  unfold trafficPolicerApply
  extract_lets +onlyGivenNames x0
  clear_value x0
  with_reducible apply Device.updRing_keeps
  assumption

theorem stagedTrafficPolicerSet_keeps :
    Staged.Keeps stagedTrafficPolicerSet := by
  unfold stagedTrafficPolicerSet
  intro b0 d1 c2 h3
  dsimp -zeta only
  with_reducible apply trafficPolicerApply_keeps
  assumption

theorem trafficShaperApply_keeps {a : Device} (p0 : Device) (p1 : List Byte) (h0 : Keeps a p0) :
    Keeps a (trafficShaperApply p0 p1) := by
  unfold trafficShaperApply
  extract_lets +onlyGivenNames x0 x1 x2 x3
  clear_value x0
  clear_value x1
  clear_value x2
  clear_value x3
  with_reducible apply Device.updPort_keeps
  with_reducible apply Device.runCredits_keeps
  with_reducible apply Device.runCredits_keeps
  assumption

theorem stagedTrafficShaperSet_keeps :
    Staged.Keeps stagedTrafficShaperSet := by
  unfold stagedTrafficShaperSet
  intro b0 d1 c2 h3
  dsimp -zeta only
  with_reducible apply trafficShaperApply_keeps
  assumption

theorem trafficGateApply_keeps {a : Device} (p0 : Device) (p1 : List Byte) (h0 : Keeps a p0) :
    Keeps a (trafficGateApply p0 p1) := by
  unfold trafficGateApply
  extract_lets +onlyGivenNames x0 x1 x2
  clear_value x0
  clear_value x1
  have h_x2 : Keeps a x2 := by
    unfold x2
    with_reducible apply Device.updPort_keeps
    with_reducible apply Device.runCredits_keeps
    with_reducible apply Device.runCredits_keeps
    assumption
  clear_value x2
  with_reducible apply Device.updPort_keeps
  assumption

theorem stagedTrafficGateList_keeps :
    Staged.Keeps stagedTrafficGateList := by
  unfold stagedTrafficGateList
  intro b0 d1 c2 h3
  dsimp -zeta only
  with_reducible apply trafficGateApply_keeps
  assumption

end Sys2Proof.Machine
end

