-- ==== Sys2Proof/Laws/Keeps2.lean ====
section
/-! SUPPORT. One lemma for each function that yields a device, in the order they call one another (part 2 of 7): what the
function does is kept in the sense of `Keeps`. -/

namespace Sys2Proof.Machine

theorem trafficOverheadApply_keeps {a : Device} (p0 : Device) (p1 : List Byte) (h0 : Keeps a p0) :
    Keeps a (trafficOverheadApply p0 p1) := by
  unfold trafficOverheadApply
  with_reducible apply Device.updPort_keeps
  assumption

theorem stagedTrafficOverheadSet_keeps :
    Staged.Keeps stagedTrafficOverheadSet := by
  unfold stagedTrafficOverheadSet
  intro b0 d1 c2 h3
  dsimp -zeta only
  with_reducible apply trafficOverheadApply_keeps
  assumption

theorem Device.updDrove_keeps {a : Device} (p0 : Device) (p1 : Nat) (p2 : DroveState → DroveState) (h0 : Keeps a p0) :
    Keeps a (Device.updDrove p0 p1 p2) := by
  unfold Device.updDrove
  with_reducible apply Device.mapService_keeps
  assumption

theorem droveConfigApply_keeps {a : Device} (p0 : Device) (p1 : List Byte) (h0 : Keeps a p0) :
    Keeps a (droveConfigApply p0 p1) := by
  unfold droveConfigApply
  with_reducible apply Device.updDrove_keeps
  assumption

theorem stagedDroveConfig_keeps :
    Staged.Keeps stagedDroveConfig := by
  unfold stagedDroveConfig
  intro b0 d1 c2 h3
  dsimp -zeta only
  with_reducible apply droveConfigApply_keeps
  assumption

theorem prefixConfigApply_keeps {a : Device} (p0 : Device) (p1 : List Byte) (h0 : Keeps a p0) :
    Keeps a (prefixConfigApply p0 p1) := by
  unfold prefixConfigApply
  with_reducible apply Device.updDrove_keeps
  assumption

theorem stagedPrefixConfig_keeps :
    Staged.Keeps stagedPrefixConfig := by
  unfold stagedPrefixConfig
  intro b0 d1 c2 h3
  dsimp -zeta only
  with_reducible apply prefixConfigApply_keeps
  assumption

theorem tensorSetApply_keeps {a : Device} (p0 : Device) (p1 : List Byte) (h0 : Keeps a p0) :
    Keeps a (tensorSetApply p0 p1) := by
  unfold tensorSetApply
  with_reducible apply Device.updPaddock_keeps
  assumption

theorem stagedTensorSet_keeps :
    Staged.Keeps stagedTensorSet := by
  unfold stagedTensorSet
  intro b0 d1 c2 h3
  dsimp -zeta only
  with_reducible apply tensorSetApply_keeps
  assumption

theorem Device.updServing_keeps {a : Device} (p0 : Device) (p1 : Nat) (p2 : Serving → Serving) (h0 : Keeps a p0) :
    Keeps a (Device.updServing p0 p1 p2) := by
  unfold Device.updServing
  with_reducible apply Device.mapService_keeps
  assumption

theorem serveConfigApply_keeps {a : Device} (p0 : Device) (p1 : List Byte) (h0 : Keeps a p0) :
    Keeps a (serveConfigApply p0 p1) := by
  unfold serveConfigApply
  with_reducible apply Device.updServing_keeps
  assumption

theorem stagedServeConfig_keeps :
    Staged.Keeps stagedServeConfig := by
  unfold stagedServeConfig
  intro b0 d1 c2 h3
  dsimp -zeta only
  with_reducible apply serveConfigApply_keeps
  assumption

theorem faultRingApply_keeps {a : Device} (p0 : Device) (p1 : List Byte) (h0 : Keeps a p0) :
    Keeps a (faultRingApply p0 p1) := by
  unfold faultRingApply
  extract_lets +onlyGivenNames x0
  clear_value x0
  with_reducible apply Device.mapFaults_keeps
  · assumption
  · exact fun _ => ⟨rfl, rfl⟩

theorem stagedFaultRingSet_keeps :
    Staged.Keeps stagedFaultRingSet := by
  unfold stagedFaultRingSet
  intro b0 d1 c2 h3
  dsimp -zeta only
  with_reducible apply faultRingApply_keeps
  assumption

theorem worldSetApply_keeps {a : Device} (p0 : Device) (p1 : List Byte) (h0 : Keeps a p0) :
    Keeps a (worldSetApply p0 p1) := by
  unfold worldSetApply
  with_reducible apply Device.mapSecurity_keeps
  · assumption
  · exact fun _ => ⟨rfl, rfl⟩

theorem stagedWorldSet_keeps :
    Staged.Keeps stagedWorldSet := by
  unfold stagedWorldSet
  intro b0 d1 c2 h3
  dsimp -zeta only
  with_reducible apply worldSetApply_keeps
  assumption

theorem powerLimitApply_keeps {a : Device} (p0 : Device) (p1 : List Byte) (h0 : Keeps a p0) :
    Keeps a (powerLimitApply p0 p1) := by
  unfold powerLimitApply
  with_reducible apply Device.mapPower_keeps
  assumption

theorem stagedPowerLimitSet_keeps :
    Staged.Keeps stagedPowerLimitSet := by
  unfold stagedPowerLimitSet
  intro b0 d1 c2 h3
  dsimp -zeta only
  with_reducible apply powerLimitApply_keeps
  assumption

theorem Device.settleThrottle_keeps {a : Device} (p0 : Device) (h0 : Keeps a p0) :
    Keeps a (Device.settleThrottle p0) := by
  unfold Device.settleThrottle
  extract_lets +onlyGivenNames x0
  clear_value x0
  refine Keeps.ite (fun _ => ?_) (fun _ => ?_)
  · rename_i v1
    assumption
  · rename_i v2
    with_reducible apply Device.mapPower_keeps
    assumption

theorem Device.updClock_keeps {a : Device} (p0 : Device) (p1 : Nat) (p2 : RegionClock → RegionClock) (h0 : Keeps a p0) :
    Keeps a (Device.updClock p0 p1 p2) := by
  unfold Device.updClock
  with_reducible apply Device.mapPower_keeps
  assumption

theorem clockRegionApply_keeps {a : Device} (p0 : Device) (p1 : List Byte) (h0 : Keeps a p0) :
    Keeps a (clockRegionApply p0 p1) := by
  unfold clockRegionApply
  extract_lets +onlyGivenNames x0 x1
  clear_value x0
  clear_value x1
  with_reducible apply Device.settleThrottle_keeps
  with_reducible apply Device.restRegions_keeps
  refine Keeps.foldl (fun d2 x3 h4 => ?_) ?_
  · with_reducible apply Device.updClock_keeps
    assumption
  · assumption

theorem stagedClockRegionSet_keeps :
    Staged.Keeps stagedClockRegionSet := by
  unfold stagedClockRegionSet
  intro b0 d1 c2 h3
  dsimp -zeta only
  with_reducible apply clockRegionApply_keeps
  assumption

theorem Device.setTallyState_keeps {a : Device} (p0 : Device) (p1 : TallyState) (p2 : optParam (Option Nat) none) (h0 : Keeps a p0) :
    Keeps a (Device.setTallyState p0 p1 p2) := by
  unfold Device.setTallyState
  refine Keeps.ite (fun _ => ?_) (fun _ => ?_)
  · rename_i v0
    assumption
  · rename_i v1
    extract_lets +onlyGivenNames x2 x3 x4 x5
    clear_value x2
    clear_value x3
    have h_x4 : Keeps a x4 := by
      unfold x4
      with_reducible apply Device.mapTally_keeps
      · assumption
      · exact fun _ => Nat.le_refl _
    clear_value x4
    have h_x5 : Keeps a x5 := by
      unfold x5
      with_reducible apply Device.record_keeps
      assumption
    clear_value x5
    refine Keeps.ite (fun _ => ?_) (fun _ => ?_)
    · rename_i v6
      with_reducible apply Device.mapFaults_keeps
      · with_reducible apply Device.record_keeps
        assumption
      · exact fun _ => ⟨rfl, rfl⟩
    · rename_i v7
      assumption

theorem tallyConfigApply_keeps {a : Device} (p0 : Device) (p1 : List Byte) (h0 : Keeps a p0) :
    Keeps a (tallyConfigApply p0 p1) := by
  unfold tallyConfigApply
  extract_lets +onlyGivenNames x0 x1
  clear_value x0
  have h_x1 : Keeps a x1 := by
    unfold x1
    with_reducible apply Device.mapTally_keeps
    · assumption
    · exact fun _ => Nat.le_refl _
  clear_value x1
  split
  · rename_i v2 v3
    with_reducible apply Device.setTallyState_keeps
    assumption
  · rename_i v4 v5
    assumption

theorem stagedTallyConfig_keeps :
    Staged.Keeps stagedTallyConfig := by
  unfold stagedTallyConfig
  intro b0 d1 c2 h3
  dsimp -zeta only
  with_reducible apply tallyConfigApply_keeps
  assumption

theorem traceConfigApply_keeps {a : Device} (p0 : Device) (p1 : List Byte) (h0 : Keeps a p0) :
    Keeps a (traceConfigApply p0 p1) := by
  unfold traceConfigApply
  with_reducible apply Device.mapTrace_keeps
  assumption

theorem stagedTraceConfig_keeps :
    Staged.Keeps stagedTraceConfig := by
  unfold stagedTraceConfig
  intro b0 d1 c2 h3
  dsimp -zeta only
  with_reducible apply traceConfigApply_keeps
  assumption

theorem gpioApply_keeps {a : Device} (p0 : Device) (p1 : List Byte) (h0 : Keeps a p0) :
    Keeps a (gpioApply p0 p1) := by
  unfold gpioApply
  extract_lets +onlyGivenNames x0
  clear_value x0
  with_reducible apply Device.mapPaths_keeps
  assumption

theorem stagedGpio_keeps :
    Staged.Keeps stagedGpio := by
  unfold stagedGpio
  intro b0 d1 c2 h3
  dsimp -zeta only
  with_reducible apply gpioApply_keeps
  assumption

theorem stagedOf_keeps (p0 : Nat) :
    ∀ y, stagedOf p0 = some y → Staged.Keeps y := by
  intro y h
  unfold stagedOf at h
  split at h
  · cases h; exact stagedDeviceIdSet_keeps
  · cases h; exact stagedFabricBind_keeps
  · cases h; exact stagedPaddockCreate_keeps
  · cases h; exact stagedPaddockDestroy_keeps
  · cases h; exact stagedPaddockModify_keeps
  · cases h; exact stagedPaddockWindowSet_keeps
  · cases h; exact stagedFoldJoin_keeps
  · cases h; exact stagedFoldLeave_keeps
  · cases h; exact stagedFoldMapSet_keeps
  · cases h; exact stagedQueueCreate_keeps
  · cases h; exact stagedQueueDestroy_keeps
  · cases h; exact stagedConnOpen_keeps
  · cases h; exact stagedConnClose_keeps
  · cases h; exact stagedExposeCreate_keeps
  · cases h; exact stagedExposeRevoke_keeps
  · cases h; exact stagedPortConfig_keeps
  · cases h; exact stagedTrafficClassSet_keeps
  · cases h; exact stagedTrafficPolicerSet_keeps
  · cases h; exact stagedTrafficShaperSet_keeps
  · cases h; exact stagedTrafficGateList_keeps
  · cases h; exact stagedTrafficOverheadSet_keeps
  · cases h; exact stagedDroveConfig_keeps
  · cases h; exact stagedPrefixConfig_keeps
  · cases h; exact stagedTensorSet_keeps
  · cases h; exact stagedServeConfig_keeps
  · cases h; exact stagedFaultRingSet_keeps
  · cases h; exact stagedWorldSet_keeps
  · cases h; exact stagedPowerLimitSet_keeps
  · cases h; exact stagedClockRegionSet_keeps
  · cases h; exact stagedTallyConfig_keeps
  · cases h; exact stagedTraceConfig_keeps
  · cases h; exact stagedGpio_keeps
  · cases h

theorem Device.applyStaged_keeps {a : Device} (p0 : Device) (p1 : StagedCommand) (h0 : Keeps a p0) :
    Keeps a (Device.applyStaged p0 p1) := by
  unfold Device.applyStaged
  split
  · rename_i s hs
    exact stagedOf_keeps _ _ hs _ _ _ h0
  · exact h0

theorem Device.applyCommands_keeps {a : Device} (p0 : Device) (p1 : List StagedCommand) (h0 : Keeps a p0) :
    Keeps a (Device.applyCommands p0 p1) := by
  unfold Device.applyCommands
  refine Keeps.foldl (fun d0 x1 h2 => ?_) ?_
  · with_reducible apply Device.applyStaged_keeps
    assumption
  · assumption

theorem Device.project_keeps {a : Device} (p0 : Device) (p1 : List (Nat × StageSet)) (h0 : Keeps a p0) :
    Keeps a (Device.project p0 p1) := by
  unfold Device.project
  refine Keeps.foldl (fun d0 x1 h2 => ?_) ?_
  · with_reducible apply Device.applyCommands_keeps
    with_reducible apply Device.mapTally_keeps
    · assumption
    · exact fun _ => Nat.le_max_left _ _
  · assumption

theorem Device.updSet_keeps {a : Device} (p0 : Device) (p1 : Nat) (p2 : StageSet → StageSet) (h0 : Keeps a p0) :
    Keeps a (Device.updSet p0 p1 p2) := by
  unfold Device.updSet
  with_reducible apply Device.mapStaging_keeps
  assumption

theorem immStageCheck_keeps :
    Immediate.Keeps immStageCheck := by
  unfold immStageCheck
  intro b0 d1 c2 h3
  dsimp -zeta only
  with_reducible apply Device.answerOk_keeps
  with_reducible apply Device.updSet_keeps
  assumption

theorem immStageCommit_keeps :
    Immediate.Keeps immStageCommit := by
  unfold immStageCommit
  intro b0 d1 c2 h3
  dsimp -zeta only
  with_reducible apply Device.answerOk_keeps
  with_reducible apply Device.mapStaging_keeps
  with_reducible apply Device.updSet_keeps
  assumption

theorem immStageAbort_keeps :
    Immediate.Keeps immStageAbort := by
  unfold immStageAbort
  intro b0 d1 c2 h3
  dsimp -zeta only
  with_reducible apply Device.answerOk_keeps
  with_reducible apply Device.updSet_keeps
  assumption

theorem immStageStatus_keeps :
    Immediate.Keeps immStageStatus := by
  unfold immStageStatus
  intro b0 d1 c2 h3
  dsimp -zeta only
  split
  · rename_i v4 v5
    assumption
  · rename_i v6 v7 v8
    with_reducible apply Device.answerOk_keeps
    assumption

theorem immPaddockPreempt_keeps :
    Immediate.Keeps immPaddockPreempt := by
  unfold immPaddockPreempt
  intro b0 d1 c2 h3
  dsimp -zeta only
  extract_lets +onlyGivenNames x4
  clear_value x4
  split
  · rename_i v5 v6
    assumption
  · rename_i v7 v8 v9
    refine Keeps.ite (fun _ => ?_) (fun _ => ?_)
    · rename_i v10
      extract_lets +onlyGivenNames x11 x12 x13
      clear_value x11
      clear_value x12
      have h_x13 : Keeps b0 x13 := by
        unfold x13
        with_reducible apply Device.updBox_keeps
        assumption
      clear_value x13
      refine Keeps.ite (fun _ => ?_) (fun _ => ?_)
      · rename_i v14
        with_reducible apply Device.beginPreempt_keeps
        assumption
      · rename_i v15
        with_reducible apply Device.beginPreempt_keeps
        assumption
    · rename_i v16
      refine Keeps.ite (fun _ => ?_) (fun _ => ?_)
      · rename_i v17
        with_reducible apply Device.answerOk_keeps
        assumption
      · rename_i v18
        with_reducible apply Device.answerOk_keeps
        with_reducible apply Device.schedule_keeps
        with_reducible apply Device.setPaddockState_keeps
        with_reducible apply Device.updPaddock_keeps
        assumption

theorem paddockCommand_keeps (p0 : Right) (p1 : Device → Call → Check) (p2 : Device → Call → Device)
    (h2 : ∀ a d c, Keeps a d → Keeps a (p2 d c)) : Immediate.Keeps (paddockCommand p0 p1 p2) :=
  fun a d c h => h2 a d c h

theorem Device.resumePaddock_keeps {a : Device} (p0 : Device) (p1 : Nat) (p2 : Nat) (h0 : Keeps a p0) :
    Keeps a (Device.resumePaddock p0 p1 p2) := by
  unfold Device.resumePaddock
  split
  · rename_i v0 v1
    assumption
  · rename_i v2 v3 v4
    extract_lets +onlyGivenNames x5
    clear_value x5
    with_reducible apply Device.schedule_keeps
    with_reducible apply Device.setPaddockState_keeps
    assumption

theorem immPaddockResume_keeps :
    Immediate.Keeps immPaddockResume := by
  unfold immPaddockResume
  with_reducible apply paddockCommand_keeps
  intro d0
  intro d1
  intro x2
  intro x3
  with_reducible apply Device.answerOk_keeps
  with_reducible apply Device.resumePaddock_keeps
  assumption

theorem immPaddockStatus_keeps :
    Immediate.Keeps immPaddockStatus := by
  unfold immPaddockStatus
  with_reducible apply paddockCommand_keeps
  intro d0
  intro d1
  intro x2
  intro x3
  extract_lets +onlyGivenNames x4
  clear_value x4
  split
  · rename_i v5 v6
    assumption
  · rename_i v7 v8 v9
    extract_lets +onlyGivenNames x10 x11 x12 x13
    clear_value x10
    clear_value x11
    clear_value x12
    clear_value x13
    with_reducible apply Device.answerOk_keeps
    assumption

theorem Device.checkedRead_keeps {a : Device} (p0 : Device) (p1 : Nat) (p2 : Nat) (p3 : Nat) (p4 : Nat) (h0 : Keeps a p0) :
    Keeps a (Device.checkedRead p0 p1 p2 p3 p4).1 := by
  unfold Device.checkedRead
  split
  · rename_i v0 v1 v2
    assumption
  · rename_i v3 v4
    split
    · rename_i v5 v6
      assumption
    · rename_i v7 v8 v9
      extract_lets +onlyGivenNames x10
      have h_x10 : Keeps a x10 := by
        unfold x10
        with_reducible apply Device.mapFaults_keeps
        · assumption
        · exact fun _ => ⟨rfl, rfl⟩
      clear_value x10
      split
      · rename_i v11
        assumption
      · rename_i v12
        dsimp only
        with_reducible apply Device.record_keeps
        assumption

theorem Device.registerImage_keeps {a : Device} (p0 : Device) (p1 : Call) (p2 : Nat) (p3 : Paddock) (p4 : List Byte) (h0 : Keeps a p0) :
    Keeps a (Device.registerImage p0 p1 p2 p3 p4) := by
  unfold Device.registerImage
  extract_lets +onlyGivenNames x0 x1
  clear_value x0
  have h_x1 : Keeps a x1 := by
    unfold x1
    refine Keeps.congr (d := p0) ?_ rfl rfl rfl rfl rfl rfl rfl
    assumption
  clear_value x1
  with_reducible apply Device.answerOk_keeps
  with_reducible apply Device.updPaddock_keeps
  assumption

theorem immImageRegister_keeps :
    Immediate.Keeps immImageRegister := by
  unfold immImageRegister
  intro b0 d1 c2 h3
  dsimp -zeta only
  extract_lets +onlyGivenNames x4 x5 x6
  clear_value x4
  clear_value x5
  clear_value x6
  split
  · rename_i v7 v8
    assumption
  · rename_i v9 v10 v11
    extract_lets +onlyGivenNames x12
    have h_x12 : Keeps b0 x12.1 := by
      unfold x12
      with_reducible apply Device.checkedRead_keeps
      assumption
    clear_value x12
    split
    · rename_i v13 v14 v15
      with_reducible apply Device.respond_keeps
      with_reducible apply Device.record_keeps
      assumption
    · rename_i v16 v17
      extract_lets +onlyGivenNames x18
      clear_value x18
      split
      · rename_i v19 v20 v21
        with_reducible apply Device.respond_keeps
        assumption
      · rename_i v22 v23
        with_reducible apply Device.registerImage_keeps
        assumption

theorem immImageInfo_keeps :
    Immediate.Keeps immImageInfo := by
  unfold immImageInfo
  intro b0 d1 c2 h3
  dsimp -zeta only
  split
  · rename_i v4 v5
    assumption
  · rename_i v6 v7 v8
    extract_lets +onlyGivenNames x9
    clear_value x9
    with_reducible apply Device.answerOk_keeps
    assumption

theorem immImageRetire_keeps :
    Immediate.Keeps immImageRetire := by
  unfold immImageRetire
  intro b0 d1 c2 h3
  dsimp -zeta only
  with_reducible apply Device.answerOk_keeps
  refine Keeps.congr (d := d1) ?_ rfl rfl rfl rfl rfl rfl rfl
  assumption

theorem immFoldStatus_keeps :
    Immediate.Keeps immFoldStatus := by
  unfold immFoldStatus
  intro b0 d1 c2 h3
  dsimp -zeta only
  split
  · rename_i v4 v5
    assumption
  · rename_i v6 v7 v8
    extract_lets +onlyGivenNames x9 x10
    clear_value x9
    clear_value x10
    with_reducible apply Device.answerOk_keeps
    assumption

theorem immFoldMeter_keeps :
    Immediate.Keeps immFoldMeter := by
  unfold immFoldMeter
  intro b0 d1 c2 h3
  dsimp -zeta only
  extract_lets +onlyGivenNames x4 x5
  clear_value x4
  clear_value x5
  split
  · rename_i v6 v7
    assumption
  · rename_i v8 v9 v10
    refine Keeps.ite (fun _ => ?_) (fun _ => ?_)
    · rename_i v11
      with_reducible apply Device.answerOk_keeps
      assumption
    · rename_i v12
      split
      · rename_i v13 v14
        assumption
      · rename_i v15 v16 v17
        with_reducible apply Device.answerOk_keeps
        assumption

theorem immQueueStatus_keeps :
    Immediate.Keeps immQueueStatus := by
  unfold immQueueStatus
  intro b0 d1 c2 h3
  dsimp -zeta only
  split
  · rename_i v4 v5
    with_reducible apply Device.answerOk_keeps
    assumption
  · rename_i v6 v7 v8
    with_reducible apply Device.answerOk_keeps
    assumption

theorem immConnStatus_keeps :
    Immediate.Keeps immConnStatus := by
  unfold immConnStatus
  intro b0 d1 c2 h3
  dsimp -zeta only
  split
  · rename_i v4 v5
    with_reducible apply Device.answerOk_keeps
    assumption
  · rename_i v6 v7 v8
    with_reducible apply Device.answerOk_keeps
    assumption

theorem immExposeStatus_keeps :
    Immediate.Keeps immExposeStatus := by
  unfold immExposeStatus
  intro b0 d1 c2 h3
  dsimp -zeta only
  split
  · rename_i v4 v5
    with_reducible apply Device.answerOk_keeps
    assumption
  · rename_i v6 v7 v8
    with_reducible apply Device.answerOk_keeps
    assumption

theorem immPortStatus_keeps :
    Immediate.Keeps immPortStatus := by
  unfold immPortStatus
  intro b0 d1 c2 h3
  dsimp -zeta only
  extract_lets +onlyGivenNames x4
  clear_value x4
  with_reducible apply Device.answerOk_keeps
  assumption

theorem immTrafficStatus_keeps :
    Immediate.Keeps immTrafficStatus := by
  unfold immTrafficStatus
  intro b0 d1 c2 h3
  dsimp -zeta only
  extract_lets +onlyGivenNames x4
  clear_value x4
  split
  · rename_i v5 v6
    extract_lets +onlyGivenNames x7 x8
    have h_x7 : Keeps b0 x7 := by
      unfold x7
      with_reducible apply Device.runCredits_keeps
      with_reducible apply Device.runCredits_keeps
      assumption
    clear_value x7
    clear_value x8
    with_reducible apply Device.answerOk_keeps
    assumption
  · rename_i v9 v10
    split
    · rename_i v11 v12
      with_reducible apply Device.answerOk_keeps
      assumption
    · rename_i v13 v14 v15
      with_reducible apply Device.answerOk_keeps
      assumption
  · rename_i v16 v17 v18
    extract_lets +onlyGivenNames x19
    clear_value x19
    with_reducible apply Device.answerOk_keeps
    assumption

theorem immDroveStatus_keeps :
    Immediate.Keeps immDroveStatus := by
  unfold immDroveStatus
  with_reducible apply paddockCommand_keeps
  intro d0
  intro d1
  intro x2
  intro x3
  extract_lets +onlyGivenNames x4 x5 x6
  clear_value x4
  clear_value x5
  clear_value x6
  with_reducible apply Device.answerOk_keeps
  assumption

theorem immPrefixStatus_keeps :
    Immediate.Keeps immPrefixStatus := by
  unfold immPrefixStatus
  with_reducible apply paddockCommand_keeps
  intro d0
  intro d1
  intro x2
  intro x3
  extract_lets +onlyGivenNames x4
  clear_value x4
  split
  · rename_i v5 v6
    with_reducible apply Device.answerOk_keeps
    assumption
  · rename_i v7 v8 v9
    extract_lets +onlyGivenNames x10
    clear_value x10
    with_reducible apply Device.answerOk_keeps
    assumption

theorem Device.putBook_keeps {a : Device} (p0 : Device) (p1 : Nat) (p2 : Nat) (p3 : Codebook) (h0 : Keeps a p0) :
    Keeps a (Device.putBook p0 p1 p2 p3) := by
  unfold Device.putBook
  with_reducible apply Device.mapService_keeps
  assumption

theorem immCodebookLoad_keeps :
    Immediate.Keeps immCodebookLoad := by
  unfold immCodebookLoad
  intro b0 d1 c2 h3
  dsimp -zeta only
  extract_lets +onlyGivenNames x4 x5
  clear_value x4
  clear_value x5
  with_reducible apply Device.answerOk_keeps
  with_reducible apply Device.putBook_keeps
  assumption

theorem Device.wakeClock_keeps {a : Device} (p0 : Device) (p1 : Nat) (h0 : Keeps a p0) :
    Keeps a (Device.wakeClock p0 p1).1 := by
  unfold Device.wakeClock
  split
  · rename_i v0
    dsimp only
    with_reducible apply Device.settleThrottle_keeps
    with_reducible apply Device.updClock_keeps
    assumption
  · rename_i v1
    assumption

theorem Device.bookShare_keeps {a : Device} (p0 : Device) (p1 : Nat) (p2 : Nat) (p3 : Nat) (h0 : Keeps a p0) :
    Keeps a (Device.bookShare p0 p1 p2 p3).1 := by
  unfold Device.bookShare
  split
  · rename_i v0
    assumption
  · rename_i v1
    extract_lets +onlyGivenNames x2
    clear_value x2
    dsimp only
    with_reducible apply Device.mapFabric_keeps
    assumption

theorem Device.bookWork_keeps {a : Device} (p0 : Device) (p1 : List (Nat × Nat)) (h0 : Keeps a p0) :
    Keeps a (Device.bookWork p0 p1).1 := by
  unfold Device.bookWork
  refine Keeps.foldl_fst (fun d0 x1 h2 => ?_) ?_
  · extract_lets +onlyGivenNames x3 x4
    have h_x3 : Keeps a x3.1 := by
      unfold x3
      with_reducible apply Device.wakeClock_keeps
      assumption
    clear_value x3
    have h_x4 : Keeps a x4.1 := by
      unfold x4
      with_reducible apply Device.bookShare_keeps
      assumption
    clear_value x4
    assumption
  · assumption

theorem immCodebookBuild_keeps :
    Immediate.Keeps immCodebookBuild := by
  unfold immCodebookBuild
  intro b0 d1 c2 h3
  dsimp -zeta only
  extract_lets +onlyGivenNames x4 x5 x6
  clear_value x4
  clear_value x5
  have h_x6 : Keeps b0 x6.1 := by
    unfold x6
    with_reducible apply Device.bookWork_keeps
    assumption
  clear_value x6
  with_reducible apply Device.updBox_keeps
  with_reducible apply Device.putBook_keeps
  assumption

theorem immCodebookStatus_keeps :
    Immediate.Keeps immCodebookStatus := by
  unfold immCodebookStatus
  intro b0 d1 c2 h3
  dsimp -zeta only
  extract_lets +onlyGivenNames x4 x5 x6
  clear_value x4
  clear_value x5
  clear_value x6
  with_reducible apply Device.answerOk_keeps
  assumption

theorem Device.readGrammar_keeps {a : Device} (p0 : Device) (p1 : Nat) (p2 : Nat) (h0 : Keeps a p0) :
    Keeps a (Device.readGrammar p0 p1 p2).1 := by
  unfold Device.readGrammar
  extract_lets +onlyGivenNames x0 x1 x2
  clear_value x0
  clear_value x1
  have h_x2 : Keeps a x2.1 := by
    unfold x2
    with_reducible apply Device.checkedRead_keeps
    assumption
  clear_value x2
  split
  · rename_i v3
    assumption
  · rename_i v4
    extract_lets +onlyGivenNames x5
    have h_x5 : Keeps a x5.1 := by
      unfold x5
      with_reducible apply Device.checkedRead_keeps
      assumption
    clear_value x5
    split
    · rename_i v6
      assumption
    · rename_i v7
      with_reducible apply Device.checkedRead_keeps
      assumption

theorem immMaskLoad_keeps :
    Immediate.Keeps immMaskLoad := by
  unfold immMaskLoad
  intro b0 d1 c2 h3
  dsimp -zeta only
  extract_lets +onlyGivenNames x4 x5 x6 x7 x8
  clear_value x4
  clear_value x5
  clear_value x6
  clear_value x7
  have h_x8 : Keeps b0 x8.1 := by
    unfold x8
    with_reducible apply Device.readGrammar_keeps
    assumption
  clear_value x8
  split
  · rename_i v9 v10 v11
    with_reducible apply Device.respond_keeps
    with_reducible apply Device.record_keeps
    assumption
  · rename_i v12 v13
    split
    · rename_i v14 v15 v16
      with_reducible apply Device.respond_keeps
      assumption
    · rename_i v17 v18
      with_reducible apply Device.answerOk_keeps
      with_reducible apply Device.updServing_keeps
      assumption

theorem immMaskRetire_keeps :
    Immediate.Keeps immMaskRetire := by
  unfold immMaskRetire
  intro b0 d1 c2 h3
  dsimp -zeta only
  with_reducible apply Device.answerOk_keeps
  with_reducible apply Device.updServing_keeps
  assumption

theorem immServeStatus_keeps :
    Immediate.Keeps immServeStatus := by
  unfold immServeStatus
  with_reducible apply paddockCommand_keeps
  intro d0
  intro d1
  intro x2
  intro x3
  extract_lets +onlyGivenNames x4 x5
  clear_value x4
  clear_value x5
  with_reducible apply Device.answerOk_keeps
  assumption

theorem immBellRead_keeps :
    Immediate.Keeps immBellRead := by
  unfold immBellRead
  intro b0 d1 c2 h3
  dsimp -zeta only
  with_reducible apply Device.answerOk_keeps
  assumption

theorem immHurdleRead_keeps :
    Immediate.Keeps immHurdleRead := by
  unfold immHurdleRead
  intro b0 d1 c2 h3
  dsimp -zeta only
  with_reducible apply Device.answerOk_keeps
  assumption

theorem immFaultRead_keeps :
    Immediate.Keeps immFaultRead := by
  unfold immFaultRead
  intro b0 d1 c2 h3
  dsimp -zeta only
  extract_lets +onlyGivenNames x4 x5 x6 x7 x8
  clear_value x4
  clear_value x5
  clear_value x6
  clear_value x7
  clear_value x8
  with_reducible apply Device.answerOk_keeps
  assumption

theorem Device.traced_keeps {a : Device} (p0 : Device) (p1 : Nat) (p2 : Nat) (p3 : Nat) (p4 : Nat) (p5 : Nat) (p6 : Nat) (h0 : Keeps a p0) :
    Keeps a (Device.traced p0 p1 p2 p3 p4 p5 p6) := by
  unfold Device.traced
  extract_lets +onlyGivenNames x0
  clear_value x0
  refine Keeps.ite (fun _ => ?_) (fun _ => ?_)
  · rename_i v1
    extract_lets +onlyGivenNames x2
    clear_value x2
    refine Keeps.ite (fun _ => ?_) (fun _ => ?_)
    · rename_i v3
      with_reducible apply Device.mapTrace_keeps
      assumption
    · rename_i v4
      with_reducible apply Device.mapTrace_keeps
      assumption
  · rename_i v5
    assumption

theorem Device.setBlockBell_keeps {a : Device} (p0 : Device) (p1 : Nat) (p2 : Nat) (p3 : Bell) (h0 : Keeps a p0) :
    Keeps a (Device.setBlockBell p0 p1 p2 p3) := by
  unfold Device.setBlockBell
  split
  · rename_i v0 v1
    assumption
  · rename_i v2 v3 v4
    extract_lets +onlyGivenNames x5
    have h_x5 : Keeps a x5 := by
      unfold x5
      with_reducible apply Device.updPaddock_keeps
      assumption
    clear_value x5
    refine Keeps.ite (fun _ => ?_) (fun _ => ?_)
    · rename_i v6
      assumption
    · rename_i v7
      with_reducible apply Device.store_keeps
      assumption

theorem Device.setNetBell_keeps {a : Device} (p0 : Device) (p1 : Nat) (p2 : Bell) (h0 : Keeps a p0) :
    Keeps a (Device.setNetBell p0 p1 p2) := by
  unfold Device.setNetBell
  with_reducible apply Device.mapFabric_keeps
  assumption

theorem Device.setBell_keeps {a : Device} (p0 : Device) (p1 : Nat) (p2 : Nat) (p3 : Bell) (h0 : Keeps a p0) :
    Keeps a (Device.setBell p0 p1 p2 p3) := by
  unfold Device.setBell
  refine Keeps.ite (fun _ => ?_) (fun _ => ?_)
  · rename_i v0
    with_reducible apply Device.setBlockBell_keeps
    assumption
  · rename_i v1
    with_reducible apply Device.setNetBell_keeps
    assumption

theorem Device.updThread_keeps {a : Device} (p0 : Device) (p1 : Nat) (p2 : Nat) (p3 : Thread → Thread) (h0 : Keeps a p0) :
    Keeps a (Device.updThread p0 p1 p2 p3) := by
  unfold Device.updThread
  with_reducible apply Device.updBlock_keeps
  assumption

theorem Device.releaseWaiters_keeps {a : Device} (p0 : Device) (p1 : Nat) (p2 : Nat) (p3 : Nat) (p4 : List (Nat × Nat)) (p5 : Nat) (h0 : Keeps a p0) :
    Keeps a (Device.releaseWaiters p0 p1 p2 p3 p4 p5).1 := by
  induction p4 generalizing p0 p1 p2 p3 p5
  · unfold Device.releaseWaiters
    assumption
  · rename_i r0 r1 r2
    unfold Device.releaseWaiters
    extract_lets +onlyGivenNames x0 x1 x2 x3
    clear_value x0
    have h_x1 : Keeps a x1 := by
      unfold x1
      with_reducible apply Device.traced_keeps
      assumption
    clear_value x1
    clear_value x2
    have h_x3 : Keeps a x3.1 := by
      unfold x3
      split
      · rename_i v4
        dsimp only
        with_reducible apply Device.rouse_keeps
        with_reducible apply Device.updThread_keeps
        assumption
      · rename_i v5
        split
        · rename_i v6 v7
          assumption
        · rename_i v8 v9 v10
          split
          · rename_i v11 v12
            assumption
          · rename_i v13 v14 v15
            assumption
    clear_value x3
    extract_lets +onlyGivenNames x16
    have h_x16 : Keeps a x16.1 := by
      unfold x16
      with_reducible apply r2
      assumption
    clear_value x16
    assumption

theorem Device.examine_keeps {a : Device} (p0 : Device) (p1 : Nat) (p2 : Nat) (p3 : Nat) (h0 : Keeps a p0) :
    Keeps a (Device.examine p0 p1 p2 p3).1 := by
  unfold Device.examine
  extract_lets +onlyGivenNames x0 x1
  clear_value x0
  clear_value x1
  split
  · rename_i v2
    assumption
  · rename_i v3
    with_reducible apply Device.releaseWaiters_keeps
    with_reducible apply Device.setBell_keeps
    assumption

theorem Device.postDoorbell_keeps {a : Device} (p0 : Device) (p1 : Nat) (p2 : Nat) (p3 : Nat) (h0 : Keeps a p0) :
    Keeps a (Device.postDoorbell p0 p1 p2 p3) := by
  unfold Device.postDoorbell
  split
  · rename_i v0 v1
    assumption
  · rename_i v2 v3 v4
    refine Keeps.ite (fun _ => ?_) (fun _ => ?_)
    · rename_i v5
      with_reducible apply Device.record_keeps
      assumption
    · rename_i v6
      with_reducible apply Device.updRing_keeps
      assumption

theorem Device.kick_keeps {a : Device} (p0 : Device) (p1 : Nat) (p2 : Nat) (h0 : Keeps a p0) :
    Keeps a (Device.kick p0 p1 p2) := by
  unfold Device.kick
  refine Keeps.foldl (fun d0 x1 h2 => ?_) ?_
  · extract_lets +onlyGivenNames x3
    refine Keeps.ite (fun _ => ?_) (fun _ => ?_)
    · rename_i v4
      with_reducible apply Device.postDoorbell_keeps
      with_reducible apply Device.setNetBell_keeps
      assumption
    · rename_i v5
      assumption
  · assumption

theorem Device.applyRing_keeps {a : Device} (p0 : Device) (p1 : Nat) (p2 : Nat) (p3 : Nat) (p4 : Nat) (h0 : Keeps a p0) :
    Keeps a (Device.applyRing p0 p1 p2 p3 p4).1 := by
  unfold Device.applyRing
  extract_lets +onlyGivenNames x0
  clear_value x0
  split
  · rename_i v1
    assumption
  · rename_i v2 v3
    split
    · rename_i v4
      assumption
    · rename_i v5
      extract_lets +onlyGivenNames x6 x7 x8
      clear_value x6
      clear_value x7
      have h_x8 : Keeps a x8 := by
        unfold x8
        with_reducible apply Device.traced_keeps
        with_reducible apply Device.setBell_keeps
        assumption
      clear_value x8
      split
      · rename_i v9
        assumption
      · rename_i v10
        extract_lets +onlyGivenNames x11
        have h_x11 : Keeps a x11.1 := by
          unfold x11
          with_reducible apply Device.examine_keeps
          assumption
        clear_value x11
        dsimp only
        refine Keeps.ite (fun _ => ?_) (fun _ => ?_)
        · rename_i v12
          assumption
        · rename_i v13
          with_reducible apply Device.kick_keeps
          assumption

theorem Device.applyDone_keeps {a : Device} (p0 : Device) (p1 : Nat) (p2 : Nat) (p3 : Nat) (p4 : Nat) (p5 : Nat) (h0 : Keeps a p0) :
    Keeps a (Device.applyDone p0 p1 p2 p3 p4 p5).1 := by
  unfold Device.applyDone
  split
  · rename_i v0 v1
    assumption
  · rename_i v2 v3 v4
    split
    · rename_i v5 v6
      assumption
    · rename_i v7 v8 v9
      extract_lets +onlyGivenNames x10 x11 x12 x13 x14 x15 x16 x17
      have h_x10 : Keeps a x10 := by
        unfold x10
        with_reducible apply Device.store_keeps
        assumption
      clear_value x10
      clear_value x11
      have h_x12 : Keeps a x12 := by
        unfold x12
        with_reducible apply Device.traced_keeps
        with_reducible apply Device.updRing_keeps
        assumption
      clear_value x12
      have h_x13 : Keeps a x13 := by
        unfold x13
        refine Keeps.ite (fun _ => ?_) (fun _ => ?_)
        · rename_i v18
          with_reducible apply Device.emit_keeps
          assumption
        · rename_i v19
          assumption
      clear_value x13
      clear_value x14
      clear_value x15
      have h_x16 : Keeps a x16 := by
        unfold x16
        refine Keeps.ite (fun _ => ?_) (fun _ => ?_)
        · rename_i v20
          with_reducible apply Device.mapNet_keeps
          assumption
        · rename_i v21
          assumption
      clear_value x16
      have h_x17 : Keeps a x17 := by
        unfold x17
        refine Keeps.ite (fun _ => ?_) (fun _ => ?_)
        · rename_i v22
          with_reducible apply Device.schedule_keeps
          with_reducible apply Device.settleDemand_keeps
          assumption
        · rename_i v23
          assumption
      clear_value x17
      assumption

theorem Device.dropSteps_keeps {a : Device} (p0 : Device) (p1 : Nat) (h0 : Keeps a p0) :
    Keeps a (Device.dropSteps p0 p1) := by
  unfold Device.dropSteps
  extract_lets +onlyGivenNames x0
  clear_value x0
  refine Keeps.ite (fun _ => ?_) (fun _ => ?_)
  · rename_i v1
    assumption
  · rename_i v2
    with_reducible apply Device.updServing_keeps
    assumption

theorem Device.endLoads_keeps {a : Device} (p0 : Device) (p1 : Nat) (h0 : Keeps a p0) :
    Keeps a (Device.endLoads p0 p1) := by
  unfold Device.endLoads
  refine Keeps.congr (d := p0) ?_ rfl rfl rfl rfl rfl rfl rfl
  assumption

theorem Device.sendLoose_keeps {a : Device} (p0 : Device) (p1 : List Nat) (p2 : Nat) (p3 : Nat) (p4 : Nat) (p5 : List Byte) (h0 : Keeps a p0) :
    Keeps a (Device.sendLoose p0 p1 p2 p3 p4 p5) := by
  unfold Device.sendLoose
  extract_lets +onlyGivenNames x0
  clear_value x0
  split
  · rename_i v1 v2 v3
    with_reducible apply Device.enqueue_keeps
    assumption
  · rename_i v4 v5
    assumption

theorem Device.sendNotes_keeps {a : Device} (p0 : Device) (p1 : List Nat) (p2 : Nat) (p3 : List Byte) (h0 : Keeps a p0) :
    Keeps a (Device.sendNotes p0 p1 p2 p3) := by
  unfold Device.sendNotes
  refine Keeps.foldl (fun d0 x1 h2 => ?_) ?_
  · split
    · rename_i v3 v4
      assumption
    · rename_i v5 v6 v7
      extract_lets +onlyGivenNames x8 x9
      clear_value x8
      clear_value x9
      with_reducible apply Device.sendLoose_keeps
      assumption
  · assumption

theorem Device.notifyPeers_keeps {a : Device} (p0 : Device) (p1 : Nat) (p2 : Nat) (p3 : List Byte) (h0 : Keeps a p0) :
    Keeps a (Device.notifyPeers p0 p1 p2 p3) := by
  unfold Device.notifyPeers
  extract_lets +onlyGivenNames x0 x1 x2
  clear_value x0
  clear_value x1
  clear_value x2
  with_reducible apply Device.mapFaults_keeps
  · with_reducible apply Device.sendNotes_keeps
    assumption
  · exact fun _ => ⟨rfl, rfl⟩

theorem Device.applyFault_keeps {a : Device} (p0 : Device) (p1 : Report) (p2 : Nat) (p3 : Nat) (h0 : Keeps a p0) :
    Keeps a (Device.applyFault p0 p1 p2 p3).1 := by
  unfold Device.applyFault
  split
  · rename_i v0 v1
    dsimp only
    with_reducible apply Device.record_keeps
    assumption
  · rename_i v2 v3 v4
    split
    · rename_i v5
      dsimp only
      with_reducible apply Device.record_keeps
      assumption
    · rename_i v6
      extract_lets +onlyGivenNames x7 x8 x9 x10 x11 x12 x13 x14 x15 x16 x17
      clear_value x7
      have h_x8 : Keeps a x8 := by
        unfold x8
        with_reducible apply Device.recordBytes_keeps
        assumption
      clear_value x8
      clear_value x9
      have h_x10 : Keeps a x10 := by
        unfold x10
        with_reducible apply Device.updPaddock_keeps
        assumption
      clear_value x10
      have h_x11 : Keeps a x11 := by
        unfold x11
        with_reducible apply Device.setPaddockState_keeps
        with_reducible apply Device.mapFaults_keeps
        · assumption
        · exact fun _ => ⟨rfl, rfl⟩
      clear_value x11
      have h_x12 : Keeps a x12 := by
        unfold x12
        refine Keeps.ite (fun _ => ?_) (fun _ => ?_)
        · rename_i v18
          with_reducible apply Device.mapThreadsOf_keeps
          assumption
        · rename_i v19
          assumption
      clear_value x12
      have h_x13 : Keeps a x13 := by
        unfold x13
        with_reducible apply Device.dropSteps_keeps
        assumption
      clear_value x13
      have h_x14 : Keeps a x14 := by
        unfold x14
        with_reducible apply Device.mapService_keeps
        assumption
      clear_value x14
      have h_x15 : Keeps a x15 := by
        unfold x15
        with_reducible apply Device.endLoads_keeps
        assumption
      clear_value x15
      have h_x16 : Keeps a x16 := by
        unfold x16
        with_reducible apply Device.notifyPeers_keeps
        assumption
      clear_value x16
      have h_x17 : Keeps a x17 := by
        unfold x17
        split
        · rename_i v20 v21
          with_reducible apply Device.respond_keeps
          assumption
        · rename_i v22
          assumption
      clear_value x17
      dsimp only
      with_reducible apply Device.schedule_keeps
      assumption

theorem Device.doWork_keeps {a : Device} (p0 : Device) (p1 : Work) (h0 : Keeps a p0) :
    Keeps a (Device.doWork p0 p1).1 := by
  unfold Device.doWork
  split
  · rename_i v0 v1 v2 v3 v4
    with_reducible apply Device.applyRing_keeps
    assumption
  · rename_i v5 v6 v7 v8 v9 v10
    with_reducible apply Device.applyDone_keeps
    assumption
  · rename_i v11 v12 v13 v14
    with_reducible apply Device.applyFault_keeps
    assumption

theorem Device.runWork_keeps {a : Device} (p0 : Nat) (p1 : List Work) (p2 : Device) (h2 : Keeps a p2) :
    Keeps a (Device.runWork p0 p1 p2) := by
  induction p0 generalizing p1 p2
  · unfold Device.runWork
    assumption
  · rename_i r0 r1
    unfold Device.runWork
    split
    · rename_i v0 v1 v2 v3 v4 v5
      assumption
    · rename_i v6 v7 v8 v9 v10
      assumption
    · rename_i v11 v12 v13 v14 v15 v16 v17 v18
      extract_lets +onlyGivenNames x19
      have h_x19 : Keeps a x19.1 := by
        unfold x19
        with_reducible apply Device.doWork_keeps
        assumption
      clear_value x19
      simp_all

theorem Device.perform_keeps {a : Device} (p0 : Device) (p1 : List Work) (h0 : Keeps a p0) :
    Keeps a (Device.perform p0 p1) := by
  unfold Device.perform
  with_reducible apply Device.runWork_keeps
  assumption

theorem Device.finish_keeps {a : Device} (p0 : Device) (p1 : Job) (p2 : Nat) (p3 : optParam Nat 0) (p4 : optParam Nat 0) (h0 : Keeps a p0) :
    Keeps a (Device.finish p0 p1 p2 p3 p4) := by
  unfold Device.finish
  with_reducible apply Device.perform_keeps
  assumption

theorem Device.waitRecord_keeps {a : Device} (p0 : Device) (p1 : Job) (h0 : Keeps a p0) :
    Keeps a (Device.waitRecord p0 p1) := by
  unfold Device.waitRecord
  with_reducible apply Device.mapService_keeps
  assumption

theorem Device.strike_keeps {a : Device} (p0 : Device) (p1 : Nat) (p2 : Report) (h0 : Keeps a p0) :
    Keeps a (Device.strike p0 p1 p2) := by
  unfold Device.strike
  with_reducible apply Device.perform_keeps
  assumption

theorem Device.failTransfer_keeps {a : Device} (p0 : Device) (p1 : Job) (p2 : Report) (h0 : Keeps a p0) :
    Keeps a (Device.failTransfer p0 p1 p2) := by
  unfold Device.failTransfer
  with_reducible apply Device.finish_keeps
  with_reducible apply Device.strike_keeps
  assumption

theorem Device.setHanding_keeps {a : Device} (p0 : Device) (p1 : Nat) (p2 : Nat) (p3 : Nat) (h0 : Keeps a p0) :
    Keeps a (Device.setHanding p0 p1 p2 p3) := by
  unfold Device.setHanding
  with_reducible apply Device.storeLe_keeps
  with_reducible apply Device.storeLe_keeps
  assumption

theorem Device.setRecState_keeps {a : Device} (p0 : Device) (p1 : Nat) (p2 : Nat) (p3 : Bool) (h0 : Keeps a p0) :
    Keeps a (Device.setRecState p0 p1 p2 p3) := by
  unfold Device.setRecState
  extract_lets +onlyGivenNames x0
  clear_value x0
  with_reducible apply Device.storeLe_keeps
  with_reducible apply Device.storeLe_keeps
  with_reducible apply Device.storeLe_keeps
  assumption

theorem Device.startOffer_keeps {a : Device} (p0 : Device) (p1 : Job) (h0 : Keeps a p0) :
    Keeps a (Device.startOffer p0 p1) := by
  unfold Device.startOffer
  extract_lets +onlyGivenNames x0 x1 x2
  clear_value x0
  clear_value x1
  clear_value x2
  refine Keeps.ite (fun _ => ?_) (fun _ => ?_)
  · rename_i v3
    with_reducible apply Device.waitRecord_keeps
    assumption
  · rename_i v4
    extract_lets +onlyGivenNames x5
    have h_x5 : Keeps a x5.1 := by
      unfold x5
      with_reducible apply Device.checkedRead_keeps
      assumption
    clear_value x5
    split
    · rename_i v6 v7 v8
      with_reducible apply Device.failTransfer_keeps
      assumption
    · rename_i v9 v10
      extract_lets +onlyGivenNames x11
      have h_x11 : Keeps a x11 := by
        unfold x11
        assumption
      clear_value x11
      refine Keeps.ite (fun _ => ?_) (fun _ => ?_)
      · rename_i v12
        with_reducible apply Device.finish_keeps
        assumption
      · rename_i v13
        refine Keeps.ite (fun _ => ?_) (fun _ => ?_)
        · rename_i v14
          with_reducible apply Device.finish_keeps
          assumption
        · rename_i v15
          split
          · rename_i v16 v17 v18
            with_reducible apply Device.finish_keeps
            assumption
          · rename_i v19 v20
            extract_lets +onlyGivenNames x21 x22
            clear_value x21
            clear_value x22
            with_reducible apply Device.mapService_keeps
            with_reducible apply Device.setHanding_keeps
            with_reducible apply Device.setRecState_keeps
            assumption

theorem Device.setCount_keeps {a : Device} (p0 : Device) (p1 : Nat) (p2 : Nat) (p3 : Nat) (h0 : Keeps a p0) :
    Keeps a (Device.setCount p0 p1 p2 p3) := by
  unfold Device.setCount
  with_reducible apply Device.updDrove_keeps
  assumption

theorem Device.pushSet_keeps {a : Device} (p0 : Device) (p1 : Nat) (p2 : Nat) (p3 : Nat) (h0 : Keeps a p0) :
    Keeps a (Device.pushSet p0 p1 p2 p3) := by
  unfold Device.pushSet
  extract_lets +onlyGivenNames x0 x1
  clear_value x0
  clear_value x1
  refine Keeps.ite (fun _ => ?_) (fun _ => ?_)
  · rename_i v2
    with_reducible apply Device.strike_keeps
    assumption
  · rename_i v3
    with_reducible apply Device.setCount_keeps
    with_reducible apply Device.storeLe_keeps
    assumption

theorem Device.setSpillBit_keeps {a : Device} (p0 : Device) (p1 : Binding) (p2 : Nat) (p3 : Bool) (h0 : Keeps a p0) :
    Keeps a (Device.setSpillBit p0 p1 p2 p3) := by
  unfold Device.setSpillBit
  extract_lets +onlyGivenNames x0 x1 x2
  clear_value x0
  clear_value x1
  clear_value x2
  with_reducible apply Device.storeLe_keeps
  assumption

theorem Device.clearSpills_keeps {a : Device} (p0 : Device) (p1 : Nat) (p2 : ServeConfig) (p3 : Nat) (h0 : Keeps a p0) :
    Keeps a (Device.clearSpills p0 p1 p2 p3) := by
  unfold Device.clearSpills
  split
  · rename_i v0 v1
    assumption
  · rename_i v2 v3 v4
    extract_lets +onlyGivenNames x5
    clear_value x5
    refine Keeps.foldl (fun d6 x7 h8 => ?_) ?_
    · split
      · rename_i v9 v10 v11
        with_reducible apply Device.setSpillBit_keeps
        assumption
      · rename_i v12 v13
        assumption
    · assumption

theorem Device.freeSet_keeps {a : Device} (p0 : Device) (p1 : Nat) (p2 : Nat) (p3 : Nat) (h0 : Keeps a p0) :
    Keeps a (Device.freeSet p0 p1 p2 p3) := by
  unfold Device.freeSet
  split
  · rename_i v0 v1
    assumption
  · rename_i v2 v3 v4
    refine Keeps.ite (fun _ => ?_) (fun _ => ?_)
    · rename_i v5
      assumption
    · rename_i v6
      with_reducible apply Device.pushSet_keeps
      with_reducible apply Device.clearSpills_keeps
      assumption

theorem Device.setTableEpoch_keeps {a : Device} (p0 : Device) (p1 : Nat) (p2 : Nat) (h0 : Keeps a p0) :
    Keeps a (Device.setTableEpoch p0 p1 p2) := by
  unfold Device.setTableEpoch
  with_reducible apply Device.storeLe_keeps
  assumption

theorem Device.freeTable_keeps {a : Device} (p0 : Device) (p1 : Nat) (p2 : Nat) (p3 : Nat) (h0 : Keeps a p0) :
    Keeps a (Device.freeTable p0 p1 p2 p3) := by
  unfold Device.freeTable
  refine Keeps.ite (fun _ => ?_) (fun _ => ?_)
  · rename_i v0
    assumption
  · rename_i v1
    extract_lets +onlyGivenNames x2
    clear_value x2
    refine Keeps.foldl (fun d3 x4 h5 => ?_) ?_
    · with_reducible apply Device.freeSet_keeps
      assumption
    · with_reducible apply Device.setTableEpoch_keeps
      assumption

theorem Device.police_keeps {a : Device} (p0 : Device) (p1 : Nat) (p2 : OutFrame) (p3 : Nat) (p4 : Nat) (p5 : Option Nat) (h0 : Keeps a p0) :
    Keeps a (Device.police p0 p1 p2 p3 p4 p5) := by
  unfold Device.police
  split
  · rename_i v0 v1
    with_reducible apply Device.enqueue_keeps
    assumption
  · rename_i v2 v3 v4 v5
    refine Keeps.ite (fun _ => ?_) (fun _ => ?_)
    · rename_i v6
      extract_lets +onlyGivenNames x7 x8 x9
      clear_value x7
      clear_value x8
      have h_x9 : Keeps a x9 := by
        unfold x9
        with_reducible apply Device.updRing_keeps
        assumption
      clear_value x9
      split
      · rename_i v10 v11
        with_reducible apply Device.updConn_keeps
        assumption
      · rename_i v12 v13
        with_reducible apply Device.enqueue_keeps
        assumption
      · rename_i v14 v15
        with_reducible apply Device.enqueue_keeps
        assumption
    · rename_i v16
      with_reducible apply Device.enqueue_keeps
      assumption

theorem Device.release_keeps {a : Device} (p0 : Device) (p1 : Nat) (p2 : Conn) (p3 : TxPacket) (h0 : Keeps a p0) :
    Keeps a (Device.release p0 p1 p2 p3) := by
  unfold Device.release
  extract_lets +onlyGivenNames x0 x1 x2 x3
  clear_value x0
  clear_value x1
  have h_x2 : Keeps a x2 := by
    unfold x2
    with_reducible apply Device.updConn_keeps
    assumption
  clear_value x2
  clear_value x3
  split
  · rename_i v4 v5 v6
    with_reducible apply Device.police_keeps
    assumption
  · rename_i v7 v8
    with_reducible apply Device.mapNet_keeps
    assumption

theorem Device.pumpN_keeps {a : Device} (p0 : Nat) (p1 : Nat) (p2 : Device) (h2 : Keeps a p2) :
    Keeps a (Device.pumpN p0 p1 p2) := by
  induction p0 generalizing p1 p2
  · unfold Device.pumpN
    assumption
  · rename_i r0 r1
    unfold Device.pumpN
    split
    · rename_i v0 v1
      assumption
    · rename_i v2 v3 v4
      split
      · rename_i v5 v6
        assumption
      · rename_i v7 v8 v9
        refine Keeps.ite (fun _ => ?_) (fun _ => ?_)
        · rename_i v10
          with_reducible apply r1
          with_reducible apply Device.release_keeps
          assumption
        · rename_i v11
          assumption

theorem Device.fetchContext_keeps {a : Device} (p0 : Device) (p1 : Nat) (h0 : Keeps a p0) :
    Keeps a (Device.fetchContext p0 p1) := by
  unfold Device.fetchContext
  split
  · rename_i v0 v1
    assumption
  · rename_i v2 v3 v4
    refine Keeps.ite (fun _ => ?_) (fun _ => ?_)
    · rename_i v5
      assumption
    · rename_i v6
      with_reducible apply Device.mapNet_keeps
      assumption

theorem Device.pump_keeps {a : Device} (p0 : Device) (p1 : Nat) (h0 : Keeps a p0) :
    Keeps a (Device.pump p0 p1) := by
  unfold Device.pump
  split
  · rename_i v0 v1
    assumption
  · rename_i v2 v3 v4
    refine Keeps.ite (fun _ => ?_) (fun _ => ?_)
    · rename_i v5
      with_reducible apply Device.pumpN_keeps
      with_reducible apply Device.fetchContext_keeps
      assumption
    · rename_i v6
      assumption

end Sys2Proof.Machine
end

