-- ==== Sys2Proof/Laws/Keeps3.lean ====
section
/-! SUPPORT. One lemma for each function that yields a device, in the order they call one another (part 3 of 7): what the
function does is kept in the sense of `Keeps`. -/

namespace Sys2Proof.Machine

theorem Device.post_keeps {a : Device} (p0 : Device) (p1 : Nat) (p2 : List Outgoing) (h0 : Keeps a p0) :
    Keeps a (Device.post p0 p1 p2) := by
  unfold Device.post
  split
  · rename_i v0 v1
    assumption
  · rename_i v2 v3 v4
    extract_lets +onlyGivenNames x5 x6 x7
    clear_value x5
    clear_value x6
    clear_value x7
    with_reducible apply Device.pump_keeps
    with_reducible apply Device.updConn_keeps
    assumption

theorem Device.sendDrove_keeps {a : Device} (p0 : Device) (p1 : Nat) (p2 : Nat) (p3 : Nat) (p4 : Nat) (p5 : DroveMsg) (h0 : Keeps a p0) :
    Keeps a (Device.sendDrove p0 p1 p2 p3 p4 p5) := by
  unfold Device.sendDrove
  refine Keeps.ite (fun _ => ?_) (fun _ => ?_)
  · rename_i v0
    split
    · rename_i v1 v2
      assumption
    · rename_i v3 v4 v5 v6
      with_reducible apply Device.post_keeps
      assumption
  · rename_i v7
    assumption

theorem Device.endRelease_keeps {a : Device} (p0 : Device) (p1 : Nat) (h0 : Keeps a p0) :
    Keeps a (Device.endRelease p0 p1) := by
  unfold Device.endRelease
  split
  · rename_i v0 v1
    assumption
  · rename_i v2 v3 v4
    refine Keeps.ite (fun _ => ?_) (fun _ => ?_)
    · rename_i v5
      extract_lets +onlyGivenNames x6
      have h_x6 : Keeps a x6 := by
        unfold x6
        with_reducible apply Device.setRecState_keeps
        with_reducible apply Device.mapService_keeps
        assumption
      clear_value x6
      split
      · rename_i v7 v8
        assumption
      · rename_i v9 v10 v11
        with_reducible apply Device.perform_keeps
        assumption
    · rename_i v12
      assumption

theorem Device.releaseRecord_keeps {a : Device} (p0 : Device) (p1 : Nat) (p2 : Nat) (p3 : Nat) (p4 : Nat) (p5 : Option (Nat × Nat)) (h0 : Keeps a p0) :
    Keeps a (Device.releaseRecord p0 p1 p2 p3 p4 p5) := by
  unfold Device.releaseRecord
  extract_lets +onlyGivenNames x0 x1 x2 x3 x4 x5 x6 x7 x8
  clear_value x0
  clear_value x1
  clear_value x2
  clear_value x3
  clear_value x4
  have h_x5 : Keeps a x5 := by
    unfold x5
    with_reducible apply Device.freeTable_keeps
    with_reducible apply Device.freeTable_keeps
    assumption
  clear_value x5
  clear_value x6
  have h_x7 : Keeps a x7 := by
    unfold x7
    with_reducible apply Device.mapService_keeps
    assumption
  clear_value x7
  have h_x8 : Keeps a x8 := by
    unfold x8
    refine Keeps.foldl (fun d9 x10 h11 => ?_) ?_
    · split
      · rename_i v12 v13
        assumption
      · rename_i v14 v15 v16
        extract_lets +onlyGivenNames x17
        clear_value x17
        with_reducible apply Device.sendDrove_keeps
        assumption
    · assumption
  clear_value x8
  with_reducible apply Device.endRelease_keeps
  assumption

theorem Device.startRelease_keeps {a : Device} (p0 : Device) (p1 : Job) (h0 : Keeps a p0) :
    Keeps a (Device.startRelease p0 p1) := by
  unfold Device.startRelease
  extract_lets +onlyGivenNames x0 x1
  clear_value x0
  clear_value x1
  refine Keeps.ite (fun _ => ?_) (fun _ => ?_)
  · rename_i v2
    with_reducible apply Device.waitRecord_keeps
    assumption
  · rename_i v3
    refine Keeps.ite (fun _ => ?_) (fun _ => ?_)
    · rename_i v4
      with_reducible apply Device.finish_keeps
      assumption
    · rename_i v5
      refine Keeps.ite (fun _ => ?_) (fun _ => ?_)
      · rename_i v6
        with_reducible apply Device.finish_keeps
        assumption
      · rename_i v7
        with_reducible apply Device.releaseRecord_keeps
        assumption

theorem Device.resumeOne_keeps {a : Device} (p0 : Device) (p1 : Nat × Nat) (h0 : Keeps a p0) :
    Keeps a (Device.resumeOne p0 p1) := by
  unfold Device.resumeOne
  split
  · rename_i v0 v1
    assumption
  · rename_i v2 v3 v4
    split
    · rename_i v5 v6
      assumption
    · rename_i v7 v8 v9
      extract_lets +onlyGivenNames x10
      clear_value x10
      refine Keeps.ite (fun _ => ?_) (fun _ => ?_)
      · rename_i v11
        with_reducible apply Device.finish_keeps
        assumption
      · rename_i v12
        refine Keeps.ite (fun _ => ?_) (fun _ => ?_)
        · rename_i v13
          with_reducible apply Device.startOffer_keeps
          assumption
        · rename_i v14
          with_reducible apply Device.startRelease_keeps
          assumption

theorem Device.resumeDroves_keeps {a : Device} (p0 : Device) (h0 : Keeps a p0) :
    Keeps a (Device.resumeDroves p0) := by
  unfold Device.resumeDroves
  extract_lets +onlyGivenNames x0
  clear_value x0
  refine Keeps.foldl (fun d1 x2 h3 => ?_) ?_
  · with_reducible apply Device.resumeOne_keeps
    assumption
  · with_reducible apply Device.mapService_keeps
    assumption

theorem Device.dropPull_keeps {a : Device} (p0 : Device) (p1 : Pull) (h0 : Keeps a p0) :
    Keeps a (Device.dropPull p0 p1) := by
  unfold Device.dropPull
  with_reducible apply Device.mapService_keeps
  assumption

theorem Device.discardPull_keeps {a : Device} (p0 : Device) (p1 : Pull) (h0 : Keeps a p0) :
    Keeps a (Device.discardPull p0 p1) := by
  unfold Device.discardPull
  extract_lets +onlyGivenNames x0 x1 x2
  clear_value x0
  have h_x1 : Keeps a x1 := by
    unfold x1
    with_reducible apply Device.freeTable_keeps
    with_reducible apply Device.freeTable_keeps
    assumption
  clear_value x1
  have h_x2 : Keeps a x2 := by
    unfold x2
    refine Keeps.ite (fun _ => ?_) (fun _ => ?_)
    · rename_i v3
      with_reducible apply Device.setRecState_keeps
      assumption
    · rename_i v4
      assumption
  clear_value x2
  with_reducible apply Device.dropPull_keeps
  assumption

theorem Device.settleCopy_keeps {a : Device} (p0 : Device) (p1 : Nat) (p2 : Nat) (p3 : Nat) (h0 : Keeps a p0) :
    Keeps a (Device.settleCopy p0 p1 p2 p3) := by
  unfold Device.settleCopy
  refine Keeps.ite (fun _ => ?_) (fun _ => ?_)
  · rename_i v0
    with_reducible apply Device.setRecState_keeps
    assumption
  · rename_i v1
    split
    · rename_i v2 v3 v4
      with_reducible apply Device.discardPull_keeps
      assumption
    · rename_i v5 v6
      with_reducible apply Device.setRecState_keeps
      with_reducible apply Device.freeTable_keeps
      with_reducible apply Device.freeTable_keeps
      assumption

theorem Device.settleCopies_keeps {a : Device} (p0 : Device) (p1 : Nat) (p2 : Nat) (h0 : Keeps a p0) :
    Keeps a (Device.settleCopies p0 p1 p2) := by
  unfold Device.settleCopies
  refine Keeps.ite (fun _ => ?_) (fun _ => ?_)
  · rename_i v0
    assumption
  · rename_i v1
    extract_lets +onlyGivenNames x2
    clear_value x2
    with_reducible apply Device.updDrove_keeps
    refine Keeps.foldl (fun d3 x4 h5 => ?_) ?_
    · with_reducible apply Device.settleCopy_keeps
      assumption
    · assumption

theorem Device.forgetThreads_keeps {a : Device} (p0 : Device) (p1 : Nat) (h0 : Keeps a p0) :
    Keeps a (Device.forgetThreads p0 p1) := by
  unfold Device.forgetThreads
  split
  · rename_i v0 v1
    assumption
  · rename_i v2 v3 v4
    with_reducible apply Device.mapFabric_keeps
    assumption

theorem Device.resetBlockBells_keeps {a : Device} (p0 : Device) (p1 : Nat) (h0 : Keeps a p0) :
    Keeps a (Device.resetBlockBells p0 p1) := by
  unfold Device.resetBlockBells
  with_reducible apply Device.updPaddock_keeps
  assumption

theorem Device.reloadPaddock_keeps {a : Device} (p0 : Device) (p1 : Nat) (p2 : Nat) (h0 : Keeps a p0) :
    Keeps a (Device.reloadPaddock p0 p1 p2) := by
  unfold Device.reloadPaddock
  split
  · rename_i v0 v1
    assumption
  · rename_i v2 v3 v4
    extract_lets +onlyGivenNames x5 x6 x7 x8 x9
    have h_x5 : Keeps a x5 := by
      unfold x5
      with_reducible apply Device.forgetThreads_keeps
      assumption
    clear_value x5
    have h_x6 : Keeps a x6 := by
      unfold x6
      refine Keeps.ite (fun _ => ?_) (fun _ => ?_)
      · rename_i v10
        with_reducible apply Device.clearBlocksOf_keeps
        assumption
      · rename_i v11
        assumption
    clear_value x6
    have h_x7 : Keeps a x7 := by
      unfold x7
      with_reducible apply Device.resetHurdles_keeps
      with_reducible apply Device.resetNetBells_keeps
      with_reducible apply Device.zeroBells_keeps
      with_reducible apply Device.resetBlockBells_keeps
      assumption
    clear_value x7
    have h_x8 : Keeps a x8 := by
      unfold x8
      with_reducible apply Device.updPaddock_keeps
      assumption
    clear_value x8
    have h_x9 : Keeps a x9 := by
      unfold x9
      with_reducible apply Device.mapFaults_keeps
      · assumption
      · exact fun _ => ⟨rfl, rfl⟩
    clear_value x9
    with_reducible apply Device.settleDemand_keeps
    with_reducible apply Device.setPaddockState_keeps
    assumption

theorem Device.clearPaddock_keeps {a : Device} (p0 : Device) (p1 : Nat) (p2 : Nat) (p3 : Nat) (h0 : Keeps a p0) :
    Keeps a (Device.clearPaddock p0 p1 p2 p3) := by
  unfold Device.clearPaddock
  extract_lets +onlyGivenNames x0
  clear_value x0
  with_reducible apply Device.schedule_keeps
  with_reducible apply Device.resumeDroves_keeps
  with_reducible apply Device.settleCopies_keeps
  with_reducible apply Device.notifyPeers_keeps
  with_reducible apply Device.reloadPaddock_keeps
  assumption

theorem Device.clearChip_keeps {a : Device} (p0 : Device) (h0 : Keeps a p0) :
    Keeps a (Device.clearChip p0) := by
  unfold Device.clearChip
  with_reducible apply Device.mapFaults_keeps
  · assumption
  · exact fun _ => ⟨rfl, rfl⟩

theorem immFaultClear_keeps :
    Immediate.Keeps immFaultClear := by
  unfold immFaultClear
  intro b0 d1 c2 h3
  dsimp -zeta only
  extract_lets +onlyGivenNames x4 x5
  clear_value x4
  clear_value x5
  refine Keeps.ite (fun _ => ?_) (fun _ => ?_)
  · rename_i v6
    extract_lets +onlyGivenNames x7
    have h_x7 : Keeps b0 x7 := by
      unfold x7
      with_reducible apply Device.clearPaddock_keeps
      assumption
    clear_value x7
    with_reducible apply Device.respond_keeps
    with_reducible apply Device.record_keeps
    assumption
  · rename_i v8
    extract_lets +onlyGivenNames x9
    have h_x9 : Keeps b0 x9 := by
      unfold x9
      with_reducible apply Device.clearChip_keeps
      assumption
    clear_value x9
    with_reducible apply Device.respond_keeps
    with_reducible apply Device.record_keeps
    assumption

theorem immFaultInject_keeps :
    Immediate.Keeps immFaultInject := by
  unfold immFaultInject
  intro b0 d1 c2 h3
  dsimp -zeta only
  extract_lets +onlyGivenNames x4 x5
  clear_value x4
  clear_value x5
  with_reducible apply Device.answerOk_keeps
  with_reducible apply Device.mapFaults_keeps
  · assumption
  · exact fun _ => ⟨rfl, rfl⟩

theorem immAttestReport_keeps :
    Immediate.Keeps immAttestReport := by
  unfold immAttestReport
  intro b0 d1 c2 h3
  dsimp -zeta only
  extract_lets +onlyGivenNames x4
  clear_value x4
  with_reducible apply Device.answerOk_keeps
  assumption

theorem immAttestCerts_keeps :
    Immediate.Keeps immAttestCerts := by
  unfold immAttestCerts
  intro b0 d1 c2 h3
  dsimp -zeta only
  with_reducible apply Device.answerOk_keeps
  assumption

theorem immWorldStatus_keeps :
    Immediate.Keeps immWorldStatus := by
  unfold immWorldStatus
  with_reducible apply plainCommand_keeps
  intro d0
  intro d1
  intro x2
  intro x3
  with_reducible apply Device.answerOk_keeps
  assumption

theorem Device.portsDown_keeps {a : Device} (p0 : Device) (h0 : Keeps a p0) :
    Keeps a (Device.portsDown p0) := by
  unfold Device.portsDown
  refine Keeps.foldl (fun d0 x1 h2 => ?_) ?_
  · refine Keeps.ite (fun _ => ?_) (fun _ => ?_)
    · rename_i v3
      with_reducible apply Device.moveQueues_keeps
      with_reducible apply Device.setLink_keeps
      assumption
    · rename_i v4
      assumption
  · assumption

theorem Device.enterHoldover_keeps {a : Device} (p0 : Device) (h0 : Keeps a p0) :
    Keeps a (Device.enterHoldover p0) := by
  unfold Device.enterHoldover
  with_reducible apply Device.setTallyState_keeps
  with_reducible apply Device.mapTally_keeps
  · assumption
  · exact fun _ => Nat.le_refl _

theorem Device.loseLane_keeps {a : Device} (p0 : Device) (h0 : Keeps a p0) :
    Keeps a (Device.loseLane p0) := by
  unfold Device.loseLane
  extract_lets +onlyGivenNames x0
  have h_x0 : Keeps a x0 := by
    unfold x0
    with_reducible apply Device.mapTally_keeps
    · assumption
    · exact fun _ => Nat.le_refl _
  clear_value x0
  refine Keeps.ite (fun _ => ?_) (fun _ => ?_)
  · rename_i v1
    with_reducible apply Device.enterHoldover_keeps
    assumption
  · rename_i v2
    assumption

theorem Device.enterStandby_keeps {a : Device} (p0 : Device) (p1 : Nat) (h0 : Keeps a p0) :
    Keeps a (Device.enterStandby p0 p1) := by
  unfold Device.enterStandby
  extract_lets +onlyGivenNames x0
  have h_x0 : Keeps a x0 := by
    unfold x0
    with_reducible apply Device.portsDown_keeps
    with_reducible apply Device.mapNet_keeps
    assumption
  clear_value x0
  with_reducible apply Device.setDevState_keeps
  with_reducible apply Device.loseLane_keeps
  with_reducible apply Device.mapBoot_keeps
  assumption

theorem Device.leaveStandby_keeps {a : Device} (p0 : Device) (h0 : Keeps a p0) :
    Keeps a (Device.leaveStandby p0) := by
  unfold Device.leaveStandby
  refine Keeps.ite (fun _ => ?_) (fun _ => ?_)
  · rename_i v0
    with_reducible apply Device.setDevState_keeps
    with_reducible apply Device.mapBoot_keeps
    assumption
  · rename_i v1
    assumption

theorem immPowerStateSet_keeps :
    Immediate.Keeps immPowerStateSet := by
  unfold immPowerStateSet
  intro b0 d1 c2 h3
  dsimp -zeta only
  extract_lets +onlyGivenNames x4 x5
  clear_value x4
  have h_x5 : Keeps b0 x5 := by
    unfold x5
    with_reducible apply Device.answerOk_keeps
    assumption
  clear_value x5
  refine Keeps.ite (fun _ => ?_) (fun _ => ?_)
  · rename_i v6
    refine Keeps.ite (fun _ => ?_) (fun _ => ?_)
    · rename_i v7
      assumption
    · rename_i v8
      with_reducible apply Device.enterStandby_keeps
      assumption
  · rename_i v9
    refine Keeps.ite (fun _ => ?_) (fun _ => ?_)
    · rename_i v10
      with_reducible apply Device.leaveStandby_keeps
      assumption
    · rename_i v11
      with_reducible apply Device.mapBoot_keeps
      assumption

theorem immPowerStatus_keeps :
    Immediate.Keeps immPowerStatus := by
  unfold immPowerStatus
  with_reducible apply plainCommand_keeps
  intro d0
  intro d1
  intro x2
  intro x3
  extract_lets +onlyGivenNames x4
  clear_value x4
  with_reducible apply Device.answerOk_keeps
  assumption

theorem immClockStatus_keeps :
    Immediate.Keeps immClockStatus := by
  unfold immClockStatus
  with_reducible apply plainCommand_keeps
  intro d0
  intro d1
  intro x2
  intro x3
  extract_lets +onlyGivenNames x4
  clear_value x4
  with_reducible apply Device.answerOk_keeps
  assumption

theorem immTallyStatus_keeps :
    Immediate.Keeps immTallyStatus := by
  unfold immTallyStatus
  with_reducible apply plainCommand_keeps
  intro d0
  intro d1
  intro x2
  intro x3
  extract_lets +onlyGivenNames x4 x5 x6
  clear_value x4
  clear_value x5
  clear_value x6
  with_reducible apply Device.answerOk_keeps
  assumption

theorem immFwInfo_keeps :
    Immediate.Keeps immFwInfo := by
  unfold immFwInfo
  with_reducible apply plainCommand_keeps
  intro d0
  intro d1
  intro x2
  intro x3
  extract_lets +onlyGivenNames x4
  clear_value x4
  with_reducible apply Device.answerOk_keeps
  assumption

theorem Device.writeBootRecord_keeps {a : Device} (p0 : Device) (p1 : Nat) (p2 : Nat) (p3 : Nat) (h0 : Keeps a p0) :
    Keeps a (Device.writeBootRecord p0 p1 p2 p3) := by
  unfold Device.writeBootRecord
  extract_lets +onlyGivenNames x0 x1
  clear_value x0
  clear_value x1
  with_reducible apply Device.mapSecurity_keeps
  · assumption
  · (intro z; split <;> exact ⟨rfl, rfl⟩)

theorem Device.setSlotBytes_keeps {a : Device} (p0 : Device) (p1 : Nat) (p2 : Table Byte) (h0 : Keeps a p0) :
    Keeps a (Device.setSlotBytes p0 p1 p2) := by
  unfold Device.setSlotBytes
  with_reducible apply Device.mapSecurity_keeps
  · assumption
  · (intro z; split <;> exact ⟨rfl, rfl⟩)

theorem Device.eraseSector_keeps {a : Device} (p0 : Device) (p1 : Nat) (p2 : Nat) (h0 : Keeps a p0) :
    Keeps a (Device.eraseSector p0 p1 p2) := by
  unfold Device.eraseSector
  extract_lets +onlyGivenNames x0
  clear_value x0
  with_reducible apply Device.mapSecurity_keeps
  · with_reducible apply Device.setSlotBytes_keeps
    assumption
  · exact fun _ => ⟨rfl, rfl⟩

theorem Device.setSlotState_keeps {a : Device} (p0 : Device) (p1 : Nat) (p2 : Nat) (p3 : Nat) (p4 : Nat) (h0 : Keeps a p0) :
    Keeps a (Device.setSlotState p0 p1 p2 p3 p4) := by
  unfold Device.setSlotState
  with_reducible apply Device.mapSecurity_keeps
  · assumption
  · exact fun _ => ⟨rfl, rfl⟩

theorem Device.program_keeps {a : Device} (p0 : Device) (p1 : Nat) (p2 : Nat) (p3 : List Byte) (h0 : Keeps a p0) :
    Keeps a (Device.program p0 p1 p2 p3) := by
  induction p3 generalizing p0 p1 p2
  · unfold Device.program
    assumption
  · rename_i r0 r1 r2
    unfold Device.program
    extract_lets +onlyGivenNames x0
    clear_value x0
    split
    · rename_i v1 v2
      with_reducible apply r2
      with_reducible apply Device.setSlotBytes_keeps
      assumption
    · rename_i v3 v4 v5
      extract_lets +onlyGivenNames x6
      have h_x6 : Keeps a x6 := by
        unfold x6
        with_reducible apply Device.setSlotBytes_keeps
        assumption
      clear_value x6
      with_reducible apply r2
      refine Keeps.congr (d := x6) ?_ rfl rfl rfl rfl rfl rfl rfl
      assumption

theorem Device.writeSlot_keeps {a : Device} (p0 : Device) (p1 : Nat) (p2 : Nat) (p3 : List Byte) (h0 : Keeps a p0) :
    Keeps a (Device.writeSlot p0 p1 p2 p3) := by
  unfold Device.writeSlot
  extract_lets +onlyGivenNames x0 x1
  have h_x0 : Keeps a x0 := by
    unfold x0
    refine Keeps.ite (fun _ => ?_) (fun _ => ?_)
    · rename_i v2
      with_reducible apply Device.writeBootRecord_keeps
      assumption
    · rename_i v3
      assumption
  clear_value x0
  have h_x1 : Keeps a x1 := by
    unfold x1
    refine Keeps.ite (fun _ => ?_) (fun _ => ?_)
    · rename_i v4
      with_reducible apply Device.eraseSector_keeps
      assumption
    · rename_i v5
      assumption
  clear_value x1
  with_reducible apply Device.setSlotState_keeps
  with_reducible apply Device.program_keeps
  assumption

theorem immFwWrite_keeps :
    Immediate.Keeps immFwWrite := by
  unfold immFwWrite
  intro b0 d1 c2 h3
  dsimp -zeta only
  with_reducible apply Device.answerOk_keeps
  with_reducible apply Device.writeSlot_keeps
  assumption

theorem Device.blowFuses_keeps {a : Device} (p0 : Device) (h0 : Keeps a p0) :
    Keeps a (Device.blowFuses p0) := by
  exact Device.blowFuses_keeps' h0

theorem Device.trySlot_keeps {a : Device} (p0 : Device) (p1 : Call) (p2 : Nat) (p3 : Nat) (h0 : Keeps a p0) :
    Keeps a (Device.trySlot p0 p1 p2 p3) := by
  unfold Device.trySlot
  extract_lets +onlyGivenNames x0 x1
  clear_value x0
  have h_x1 : Keeps a x1 := by
    unfold x1
    with_reducible apply Device.setSlotState_keeps
    assumption
  clear_value x1
  refine Keeps.ite (fun _ => ?_) (fun _ => ?_)
  · rename_i v2
    with_reducible apply Device.answerOk_keeps
    with_reducible apply Device.writeBootRecord_keeps
    assumption
  · rename_i v3
    with_reducible apply Device.respond_keeps
    assumption

theorem immFwActivate_keeps :
    Immediate.Keeps immFwActivate := by
  unfold immFwActivate
  intro b0 d1 c2 h3
  dsimp -zeta only
  extract_lets +onlyGivenNames x4
  clear_value x4
  refine Keeps.ite (fun _ => ?_) (fun _ => ?_)
  · rename_i v5
    extract_lets +onlyGivenNames x6
    have h_x6 : Keeps b0 x6 := by
      unfold x6
      with_reducible apply Device.blowFuses_keeps
      with_reducible apply Device.writeBootRecord_keeps
      assumption
    clear_value x6
    with_reducible apply Device.answerOk_keeps
    with_reducible apply Device.mapSecurity_keeps
    · assumption
    · exact fun _ => ⟨rfl, rfl⟩
  · rename_i v7
    with_reducible apply Device.trySlot_keeps
    assumption

theorem immTraceRead_keeps :
    Immediate.Keeps immTraceRead := by
  unfold immTraceRead
  intro b0 d1 c2 h3
  dsimp -zeta only
  extract_lets +onlyGivenNames x4 x5 x6 x7 x8
  clear_value x4
  clear_value x5
  clear_value x6
  clear_value x7
  clear_value x8
  with_reducible apply Device.answerOk_keeps
  assumption

theorem immediateOf_keeps (p0 : Nat) :
    ∀ y, immediateOf p0 = some y → Immediate.Keeps y := by
  intro y h
  unfold immediateOf at h
  split at h
  · cases h; exact immIdentify_keeps
  · cases h; exact immMbxNext_keeps
  · cases h; exact immOwnClaim_keeps
  · cases h; exact immOwnRenew_keeps
  · cases h; exact immOwnRelease_keeps
  · cases h; exact immOwnHandover_keeps
  · cases h; exact immOwnAccept_keeps
  · cases h; exact immOwnStatus_keeps
  · cases h; exact immStageOpen_keeps
  · cases h; exact immStageCheck_keeps
  · cases h; exact immStageCommit_keeps
  · cases h; exact immStageAbort_keeps
  · cases h; exact immStageStatus_keeps
  · cases h; exact immPaddockPreempt_keeps
  · cases h; exact immPaddockResume_keeps
  · cases h; exact immPaddockStatus_keeps
  · cases h; exact immImageRegister_keeps
  · cases h; exact immImageInfo_keeps
  · cases h; exact immImageRetire_keeps
  · cases h; exact immFoldStatus_keeps
  · cases h; exact immFoldMeter_keeps
  · cases h; exact immQueueStatus_keeps
  · cases h; exact immConnStatus_keeps
  · cases h; exact immExposeStatus_keeps
  · cases h; exact immPortStatus_keeps
  · cases h; exact immTrafficStatus_keeps
  · cases h; exact immDroveStatus_keeps
  · cases h; exact immPrefixStatus_keeps
  · cases h; exact immCodebookLoad_keeps
  · cases h; exact immCodebookBuild_keeps
  · cases h; exact immCodebookStatus_keeps
  · cases h; exact immMaskLoad_keeps
  · cases h; exact immMaskRetire_keeps
  · cases h; exact immServeStatus_keeps
  · cases h; exact immBellRead_keeps
  · cases h; exact immHurdleRead_keeps
  · cases h; exact immFaultRead_keeps
  · cases h; exact immFaultClear_keeps
  · cases h; exact immFaultInject_keeps
  · cases h; exact immAttestReport_keeps
  · cases h; exact immAttestCerts_keeps
  · cases h; exact immWorldStatus_keeps
  · cases h; exact immPowerStateSet_keeps
  · cases h; exact immPowerStatus_keeps
  · cases h; exact immClockStatus_keeps
  · cases h; exact immTallyStatus_keeps
  · cases h; exact immFwInfo_keeps
  · cases h; exact immFwWrite_keeps
  · cases h; exact immFwActivate_keeps
  · cases h; exact immTraceRead_keeps
  · cases h

theorem kindOf_keeps (p0 : Nat) : ∀ y, kindOf p0 = some y → Kind.Keeps y := by
  intro y h
  unfold kindOf at h
  split at h
  · rename_i m hm
    cases h
    exact immediateOf_keeps p0 _ hm
  · split at h
    · cases h
    · rw [Option.map_eq_some_iff] at h
      obtain ⟨s, hs, rfl⟩ := h
      exact stagedOf_keeps p0 _ hs

theorem Device.joinSet_keeps {a : Device} (p0 : Device) (p1 : Nat) (p2 : StagedCommand) (h0 : Keeps a p0) :
    Keeps a (Device.joinSet p0 p1 p2) := by
  unfold Device.joinSet
  with_reducible apply Device.mapStaging_keeps
  assumption

theorem Device.stage_keeps {a : Device} (p0 : Device) (p1 : Staged) (p2 : Nat) (p3 : Call) (h0 : Keeps a p0) (h1 : Staged.Keeps p1) :
    Keeps a (Device.stage p0 p1 p2 p3) := by
  unfold Device.stage
  extract_lets +onlyGivenNames x0
  clear_value x0
  split
  · rename_i v1 v2
    with_reducible apply Device.respond_keeps
    assumption
  · rename_i v3 v4 v5
    extract_lets +onlyGivenNames x6 x7 x8
    clear_value x6
    have h_x7 : Keeps a x7 := by
      unfold x7
      with_reducible apply Device.applyCommands_keeps
      assumption
    clear_value x7
    clear_value x8
    split
    · rename_i v9 v10 v11
      with_reducible apply Device.respond_keeps
      assumption
    · rename_i v12 v13
      with_reducible apply Device.respond_keeps
      with_reducible apply Device.joinSet_keeps
      assumption

theorem Device.finishCall_keeps {a : Device} (p0 : Device) (p1 : Kind) (p2 : Nat) (p3 : Call) (h0 : Keeps a p0) (h1 : Kind.Keeps p1) :
    Keeps a (Device.finishCall p0 p1 p2 p3) := by
  unfold Device.finishCall
  split
  · rename_i v0 v1
    with_reducible apply Device.stage_keeps
    · assumption
    · assumption
  · rename_i v2 v3
    split
    · rename_i v4 v5 v6
      with_reducible apply Device.respond_keeps
      assumption
    · rename_i v7 v8
      exact h1 _ _ _ h0

theorem Device.finishIndirect_keeps {a : Device} (p0 : Device) (p1 : Kind) (p2 : Nat) (p3 : Call) (h0 : Keeps a p0) (h1 : Kind.Keeps p1) :
    Keeps a (Device.finishIndirect p0 p1 p2 p3) := by
  unfold Device.finishIndirect
  extract_lets +onlyGivenNames x0
  clear_value x0
  split
  · rename_i v1 v2
    with_reducible apply Device.respond_keeps
    assumption
  · rename_i v3
    with_reducible apply Device.finishCall_keeps
    · assumption
    · assumption

theorem Device.readIndirect_keeps {a : Device} (p0 : Device) (p1 : Kind) (p2 : Nat) (p3 : Path) (p4 : List Byte) (p5 : List Byte) (h0 : Keeps a p0) (h1 : Kind.Keeps p1) :
    Keeps a (Device.readIndirect p0 p1 p2 p3 p4 p5) := by
  unfold Device.readIndirect
  extract_lets +onlyGivenNames x0 x1
  clear_value x0
  clear_value x1
  split
  · rename_i v2 v3
    split
    · rename_i v4 v5
      assumption
    · rename_i v6 v7 v8
      with_reducible apply Device.post_keeps
      with_reducible apply Device.updBox_keeps
      assumption
  · rename_i v9 v10
    extract_lets +onlyGivenNames x11
    have h_x11 : Keeps a x11.1 := by
      unfold x11
      with_reducible apply Device.checkedRead_keeps
      assumption
    clear_value x11
    split
    · rename_i v12 v13 v14
      with_reducible apply Device.respond_keeps
      with_reducible apply Device.record_keeps
      assumption
    · rename_i v15 v16
      with_reducible apply Device.finishIndirect_keeps
      · assumption
      · assumption

theorem Device.executeCall_keeps {a : Device} (p0 : Device) (p1 : Kind) (p2 : Nat) (p3 : Path) (h0 : Keeps a p0) (h1 : Kind.Keeps p1) :
    Keeps a (Device.executeCall p0 p1 p2 p3) := by
  unfold Device.executeCall
  extract_lets +onlyGivenNames x0 x1 x2
  clear_value x0
  clear_value x1
  clear_value x2
  split
  · rename_i v3 v4 v5
    with_reducible apply Device.respond_keeps
    assumption
  · rename_i v6 v7
    extract_lets +onlyGivenNames x8 x9
    clear_value x8
    clear_value x9
    split
    · rename_i v10 v11
      with_reducible apply Device.respond_keeps
      assumption
    · rename_i v12
      extract_lets +onlyGivenNames x13
      clear_value x13
      split
      · rename_i v14 v15 v16
        with_reducible apply Device.respond_keeps
        assumption
      · rename_i v17 v18
        refine Keeps.ite (fun _ => ?_) (fun _ => ?_)
        · rename_i v19
          split
          · rename_i v20 v21 v22
            with_reducible apply Device.respond_keeps
            assumption
          · rename_i v23 v24
            with_reducible apply Device.readIndirect_keeps
            · assumption
            · assumption
        · rename_i v25
          with_reducible apply Device.finishCall_keeps
          · assumption
          · assumption

theorem Device.execute_keeps {a : Device} (p0 : Device) (p1 : Kind) (p2 : Nat) (p3 : Path) (h0 : Keeps a p0) (h1 : Kind.Keeps p1) :
    Keeps a (Device.execute p0 p1 p2 p3) := by
  unfold Device.execute
  extract_lets +onlyGivenNames x0 x1
  clear_value x0
  clear_value x1
  split
  · rename_i v2 v3 v4
    with_reducible apply Device.deliver_keeps
    assumption
  · rename_i v5 v6
    refine Keeps.ite (fun _ => ?_) (fun _ => ?_)
    · rename_i v7
      with_reducible apply Device.deliver_keeps
      assumption
    · rename_i v8
      with_reducible apply Device.executeCall_keeps
      · assumption
      · assumption

theorem Device.executeStored_keeps {a : Device} (p0 : Device) (p1 : Path) (h0 : Keeps a p0) :
    Keeps a (Device.executeStored p0 p1) := by
  unfold Device.executeStored
  extract_lets +onlyGivenNames x0
  clear_value x0
  generalize em1 : kindOf x0 = m1
  have h_m1 : ∀ y, m1 = some y → Kind.Keeps y := by
    subst m1
    intro h2
    intro h3
    exact kindOf_keeps _ _ h3
  clear em1
  split
  · rename_i v4 v5
    with_reducible apply Device.execute_keeps
    · assumption
    · exact h_m1 _ rfl
  · rename_i v6
    extract_lets +onlyGivenNames x7 x8
    clear_value x7
    clear_value x8
    split
    · rename_i v9 v10 v11
      with_reducible apply Device.deliver_keeps
      assumption
    · rename_i v12 v13
      refine Keeps.ite (fun _ => ?_) (fun _ => ?_)
      · rename_i v14
        with_reducible apply Device.deliver_keeps
        assumption
      · rename_i v15
        with_reducible apply Device.respond_keeps
        assumption

theorem Device.ringPair_keeps {a : Device} (p0 : Device) (p1 : Master) (p2 : Nat) (h0 : Keeps a p0) :
    Keeps a (Device.ringPair p0 p1 p2) := by
  unfold Device.ringPair
  extract_lets +onlyGivenNames x0 x1 x2
  clear_value x0
  clear_value x1
  clear_value x2
  split
  · rename_i v3 v4
    refine Keeps.ite (fun _ => ?_) (fun _ => ?_)
    · rename_i v5
      extract_lets +onlyGivenNames x6
      have h_x6 : Keeps a x6 := by
        unfold x6
        with_reducible apply Device.acceptBox_keeps
        assumption
      clear_value x6
      refine Keeps.ite (fun _ => ?_) (fun _ => ?_)
      · rename_i v7
        with_reducible apply Device.executeStored_keeps
        assumption
      · rename_i v8
        assumption
    · rename_i v9
      refine Keeps.ite (fun _ => ?_) (fun _ => ?_)
      · rename_i v10
        with_reducible apply Device.updBox_keeps
        assumption
      · rename_i v11
        assumption
  · rename_i v12 v13
    with_reducible apply Device.updPage_keeps
    assumption

theorem Device.writeDoorbell_keeps {a : Device} (p0 : Device) (p1 : PageAgent) (p2 : Nat) (h0 : Keeps a p0) :
    Keeps a (Device.writeDoorbell p0 p1 p2) := by
  unfold Device.writeDoorbell
  refine Keeps.foldl (fun d0 x1 h2 => ?_) ?_
  · with_reducible apply Device.ringPair_keeps
    assumption
  · assumption

theorem Device.writeDone_keeps {a : Device} (p0 : Device) (p1 : PageAgent) (p2 : Nat) (h0 : Keeps a p0) :
    Keeps a (Device.writeDone p0 p1 p2) := by
  unfold Device.writeDone
  refine Keeps.foldl (fun d0 x1 h2 => ?_) ?_
  · with_reducible apply Device.updBox_keeps
    assumption
  · assumption

theorem Device.writeIrq_keeps {a : Device} (p0 : Device) (p1 : PageAgent) (p2 : Nat) (h0 : Keeps a p0) :
    Keeps a (Device.writeIrq p0 p1 p2) := by
  unfold Device.writeIrq
  extract_lets +onlyGivenNames x0 x1 x2 x3
  clear_value x0
  clear_value x1
  clear_value x2
  clear_value x3
  split
  · rename_i v4 v5
    refine Keeps.ite (fun _ => ?_) (fun _ => ?_)
    · rename_i v6
      with_reducible apply Device.pageError_keeps
      assumption
    · rename_i v7
      with_reducible apply Device.updPage_keeps
      assumption
  · rename_i v8 v9
    with_reducible apply Device.updPage_keeps
    assumption

theorem Device.writeStaged_keeps {a : Device} (p0 : Device) (p1 : PageAgent) (p2 : Nat) (p3 : Nat) (h0 : Keeps a p0) :
    Keeps a (Device.writeStaged p0 p1 p2 p3) := by
  unfold Device.writeStaged
  extract_lets +onlyGivenNames x0 x1 x2 x3
  clear_value x0
  clear_value x1
  clear_value x2
  have h_x3 : Keeps a x3 := by
    unfold x3
    with_reducible apply Device.updPage_keeps
    assumption
  clear_value x3
  split
  · rename_i v4 v5
    assumption
  · rename_i v6 v7 v8
    refine Keeps.ite (fun _ => ?_) (fun _ => ?_)
    · rename_i v9
      with_reducible apply Device.joinSet_keeps
      assumption
    · rename_i v10
      assumption

theorem Device.accessFault_keeps {a : Device} (p0 : Device) (p1 : Nat) (h0 : Keeps a p0) :
    Keeps a (Device.accessFault p0 p1) := by
  unfold Device.accessFault
  with_reducible apply Device.emit_keeps
  assumption

theorem Device.updWindow_keeps {a : Device} (p0 : Device) (p1 : Nat) (p2 : Nat) (p3 : WinQueue → WinQueue) (h0 : Keeps a p0) :
    Keeps a (Device.updWindow p0 p1 p2 p3) := by
  unfold Device.updWindow
  with_reducible apply Device.mapNet_keeps
  assumption

theorem Device.arbitrate_keeps {a : Device} (p0 : Nat) (p1 : Nat) (p2 : Nat) (p3 : Nat) (p4 : Device) (h4 : Keeps a p4) :
    Keeps a (Device.arbitrate p0 p1 p2 p3 p4) := by
  induction p3 generalizing p0 p1 p2 p4
  · unfold Device.arbitrate
    assumption
  · rename_i r0 r1
    unfold Device.arbitrate
    extract_lets +onlyGivenNames x0
    clear_value x0
    refine Keeps.ite (fun _ => ?_) (fun _ => ?_)
    · rename_i v1
      assumption
    · rename_i v2
      extract_lets +onlyGivenNames x3 x4
      clear_value x3
      clear_value x4
      split
      · rename_i v5 v6
        assumption
      · rename_i v7 v8 v9
        split
        · rename_i v10 v11
          assumption
        · rename_i v12 v13 v14
          extract_lets +onlyGivenNames x15
          have h_x15 : Keeps a x15 := by
            unfold x15
            with_reducible apply Device.mapNet_keeps
            assumption
          clear_value x15
          with_reducible apply r1
          with_reducible apply Device.updWindow_keeps
          assumption

theorem Device.joinWindow_keeps {a : Device} (p0 : Device) (p1 : Nat) (p2 : Win) (p3 : WinDelivery) (h0 : Keeps a p0) :
    Keeps a (Device.joinWindow p0 p1 p2 p3) := by
  unfold Device.joinWindow
  refine Keeps.ite (fun _ => ?_) (fun _ => ?_)
  · rename_i v0
    with_reducible apply Device.arbitrate_keeps
    with_reducible apply Device.updWindow_keeps
    assumption
  · rename_i v1
    with_reducible apply Device.updWindow_keeps
    assumption

theorem Device.sendThrough_keeps {a : Device} (p0 : Device) (p1 : Nat) (p2 : Nat) (p3 : Nat) (p4 : Nat) (p5 : WinDelivery) (p6 : Device → Device) (h0 : Keeps a p0) (h6 : ∀ z0, (Keeps a z0) → Keeps a (p6 z0)) :
    Keeps a (Device.sendThrough p0 p1 p2 p3 p4 p5 p6) := by
  unfold Device.sendThrough
  split
  · rename_i v0 v1
    with_reducible apply h6
    assumption
  · rename_i v2 v3 v4
    refine Keeps.ite (fun _ => ?_) (fun _ => ?_)
    · rename_i v5
      with_reducible apply h6
      assumption
    · rename_i v6
      with_reducible apply Device.joinWindow_keeps
      assumption

theorem Device.ringThrough_keeps {a : Device} (p0 : Device) (p1 : Nat) (p2 : Nat) (p3 : Nat) (p4 : Nat) (p5 : Nat) (h0 : Keeps a p0) :
    Keeps a (Device.ringThrough p0 p1 p2 p3 p4 p5) := by
  unfold Device.ringThrough
  with_reducible apply Device.sendThrough_keeps
  · assumption
  · intro d0
    intro x1
    assumption

theorem Device.ringBlock_keeps {a : Device} (p0 : Device) (p1 : Nat) (p2 : Nat) (p3 : Nat) (p4 : Nat) (p5 : Nat) (h0 : Keeps a p0) :
    Keeps a (Device.ringBlock p0 p1 p2 p3 p4 p5) := by
  unfold Device.ringBlock
  refine Keeps.ite (fun _ => ?_) (fun _ => ?_)
  · rename_i v0
    with_reducible apply Device.ringThrough_keeps
    assumption
  · rename_i v1
    with_reducible apply Device.perform_keeps
    assumption

theorem Device.writeBellRing_keeps {a : Device} (p0 : Device) (p1 : Nat) (p2 : Nat) (h0 : Keeps a p0) :
    Keeps a (Device.writeBellRing p0 p1 p2) := by
  unfold Device.writeBellRing
  extract_lets +onlyGivenNames x0 x1 x2 x3
  clear_value x0
  clear_value x1
  clear_value x2
  clear_value x3
  split
  · rename_i v4 v5
    with_reducible apply Device.accessFault_keeps
    assumption
  · rename_i v6 v7 v8
    extract_lets +onlyGivenNames x9
    clear_value x9
    refine Keeps.ite (fun _ => ?_) (fun _ => ?_)
    · rename_i v10
      with_reducible apply Device.accessFault_keeps
      assumption
    · rename_i v11
      with_reducible apply Device.ringBlock_keeps
      assumption

theorem Device.writeRegister_keeps {a : Device} (p0 : Device) (p1 : PageAgent) (p2 : Nat) (p3 : Nat) (h0 : Keeps a p0) :
    Keeps a (Device.writeRegister p0 p1 p2 p3) := by
  unfold Device.writeRegister
  extract_lets +onlyGivenNames x0
  clear_value x0
  split
  · rename_i v1 v2
    with_reducible apply Device.pageError_keeps
    assumption
  · rename_i v3 v4 v5
    split
    · rename_i v6
      with_reducible apply Device.writeDoorbell_keeps
      assumption
    · rename_i v7
      with_reducible apply Device.writeDone_keeps
      assumption
    · rename_i v8
      with_reducible apply Device.updPage_keeps
      assumption
    · rename_i v9
      with_reducible apply Device.writeIrq_keeps
      assumption
    · rename_i v10
      with_reducible apply Device.updPage_keeps
      assumption
    · rename_i v11
      with_reducible apply Device.writeStaged_keeps
      assumption
    · rename_i v12
      with_reducible apply Device.writeStaged_keeps
      assumption
    · rename_i v13
      with_reducible apply Device.updPage_keeps
      assumption
    · rename_i v14
      with_reducible apply Device.updPage_keeps
      assumption
    · rename_i v15
      with_reducible apply Device.writeBellRing_keeps
      assumption
    · rename_i v16 v17 v18 v19 v20 v21 v22 v23 v24 v25 v26
      assumption

theorem Device.writeHalf_keeps {a : Device} (p0 : Device) (p1 : PageAgent) (p2 : Nat) (p3 : List Byte) (h0 : Keeps a p0) :
    Keeps a (Device.writeHalf p0 p1 p2 p3) := by
  unfold Device.writeHalf
  extract_lets +onlyGivenNames x0 x1
  clear_value x0
  clear_value x1
  refine Keeps.ite (fun _ => ?_) (fun _ => ?_)
  · rename_i v2
    assumption
  · rename_i v3
    with_reducible apply Device.updBox_keeps
    assumption

theorem Device.hostPageStore_keeps {a : Device} (p0 : Device) (p1 : Fin 48) (p2 : Nat) (p3 : List Byte) (h0 : Keeps a p0) :
    Keeps a (Device.hostPageStore p0 p1 p2 p3) := by
  unfold Device.hostPageStore
  extract_lets +onlyGivenNames x0
  clear_value x0
  refine Keeps.ite (fun _ => ?_) (fun _ => ?_)
  · rename_i v1
    refine Keeps.ite (fun _ => ?_) (fun _ => ?_)
    · rename_i v2
      with_reducible apply Device.writeRegister_keeps
      assumption
    · rename_i v3
      with_reducible apply Device.accessFault_keeps
      assumption
  · rename_i v4
    refine Keeps.ite (fun _ => ?_) (fun _ => ?_)
    · rename_i v5
      with_reducible apply Device.writeHalf_keeps
      assumption
    · rename_i v6
      with_reducible apply Device.accessFault_keeps
      assumption

theorem Device.boardRegister_keeps {a : Device} (p0 : Nat) (p1 : List Byte) (p2 : Device) (p3 : Nat) (h2 : Keeps a p2) :
    Keeps a (Device.boardRegister p0 p1 p2 p3) := by
  unfold Device.boardRegister
  refine Keeps.ite (fun _ => ?_) (fun _ => ?_)
  · rename_i v0
    with_reducible apply Device.writeRegister_keeps
    assumption
  · rename_i v1
    with_reducible apply Device.pageError_keeps
    assumption

theorem Device.writeWindow_keeps {a : Device} (p0 : Device) (p1 : Nat) (p2 : List Byte) (h0 : Keeps a p0) :
    Keeps a (Device.writeWindow p0 p1 p2) := by
  unfold Device.writeWindow
  with_reducible apply Device.updBox_keeps
  assumption

theorem Device.boardTransfer_keeps {a : Device} (p0 : Device) (p1 : Nat) (p2 : List Byte) (h0 : Keeps a p0) :
    Keeps a (Device.boardTransfer p0 p1 p2) := by
  unfold Device.boardTransfer
  extract_lets +onlyGivenNames x0 x1 x2 x3 x4 x5 x6
  clear_value x0
  clear_value x1
  clear_value x2
  have h_x3 : Keeps a x3 := by
    unfold x3
    refine Keeps.foldl (fun d7 x8 h9 => ?_) ?_
    · with_reducible apply Device.boardRegister_keeps
      assumption
    · assumption
  clear_value x3
  clear_value x4
  have h_x5 : Keeps a x5 := by
    unfold x5
    refine Keeps.ite (fun _ => ?_) (fun _ => ?_)
    · rename_i v10
      with_reducible apply Device.pageError_keeps
      assumption
    · rename_i v11
      assumption
  clear_value x5
  clear_value x6
  refine Keeps.ite (fun _ => ?_) (fun _ => ?_)
  · rename_i v12
    with_reducible apply Device.writeWindow_keeps
    assumption
  · rename_i v13
    assumption

theorem Device.pageWrite_keeps {a : Device} (p0 : Device) (p1 : PageAgent) (p2 : Nat) (p3 : List Byte) (h0 : Keeps a p0) :
    Keeps a (Device.pageWrite p0 p1 p2 p3) := by
  unfold Device.pageWrite
  refine Keeps.ite (fun _ => ?_) (fun _ => ?_)
  · rename_i v0
    assumption
  · rename_i v1
    split
    · rename_i v2 v3
      with_reducible apply Device.hostPageStore_keeps
      assumption
    · rename_i v4
      with_reducible apply Device.boardTransfer_keeps
      assumption
    · rename_i v5
      refine Keeps.ite (fun _ => ?_) (fun _ => ?_)
      · rename_i v6
        with_reducible apply Device.writeRegister_keeps
        assumption
      · rename_i v7
        assumption

theorem Device.rxWaits_keeps {a : Device} (p0 : Device) (p1 : Nat) (p2 : Nat) (h0 : Keeps a p0) :
    Keeps a (Device.rxWaits p0 p1 p2) := by
  unfold Device.rxWaits
  with_reducible apply Device.updConn_keeps
  assumption

theorem Device.freeIfDrained_keeps {a : Device} (p0 : Device) (p1 : Nat) (h0 : Keeps a p0) :
    Keeps a (Device.freeIfDrained p0 p1) := by
  unfold Device.freeIfDrained
  split
  · rename_i v0 v1
    assumption
  · rename_i v2 v3 v4
    refine Keeps.ite (fun _ => ?_) (fun _ => ?_)
    · rename_i v5
      with_reducible apply Device.record_keeps
      with_reducible apply Device.updExposure_keeps
      assumption
    · rename_i v6
      assumption

theorem Device.accessDone_keeps {a : Device} (p0 : Device) (p1 : Nat) (h0 : Keeps a p0) :
    Keeps a (Device.accessDone p0 p1) := by
  unfold Device.accessDone
  with_reducible apply Device.freeIfDrained_keeps
  with_reducible apply Device.updExposure_keeps
  assumption

theorem Device.rxArrived_keeps {a : Device} (p0 : Device) (p1 : Nat) (p2 : Nat) (h0 : Keeps a p0) :
    Keeps a (Device.rxArrived p0 p1 p2) := by
  unfold Device.rxArrived
  with_reducible apply Device.updConn_keeps
  assumption

theorem Device.countConn_keeps {a : Device} (p0 : Device) (p1 : Nat) (p2 : Nat) (p3 : optParam Nat 1) (h0 : Keeps a p0) :
    Keeps a (Device.countConn p0 p1 p2 p3) := by
  unfold Device.countConn
  with_reducible apply Device.updConn_keeps
  assumption

theorem Device.sendNak_keeps {a : Device} (p0 : Device) (p1 : Nat) (p2 : Nat) (p3 : Nat) (p4 : Nat) (h0 : Keeps a p0) :
    Keeps a (Device.sendNak p0 p1 p2 p3 p4) := by
  unfold Device.sendNak
  with_reducible apply Device.sendOn_keeps
  with_reducible apply Device.countConn_keeps
  assumption

theorem Device.refusePsn_keeps {a : Device} (p0 : Device) (p1 : Nat) (p2 : Nat) (p3 : Nat) (h0 : Keeps a p0) :
    Keeps a (Device.refusePsn p0 p1 p2 p3) := by
  unfold Device.refusePsn
  with_reducible apply Device.rxArrived_keeps
  with_reducible apply Device.sendNak_keeps
  assumption

theorem Device.refuseWrite_keeps {a : Device} (p0 : Device) (p1 : Nat) (p2 : Nat) (p3 : Nat) (p4 : Nat) (h0 : Keeps a p0) :
    Keeps a (Device.refuseWrite p0 p1 p2 p3 p4) := by
  unfold Device.refuseWrite
  with_reducible apply Device.accessDone_keeps
  with_reducible apply Device.updConn_keeps
  with_reducible apply Device.refusePsn_keeps
  assumption

theorem Device.queueWrite_keeps {a : Device} (p0 : Device) (p1 : Nat) (p2 : Conn) (p3 : Nat) (p4 : Nat) (p5 : Frame) (h0 : Keeps a p0) :
    Keeps a (Device.queueWrite p0 p1 p2 p3 p4 p5) := by
  unfold Device.queueWrite
  extract_lets +onlyGivenNames x0
  clear_value x0
  with_reducible apply Device.sendThrough_keeps
  · with_reducible apply Device.rxWaits_keeps
    assumption
  · intro d1
    intro x2
    with_reducible apply Device.refuseWrite_keeps
    assumption

theorem Device.refuseSend_keeps {a : Device} (p0 : Device) (p1 : Nat) (p2 : Nat) (p3 : Nat) (p4 : Nat) (p5 : Nat) (p6 : Nat) (p7 : Nat) (h0 : Keeps a p0) :
    Keeps a (Device.refuseSend p0 p1 p2 p3 p4 p5 p6 p7) := by
  unfold Device.refuseSend
  with_reducible apply Device.updRing_keeps
  with_reducible apply Device.refusePsn_keeps
  assumption

theorem Device.takeSend_keeps {a : Device} (p0 : Device) (p1 : Nat) (p2 : Conn) (p3 : Nat) (p4 : Nat) (p5 : Frame) (h0 : Keeps a p0) :
    Keeps a (Device.takeSend p0 p1 p2 p3 p4 p5) := by
  unfold Device.takeSend
  split
  · rename_i v0 v1
    assumption
  · rename_i v2 v3 v4
    extract_lets +onlyGivenNames x5
    have h_x5 : Keeps a x5 := by
      unfold x5
      with_reducible apply Device.updRing_keeps
      assumption
    clear_value x5
    with_reducible apply Device.sendThrough_keeps
    · with_reducible apply Device.rxWaits_keeps
      assumption
    · intro d6
      intro x7
      with_reducible apply Device.refuseSend_keeps
      assumption

theorem Device.mgmtCommand_keeps {a : Device} (p0 : Device) (p1 : Nat) (p2 : List Byte) (h0 : Keeps a p0) :
    Keeps a (Device.mgmtCommand p0 p1 p2) := by
  unfold Device.mgmtCommand
  extract_lets +onlyGivenNames x0
  clear_value x0
  split
  · rename_i v1 v2
    assumption
  · rename_i v3 v4 v5
    extract_lets +onlyGivenNames x6 x7
    clear_value x6
    have h_x7 : Keeps a x7 := by
      unfold x7
      with_reducible apply Device.acceptBox_keeps
      with_reducible apply Device.updBox_keeps
      assumption
    clear_value x7
    refine Keeps.ite (fun _ => ?_) (fun _ => ?_)
    · rename_i v8
      with_reducible apply Device.executeStored_keeps
      assumption
    · rename_i v9
      assumption

theorem Device.answerDrove_keeps {a : Device} (p0 : Device) (p1 : Nat) (p2 : DroveMsg) (h0 : Keeps a p0) :
    Keeps a (Device.answerDrove p0 p1 p2) := by
  unfold Device.answerDrove
  split
  · rename_i v0 v1
    assumption
  · rename_i v2 v3 v4
    with_reducible apply Device.sendDrove_keeps
    assumption

theorem Device.refusePull_keeps {a : Device} (p0 : Device) (p1 : Nat) (p2 : DroveMsg) (p3 : Nat) (p4 : optParam Nat 0) (h0 : Keeps a p0) :
    Keeps a (Device.refusePull p0 p1 p2 p3 p4) := by
  unfold Device.refusePull
  with_reducible apply Device.answerDrove_keeps
  assumption

theorem Device.postThrough_keeps {a : Device} (p0 : Device) (p1 : Nat) (p2 : Nat) (p3 : Nat) (p4 : Outgoing) (p5 : Device → Device) (h0 : Keeps a p0) (h5 : ∀ z0, (Keeps a z0) → Keeps a (p5 z0)) :
    Keeps a (Device.postThrough p0 p1 p2 p3 p4 p5) := by
  unfold Device.postThrough
  split
  · rename_i v0 v1
    with_reducible apply h5
    assumption
  · rename_i v2 v3 v4
    with_reducible apply Device.sendThrough_keeps
    · assumption
    · assumption

theorem Device.pageRefused_keeps {a : Device} (p0 : Device) (p1 : Nat) (p2 : Nat) (p3 : Nat) (h0 : Keeps a p0) :
    Keeps a (Device.pageRefused p0 p1 p2 p3) := by
  unfold Device.pageRefused
  split
  · rename_i v0 v1
    assumption
  · rename_i v2 v3 v4
    extract_lets +onlyGivenNames x5 x6 x7 x8
    have h_x5 : ∀ z0 z1, (Keeps a z0) → Keeps a (x5 z0 z1) := by
      unfold x5
      intro d9
      intro x10
      intro x11
      with_reducible apply Device.updConn_keeps
      assumption
    clear_value x5
    clear_value x6
    have h_x7 : Keeps a x7 := by
      unfold x7
      with_reducible apply Device.mapNet_keeps
      assumption
    clear_value x7
    have h_x8 : Keeps a x8 := by
      unfold x8
      refine Keeps.foldl (fun d12 x13 h14 => ?_) ?_
      · with_reducible apply h_x5
        assumption
      · assumption
    clear_value x8
    with_reducible apply Device.answerDrove_keeps
    assumption

theorem Device.sendPage_keeps {a : Device} (p0 : Device) (p1 : Nat) (p2 : Nat) (p3 : Nat) (p4 : Nat) (p5 : Nat) (p6 : Outgoing) (h0 : Keeps a p0) :
    Keeps a (Device.sendPage p0 p1 p2 p3 p4 p5 p6).1 := by
  unfold Device.sendPage
  split
  · rename_i v0
    dsimp only
    with_reducible apply Device.postThrough_keeps
    · assumption
    · intro d1
      intro x2
      assumption
  · rename_i v3
    dsimp only
    with_reducible apply Device.pageRefused_keeps
    assumption

theorem Device.serveSummaries_keeps {a : Device} (p0 : Device) (p1 : Nat) (p2 : ServeConfig) (p3 : Nat) (p4 : Nat) (p5 : Nat) (p6 : Nat) (p7 : Nat) (p8 : Nat) (p9 : Nat) (h0 : Keeps a p0) :
    Keeps a (Device.serveSummaries p0 p1 p2 p3 p4 p5 p6 p7 p8 p9).1 := by
  unfold Device.serveSummaries
  split
  · rename_i v0
    refine Keeps.foldl_fst (fun d1 x2 h3 => ?_) ?_
    · extract_lets +onlyGivenNames x4
      clear_value x4
      split
      · rename_i v5
        with_reducible apply Device.sendPage_keeps
        assumption
      · rename_i v6
        assumption
    · assumption
  · rename_i v7
    assumption

theorem Device.judgeBale_keeps {a : Device} (p0 : Device) (p1 : Nat) (p2 : Nat) (p3 : Nat) (p4 : Nat) (p5 : Nat) (h0 : Keeps a p0) :
    Keeps a (Device.judgeBale p0 p1 p2 p3 p4 p5).1 := by
  unfold Device.judgeBale
  split
  · rename_i v0
    assumption
  · rename_i v1
    split
    · rename_i v2 v3
      assumption
    · rename_i v4 v5 v6
      extract_lets +onlyGivenNames x7
      have h_x7 : Keeps a x7 := by
        unfold x7
        with_reducible apply Device.mapFaults_keeps
        · assumption
        · exact fun _ => ⟨rfl, rfl⟩
      clear_value x7
      split
      · rename_i v8
        assumption
      · rename_i v9
        dsimp only
        with_reducible apply Device.record_keeps
        assumption

theorem Device.updMeter_keeps {a : Device} (p0 : Device) (p1 : Nat) (p2 : Meter → Meter) (h0 : Keeps a p0) :
    Keeps a (Device.updMeter p0 p1 p2) := by
  unfold Device.updMeter
  with_reducible apply Device.mapService_keeps
  assumption

theorem Device.serveBales_keeps {a : Device} (p0 : Nat) (p1 : Binding) (p2 : Nat) (p3 : Nat) (p4 : Nat) (p5 : Nat) (p6 : Nat) (p7 : Nat) (p8 : Nat) (p9 : Nat) (p10 : Nat) (p11 : Nat) (p12 : Device) (h12 : Keeps a p12) :
    Keeps a (Device.serveBales p0 p1 p2 p3 p4 p5 p6 p7 p8 p9 p10 p11 p12).1 := by
  induction p10 generalizing p0 p1 p2 p3 p4 p5 p6 p7 p8 p9 p11 p12
  · unfold Device.serveBales
    assumption
  · rename_i r0 r1
    unfold Device.serveBales
    extract_lets +onlyGivenNames x0 x1 x2
    clear_value x0
    clear_value x1
    have h_x2 : Keeps a x2.1 := by
      unfold x2
      with_reducible apply Device.judgeBale_keeps
      assumption
    clear_value x2
    split
    · rename_i v3 v4 v5
      dsimp only
      with_reducible apply Device.strike_keeps
      assumption
    · rename_i v6 v7
      extract_lets +onlyGivenNames x8
      have h_x8 : Keeps a x8.1 := by
        unfold x8
        with_reducible apply Device.sendPage_keeps
        assumption
      clear_value x8
      split
      · rename_i v9
        with_reducible apply r1
        with_reducible apply Device.updMeter_keeps
        assumption
      · rename_i v10
        assumption

theorem Device.serveSets_keeps {a : Device} (p0 : Device) (p1 : Nat) (p2 : Nat) (p3 : Nat) (p4 : Nat) (p5 : Nat) (p6 : Nat) (p7 : Nat × Nat) (p8 : Nat) (p9 : Nat) (p10 : optParam Bool false) (h0 : Keeps a p0) :
    Keeps a (Device.serveSets p0 p1 p2 p3 p4 p5 p6 p7 p8 p9 p10) := by
  unfold Device.serveSets
  extract_lets +onlyGivenNames x0
  clear_value x0
  split
  · rename_i v1 v2
    assumption
  · rename_i v3 v4 v5
    split
    · rename_i v6 v7
      assumption
    · rename_i v8 v9 v10
      extract_lets +onlyGivenNames x11 x12
      clear_value x11
      clear_value x12
      refine Keeps.foldl_fst (fun d13 x14 h15 => ?_) ?_
      · split
        · rename_i v16 v17
          assumption
        · rename_i v18 v19 v20
          extract_lets +onlyGivenNames x21
          clear_value x21
          split
          · rename_i v22
            assumption
          · rename_i v23
            split
            · rename_i v24
              with_reducible apply Device.serveSummaries_keeps
              assumption
            · rename_i v25
              extract_lets +onlyGivenNames x26
              have h_x26 : Keeps a x26.1 := by
                unfold x26
                with_reducible apply Device.serveBales_keeps
                assumption
              clear_value x26
              split
              · rename_i v27
                with_reducible apply Device.serveSummaries_keeps
                assumption
              · rename_i v28
                assumption
      · assumption

theorem Device.serveCopy_keeps {a : Device} (p0 : Device) (p1 : Nat) (p2 : Conn) (p3 : DroveMsg) (h0 : Keeps a p0) :
    Keeps a (Device.serveCopy p0 p1 p2 p3) := by
  unfold Device.serveCopy
  extract_lets +onlyGivenNames x0
  clear_value x0
  refine Keeps.ite (fun _ => ?_) (fun _ => ?_)
  · rename_i v1
    with_reducible apply Device.refusePull_keeps
    assumption
  · rename_i v2
    extract_lets +onlyGivenNames x3
    clear_value x3
    with_reducible apply Device.serveSets_keeps
    assumption

theorem Device.dropOffer_keeps {a : Device} (p0 : Device) (p1 : Nat) (p2 : Offer) (p3 : Bool) (h0 : Keeps a p0) :
    Keeps a (Device.dropOffer p0 p1 p2 p3) := by
  unfold Device.dropOffer
  with_reducible apply Device.mapService_keeps
  assumption

theorem Device.tellReceivers_keeps {a : Device} (p0 : Device) (p1 : Nat) (p2 : Offer) (p3 : Nat) (h0 : Keeps a p0) :
    Keeps a (Device.tellReceivers p0 p1 p2 p3) := by
  unfold Device.tellReceivers
  refine Keeps.foldl (fun d0 x1 h2 => ?_) ?_
  · with_reducible apply Device.sendDrove_keeps
    assumption
  · assumption

theorem Device.revertOffer_keeps {a : Device} (p0 : Device) (p1 : Nat) (p2 : Offer) (h0 : Keeps a p0) :
    Keeps a (Device.revertOffer p0 p1 p2) := by
  unfold Device.revertOffer
  extract_lets +onlyGivenNames x0 x1 x2
  have h_x0 : Keeps a x0 := by
    unfold x0
    with_reducible apply Device.storeLe_keeps
    with_reducible apply Device.setHanding_keeps
    with_reducible apply Device.setRecState_keeps
    assumption
  clear_value x0
  have h_x1 : Keeps a x1 := by
    unfold x1
    with_reducible apply Device.dropOffer_keeps
    assumption
  clear_value x1
  have h_x2 : Keeps a x2 := by
    unfold x2
    with_reducible apply Device.tellReceivers_keeps
    with_reducible apply Device.updDrove_keeps
    assumption
  clear_value x2
  with_reducible apply Device.perform_keeps
  assumption

theorem Device.settleDeadline_keeps {a : Device} (p0 : Device) (p1 : Nat) (p2 : Nat) (h0 : Keeps a p0) :
    Keeps a (Device.settleDeadline p0 p1 p2) := by
  unfold Device.settleDeadline
  split
  · rename_i v0 v1
    assumption
  · rename_i v2 v3 v4
    refine Keeps.ite (fun _ => ?_) (fun _ => ?_)
    · rename_i v5
      with_reducible apply Device.revertOffer_keeps
      assumption
    · rename_i v6
      assumption

theorem Device.noOffer_keeps {a : Device} (p0 : Device) (p1 : Nat) (p2 : Nat) (p3 : DroveMsg) (h0 : Keeps a p0) :
    Keeps a (Device.noOffer p0 p1 p2 p3) := by
  unfold Device.noOffer
  refine Keeps.ite (fun _ => ?_) (fun _ => ?_)
  · rename_i v0
    with_reducible apply Device.answerDrove_keeps
    assumption
  · rename_i v1
    refine Keeps.ite (fun _ => ?_) (fun _ => ?_)
    · rename_i v2
      with_reducible apply Device.refusePull_keeps
      assumption
    · rename_i v3
      assumption

theorem Device.withOffer_keeps {a : Device} (p0 : Device) (p1 : Nat) (p2 : DroveMsg) (p3 : Nat) (p4 : Device → Nat → Offer → Conn → Device) (h0 : Keeps a p0) (h4 : ∀ z0 z1 z2 z3, (Keeps a z0) → Keeps a (p4 z0 z1 z2 z3)) :
    Keeps a (Device.withOffer p0 p1 p2 p3 p4) := by
  unfold Device.withOffer
  extract_lets +onlyGivenNames x0 x1
  clear_value x0
  have h_x1 : Keeps a x1 := by
    unfold x1
    with_reducible apply Device.settleDeadline_keeps
    assumption
  clear_value x1
  split
  · rename_i v2 v3 v4 v5 v6 v7
    refine Keeps.ite (fun _ => ?_) (fun _ => ?_)
    · rename_i v8
      refine Keeps.ite (fun _ => ?_) (fun _ => ?_)
      · rename_i v9
        with_reducible apply Device.refusePull_keeps
        assumption
      · rename_i v10
        assumption
    · rename_i v11
      refine Keeps.ite (fun _ => ?_) (fun _ => ?_)
      · rename_i v12
        with_reducible apply h4
        assumption
      · rename_i v13
        refine Keeps.ite (fun _ => ?_) (fun _ => ?_)
        · rename_i v14
          with_reducible apply Device.refusePull_keeps
          assumption
        · rename_i v15
          assumption
  · rename_i v16 v17 v18
    with_reducible apply Device.noOffer_keeps
    assumption

theorem Device.gotPullPages_keeps {a : Device} (p0 : Device) (p1 : Nat) (p2 : DroveMsg) (p3 : Nat) (h0 : Keeps a p0) :
    Keeps a (Device.gotPullPages p0 p1 p2 p3) := by
  unfold Device.gotPullPages
  split
  · rename_i v0 v1
    assumption
  · rename_i v2 v3 v4
    refine Keeps.ite (fun _ => ?_) (fun _ => ?_)
    · rename_i v5
      with_reducible apply Device.serveCopy_keeps
      assumption
    · rename_i v6
      with_reducible apply Device.withOffer_keeps
      · assumption
      · intro d7
        intro x8
        intro x9
        intro x10
        intro x11
        extract_lets +onlyGivenNames x12
        clear_value x12
        refine Keeps.ite (fun _ => ?_) (fun _ => ?_)
        · rename_i v13
          with_reducible apply Device.refusePull_keeps
          assumption
        · rename_i v14
          split
          · rename_i v15 v16
            with_reducible apply Device.refusePull_keeps
            assumption
          · rename_i v17 v18 v19
            extract_lets +onlyGivenNames x20 x21
            have h_x20 : ∀ z0 z1 z2 z3, (Keeps a z0) → Keeps a (x20 z0 z1 z2 z3) := by
              unfold x20
              intro d22
              intro x23
              intro x24
              intro x25
              intro x26
              with_reducible apply Device.serveSets_keeps
              assumption
            clear_value x20
            have h_x21 : Keeps a x21 := by
              unfold x21
              with_reducible apply h_x20
              assumption
            clear_value x21
            refine Keeps.ite (fun _ => ?_) (fun _ => ?_)
            · rename_i v27
              refine Keeps.foldl (fun d28 x29 h30 => ?_) ?_
              · with_reducible apply h_x20
                assumption
              · assumption
            · rename_i v31
              assumption

theorem Device.sendRecord_keeps {a : Device} (p0 : Device) (p1 : Nat) (p2 : Offer) (p3 : Nat) (h0 : Keeps a p0) :
    Keeps a (Device.sendRecord p0 p1 p2 p3) := by
  unfold Device.sendRecord
  extract_lets +onlyGivenNames x0 x1 x2 x3
  clear_value x0
  clear_value x1
  clear_value x2
  have h_x3 : Keeps a x3 := by
    unfold x3
    with_reducible apply Device.mapService_keeps
    assumption
  clear_value x3
  split
  · rename_i v4 v5
    assumption
  · rename_i v6 v7 v8
    with_reducible apply Device.sendDrove_keeps
    assumption

theorem Device.answerPullRecord_keeps {a : Device} (p0 : Device) (p1 : Nat) (h0 : Keeps a p0) :
    Keeps a (Device.answerPullRecord p0 p1) := by
  unfold Device.answerPullRecord
  split
  · rename_i v0 v1
    assumption
  · rename_i v2 v3 v4
    split
    · rename_i v5 v6
      assumption
    · rename_i v7 v8 v9
      refine Keeps.ite (fun _ => ?_) (fun _ => ?_)
      · rename_i v10
        with_reducible apply Device.sendRecord_keeps
        assumption
      · rename_i v11
        assumption

theorem Device.gotPagesHeld_keeps {a : Device} (p0 : Device) (p1 : Nat) (p2 : DroveMsg) (p3 : Nat) (h0 : Keeps a p0) :
    Keeps a (Device.gotPagesHeld p0 p1 p2 p3) := by
  unfold Device.gotPagesHeld
  with_reducible apply Device.withOffer_keeps
  · assumption
  · intro d0
    intro x1
    intro x2
    intro x3
    intro x4
    extract_lets +onlyGivenNames x5
    clear_value x5
    with_reducible apply Device.answerPullRecord_keeps
    with_reducible apply Device.mapService_keeps
    assumption

theorem Device.gotPullRecord_keeps {a : Device} (p0 : Device) (p1 : Nat) (p2 : DroveMsg) (p3 : Nat) (h0 : Keeps a p0) :
    Keeps a (Device.gotPullRecord p0 p1 p2 p3) := by
  unfold Device.gotPullRecord
  with_reducible apply Device.withOffer_keeps
  · assumption
  · intro d0
    intro x1
    intro x2
    intro x3
    intro x4
    split
    · rename_i v5 v6
      with_reducible apply Device.refusePull_keeps
      assumption
    · rename_i v7 v8 v9
      with_reducible apply Device.answerPullRecord_keeps
      with_reducible apply Device.mapService_keeps
      assumption

theorem Device.sendSource_keeps {a : Device} (p0 : Device) (p1 : Pull) (p2 : Nat) (p3 : DroveMsg) (h0 : Keeps a p0) :
    Keeps a (Device.sendSource p0 p1 p2 p3) := by
  unfold Device.sendSource
  with_reducible apply Device.sendDrove_keeps
  assumption

theorem Device.trackRecord_keeps {a : Device} (p0 : Device) (p1 : Nat) (p2 : Nat) (h0 : Keeps a p0) :
    Keeps a (Device.trackRecord p0 p1 p2) := by
  unfold Device.trackRecord
  with_reducible apply Device.updDrove_keeps
  assumption

theorem Device.newRecord_keeps {a : Device} (p0 : Device) (p1 : Nat) (p2 : Nat) (p3 : Nat) (p4 : Nat) (p5 : Bool) (p6 : List Byte) (h0 : Keeps a p0) :
    Keeps a (Device.newRecord p0 p1 p2 p3 p4 p5 p6) := by
  unfold Device.newRecord
  extract_lets +onlyGivenNames x0
  clear_value x0
  with_reducible apply Device.trackRecord_keeps
  with_reducible apply Device.mapService_keeps
  with_reducible apply Device.store_keeps
  assumption

theorem Device.updPull_keeps {a : Device} (p0 : Device) (p1 : Pull) (p2 : Pull → Pull) (h0 : Keeps a p0) :
    Keeps a (Device.updPull p0 p1 p2) := by
  unfold Device.updPull
  with_reducible apply Device.mapService_keeps
  assumption

end Sys2Proof.Machine
end

