-- ==== Sys2Proof/Laws/Keeps4.lean ====
section
/-! SUPPORT. One lemma for each function that yields a device, in the order they call one another (part 4 of 7): what the
function does is kept in the sense of `Keeps`. -/

namespace Sys2Proof.Machine

theorem Device.writeCopy_keeps {a : Device} (p0 : Device) (p1 : Pull) (p2 : List Byte) (h0 : Keeps a p0) :
    Keeps a (Device.writeCopy p0 p1 p2) := by
  unfold Device.writeCopy
  extract_lets +onlyGivenNames x0 x1 x2 x3 x4
  clear_value x0
  have h_x1 : Keeps a x1 := by
    unfold x1
    with_reducible apply Device.setTableEpoch_keeps
    with_reducible apply Device.newRecord_keeps
    assumption
  clear_value x1
  have h_x2 : Keeps a x2 := by
    unfold x2
    refine Keeps.ite (fun _ => ?_) (fun _ => ?_)
    · rename_i v5
      assumption
    · rename_i v6
      with_reducible apply Device.setTableEpoch_keeps
      assumption
  clear_value x2
  have h_x3 : Keeps a x3 := by
    unfold x3
    with_reducible apply Device.updPull_keeps
    assumption
  clear_value x3
  have h_x4 : Keeps a x4 := by
    unfold x4
    with_reducible apply Device.sendSource_keeps
    assumption
  clear_value x4
  with_reducible apply Device.perform_keeps
  with_reducible apply Device.updMeter_keeps
  assumption

theorem Device.gotRecord_keeps {a : Device} (p0 : Device) (p1 : Nat) (p2 : DroveMsg) (h0 : Keeps a p0) :
    Keeps a (Device.gotRecord p0 p1 p2) := by
  unfold Device.gotRecord
  split
  · rename_i v0 v1
    assumption
  · rename_i v2 v3 v4
    extract_lets +onlyGivenNames x5 x6 x7
    clear_value x5
    clear_value x6
    clear_value x7
    refine Keeps.ite (fun _ => ?_) (fun _ => ?_)
    · rename_i v8
      with_reducible apply Device.sendSource_keeps
      assumption
    · rename_i v9
      refine Keeps.ite (fun _ => ?_) (fun _ => ?_)
      · rename_i v10
        split
        · rename_i v11 v12
          with_reducible apply Device.writeCopy_keeps
          assumption
        · rename_i v13 v14 v15
          with_reducible apply Device.writeCopy_keeps
          with_reducible apply Device.record_keeps
          assumption
      · rename_i v16
        split
        · rename_i v17 v18
          with_reducible apply Device.sendSource_keeps
          with_reducible apply Device.updPull_keeps
          assumption
        · rename_i v19 v20 v21
          with_reducible apply Device.updPull_keeps
          with_reducible apply Device.perform_keeps
          assumption

theorem Device.endOffer_keeps {a : Device} (p0 : Device) (p1 : Nat) (h0 : Keeps a p0) :
    Keeps a (Device.endOffer p0 p1) := by
  unfold Device.endOffer
  split
  · rename_i v0 v1
    assumption
  · rename_i v2 v3 v4
    refine Keeps.ite (fun _ => ?_) (fun _ => ?_)
    · rename_i v5
      extract_lets +onlyGivenNames x6
      have h_x6 : Keeps a x6 := by
        unfold x6
        with_reducible apply Device.tellReceivers_keeps
        with_reducible apply Device.dropOffer_keeps
        assumption
      clear_value x6
      with_reducible apply Device.perform_keeps
      with_reducible apply Device.updMeter_keeps
      assumption
    · rename_i v7
      assumption

theorem Device.releaseSource_keeps {a : Device} (p0 : Device) (p1 : Nat) (p2 : Offer) (h0 : Keeps a p0) :
    Keeps a (Device.releaseSource p0 p1 p2) := by
  unfold Device.releaseSource
  extract_lets +onlyGivenNames x0 x1 x2 x3 x4 x5
  clear_value x0
  clear_value x1
  have h_x2 : Keeps a x2 := by
    unfold x2
    with_reducible apply Device.freeTable_keeps
    with_reducible apply Device.setHanding_keeps
    with_reducible apply Device.setRecState_keeps
    assumption
  clear_value x2
  clear_value x3
  have h_x4 : Keeps a x4 := by
    unfold x4
    with_reducible apply Device.mapService_keeps
    assumption
  clear_value x4
  have h_x5 : Keeps a x5 := by
    unfold x5
    refine Keeps.foldl (fun d6 x7 h8 => ?_) ?_
    · with_reducible apply Device.sendDrove_keeps
      assumption
    · assumption
  clear_value x5
  with_reducible apply Device.endOffer_keeps
  assumption

theorem Device.gotConfirm_keeps {a : Device} (p0 : Device) (p1 : Nat) (p2 : DroveMsg) (p3 : Nat) (h0 : Keeps a p0) :
    Keeps a (Device.gotConfirm p0 p1 p2 p3) := by
  unfold Device.gotConfirm
  extract_lets +onlyGivenNames x0 x1
  clear_value x0
  have h_x1 : Keeps a x1 := by
    unfold x1
    with_reducible apply Device.settleDeadline_keeps
    assumption
  clear_value x1
  split
  · rename_i v2 v3 v4 v5 v6 v7
    refine Keeps.ite (fun _ => ?_) (fun _ => ?_)
    · rename_i v8
      with_reducible apply Device.releaseSource_keeps
      assumption
    · rename_i v9
      assumption
  · rename_i v10 v11 v12
    split
    · rename_i v13 v14 v15
      refine Keeps.ite (fun _ => ?_) (fun _ => ?_)
      · rename_i v16
        with_reducible apply Device.answerDrove_keeps
        assumption
      · rename_i v17
        with_reducible apply Device.noOffer_keeps
        assumption
    · rename_i v18 v19
      with_reducible apply Device.noOffer_keeps
      assumption

theorem Device.releasePull_keeps {a : Device} (p0 : Device) (p1 : Pull) (h0 : Keeps a p0) :
    Keeps a (Device.releasePull p0 p1) := by
  unfold Device.releasePull
  extract_lets +onlyGivenNames x0
  have h_x0 : Keeps a x0 := by
    unfold x0
    with_reducible apply Device.dropPull_keeps
    assumption
  clear_value x0
  refine Keeps.ite (fun _ => ?_) (fun _ => ?_)
  · rename_i v1
    with_reducible apply Device.setTableEpoch_keeps
    assumption
  · rename_i v2
    refine Keeps.ite (fun _ => ?_) (fun _ => ?_)
    · rename_i v3
      with_reducible apply Device.resumeDroves_keeps
      with_reducible apply Device.updDrove_keeps
      with_reducible apply Device.setRecState_keeps
      assumption
    · rename_i v4
      assumption

theorem Device.gotReleased_keeps {a : Device} (p0 : Device) (p1 : Nat) (p2 : DroveMsg) (h0 : Keeps a p0) :
    Keeps a (Device.gotReleased p0 p1 p2) := by
  unfold Device.gotReleased
  refine Keeps.foldl (fun d0 x1 h2 => ?_) ?_
  · with_reducible apply Device.releasePull_keeps
    assumption
  · assumption

theorem Device.endPull_keeps {a : Device} (p0 : Device) (p1 : Pull) (p2 : Nat) (h0 : Keeps a p0) :
    Keeps a (Device.endPull p0 p1 p2) := by
  unfold Device.endPull
  extract_lets +onlyGivenNames x0
  have h_x0 : Keeps a x0 := by
    unfold x0
    with_reducible apply Device.resumeDroves_keeps
    with_reducible apply Device.discardPull_keeps
    assumption
  clear_value x0
  refine Keeps.ite (fun _ => ?_) (fun _ => ?_)
  · rename_i v1
    assumption
  · rename_i v2
    with_reducible apply Device.perform_keeps
    assumption

theorem Device.gotAbort_keeps {a : Device} (p0 : Device) (p1 : Nat) (p2 : DroveMsg) (h0 : Keeps a p0) :
    Keeps a (Device.gotAbort p0 p1 p2) := by
  unfold Device.gotAbort
  refine Keeps.foldl (fun d0 x1 h2 => ?_) ?_
  · with_reducible apply Device.endPull_keeps
    assumption
  · assumption

theorem Device.gotRefuse_keeps {a : Device} (p0 : Device) (p1 : Nat) (p2 : DroveMsg) (h0 : Keeps a p0) :
    Keeps a (Device.gotRefuse p0 p1 p2) := by
  unfold Device.gotRefuse
  refine Keeps.foldl (fun d0 x1 h2 => ?_) ?_
  · with_reducible apply Device.endPull_keeps
    assumption
  · assumption

theorem Device.keepAnswer_keeps {a : Device} (p0 : Device) (p1 : Conn) (p2 : DroveMsg) (p3 : Nat) (h0 : Keeps a p0) :
    Keeps a (Device.keepAnswer p0 p1 p2 p3) := by
  unfold Device.keepAnswer
  with_reducible apply Device.mapService_keeps
  assumption

theorem Device.gotRetag_keeps {a : Device} (p0 : Device) (p1 : Nat) (p2 : DroveMsg) (h0 : Keeps a p0) :
    Keeps a (Device.gotRetag p0 p1 p2) := by
  unfold Device.gotRetag
  split
  · rename_i v0 v1
    assumption
  · rename_i v2 v3 v4
    extract_lets +onlyGivenNames x5 x6
    clear_value x5
    have h_x6 : ∀ z0 z1, (Keeps a z0) → Keeps a (x6 z0 z1) := by
      unfold x6
      intro d7
      intro x8
      intro x9
      with_reducible apply Device.answerDrove_keeps
      assumption
    clear_value x6
    split
    · rename_i v10 v11 v12
      with_reducible apply h_x6
      assumption
    · rename_i v13 v14
      extract_lets +onlyGivenNames x15
      clear_value x15
      with_reducible apply h_x6
      with_reducible apply Device.keepAnswer_keeps
      refine Keeps.ite (fun _ => ?_) (fun _ => ?_)
      · rename_i v16
        with_reducible apply Device.setTableEpoch_keeps
        assumption
      · rename_i v17
        assumption

theorem Device.gotRetagDone_keeps {a : Device} (p0 : Device) (p1 : Nat) (p2 : DroveMsg) (h0 : Keeps a p0) :
    Keeps a (Device.gotRetagDone p0 p1 p2) := by
  unfold Device.gotRetagDone
  extract_lets +onlyGivenNames x0
  clear_value x0
  split
  · rename_i v1 v2
    assumption
  · rename_i v3 v4 v5
    with_reducible apply Device.endOffer_keeps
    with_reducible apply Device.mapService_keeps
    assumption

theorem Device.unpinNode_keeps {a : Device} (p0 : Device) (p1 : Nat) (p2 : Nat) (h0 : Keeps a p0) :
    Keeps a (Device.unpinNode p0 p1 p2) := by
  unfold Device.unpinNode
  split
  · rename_i v0 v1
    assumption
  · rename_i v2 v3 v4
    extract_lets +onlyGivenNames x5 x6
    clear_value x5
    clear_value x6
    refine Keeps.ite (fun _ => ?_) (fun _ => ?_)
    · rename_i v7
      assumption
    · rename_i v8
      with_reducible apply Device.storeLe_keeps
      assumption

theorem Device.gotReleasePages_keeps {a : Device} (p0 : Device) (p1 : Nat) (p2 : DroveMsg) (h0 : Keeps a p0) :
    Keeps a (Device.gotReleasePages p0 p1 p2) := by
  unfold Device.gotReleasePages
  split
  · rename_i v0 v1
    assumption
  · rename_i v2 v3 v4
    extract_lets +onlyGivenNames x5 x6
    clear_value x5
    have h_x6 : ∀ z0 z1, (Keeps a z0) → Keeps a (x6 z0 z1) := by
      unfold x6
      intro d7
      intro x8
      intro x9
      with_reducible apply Device.answerDrove_keeps
      assumption
    clear_value x6
    split
    · rename_i v10 v11 v12
      with_reducible apply h_x6
      assumption
    · rename_i v13 v14
      refine Keeps.ite (fun _ => ?_) (fun _ => ?_)
      · rename_i v15
        extract_lets +onlyGivenNames x16
        have h_x16 : Keeps a x16 := by
          unfold x16
          refine Keeps.ite (fun _ => ?_) (fun _ => ?_)
          · rename_i v17
            with_reducible apply Device.unpinNode_keeps
            assumption
          · rename_i v18
            assumption
        clear_value x16
        with_reducible apply h_x6
        with_reducible apply Device.keepAnswer_keeps
        with_reducible apply Device.freeTable_keeps
        assumption
      · rename_i v19
        with_reducible apply h_x6
        with_reducible apply Device.keepAnswer_keeps
        assumption

theorem Device.gotReleaseDone_keeps {a : Device} (p0 : Device) (p1 : Nat) (p2 : DroveMsg) (h0 : Keeps a p0) :
    Keeps a (Device.gotReleaseDone p0 p1 p2) := by
  unfold Device.gotReleaseDone
  extract_lets +onlyGivenNames x0
  clear_value x0
  split
  · rename_i v1 v2
    assumption
  · rename_i v3 v4 v5
    with_reducible apply Device.endRelease_keeps
    with_reducible apply Device.mapService_keeps
    assumption

theorem Device.droveEffect_keeps {a : Device} (p0 : Device) (p1 : Nat) (p2 : DroveMsg) (p3 : Nat) (h0 : Keeps a p0) :
    Keeps a (Device.droveEffect p0 p1 p2 p3) := by
  unfold Device.droveEffect
  split
  · rename_i v0 v1
    with_reducible apply Device.gotPullPages_keeps
    assumption
  · rename_i v2 v3
    with_reducible apply Device.gotPagesHeld_keeps
    assumption
  · rename_i v4 v5
    with_reducible apply Device.gotPullRecord_keeps
    assumption
  · rename_i v6 v7
    with_reducible apply Device.gotRecord_keeps
    assumption
  · rename_i v8 v9
    with_reducible apply Device.gotConfirm_keeps
    assumption
  · rename_i v10 v11
    with_reducible apply Device.gotReleased_keeps
    assumption
  · rename_i v12 v13
    with_reducible apply Device.gotAbort_keeps
    assumption
  · rename_i v14 v15
    with_reducible apply Device.gotRefuse_keeps
    assumption
  · rename_i v16 v17
    with_reducible apply Device.gotRetag_keeps
    assumption
  · rename_i v18 v19
    with_reducible apply Device.gotRetagDone_keeps
    assumption
  · rename_i v20 v21
    with_reducible apply Device.gotReleasePages_keeps
    assumption
  · rename_i v22 v23
    with_reducible apply Device.gotReleaseDone_keeps
    assumption
  · rename_i v24 v25 v26 v27 v28 v29 v30 v31 v32 v33 v34 v35 v36
    assumption

theorem Device.droveMessage_keeps {a : Device} (p0 : Device) (p1 : Nat) (p2 : DroveMsg) (p3 : Nat) (h0 : Keeps a p0) :
    Keeps a (Device.droveMessage p0 p1 p2 p3) := by
  unfold Device.droveMessage
  split
  · rename_i v0 v1
    assumption
  · rename_i v2 v3 v4
    refine Keeps.ite (fun _ => ?_) (fun _ => ?_)
    · rename_i v5
      with_reducible apply Device.droveEffect_keeps
      assumption
    · rename_i v6
      assumption

theorem Device.acceptPacket_keeps {a : Device} (p0 : Device) (p1 : Nat) (p2 : Conn) (p3 : Arrived) (p4 : Nat) (h0 : Keeps a p0) :
    Keeps a (Device.acceptPacket p0 p1 p2 p3 p4) := by
  unfold Device.acceptPacket
  extract_lets +onlyGivenNames x0 x1
  clear_value x0
  have h_x1 : Keeps a x1 := by
    unfold x1
    refine Keeps.ite (fun _ => ?_) (fun _ => ?_)
    · rename_i v2
      with_reducible apply Device.updExposure_keeps
      assumption
    · rename_i v3
      assumption
  clear_value x1
  split
  · rename_i v4 v5
    refine Keeps.ite (fun _ => ?_) (fun _ => ?_)
    · rename_i v6
      with_reducible apply Device.pageWrite_keeps
      assumption
    · rename_i v7
      with_reducible apply Device.queueWrite_keeps
      assumption
  · rename_i v8 v9
    with_reducible apply Device.takeSend_keeps
    assumption
  · rename_i v10 v11
    with_reducible apply Device.mgmtCommand_keeps
    assumption
  · rename_i v12 v13
    with_reducible apply Device.droveMessage_keeps
    assumption
  · rename_i v14 v15 v16 v17 v18
    with_reducible apply Device.updConn_keeps
    assumption

theorem Device.passTo_keeps {a : Device} (p0 : Device) (p1 : Nat) (h0 : Keeps a p0) :
    Keeps a (Device.passTo p0 p1) := by
  exact Device.passTo_keeps' h0

theorem Device.applySet_keeps {a : Device} (p0 : Device) (p1 : Nat) (p2 : StageSet) (h0 : Keeps a p0) :
    Keeps a (Device.applySet p0 p1 p2) := by
  unfold Device.applySet
  extract_lets +onlyGivenNames x0 x1 x2
  have h_x0 : Keeps a x0 := by
    unfold x0
    with_reducible apply Device.applyCommands_keeps
    assumption
  clear_value x0
  have h_x1 : Keeps a x1 := by
    unfold x1
    with_reducible apply Device.mapStaging_keeps
    assumption
  clear_value x1
  have h_x2 : Keeps a x2 := by
    unfold x2
    with_reducible apply Device.mapSecurity_keeps
    · assumption
    · exact fun _ => ⟨rfl, rfl⟩
  clear_value x2
  with_reducible apply Device.traced_keeps
  with_reducible apply Device.record_keeps
  assumption

theorem Device.applyDue_keeps {a : Device} (p0 : Nat) (p1 : Nat) (p2 : Device) (h2 : Keeps a p2) :
    Keeps a (Device.applyDue p0 p1 p2) := by
  induction p0 generalizing p1 p2
  · unfold Device.applyDue
    assumption
  · rename_i r0 r1
    unfold Device.applyDue
    split
    · rename_i v0 v1
      assumption
    · rename_i v2 v3 v4 v5
      refine Keeps.ite (fun _ => ?_) (fun _ => ?_)
      · rename_i v6
        with_reducible apply r1
        with_reducible apply Device.applySet_keeps
        with_reducible apply Device.passTo_keeps
        assumption
      · rename_i v7
        assumption

theorem Device.advanceTo_keeps {a : Device} (p0 : Device) (p1 : Nat) (h0 : Keeps a p0) :
    Keeps a (Device.advanceTo p0 p1) := by
  unfold Device.advanceTo
  refine Keeps.ite (fun _ => ?_) (fun _ => ?_)
  · rename_i v0
    with_reducible apply Device.passTo_keeps
    with_reducible apply Device.applyDue_keeps
    assumption
  · rename_i v1
    assumption

theorem Device.atInstant_keeps {a : Device} (p0 : Device) (p1 : Nat) (p2 : Device → Device) (h0 : Keeps a p0) (h2 : ∀ z0, (Keeps a z0) → Keeps a (p2 z0)) :
    Keeps a (Device.atInstant p0 p1 p2) := by
  unfold Device.atInstant
  extract_lets +onlyGivenNames x0
  have h_x0 : Keeps a x0 := by
    unfold x0
    with_reducible apply Device.advanceTo_keeps
    assumption
  clear_value x0
  refine Keeps.ite (fun _ => ?_) (fun _ => ?_)
  · rename_i v1
    with_reducible apply h2
    assumption
  · rename_i v2
    assumption

theorem Device.sendAck_keeps {a : Device} (p0 : Device) (p1 : Nat) (p2 : Nat) (p3 : Nat) (p4 : Int) (h0 : Keeps a p0) :
    Keeps a (Device.sendAck p0 p1 p2 p3 p4) := by
  unfold Device.sendAck
  split
  · rename_i v0 v1
    assumption
  · rename_i v2 v3 v4
    extract_lets +onlyGivenNames x5
    clear_value x5
    with_reducible apply Device.sendOn_keeps
    with_reducible apply Device.updConn_keeps
    assumption

theorem Device.ackDue_keeps {a : Device} (p0 : Device) (p1 : Nat) (h0 : Keeps a p0) :
    Keeps a (Device.ackDue p0 p1) := by
  unfold Device.ackDue
  split
  · rename_i v0 v1
    assumption
  · rename_i v2 v3 v4
    split
    · rename_i v5 v6
      assumption
    · rename_i v7 v8 v9
      with_reducible apply Device.atInstant_keeps
      · assumption
      · intro d10
        intro x11
        with_reducible apply Device.sendAck_keeps
        assumption

theorem Device.addNode_keeps {a : Device} (p0 : Device) (p1 : Nat) (p2 : PrefixTree) (p3 : Nat) (p4 : Nat) (p5 : Nat) (p6 : Nat) (p7 : Option Nat) (h0 : Keeps a p0) :
    Keeps a (Device.addNode p0 p1 p2 p3 p4 p5 p6 p7) := by
  unfold Device.addNode
  extract_lets +onlyGivenNames x0 x1
  have h_x0 : Keeps a x0 := by
    unfold x0
    with_reducible apply Device.store_keeps
    assumption
  clear_value x0
  have h_x1 : Keeps a x1 := by
    unfold x1
    split
    · rename_i v2 v3 v4
      with_reducible apply Device.storeLe_keeps
      assumption
    · rename_i v5 v6
      assumption
  clear_value x1
  split
  · rename_i v7 v8
    with_reducible apply Device.storeLe_keeps
    assumption
  · rename_i v9
    assumption

theorem Device.popSet_keeps {a : Device} (p0 : Device) (p1 : Nat) (p2 : Nat) (h0 : Keeps a p0) :
    ∀ y, (Device.popSet p0 p1 p2) = some y → Keeps a y.2 := by
  intro y h
  unfold Device.popSet at h
  dsimp only at h
  split at h
  · cases h
  · injection h with h
    subst h
    exact Device.setCount_keeps _ _ _ _ h0

theorem Device.addSets_keeps {a : Device} (p0 : Nat) (p1 : Nat) (p2 : Nat) (p3 : Nat) (p4 : Nat) (p5 : Nat) (p6 : List Nat) (p7 : Device) (h7 : Keeps a p7) :
    Keeps a (Device.addSets p0 p1 p2 p3 p4 p5 p6 p7).1 := by
  induction p4 generalizing p5 p6 p7 with
  | zero => exact h7
  | succ n ih =>
    unfold Device.addSets
    split
    · exact h7
    · dsimp only
      split
      · exact h7
      · split
        · exact h7
        · rename_i r hr
          exact ih _ _ _ (Device.storeLe_keeps _ _ _ _ (Device.store_keeps _ _ (Device.popSet_keeps _ _ _ h7 _ hr)))

theorem Device.unhold_keeps {a : Device} (p0 : Device) (p1 : Nat) (h0 : Keeps a p0) :
    Keeps a (Device.unhold p0 p1) := by
  unfold Device.unhold
  split
  · rename_i v0 v1
    assumption
  · rename_i v2 v3 v4 v5
    refine Keeps.foldl (fun d6 x7 h8 => ?_) ?_
    · refine Keeps.ite (fun _ => ?_) (fun _ => ?_)
      · rename_i v9
        with_reducible apply Device.updThread_keeps
        assumption
      · rename_i v10
        assumption
    · assumption

theorem Device.unholdAll_keeps {a : Device} (p0 : Device) (p1 : Nat) (h0 : Keeps a p0) :
    Keeps a (Device.unholdAll p0 p1) := by
  unfold Device.unholdAll
  split
  · rename_i v0 v1
    assumption
  · rename_i v2 v3 v4
    refine Keeps.ite (fun _ => ?_) (fun _ => ?_)
    · rename_i v5
      refine Keeps.foldl (fun d6 x7 h8 => ?_) ?_
      · with_reducible apply Device.unhold_keeps
        assumption
      · assumption
    · rename_i v9
      assumption

theorem Device.sendRead_keeps {a : Device} (p0 : Device) (p1 : Nat) (p2 : Nat) (p3 : Nat) (p4 : List Byte) (h0 : Keeps a p0) :
    Keeps a (Device.sendRead p0 p1 p2 p3 p4) := by
  unfold Device.sendRead
  refine Keeps.foldl (fun d0 x1 h2 => ?_) ?_
  · with_reducible apply Device.sendOn_keeps
    assumption
  · assumption

theorem Device.answerPage_keeps {a : Device} (p0 : Device) (p1 : Nat) (p2 : Nat) (p3 : Frame) (h0 : Keeps a p0) :
    Keeps a (Device.answerPage p0 p1 p2 p3) := by
  unfold Device.answerPage
  with_reducible apply Device.sendRead_keeps
  assumption

theorem Device.runHeld_keeps {a : Device} (p0 : Device) (p1 : Nat) (p2 : Conn) (p3 : HeldPacket) (h0 : Keeps a p0) :
    Keeps a (Device.runHeld p0 p1 p2 p3) := by
  unfold Device.runHeld
  extract_lets +onlyGivenNames x0 x1
  clear_value x0
  clear_value x1
  refine Keeps.ite (fun _ => ?_) (fun _ => ?_)
  · rename_i v2
    with_reducible apply Device.queueWrite_keeps
    with_reducible apply Device.rxArrived_keeps
    assumption
  · rename_i v3
    refine Keeps.ite (fun _ => ?_) (fun _ => ?_)
    · rename_i v4
      with_reducible apply Device.answerPage_keeps
      with_reducible apply Device.rxArrived_keeps
      assumption
    · rename_i v5
      with_reducible apply Device.sendThrough_keeps
      · with_reducible apply Device.rxWaits_keeps
        assumption
      · intro d6
        intro x7
        with_reducible apply Device.accessDone_keeps
        with_reducible apply Device.refusePsn_keeps
        assumption

theorem Device.ringMessage_keeps {a : Device} (p0 : Device) (p1 : Conn) (p2 : Nat) (p3 : Nat) (p4 : Nat) (h0 : Keeps a p0) :
    Keeps a (Device.ringMessage p0 p1 p2 p3 p4) := by
  unfold Device.ringMessage
  refine Keeps.ite (fun _ => ?_) (fun _ => ?_)
  · rename_i v0
    assumption
  · rename_i v1
    refine Keeps.ite (fun _ => ?_) (fun _ => ?_)
    · rename_i v2
      with_reducible apply Device.perform_keeps
      assumption
    · rename_i v3
      with_reducible apply Device.ringThrough_keeps
      assumption

theorem Device.passPsn_keeps {a : Device} (p0 : Device) (p1 : Nat) (p2 : Conn) (h0 : Keeps a p0) :
    Keeps a (Device.passPsn p0 p1 p2) := by
  unfold Device.passPsn
  extract_lets +onlyGivenNames x0 x1
  clear_value x0
  have h_x1 : Keeps a x1 := by
    unfold x1
    with_reducible apply Device.updConn_keeps
    assumption
  clear_value x1
  split
  · rename_i v2 v3
    assumption
  · rename_i v4 v5 v6
    extract_lets +onlyGivenNames x7 x8
    clear_value x7
    have h_x8 : Keeps a x8 := by
      unfold x8
      with_reducible apply Device.updConn_keeps
      assumption
    clear_value x8
    refine Keeps.ite (fun _ => ?_) (fun _ => ?_)
    · rename_i v9
      with_reducible apply Device.ringMessage_keeps
      assumption
    · rename_i v10
      assumption

theorem Device.progressRx_keeps {a : Device} (p0 : Nat) (p1 : Nat) (p2 : Device) (h2 : Keeps a p2) :
    Keeps a (Device.progressRx p0 p1 p2) := by
  induction p1 generalizing p0 p2
  · unfold Device.progressRx
    assumption
  · rename_i r0 r1
    unfold Device.progressRx
    split
    · rename_i v0 v1
      assumption
    · rename_i v2 v3 v4
      refine Keeps.ite (fun _ => ?_) (fun _ => ?_)
      · rename_i v5
        split
        · rename_i v6 v7 v8
          with_reducible apply r1
          with_reducible apply Device.runHeld_keeps
          assumption
        · rename_i v9 v10
          with_reducible apply r1
          with_reducible apply Device.passPsn_keeps
          assumption
      · rename_i v11
        assumption

theorem Device.streamPlaced_keeps {a : Device} (p0 : Device) (p1 : Nat) (h0 : Keeps a p0) :
    Keeps a (Device.streamPlaced p0 p1) := by
  unfold Device.streamPlaced
  extract_lets +onlyGivenNames x0 x1 x2 x3
  clear_value x0
  have h_x1 : Keeps a x1 := by
    unfold x1
    with_reducible apply Device.progressRx_keeps
    assumption
  clear_value x1
  clear_value x2
  have h_x3 : Keeps a x3 := by
    unfold x3
    refine Keeps.ite (fun _ => ?_) (fun _ => ?_)
    · rename_i v4
      with_reducible apply Device.updConn_keeps
      assumption
    · rename_i v5
      assumption
  clear_value x3
  with_reducible apply Device.closeIfDrained_keeps
  assumption

theorem Device.refuseRequest_keeps {a : Device} (p0 : Device) (p1 : Nat) (p2 : Nat) (p3 : Nat) (h0 : Keeps a p0) :
    Keeps a (Device.refuseRequest p0 p1 p2 p3) := by
  unfold Device.refuseRequest
  split
  · rename_i v0 v1
    assumption
  · rename_i v2 v3 v4
    with_reducible apply Device.accessDone_keeps
    with_reducible apply Device.refusePsn_keeps
    assumption

theorem Device.answerDone_keeps {a : Device} (p0 : Device) (p1 : Option Nat) (h0 : Keeps a p0) :
    Keeps a (Device.answerDone p0 p1) := by
  unfold Device.answerDone
  split
  · rename_i v0
    assumption
  · rename_i v1 v2
    with_reducible apply Device.accessDone_keeps
    assumption

theorem Device.descEnds_keeps {a : Device} (p0 : Device) (p1 : Nat) (p2 : Nat) (p3 : Nat) (p4 : Nat) (h0 : Keeps a p0) :
    Keeps a (Device.descEnds p0 p1 p2 p3 p4) := by
  unfold Device.descEnds
  split
  · rename_i v0 v1
    assumption
  · rename_i v2 v3 v4
    with_reducible apply Device.perform_keeps
    assumption

theorem Device.updInFlight_keeps {a : Device} (p0 : Device) (p1 : Nat) (p2 : Nat) (p3 : InFlight → InFlight) (h0 : Keeps a p0) :
    Keeps a (Device.updInFlight p0 p1 p2 p3) := by
  unfold Device.updInFlight
  with_reducible apply Device.updRing_keeps
  assumption

theorem Device.partDone_keeps {a : Device} (p0 : Device) (p1 : Nat) (p2 : Nat) (p3 : Nat) (p4 : Nat) (p5 : Nat) (h0 : Keeps a p0) :
    Keeps a (Device.partDone p0 p1 p2 p3 p4 p5) := by
  unfold Device.partDone
  split
  · rename_i v0 v1
    assumption
  · rename_i v2 v3 v4
    extract_lets +onlyGivenNames x5 x6
    clear_value x5
    clear_value x6
    refine Keeps.ite (fun _ => ?_) (fun _ => ?_)
    · rename_i v7
      refine Keeps.ite (fun _ => ?_) (fun _ => ?_)
      · rename_i v8
        with_reducible apply Device.perform_keeps
        assumption
      · rename_i v9
        with_reducible apply Device.perform_keeps
        assumption
    · rename_i v10
      with_reducible apply Device.updInFlight_keeps
      assumption

theorem Device.mapRemote_keeps {a : Device} (p0 : Device) (p1 : List RemoteAccess → List RemoteAccess) (h0 : Keeps a p0) :
    Keeps a (Device.mapRemote p0 p1) := by
  unfold Device.mapRemote
  with_reducible apply Device.mapFabric_keeps
  assumption

theorem Device.dropRemote_keeps {a : Device} (p0 : Device) (p1 : Nat) (h0 : Keeps a p0) :
    Keeps a (Device.dropRemote p0 p1) := by
  unfold Device.dropRemote
  with_reducible apply Device.mapRemote_keeps
  assumption

theorem Device.resumeThread_keeps {a : Device} (p0 : Device) (p1 : Nat) (p2 : Nat) (p3 : Thread → Thread) (h0 : Keeps a p0) :
    Keeps a (Device.resumeThread p0 p1 p2 p3) := by
  unfold Device.resumeThread
  extract_lets +onlyGivenNames x0
  clear_value x0
  with_reducible apply Device.updThread_keeps
  assumption

theorem Device.requestLeft_keeps {a : Device} (p0 : Device) (p1 : RemoteAccess) (h0 : Keeps a p0) :
    Keeps a (Device.requestLeft p0 p1) := by
  unfold Device.requestLeft
  extract_lets +onlyGivenNames x0
  have h_x0 : Keeps a x0 := by
    unfold x0
    with_reducible apply Device.mapRemote_keeps
    assumption
  clear_value x0
  refine Keeps.ite (fun _ => ?_) (fun _ => ?_)
  · rename_i v1
    assumption
  · rename_i v2
    with_reducible apply Device.resumeThread_keeps
    assumption

theorem Device.stir_keeps {a : Device} (p0 : Device) (p1 : Nat) (h0 : Keeps a p0) :
    Keeps a (Device.stir p0 p1) := by
  unfold Device.stir
  with_reducible apply Device.updBlock_keeps
  assumption

theorem Device.ringOwn_keeps {a : Device} (p0 : Device) (p1 : RemoteAccess) (h0 : Keeps a p0) :
    Keeps a (Device.ringOwn p0 p1) := by
  unfold Device.ringOwn
  split
  · rename_i v0 v1
    assumption
  · rename_i v2 v3 v4
    with_reducible apply Device.perform_keeps
    assumption

theorem Device.signals_keeps {a : Device} (p0 : Device) (p1 : Nat) (p2 : Nat) (p3 : Nat) (p4 : Nat) (h0 : Keeps a p0) :
    Keeps a (Device.signals p0 p1 p2 p3 p4) := by
  unfold Device.signals
  refine Keeps.ite (fun _ => ?_) (fun _ => ?_)
  · rename_i v0
    extract_lets +onlyGivenNames x1
    clear_value x1
    with_reducible apply Device.setBell_keeps
    assumption
  · rename_i v2
    assumption

theorem Device.undefineBuffer_keeps {a : Device} (p0 : Device) (p1 : Nat) (p2 : Nat) (h0 : Keeps a p0) :
    Keeps a (Device.undefineBuffer p0 p1 p2) := by
  unfold Device.undefineBuffer
  extract_lets +onlyGivenNames x0 x1
  clear_value x0
  have h_x1 : Keeps a x1 := by
    unfold x1
    with_reducible apply Device.store_keeps
    assumption
  clear_value x1
  refine Keeps.congr (d := x1) ?_ rfl rfl rfl rfl rfl rfl rfl
  assumption

theorem Device.remoteEffect_keeps {a : Device} (p0 : Device) (p1 : RemoteAccess) (p2 : RemoteEnd) (h0 : Keeps a p0) :
    Keeps a (Device.remoteEffect p0 p1 p2) := by
  unfold Device.remoteEffect
  extract_lets +onlyGivenNames x0
  clear_value x0
  split
  · rename_i v1 v2 v3 v4
    refine Keeps.ite (fun _ => ?_) (fun _ => ?_)
    · rename_i v5
      with_reducible apply Device.resumeThread_keeps
      assumption
    · rename_i v6
      assumption
  · rename_i v7 v8 v9 v10
    refine Keeps.ite (fun _ => ?_) (fun _ => ?_)
    · rename_i v11
      with_reducible apply Device.resumeThread_keeps
      assumption
    · rename_i v12
      assumption
  · rename_i v13 v14 v15 v16
    refine Keeps.ite (fun _ => ?_) (fun _ => ?_)
    · rename_i v17
      extract_lets +onlyGivenNames x18
      have h_x18 : Keeps a x18 := by
        unfold x18
        with_reducible apply Device.store_keeps
        assumption
      clear_value x18
      with_reducible apply Device.ringOwn_keeps
      split
      · rename_i v19 v20
        assumption
      · rename_i v21 v22 v23
        with_reducible apply Device.signals_keeps
        assumption
    · rename_i v24
      with_reducible apply Device.ringOwn_keeps
      assumption
  · rename_i v25 v26 v27
    refine Keeps.ite (fun _ => ?_) (fun _ => ?_)
    · rename_i v28
      with_reducible apply Device.undefineBuffer_keeps
      assumption
    · rename_i v29
      assumption
  · rename_i v30 v31 v32
    refine Keeps.ite (fun _ => ?_) (fun _ => ?_)
    · rename_i v33
      with_reducible apply Device.undefineBuffer_keeps
      assumption
    · rename_i v34
      assumption
  · rename_i v35 v36 v37 v38
    with_reducible apply Device.ringOwn_keeps
    assumption
  · rename_i v39 v40 v41 v42 v43 v44 v45 v46 v47
    assumption

theorem Device.endRemote_keeps {a : Device} (p0 : Device) (p1 : Nat) (p2 : RemoteEnd) (h0 : Keeps a p0) :
    Keeps a (Device.endRemote p0 p1 p2) := by
  unfold Device.endRemote
  split
  · rename_i v0 v1
    assumption
  · rename_i v2 v3 v4
    refine Keeps.ite (fun _ => ?_) (fun _ => ?_)
    · rename_i v5
      with_reducible apply Device.dropRemote_keeps
      assumption
    · rename_i v6
      extract_lets +onlyGivenNames x7 x8 x9
      have h_x7 : Keeps a x7 := by
        unfold x7
        refine Keeps.ite (fun _ => ?_) (fun _ => ?_)
        · rename_i v10
          assumption
        · rename_i v11
          with_reducible apply Device.requestLeft_keeps
          assumption
      clear_value x7
      have h_x8 : Keeps a x8 := by
        unfold x8
        refine Keeps.ite (fun _ => ?_) (fun _ => ?_)
        · rename_i v12
          with_reducible apply Device.mapRemote_keeps
          assumption
        · rename_i v13
          with_reducible apply Device.dropRemote_keeps
          assumption
      clear_value x8
      have h_x9 : Keeps a x9 := by
        unfold x9
        split
        · rename_i v14 v15 v16
          with_reducible apply Device.record_keeps
          assumption
        · rename_i v17 v18
          assumption
      clear_value x9
      with_reducible apply Device.stir_keeps
      with_reducible apply Device.unhold_keeps
      with_reducible apply Device.remoteEffect_keeps
      assumption

theorem Device.indirectFails_keeps {a : Device} (p0 : Device) (p1 : Nat) (h0 : Keeps a p0) :
    Keeps a (Device.indirectFails p0 p1) := by
  unfold Device.indirectFails
  extract_lets +onlyGivenNames x0
  clear_value x0
  split
  · rename_i v1 v2
    assumption
  · rename_i v3 v4 v5
    with_reducible apply Device.respond_keeps
    assumption

theorem Device.packetRefused_keeps {a : Device} (p0 : Device) (p1 : Nat) (p2 : TxPacket) (p3 : Nat) (h0 : Keeps a p0) :
    Keeps a (Device.packetRefused p0 p1 p2 p3) := by
  unfold Device.packetRefused
  split
  · rename_i v0 v1 v2 v3
    refine Keeps.ite (fun _ => ?_) (fun _ => ?_)
    · rename_i v4
      with_reducible apply Device.descEnds_keeps
      assumption
    · rename_i v5
      with_reducible apply Device.partDone_keeps
      assumption
  · rename_i v6 v7 v8
    with_reducible apply Device.endRemote_keeps
    assumption
  · rename_i v9 v10 v11 v12
    with_reducible apply Device.pageRefused_keeps
    assumption
  · rename_i v13 v14 v15
    with_reducible apply Device.indirectFails_keeps
    assumption
  · rename_i v16 v17
    assumption

theorem Device.refuseMove_keeps {a : Device} (p0 : Device) (p1 : Nat) (p2 : Nat) (h0 : Keeps a p0) :
    Keeps a (Device.refuseMove p0 p1 p2) := by
  unfold Device.refuseMove
  with_reducible apply Device.perform_keeps
  assumption

theorem Device.refuseDelivery_keeps {a : Device} (p0 : Device) (p1 : WinDelivery) (h0 : Keeps a p0) :
    Keeps a (Device.refuseDelivery p0 p1) := by
  unfold Device.refuseDelivery
  split
  · rename_i v0 v1 v2 v3 v4 v5
    with_reducible apply Device.streamPlaced_keeps
    with_reducible apply Device.refuseWrite_keeps
    assumption
  · rename_i v6 v7 v8 v9
    with_reducible apply Device.streamPlaced_keeps
    with_reducible apply Device.refuseRequest_keeps
    assumption
  · rename_i v10 v11 v12 v13 v14
    with_reducible apply Device.sendOn_keeps
    assumption
  · rename_i v15 v16 v17 v18 v19 v20 v21 v22
    with_reducible apply Device.streamPlaced_keeps
    with_reducible apply Device.refuseSend_keeps
    assumption
  · rename_i v23 v24 v25 v26 v27 v28 v29 v30
    with_reducible apply Device.answerDone_keeps
    with_reducible apply Device.sendOn_keeps
    assumption
  · rename_i v31 v32 v33 v34
    with_reducible apply Device.packetRefused_keeps
    assumption
  · rename_i v35 v36 v37 v38
    with_reducible apply Device.descEnds_keeps
    assumption
  · rename_i v39 v40 v41 v42 v43
    with_reducible apply Device.refuseMove_keeps
    assumption
  · rename_i v44 v45 v46
    with_reducible apply Device.endRemote_keeps
    assumption
  · rename_i v47 v48 v49 v50
    with_reducible apply Device.accessDone_keeps
    with_reducible apply Device.endRemote_keeps
    assumption
  · rename_i v51 v52 v53
    with_reducible apply Device.endRemote_keeps
    assumption
  · rename_i v54 v55 v56
    with_reducible apply Device.endRemote_keeps
    assumption
  · rename_i v57 v58 v59
    with_reducible apply Device.emit_keeps
    assumption
  · rename_i v60 v61 v62 v63 v64
    with_reducible apply Device.emit_keeps
    assumption
  · rename_i v65 v66 v67 v68 v69 v70
    assumption

theorem Device.refuseStranded_keeps {a : Device} (p0 : Device) (h0 : Keeps a p0) :
    Keeps a (Device.refuseStranded p0) := by
  unfold Device.refuseStranded
  extract_lets +onlyGivenNames x0 x1 x2
  clear_value x0
  clear_value x1
  have h_x2 : Keeps a x2 := by
    unfold x2
    with_reducible apply Device.mapNet_keeps
    assumption
  clear_value x2
  refine Keeps.foldl (fun d3 x4 h5 => ?_) ?_
  · with_reducible apply Device.refuseDelivery_keeps
    assumption
  · assumption

theorem Device.stileGoesDown_keeps {a : Device} (p0 : Device) (p1 : Nat) (p2 : Report) (h0 : Keeps a p0) :
    Keeps a (Device.stileGoesDown p0 p1 p2) := by
  unfold Device.stileGoesDown
  extract_lets +onlyGivenNames x0 x1
  have h_x0 : Keeps a x0 := by
    unfold x0
    with_reducible apply Device.mapFaults_keeps
    · assumption
    · exact fun _ => ⟨rfl, rfl⟩
  clear_value x0
  clear_value x1
  refine Keeps.foldl (fun d2 x3 h4 => ?_) ?_
  · with_reducible apply Device.strike_keeps
    assumption
  · with_reducible apply Device.refuseStranded_keeps
    with_reducible apply Device.record_keeps
    assumption

theorem Device.stileReplay_keeps {a : Device} (p0 : Device) (p1 : Nat) (p2 : Bool) (p3 : Bool) (h0 : Keeps a p0) :
    Keeps a (Device.stileReplay p0 p1 p2 p3) := by
  unfold Device.stileReplay
  extract_lets +onlyGivenNames x0 x1
  have h_x0 : Keeps a x0 := by
    unfold x0
    with_reducible apply Device.mapFaults_keeps
    · assumption
    · exact fun _ => ⟨rfl, rfl⟩
  clear_value x0
  clear_value x1
  refine Keeps.ite (fun _ => ?_) (fun _ => ?_)
  · rename_i v2
    with_reducible apply Device.record_keeps
    assumption
  · rename_i v3
    with_reducible apply Device.stileGoesDown_keeps
    assumption

theorem Device.crossStiles_keeps {a : Device} (p0 : Device) (p1 : Nat) (p2 : Win) (h0 : Keeps a p0) :
    Keeps a (Device.crossStiles p0 p1 p2).1 := by
  unfold Device.crossStiles
  split
  · rename_i v0 v1
    assumption
  · rename_i v2 v3 v4 v5
    dsimp only
    with_reducible apply Device.stileReplay_keeps
    with_reducible apply Device.mapFaults_keeps
    · assumption
    · exact fun _ => ⟨rfl, rfl⟩

theorem Device.baleTo_keeps {a : Device} (p0 : Device) (p1 : Nat) (p2 : Binding) (p3 : Nat) (p4 : List Byte) (h0 : Keeps a p0) :
    ∀ y, (Device.baleTo p0 p1 p2 p3 p4) = some y → Keeps a y := by
  intro y h
  unfold Device.baleTo at h
  extract_lets held free slot at h
  clear_value held slot
  have hfree : ∀ z, Keeps a z → Keeps a (free z) := by
    intro z hz
    unfold free
    split
    · exact Device.setSpillBit_keeps _ _ _ _ hz
    · exact hz
  split at h
  · injection h with h
    subst h
    exact hfree _ (Device.store_keeps _ _ h0)
  · split at h
    · injection h with h
      subst h
      exact hfree _ (Device.store_keeps _ _ h0)
    · split at h
      · exact absurd h.symm (Option.some_ne_none _)
      · injection h with h
        subst h
        exact Device.store_keeps _ _ (Device.store_keeps _ _ (Device.setSpillBit_keeps _ _ _ _ h0))

theorem Device.pullArrived_keeps {a : Device} (p0 : Device) (p1 : Pull) (h0 : Keeps a p0) :
    Keeps a (Device.pullArrived p0 p1) := by
  unfold Device.pullArrived
  extract_lets +onlyGivenNames x0 x1 x2
  clear_value x0
  have h_x1 : ∀ z0 z1, (Keeps a z0) → Keeps a (x1 z0 z1) := by
    unfold x1
    intro d3
    intro x4
    intro x5
    with_reducible apply Device.perform_keeps
    with_reducible apply Device.mapService_keeps
    assumption
  clear_value x1
  have h_x2 : ∀ z0, Keeps a (x2 z0) := by
    unfold x2
    intro x6
    with_reducible apply Device.sendSource_keeps
    assumption
  clear_value x2
  refine Keeps.ite (fun _ => ?_) (fun _ => ?_)
  · rename_i v7
    simp_all only
  · rename_i v8
    refine Keeps.ite (fun _ => ?_) (fun _ => ?_)
    · rename_i v9
      with_reducible apply h_x1
      simp_all only
    · rename_i v10
      with_reducible apply h_x1
      assumption

theorem Device.placePage_keeps {a : Device} (p0 : Device) (p1 : Pull) (p2 : Nat) (p3 : List Byte) (h0 : Keeps a p0) :
    Keeps a (Device.placePage p0 p1 p2 p3) := by
  unfold Device.placePage
  extract_lets source summary placed left d1
  clear_value source summary
  have h1 : Keeps a placed.1 := by
    unfold placed
    split
    · exact Device.store_keeps _ _ h0
    · split
      · exact Device.store_keeps _ _ h0
      · split
        · split
          · rename_i d2 hd
            exact Device.baleTo_keeps _ _ _ _ _ h0 _ hd
          · exact Device.strike_keeps _ _ _ h0
        · exact Device.store_keeps _ _ h0
  clear_value placed
  have h2 : Keeps a d1 := Device.updMeter_keeps _ _ _ (Device.updPull_keeps _ _ _ h1)
  clear_value d1
  split
  · split
    · exact Device.pullArrived_keeps _ _ h2
    · exact h2
  · exact h1

theorem Device.placeData_keeps {a : Device} (p0 : Device) (p1 : Nat) (p2 : Nat) (p3 : Nat) (p4 : Nat) (p5 : List Byte) (h0 : Keeps a p0) :
    Keeps a (Device.placeData p0 p1 p2 p3 p4 p5) := by
  unfold Device.placeData
  split
  · rename_i v0 v1 v2
    with_reducible apply Device.placePage_keeps
    assumption
  · rename_i v3 v4
    with_reducible apply Device.signals_keeps
    with_reducible apply Device.store_keeps
    assumption

theorem Device.answerThrough_keeps {a : Device} (p0 : Device) (p1 : Nat) (p2 : Nat) (p3 : Conn) (p4 : Nat) (p5 : Nat) (p6 : Nat) (p7 : Nat) (p8 : Nat) (p9 : Option Nat) (p10 : List Byte) (h0 : Keeps a p0) :
    Keeps a (Device.answerThrough p0 p1 p2 p3 p4 p5 p6 p7 p8 p9 p10) := by
  unfold Device.answerThrough
  with_reducible apply Device.sendThrough_keeps
  · assumption
  · intro d0
    intro x1
    with_reducible apply Device.answerDone_keeps
    with_reducible apply Device.sendOn_keeps
    assumption

theorem Device.runRead_keeps {a : Device} (p0 : Device) (p1 : Nat) (p2 : Nat) (p3 : Conn) (p4 : Nat) (p5 : Nat) (p6 : Nat) (p7 : Nat) (p8 : Option Nat) (h0 : Keeps a p0) :
    Keeps a (Device.runRead p0 p1 p2 p3 p4 p5 p6 p7 p8) := by
  unfold Device.runRead
  extract_lets +onlyGivenNames x0
  have h_x0 : Keeps a x0.1 := by
    unfold x0
    with_reducible apply Device.checkedRead_keeps
    assumption
  clear_value x0
  split
  · rename_i v1 v2 v3
    with_reducible apply Device.answerDone_keeps
    with_reducible apply Device.sendOn_keeps
    with_reducible apply Device.strike_keeps
    assumption
  · rename_i v4 v5
    refine Keeps.foldl (fun d6 x7 h8 => ?_) ?_
    · with_reducible apply Device.answerThrough_keeps
      assumption
    · assumption

theorem Device.doAtomic_keeps {a : Device} (p0 : Device) (p1 : Nat) (p2 : Nat) (p3 : Nat) (p4 : Nat) (p5 : Word) (p6 : Word) (h0 : Keeps a p0) :
    Keeps a (Device.doAtomic p0 p1 p2 p3 p4 p5 p6).1 := by
  unfold Device.doAtomic
  extract_lets +onlyGivenNames x0
  have h_x0 : Keeps a x0.1 := by
    unfold x0
    with_reducible apply Device.checkedRead_keeps
    assumption
  clear_value x0
  split
  · rename_i v1 v2 v3
    dsimp only
    with_reducible apply Device.strike_keeps
    assumption
  · rename_i v4 v5
    extract_lets +onlyGivenNames x6
    clear_value x6
    dsimp only
    with_reducible apply Device.storeLe_keeps
    assumption

theorem Device.sendAtomic_keeps {a : Device} (p0 : Device) (p1 : Nat) (p2 : Nat) (p3 : Nat) (p4 : Nat) (p5 : Nat) (h0 : Keeps a p0) :
    Keeps a (Device.sendAtomic p0 p1 p2 p3 p4 p5) := by
  unfold Device.sendAtomic
  with_reducible apply Device.sendOn_keeps
  assumption

theorem Device.runAtomic_keeps {a : Device} (p0 : Device) (p1 : Nat) (p2 : Nat) (p3 : Conn) (p4 : Nat) (p5 : Frame) (p6 : Option Nat) (h0 : Keeps a p0) :
    Keeps a (Device.runAtomic p0 p1 p2 p3 p4 p5 p6) := by
  unfold Device.runAtomic
  extract_lets +onlyGivenNames x0 x1 x2
  clear_value x0
  have h_x1 : Keeps a x1.1 := by
    unfold x1
    with_reducible apply Device.doAtomic_keeps
    assumption
  clear_value x1
  have h_x2 : ∀ z0 z1, Keeps a (x2 z0 z1) := by
    unfold x2
    intro x3
    intro x4
    with_reducible apply Device.updConn_keeps
    assumption
  clear_value x2
  split
  · rename_i v5 v6
    with_reducible apply Device.answerDone_keeps
    with_reducible apply Device.sendAtomic_keeps
    simp_all only
  · rename_i v7 v8 v9
    with_reducible apply Device.answerThrough_keeps
    simp_all only

theorem Device.requestLands_keeps {a : Device} (p0 : Device) (p1 : Nat) (p2 : Nat) (p3 : Nat) (h0 : Keeps a p0) :
    Keeps a (Device.requestLands p0 p1 p2 p3) := by
  unfold Device.requestLands
  split
  · rename_i v0 v1
    assumption
  · rename_i v2 v3 v4
    extract_lets +onlyGivenNames x5
    have h_x5 : Keeps a x5 := by
      unfold x5
      with_reducible apply Device.rxArrived_keeps
      assumption
    clear_value x5
    split
    · rename_i v6 v7
      with_reducible apply Device.streamPlaced_keeps
      assumption
    · rename_i v8 v9 v10
      extract_lets +onlyGivenNames x11 x12
      clear_value x11
      have h_x12 : Keeps a x12 := by
        unfold x12
        refine Keeps.ite (fun _ => ?_) (fun _ => ?_)
        · rename_i v13
          with_reducible apply Device.runRead_keeps
          assumption
        · rename_i v14
          with_reducible apply Device.runAtomic_keeps
          assumption
      clear_value x12
      with_reducible apply Device.streamPlaced_keeps
      assumption

theorem Device.sendLands_keeps {a : Device} (p0 : Device) (p1 : Nat) (p2 : Nat) (p3 : Nat) (p4 : Nat) (p5 : Nat) (p6 : List Byte) (h0 : Keeps a p0) :
    Keeps a (Device.sendLands p0 p1 p2 p3 p4 p5 p6) := by
  unfold Device.sendLands
  with_reducible apply Device.streamPlaced_keeps
  with_reducible apply Device.perform_keeps
  with_reducible apply Device.rxArrived_keeps
  with_reducible apply Device.store_keeps
  assumption

theorem Device.packetLost_keeps {a : Device} (p0 : Device) (p1 : TxPacket) (h0 : Keeps a p0) :
    Keeps a (Device.packetLost p0 p1) := by
  unfold Device.packetLost
  split
  · rename_i v0 v1 v2 v3
    with_reducible apply Device.descEnds_keeps
    assumption
  · rename_i v4 v5 v6
    with_reducible apply Device.endRemote_keeps
    assumption
  · rename_i v7 v8 v9
    with_reducible apply Device.indirectFails_keeps
    assumption
  · rename_i v10 v11 v12 v13
    assumption

theorem Device.postLands_keeps {a : Device} (p0 : Device) (p1 : Nat) (p2 : Outgoing) (h0 : Keeps a p0) :
    Keeps a (Device.postLands p0 p1 p2) := by
  unfold Device.postLands
  split
  · rename_i v0 v1
    with_reducible apply Device.packetLost_keeps
    assumption
  · rename_i v2 v3 v4
    refine Keeps.ite (fun _ => ?_) (fun _ => ?_)
    · rename_i v5
      with_reducible apply Device.post_keeps
      assumption
    · rename_i v6
      with_reducible apply Device.packetLost_keeps
      assumption

theorem Device.descLands_keeps {a : Device} (p0 : Device) (p1 : Nat) (p2 : Nat) (p3 : Nat) (p4 : List Byte) (h0 : Keeps a p0) :
    Keeps a (Device.descLands p0 p1 p2 p3 p4) := by
  unfold Device.descLands
  split
  · rename_i v0 v1
    assumption
  · rename_i v2 v3 v4
    extract_lets +onlyGivenNames x5
    have h_x5 : Keeps a x5 := by
      unfold x5
      with_reducible apply Device.store_keeps
      assumption
    clear_value x5
    refine Keeps.ite (fun _ => ?_) (fun _ => ?_)
    · rename_i v6
      with_reducible apply Device.perform_keeps
      assumption
    · rename_i v7
      with_reducible apply Device.partDone_keeps
      assumption

theorem Device.moveBale_keeps {a : Device} (p0 : Device) (p1 : Binding) (p2 : Nat) (p3 : List Byte) (h0 : Keeps a p0) :
    Keeps a (Device.moveBale p0 p1 p2 p3) := by
  unfold Device.moveBale
  extract_lets +onlyGivenNames x0 x1
  clear_value x0
  have h_x1 : Keeps a x1 := by
    unfold x1
    with_reducible apply Device.store_keeps
    assumption
  clear_value x1
  split
  · rename_i v2 v3
    with_reducible apply Device.setSpillBit_keeps
    assumption
  · rename_i v4
    assumption

theorem Device.poison_keeps {a : Device} (p0 : Device) (p1 : Nat) (p2 : Nat) (h0 : Keeps a p0) :
    Keeps a (Device.poison p0 p1 p2) := by
  unfold Device.poison
  extract_lets +onlyGivenNames x0
  have h_x0 : Keeps a x0 := by
    unfold x0
    with_reducible apply Device.store_keeps
    assumption
  clear_value x0
  with_reducible apply Device.mapFaults_keeps
  · assumption
  · exact fun _ => ⟨rfl, rfl⟩

theorem Device.queueMove_keeps {a : Device} (p0 : Device) (p1 : Job) (p2 : Nat) (h0 : Keeps a p0) :
    Keeps a (Device.queueMove p0 p1 p2) := by
  unfold Device.queueMove
  extract_lets +onlyGivenNames x0 x1 x2 x3
  clear_value x0
  clear_value x1
  clear_value x2
  clear_value x3
  with_reducible apply Device.sendThrough_keeps
  · assumption
  · intro d4
    intro x5
    with_reducible apply Device.finish_keeps
    assumption

/-- The device of a tier move's outcome. -/
def Moved.device : Moved → Device
  | .ok d => d
  | .failed d _ => d

theorem Device.moveRaw_keeps {a : Device} (d : Device) (j : Job) (x y : Nat) (h0 : Keeps a d) :
    Keeps a (d.moveRaw j x y).device := by
  unfold Device.moveRaw
  extract_lets r
  have hr : Keeps a r.1 := Device.checkedRead_keeps _ _ _ _ _ h0
  clear_value r
  split
  · exact Device.poison_keeps _ _ _ hr
  · exact Device.store_keeps _ _ hr

theorem Device.moveOne_keeps {a : Device} (d : Device) (j : Job) (x y : Nat) (b c : Binding) (h0 : Keeps a d) :
    Keeps a (d.moveOne j x y b c).device := by
  unfold Device.moveOne
  extract_lets source t judged
  have hr : Keeps a judged.1 := Device.judgeBale_keeps _ _ _ _ _ _ h0
  clear_value judged
  split
  · exact hr
  · split
    · split
      · rename_i d1 hd
        exact Device.baleTo_keeps _ _ _ _ _ hr _ hd
      · exact hr
    · exact Device.moveBale_keeps _ _ _ _ hr

theorem Device.moveBlock_keeps {a : Device} (d : Device) (j : Job) (k : Nat) (h0 : Keeps a d) :
    Keeps a (d.moveBlock j k).device := by
  unfold Device.moveBlock
  dsimp only
  repeat' split
  all_goals first
    | exact Device.moveOne_keeps _ _ _ _ _ _ h0
    | exact Device.moveRaw_keeps _ _ _ _ h0
    | exact h0

theorem Device.moveLands_keeps {a : Device} (p0 : Device) (p1 : Nat) (p2 : Nat) (p3 : Nat) (h0 : Keeps a p0) :
    Keeps a (Device.moveLands p0 p1 p2 p3) := by
  unfold Device.moveLands
  split
  · exact h0
  · dsimp only
    split
    · exact Device.finish_keeps _ _ _ _ _ h0
    · rename_i r i _ _
      have hm := Device.moveBlock_keeps p0 { ring := p1, index := p2, paddock := r.paddock, bytes := i.bytes } p3 h0
      split
      · rename_i d1 hd
        rw [hd] at hm
        split
        · exact Device.queueMove_keeps _ _ _ hm
        · exact Device.finish_keeps _ _ _ _ _ hm
      · rename_i d1 e hd
        rw [hd] at hm
        exact Device.failTransfer_keeps _ _ _ hm

theorem Device.notePageWait_keeps {a : Device} (p0 : Device) (p1 : RemoteAccess) (h0 : Keeps a p0) :
    Keeps a (Device.notePageWait p0 p1) := by
  unfold Device.notePageWait
  extract_lets +onlyGivenNames x0
  clear_value x0
  split
  · rename_i v1 v2
    assumption
  · rename_i v3 v4 v5
    extract_lets +onlyGivenNames x6 x7
    clear_value x6
    have h_x7 : Keeps a x7 := by
      unfold x7
      with_reducible apply Device.updExposure_keeps
      assumption
    clear_value x7
    refine Keeps.ite (fun _ => ?_) (fun _ => ?_)
    · rename_i v8
      assumption
    · rename_i v9
      with_reducible apply Device.perform_keeps
      assumption

theorem Device.localArrives_keeps {a : Device} (p0 : Device) (p1 : RemoteAccess) (h0 : Keeps a p0) :
    Keeps a (Device.localArrives p0 p1) := by
  unfold Device.localArrives
  extract_lets +onlyGivenNames x0
  clear_value x0
  refine Keeps.ite (fun _ => ?_) (fun _ => ?_)
  · rename_i v1
    extract_lets +onlyGivenNames x2
    have h_x2 : Keeps a x2 := by
      unfold x2
      with_reducible apply Device.notePageWait_keeps
      assumption
    clear_value x2
    refine Keeps.ite (fun _ => ?_) (fun _ => ?_)
    · rename_i v3
      assumption
    · rename_i v4
      with_reducible apply Device.endRemote_keeps
      assumption
  · rename_i v5
    refine Keeps.ite (fun _ => ?_) (fun _ => ?_)
    · rename_i v6
      with_reducible apply Device.endRemote_keeps
      assumption
    · rename_i v7
      extract_lets +onlyGivenNames x8
      clear_value x8
      with_reducible apply Device.sendThrough_keeps
      · with_reducible apply Device.updExposure_keeps
        assumption
      · intro d9
        intro x10
        with_reducible apply Device.accessDone_keeps
        with_reducible apply Device.endRemote_keeps
        assumption

theorem Device.remoteLeaves_keeps {a : Device} (p0 : Device) (p1 : Nat) (h0 : Keeps a p0) :
    Keeps a (Device.remoteLeaves p0 p1) := by
  unfold Device.remoteLeaves
  split
  · rename_i v0 v1
    assumption
  · rename_i v2 v3 v4
    refine Keeps.ite (fun _ => ?_) (fun _ => ?_)
    · rename_i v5
      with_reducible apply Device.dropRemote_keeps
      assumption
    · rename_i v6
      extract_lets +onlyGivenNames x7 x8
      have h_x7 : Keeps a x7 := by
        unfold x7
        with_reducible apply Device.requestLeft_keeps
        assumption
      clear_value x7
      clear_value x8
      refine Keeps.ite (fun _ => ?_) (fun _ => ?_)
      · rename_i v9
        with_reducible apply Device.endRemote_keeps
        assumption
      · rename_i v10
        refine Keeps.ite (fun _ => ?_) (fun _ => ?_)
        · rename_i v11
          with_reducible apply Device.localArrives_keeps
          assumption
        · rename_i v12
          with_reducible apply Device.post_keeps
          assumption

theorem Device.localAnswers_keeps {a : Device} (p0 : Device) (p1 : RemoteAccess) (p2 : List Byte) (h0 : Keeps a p0) :
    Keeps a (Device.localAnswers p0 p1 p2) := by
  unfold Device.localAnswers
  with_reducible apply Device.sendThrough_keeps
  · assumption
  · intro d0
    intro x1
    with_reducible apply Device.endRemote_keeps
    assumption

theorem Device.localEffect_keeps {a : Device} (p0 : Device) (p1 : RemoteAccess) (h0 : Keeps a p0) :
    Keeps a (Device.localEffect p0 p1) := by
  unfold Device.localEffect
  extract_lets +onlyGivenNames x0 x1
  clear_value x0
  clear_value x1
  split
  · rename_i v2 v3
    with_reducible apply Device.endRemote_keeps
    with_reducible apply Device.store_keeps
    assumption
  · rename_i v4 v5
    with_reducible apply Device.endRemote_keeps
    with_reducible apply Device.store_keeps
    assumption
  · rename_i v6 v7
    extract_lets +onlyGivenNames x8
    have h_x8 : Keeps a x8 := by
      unfold x8
      with_reducible apply Device.endRemote_keeps
      with_reducible apply Device.store_keeps
      assumption
    clear_value x8
    refine Keeps.ite (fun _ => ?_) (fun _ => ?_)
    · rename_i v9
      assumption
    · rename_i v10
      refine Keeps.ite (fun _ => ?_) (fun _ => ?_)
      · rename_i v11
        with_reducible apply Device.perform_keeps
        assumption
      · rename_i v12
        with_reducible apply Device.ringThrough_keeps
        assumption
  · rename_i v13 v14
    extract_lets +onlyGivenNames x15
    have h_x15 : Keeps a x15.1 := by
      unfold x15
      with_reducible apply Device.doAtomic_keeps
      assumption
    clear_value x15
    split
    · rename_i v16 v17
      with_reducible apply Device.endRemote_keeps
      assumption
    · rename_i v18 v19 v20
      with_reducible apply Device.localAnswers_keeps
      assumption
  · rename_i v21 v22 v23 v24 v25
    extract_lets +onlyGivenNames x26
    have h_x26 : Keeps a x26.1 := by
      unfold x26
      with_reducible apply Device.checkedRead_keeps
      assumption
    clear_value x26
    split
    · rename_i v27 v28 v29
      with_reducible apply Device.endRemote_keeps
      with_reducible apply Device.strike_keeps
      assumption
    · rename_i v30 v31
      with_reducible apply Device.localAnswers_keeps
      assumption

theorem Device.serveLocal_keeps {a : Device} (p0 : Device) (p1 : Nat) (p2 : Nat) (h0 : Keeps a p0) :
    Keeps a (Device.serveLocal p0 p1 p2) := by
  unfold Device.serveLocal
  split
  · rename_i v0 v1
    with_reducible apply Device.accessDone_keeps
    assumption
  · rename_i v2 v3 v4
    with_reducible apply Device.accessDone_keeps
    with_reducible apply Device.localEffect_keeps
    assumption

theorem Device.remoteResult_keeps {a : Device} (p0 : Device) (p1 : Nat) (p2 : List Byte) (p3 : Nat) (h0 : Keeps a p0) :
    Keeps a (Device.remoteResult p0 p1 p2 p3) := by
  unfold Device.remoteResult
  split
  · rename_i v0 v1
    assumption
  · rename_i v2 v3 v4
    refine Keeps.ite (fun _ => ?_) (fun _ => ?_)
    · rename_i v5
      with_reducible apply Device.dropRemote_keeps
      assumption
    · rename_i v6
      refine Keeps.ite (fun _ => ?_) (fun _ => ?_)
      · rename_i v7
        with_reducible apply Device.endRemote_keeps
        assumption
      · rename_i v8
        with_reducible apply Device.sendThrough_keeps
        · with_reducible apply Device.mapRemote_keeps
          assumption
        · intro d9
          intro x10
          with_reducible apply Device.endRemote_keeps
          assumption

theorem Device.hostStored_keeps {a : Device} (p0 : Device) (p1 : Nat) (p2 : List Byte) (h0 : Keeps a p0) :
    Keeps a (Device.hostStored p0 p1 p2) := by
  unfold Device.hostStored
  extract_lets +onlyGivenNames x0
  have h_x0 : Keeps a x0 := by
    unfold x0
    with_reducible apply Device.store_keeps
    assumption
  clear_value x0
  split
  · rename_i v1 v2
    assumption
  · rename_i v3 v4 v5
    refine Keeps.congr (d := x0) ?_ rfl rfl rfl rfl rfl rfl rfl
    assumption

theorem Device.hostRead_keeps {a : Device} (p0 : Device) (p1 : Nat) (p2 : Nat) (p3 : Nat) (p4 : Bool) (h0 : Keeps a p0) :
    Keeps a (Device.hostRead p0 p1 p2 p3 p4) := by
  unfold Device.hostRead
  extract_lets +onlyGivenNames x0 x1
  clear_value x0
  have h_x1 : Keeps a x1.1 := by
    unfold x1
    with_reducible apply Device.checkedRead_keeps
    assumption
  clear_value x1
  split
  · rename_i v2 v3 v4
    with_reducible apply Device.emit_keeps
    with_reducible apply Device.record_keeps
    assumption
  · rename_i v5 v6
    extract_lets +onlyGivenNames x7
    have h_x7 : Keeps a x7 := by
      unfold x7
      assumption
    clear_value x7
    extract_lets +onlyGivenNames x8
    have h_x8 : Keeps a x8 := by
      unfold x8
      refine Keeps.ite (fun _ => ?_) (fun _ => ?_)
      · rename_i v9
        refine Keeps.congr (d := x7) ?_ rfl rfl rfl rfl rfl rfl rfl
        assumption
      · rename_i v10
        assumption
    clear_value x8
    with_reducible apply Device.emit_keeps
    assumption

theorem Device.land_keeps {a : Device} (p0 : Device) (p1 : Nat) (p2 : WinDelivery) (h0 : Keeps a p0) :
    Keeps a (Device.land p0 p1 p2) := by
  unfold Device.land
  split
  · rename_i v0 v1 v2 v3 v4 v5
    with_reducible apply Device.streamPlaced_keeps
    with_reducible apply Device.accessDone_keeps
    with_reducible apply Device.rxArrived_keeps
    with_reducible apply Device.placeData_keeps
    assumption
  · rename_i v6 v7 v8 v9
    with_reducible apply Device.requestLands_keeps
    assumption
  · rename_i v10 v11 v12 v13 v14
    split
    · rename_i v15 v16
      assumption
    · rename_i v17 v18 v19
      with_reducible apply Device.runRead_keeps
      assumption
  · rename_i v20 v21 v22 v23 v24 v25 v26 v27
    with_reducible apply Device.sendLands_keeps
    assumption
  · rename_i v28 v29 v30 v31 v32 v33 v34 v35
    with_reducible apply Device.answerDone_keeps
    with_reducible apply Device.sendOn_keeps
    assumption
  · rename_i v36 v37 v38 v39
    with_reducible apply Device.postLands_keeps
    assumption
  · rename_i v40 v41 v42 v43
    with_reducible apply Device.descLands_keeps
    assumption
  · rename_i v44 v45 v46 v47 v48
    with_reducible apply Device.moveLands_keeps
    assumption
  · rename_i v49 v50 v51
    with_reducible apply Device.remoteLeaves_keeps
    assumption
  · rename_i v52 v53 v54 v55
    with_reducible apply Device.serveLocal_keeps
    assumption
  · rename_i v56 v57 v58
    with_reducible apply Device.remoteResult_keeps
    assumption
  · rename_i v59 v60 v61
    with_reducible apply Device.endRemote_keeps
    assumption
  · rename_i v62 v63 v64
    with_reducible apply Device.hostStored_keeps
    assumption
  · rename_i v65 v66 v67 v68 v69
    with_reducible apply Device.hostRead_keeps
    assumption
  · rename_i v70 v71 v72 v73 v74 v75
    with_reducible apply Device.perform_keeps
    assumption

theorem Device.admitHead_keeps {a : Device} (p0 : Nat) (p1 : Win) (p2 : Nat) (p3 : Nat) (p4 : Nat) (p5 : Device) (h5 : Keeps a p5) :
    Keeps a (Device.admitHead p0 p1 p2 p3 p4 p5) := by
  induction p2 generalizing p0 p1 p3 p4 p5
  · unfold Device.admitHead
    assumption
  · rename_i r0 r1
    unfold Device.admitHead
    split
    · rename_i v0 v1
      assumption
    · rename_i v2 v3 v4 v5
      refine Keeps.ite (fun _ => ?_) (fun _ => ?_)
      · rename_i v6
        extract_lets +onlyGivenNames x7 x8 x9
        have h_x7 : Keeps a x7 := by
          unfold x7
          with_reducible apply Device.updWindow_keeps
          assumption
        clear_value x7
        have h_x8 : Keeps a x8 := by
          unfold x8
          refine Keeps.ite (fun _ => ?_) (fun _ => ?_)
          · rename_i v10
            with_reducible apply Device.unholdAll_keeps
            assumption
          · rename_i v11
            refine Keeps.ite (fun _ => ?_) (fun _ => ?_)
            · rename_i v12
              with_reducible apply Device.arbitrate_keeps
              assumption
            · rename_i v13
              assumption
        clear_value x8
        have h_x9 : Keeps a x9.1 := by
          unfold x9
          with_reducible apply Device.crossStiles_keeps
          assumption
        clear_value x9
        refine Keeps.ite (fun _ => ?_) (fun _ => ?_)
        · rename_i v14
          with_reducible apply r1
          with_reducible apply Device.land_keeps
          assumption
        · rename_i v15
          with_reducible apply Device.refuseDelivery_keeps
          assumption
      · rename_i v16
        assumption

theorem Device.admitFrom_keeps {a : Device} (p0 : Device) (p1 : Nat) (p2 : Nat) (p3 : Win) (h0 : Keeps a p0) :
    Keeps a (Device.admitFrom p0 p1 p2 p3) := by
  unfold Device.admitFrom
  split
  · rename_i v0 v1
    assumption
  · rename_i v2 v3 v4
    refine Keeps.ite (fun _ => ?_) (fun _ => ?_)
    · rename_i v5
      with_reducible apply Device.admitHead_keeps
      assumption
    · rename_i v6
      assumption

theorem Device.answerSync_keeps {a : Device} (p0 : Device) (p1 : Nat) (p2 : Frame) (h0 : Keeps a p0) :
    Keeps a (Device.answerSync p0 p1 p2) := by
  unfold Device.answerSync
  extract_lets +onlyGivenNames x0 x1
  clear_value x0
  clear_value x1
  refine Keeps.ite (fun _ => ?_) (fun _ => ?_)
  · rename_i v2
    extract_lets +onlyGivenNames x3 x4
    clear_value x3
    have h_x4 : Keeps a x4 := by
      unfold x4
      with_reducible apply Device.mapTally_keeps
      · assumption
      · exact fun _ => Nat.le_refl _
    clear_value x4
    with_reducible apply Device.sendLoose_keeps
    assumption
  · rename_i v5
    assumption

theorem Device.respMoved_keeps {a : Device} (p0 : Device) (p1 : Nat) (p2 : Nat) (p3 : Frame) (p4 : Nat) (h0 : Keeps a p0) :
    Keeps a (Device.respMoved p0 p1 p2 p3 p4) := by
  unfold Device.respMoved
  split
  · rename_i v0 v1
    assumption
  · rename_i v2 v3 v4
    refine Keeps.ite (fun _ => ?_) (fun _ => ?_)
    · rename_i v5
      with_reducible apply Device.sendAck_keeps
      assumption
    · rename_i v6
      assumption

theorem Device.answered_keeps {a : Device} (p0 : Device) (p1 : Nat) (p2 : Nat) (p3 : Frame) (p4 : Nat) (h0 : Keeps a p0) :
    Keeps a (Device.answered p0 p1 p2 p3 p4) := by
  unfold Device.answered
  extract_lets +onlyGivenNames x0
  clear_value x0
  with_reducible apply Device.respMoved_keeps
  with_reducible apply Device.updConn_keeps
  assumption

theorem Device.aoclkTrim_keeps {a : Device} (p0 : Device) (p1 : Int) (h0 : Keeps a p0) :
    Keeps a (Device.aoclkTrim p0 p1) := by
  unfold Device.aoclkTrim
  refine Keeps.ite (fun _ => ?_) (fun _ => ?_)
  · rename_i v0
    assumption
  · rename_i v1
    with_reducible apply Device.mapPower_keeps
    assumption

theorem Device.packetDone_keeps {a : Device} (p0 : Device) (p1 : TxPacket) (h0 : Keeps a p0) :
    Keeps a (Device.packetDone p0 p1) := by
  unfold Device.packetDone
  split
  · rename_i v0 v1 v2 v3
    with_reducible apply Device.partDone_keeps
    assumption
  · rename_i v4 v5 v6
    with_reducible apply Device.endRemote_keeps
    assumption
  · rename_i v7 v8 v9
    assumption

theorem Device.resend_keeps {a : Device} (p0 : Device) (p1 : Nat) (p2 : Nat) (h0 : Keeps a p0) :
    Keeps a (Device.resend p0 p1 p2) := by
  unfold Device.resend
  with_reducible apply Device.pump_keeps
  with_reducible apply Device.updConn_keeps
  assumption

theorem Device.repair_keeps {a : Device} (p0 : Device) (p1 : Nat) (p2 : Nat) (h0 : Keeps a p0) :
    Keeps a (Device.repair p0 p1 p2) := by
  unfold Device.repair
  with_reducible apply Device.resend_keeps
  with_reducible apply Device.updConn_keeps
  assumption

theorem Device.pumpAll_keeps {a : Device} (p0 : Device) (h0 : Keeps a p0) :
    Keeps a (Device.pumpAll p0) := by
  unfold Device.pumpAll
  refine Keeps.foldl (fun d0 x1 h2 => ?_) ?_
  · with_reducible apply Device.pump_keeps
    assumption
  · assumption

theorem Device.streamMoved_keeps {a : Device} (p0 : Device) (p1 : Nat) (p2 : Bool) (h0 : Keeps a p0) :
    Keeps a (Device.streamMoved p0 p1 p2) := by
  unfold Device.streamMoved
  extract_lets +onlyGivenNames x0
  have h_x0 : Keeps a x0 := by
    unfold x0
    with_reducible apply Device.pump_keeps
    assumption
  clear_value x0
  with_reducible apply Device.closeIfDrained_keeps
  refine Keeps.ite (fun _ => ?_) (fun _ => ?_)
  · rename_i v1
    with_reducible apply Device.pumpAll_keeps
    assumption
  · rename_i v2
    assumption

theorem Device.applyAck_keeps {a : Device} (p0 : Device) (p1 : Nat) (p2 : AckReport) (h0 : Keeps a p0) :
    Keeps a (Device.applyAck p0 p1 p2) := by
  unfold Device.applyAck
  split
  · rename_i v0 v1
    assumption
  · rename_i v2 v3 v4
    extract_lets +onlyGivenNames x5 x6 x7 x8 x9
    clear_value x5
    clear_value x6
    have h_x7 : Keeps a x7 := by
      unfold x7
      with_reducible apply Device.updConn_keeps
      assumption
    clear_value x7
    have h_x8 : Keeps a x8 := by
      unfold x8
      refine Keeps.foldl (fun d10 x11 h12 => ?_) ?_
      · with_reducible apply Device.packetDone_keeps
        assumption
      · assumption
    clear_value x8
    have h_x9 : Keeps a x9 := by
      unfold x9
      refine Keeps.foldl (fun d13 x14 h15 => ?_) ?_
      · with_reducible apply Device.repair_keeps
        assumption
      · assumption
    clear_value x9
    with_reducible apply Device.streamMoved_keeps
    assumption

theorem Device.updHurdle_keeps {a : Device} (p0 : Device) (p1 : Nat) (p2 : Hurdle → Hurdle) (h0 : Keeps a p0) :
    Keeps a (Device.updHurdle p0 p1 p2) := by
  unfold Device.updHurdle
  with_reducible apply Device.mapFabric_keeps
  assumption

theorem Device.traceRounds_keeps {a : Device} (p0 : Device) (p1 : Nat) (p2 : Nat) (p3 : Nat) (p4 : Nat) (p5 : Nat) (h0 : Keeps a p0) :
    Keeps a (Device.traceRounds p0 p1 p2 p3 p4 p5) := by
  induction p5 generalizing p0 p1 p2 p3 p4
  · unfold Device.traceRounds
    assumption
  · rename_i r0 r1
    unfold Device.traceRounds
    with_reducible apply r1
    with_reducible apply Device.traced_keeps
    assumption

theorem Device.rouseReady_keeps {a : Device} (p0 : Device) (p1 : List Nat) (h0 : Keeps a p0) :
    Keeps a (Device.rouseReady p0 p1) := by
  unfold Device.rouseReady
  refine Keeps.foldl (fun d0 x1 h2 => ?_) ?_
  · refine Keeps.ite (fun _ => ?_) (fun _ => ?_)
    · rename_i v3
      with_reducible apply Device.rouse_keeps
      assumption
    · rename_i v4
      assumption
  · assumption

theorem Device.arriveAt_keeps {a : Device} (p0 : Device) (p1 : Arrival) (h0 : Keeps a p0) :
    Keeps a (Device.arriveAt p0 p1) := by
  unfold Device.arriveAt
  split
  · rename_i v0 v1
    assumption
  · rename_i v2 v3 v4 v5
    extract_lets +onlyGivenNames x6 x7 x8
    clear_value x6
    clear_value x7
    clear_value x8
    split
    · rename_i v9 v10
      with_reducible apply Device.strike_keeps
      with_reducible apply Device.updHurdle_keeps
      assumption
    · rename_i v11 v12
      with_reducible apply Device.strike_keeps
      with_reducible apply Device.updHurdle_keeps
      assumption
    · rename_i v13 v14 v15
      extract_lets +onlyGivenNames x16 x17 x18 x19
      clear_value x16
      clear_value x17
      have h_x18 : Keeps a x18 := by
        unfold x18
        with_reducible apply Device.traced_keeps
        with_reducible apply Device.updHurdle_keeps
        assumption
      clear_value x18
      have h_x19 : Keeps a x19 := by
        unfold x19
        with_reducible apply Device.traceRounds_keeps
        assumption
      clear_value x19
      extract_lets +onlyGivenNames x20
      have h_x20 : Keeps a x20 := by
        unfold x20
        refine Keeps.ite (fun _ => ?_) (fun _ => ?_)
        · rename_i v21
          with_reducible apply Device.resumeThread_keeps
          assumption
        · rename_i v22
          assumption
      clear_value x20
      with_reducible apply Device.rouseReady_keeps
      with_reducible apply Device.mapThreadsOf_keeps
      assumption

theorem Device.applyArrival_keeps {a : Device} (p0 : Device) (h0 : Keeps a p0) :
    Keeps a (Device.applyArrival p0) := by
  unfold Device.applyArrival
  split
  · rename_i v0 v1
    assumption
  · rename_i v2 v3 v4
    with_reducible apply Device.atInstant_keeps
    · assumption
    · intro d5
      intro x6
      extract_lets +onlyGivenNames x7
      clear_value x7
      refine Keeps.foldl (fun d8 x9 h10 => ?_) ?_
      · with_reducible apply Device.unhold_keeps
        assumption
      · with_reducible apply Device.arriveAt_keeps
        with_reducible apply Device.mapFabric_keeps
        assumption

theorem Device.atDeadline_keeps {a : Device} (p0 : Device) (p1 : Nat) (p2 : Device → Device) (h0 : Keeps a p0) (h2 : ∀ z0, (Keeps a z0) → Keeps a (p2 z0)) :
    Keeps a (Device.atDeadline p0 p1 p2) := by
  unfold Device.atDeadline
  extract_lets +onlyGivenNames x0
  have h_x0 : Keeps a x0 := by
    unfold x0
    with_reducible apply Device.advanceTo_keeps
    assumption
  clear_value x0
  refine Keeps.ite (fun _ => ?_) (fun _ => ?_)
  · rename_i v1
    with_reducible apply Device.advanceTo_keeps
    with_reducible apply h2
    assumption
  · rename_i v2
    assumption

theorem Device.exception_keeps {a : Device} (p0 : Device) (p1 : Issue) (p2 : Nat) (p3 : Nat) (p4 : Nat) (h0 : Keeps a p0) :
    Keeps a (Device.exception p0 p1 p2 p3 p4) := by
  unfold Device.exception
  extract_lets +onlyGivenNames x0
  clear_value x0
  with_reducible apply Device.strike_keeps
  with_reducible apply Device.updThread_keeps
  assumption

theorem Device.pastEnd_keeps {a : Device} (p0 : Device) (p1 : Issue) (h0 : Keeps a p0) :
    Keeps a (Device.pastEnd p0 p1) := by
  unfold Device.pastEnd
  refine Keeps.ite (fun _ => ?_) (fun _ => ?_)
  · rename_i v0
    assumption
  · rename_i v1
    with_reducible apply Device.exception_keeps
    assumption

theorem Device.complete_keeps {a : Device} (p0 : Device) (p1 : Issue) (p2 : Thread → Thread) (h0 : Keeps a p0) :
    Keeps a (Device.complete p0 p1 p2) := by
  unfold Device.complete
  with_reducible apply Device.pastEnd_keeps
  with_reducible apply Device.updThread_keeps
  assumption

end Sys2Proof.Machine
end

