-- ==== Sys2Proof/Laws/Keeps5.lean ====
section
/-! SUPPORT. One lemma for each function that yields a device, in the order they call one another (part 5 of 7): what the
function does is kept in the sense of `Keeps`. -/

namespace Sys2Proof.Machine

theorem Device.waitAt_keeps {a : Device} (p0 : Device) (p1 : Issue) (p2 : WaitFor) (h0 : Keeps a p0) :
    Keeps a (Device.waitAt p0 p1 p2) := by
  unfold Device.waitAt
  with_reducible apply Device.updThread_keeps
  assumption

theorem Device.awaitRound_keeps {a : Device} (p0 : Device) (p1 : Issue) (p2 : Nat) (p3 : Nat) (p4 : Bool) (h0 : Keeps a p0) :
    Keeps a (Device.awaitRound p0 p1 p2 p3 p4) := by
  unfold Device.awaitRound
  refine Keeps.ite (fun _ => ?_) (fun _ => ?_)
  · rename_i v0
    with_reducible apply Device.complete_keeps
    assumption
  · rename_i v1
    with_reducible apply Device.updThread_keeps
    with_reducible apply Device.waitAt_keeps
    assumption

theorem Device.bellTimeout_keeps {a : Device} (p0 : Device) (p1 : Nat) (p2 : Nat) (h0 : Keeps a p0) :
    Keeps a (Device.bellTimeout p0 p1 p2) := by
  unfold Device.bellTimeout
  split
  · rename_i v0 v1 v2 v3 v4
    assumption
  · rename_i v5 v6 v7 v8 v9 v10 v11
    refine Keeps.ite (fun _ => ?_) (fun _ => ?_)
    · rename_i v12
      assumption
    · rename_i v13
      with_reducible apply Device.atDeadline_keeps
      · assumption
      · intro d14
        intro x15
        split
        · rename_i v16 v17 v18 v19 v20 v21 v22 v23 v24 v25
          extract_lets +onlyGivenNames x26 x27
          clear_value x26
          clear_value x27
          with_reducible apply Device.rouse_keeps
          with_reducible apply Device.updThread_keeps
          with_reducible apply Device.setBell_keeps
          assumption
        · rename_i v28 v29 v30
          assumption
  · rename_i v31 v32 v33
    assumption

theorem Device.setBlockPower_keeps {a : Device} (p0 : Device) (p1 : Nat) (p2 : BlockPower) (h0 : Keeps a p0) :
    Keeps a (Device.setBlockPower p0 p1 p2) := by
  unfold Device.setBlockPower
  with_reducible apply Device.mapPower_keeps
  assumption

theorem Device.blockSleep_keeps {a : Device} (p0 : Device) (p1 : Nat) (h0 : Keeps a p0) :
    Keeps a (Device.blockSleep p0 p1) := by
  unfold Device.blockSleep
  extract_lets +onlyGivenNames x0
  clear_value x0
  refine Keeps.ite (fun _ => ?_) (fun _ => ?_)
  · rename_i v1
    with_reducible apply Device.atInstant_keeps
    · assumption
    · intro d2
      intro x3
      with_reducible apply Device.setBlockPower_keeps
      assumption
  · rename_i v4
    assumption

theorem Device.blockWake_keeps {a : Device} (p0 : Device) (p1 : Nat) (h0 : Keeps a p0) :
    Keeps a (Device.blockWake p0 p1) := by
  unfold Device.blockWake
  extract_lets +onlyGivenNames x0
  clear_value x0
  refine Keeps.ite (fun _ => ?_) (fun _ => ?_)
  · rename_i v1
    assumption
  · rename_i v2
    split
    · rename_i v3 v4
      assumption
    · rename_i v5 v6
      split
      · rename_i v7
        assumption
      · rename_i v8 v9
        with_reducible apply Device.atInstant_keeps
        · assumption
        · intro d10
          intro x11
          with_reducible apply Device.setBlockPower_keeps
          assumption
    · rename_i v12 v13
      refine Keeps.ite (fun _ => ?_) (fun _ => ?_)
      · rename_i v14
        with_reducible apply Device.atInstant_keeps
        · assumption
        · intro d15
          intro x16
          with_reducible apply Device.settleThrottle_keeps
          with_reducible apply Device.updClock_keeps
          with_reducible apply Device.setBlockPower_keeps
          assumption
      · rename_i v17
        assumption

theorem Device.bootOrder_keeps {a : Device} (p0 : Device) (h0 : Keeps a p0) :
    Keeps a (Device.bootOrder p0).1 := by
  unfold Device.bootOrder
  extract_lets +onlyGivenNames x0 x1
  clear_value x0
  clear_value x1
  split
  · rename_i v2
    assumption
  · rename_i v3
    split
    · rename_i v4
      assumption
    · rename_i v5
      split
      · rename_i v6
        assumption
      · rename_i v7
        split
        · rename_i v8
          split
          · rename_i v9
            dsimp only
            with_reducible apply Device.writeBootRecord_keeps
            assumption
          · rename_i v10
            dsimp only
            with_reducible apply Device.writeBootRecord_keeps
            assumption
        · rename_i v11
          assumption

theorem bootSlots_keeps {a : Device} (p0 : List Nat) (p1 : Device) (h1 : Keeps a p1) :
    Keeps a (bootSlots p0 p1).1 := by
  induction p0 generalizing p1
  · unfold bootSlots
    assumption
  · rename_i r0 r1 r2
    unfold bootSlots
    extract_lets +onlyGivenNames x0 x1
    clear_value x0
    have h_x1 : Keeps a x1 := by
      unfold x1
      with_reducible apply Device.setSlotState_keeps
      assumption
    clear_value x1
    split
    · rename_i v2
      assumption
    · rename_i v3
      with_reducible apply r2
      assumption

theorem Device.runRom_keeps {a : Device} (p0 : Device) (p1 : BootInputs) (p2 : Bool) (h0 : Keeps a p0) :
    Keeps a (Device.runRom p0 p1 p2).1 := by
  unfold Device.runRom
  extract_lets +onlyGivenNames x0 x1 x2 x3 x4
  have h_x0 : Keeps a x0 := by
    unfold x0
    with_reducible apply Device.mapBoot_keeps
    assumption
  have h_x3 : Keeps a x3 := by
    unfold x3
    refine Keeps.congr (d := x0) ?_ rfl rfl rfl rfl rfl rfl rfl
    assumption
  have h_x4 : Keeps a x4.1 := by
    unfold x4
    with_reducible apply Device.bootOrder_keeps
    assumption
  extract_lets +onlyGivenNames x5
  have h_x5 : Keeps a x5.1 := by
    unfold x5
    with_reducible apply bootSlots_keeps
    assumption
  clear_value x5
  split
  · rename_i v6 v7
    dsimp only
    with_reducible apply Device.mapBoot_keeps
    assumption
  · rename_i v8 v9 v10
    extract_lets +onlyGivenNames x11 x12
    clear_value x11
    have h_x12 : Keeps a x12 := by
      unfold x12
      with_reducible apply Device.mapBoot_keeps
      assumption
    clear_value x12
    dsimp only
    with_reducible apply Device.mapSecurity_keeps
    · assumption
    · exact fun _ => ⟨rfl, rfl⟩

theorem Device.runDoorbells_keeps {a : Device} (p0 : Device) (h0 : Keeps a p0) :
    Keeps a (Device.runDoorbells p0) := by
  unfold Device.runDoorbells
  refine Keeps.foldl (fun d0 x1 h2 => ?_) ?_
  · extract_lets +onlyGivenNames x3
    clear_value x3
    refine Keeps.ite (fun _ => ?_) (fun _ => ?_)
    · rename_i v4
      with_reducible apply Device.executeStored_keeps
      with_reducible apply Device.acceptBox_keeps
      assumption
    · rename_i v5
      assumption
  · assumption

theorem Device.startWorlds_keeps {a : Device} (p0 : Device) (h0 : Keeps a p0) :
    Keeps a (Device.startWorlds p0) := by
  unfold Device.startWorlds
  extract_lets +onlyGivenNames x0 x1 x2
  clear_value x0
  clear_value x1
  clear_value x2
  with_reducible apply Device.mapSecurity_keeps
  · assumption
  · exact fun _ => ⟨rfl, rfl⟩

theorem Device.sendStarted_keeps {a : Device} (p0 : Device) (h0 : Keeps a p0) :
    Keeps a (Device.sendStarted p0) := by
  unfold Device.sendStarted
  split
  · rename_i v0 v1 v2 v3 v4
    split
    · rename_i v5 v6
      assumption
    · rename_i v7 v8 v9
      refine Keeps.ite (fun _ => ?_) (fun _ => ?_)
      · rename_i v10
        assumption
      · rename_i v11
        extract_lets +onlyGivenNames x12 x13 x14
        clear_value x12
        have h_x13 : Keeps a x13 := by
          unfold x13
          refine Keeps.congr (d := p0) ?_ rfl rfl rfl rfl rfl rfl rfl
          assumption
        clear_value x13
        have h_x14 : Keeps a x14 := by
          unfold x14
          with_reducible apply Device.sendNotes_keeps
          assumption
        clear_value x14
        with_reducible apply Device.mapSecurity_keeps
        · with_reducible apply Device.mapFaults_keeps
          · assumption
          · exact fun _ => ⟨rfl, rfl⟩
        · exact fun _ => ⟨rfl, rfl⟩
  · rename_i v15 v16 v17
    assumption

theorem Device.unstrand_keeps {a : Device} (p0 : Device) (h0 : Keeps a p0) :
    Keeps a (Device.unstrand p0) := by
  unfold Device.unstrand
  extract_lets +onlyGivenNames x0
  clear_value x0
  refine Keeps.foldl (fun d1 x2 h3 => ?_) ?_
  · split
    · rename_i v4 v5
      assumption
    · rename_i v6 v7 v8
      split
      · rename_i v9 v10 v11
        with_reducible apply Device.enqueue_keeps
        assumption
      · rename_i v12 v13
        with_reducible apply Device.mapNet_keeps
        assumption
  · with_reducible apply Device.mapNet_keeps
    assumption

theorem Device.linkUp_keeps {a : Device} (p0 : Device) (p1 : Nat) (h0 : Keeps a p0) :
    Keeps a (Device.linkUp p0 p1) := by
  unfold Device.linkUp
  extract_lets +onlyGivenNames x0 x1
  clear_value x0
  clear_value x1
  refine Keeps.ite (fun _ => ?_) (fun _ => ?_)
  · rename_i v2
    assumption
  · rename_i v3
    extract_lets +onlyGivenNames x4 x5
    have h_x4 : Keeps a x4 := by
      unfold x4
      with_reducible apply Device.setLink_keeps
      assumption
    clear_value x4
    have h_x5 : Keeps a x5 := by
      unfold x5
      refine Keeps.ite (fun _ => ?_) (fun _ => ?_)
      · rename_i v6
        with_reducible apply Device.mapTally_keeps
        · assumption
        · exact fun _ => Nat.le_refl _
      · rename_i v7
        assumption
    clear_value x5
    with_reducible apply Device.pumpAll_keeps
    with_reducible apply Device.sendStarted_keeps
    with_reducible apply Device.unstrand_keeps
    assumption

theorem Device.trainLinks_keeps {a : Device} (p0 : Device) (p1 : BootInputs) (h0 : Keeps a p0) :
    Keeps a (Device.trainLinks p0 p1) := by
  unfold Device.trainLinks
  refine Keeps.foldl (fun d0 x1 h2 => ?_) ?_
  · refine Keeps.ite (fun _ => ?_) (fun _ => ?_)
    · rename_i v3
      with_reducible apply Device.linkUp_keeps
      assumption
    · rename_i v4
      assumption
  · assumption

theorem Device.provision_keeps {a : Device} (p0 : Device) (h0 : Keeps a p0) :
    Keeps a (Device.provision p0) := by
  unfold Device.provision
  extract_lets +onlyGivenNames x0
  clear_value x0
  refine Keeps.ite (fun _ => ?_) (fun _ => ?_)
  · rename_i v1
    extract_lets +onlyGivenNames x2 x3 x4
    clear_value x2
    clear_value x3
    have h_x4 : Keeps a x4 := by
      unfold x4
      with_reducible apply Device.connEvent_keeps
      with_reducible apply Device.mapNet_keeps
      assumption
    clear_value x4
    with_reducible apply Device.mapSecurity_keeps
    · assumption
    · exact fun _ => ⟨rfl, rfl⟩
  · rename_i v5
    assumption

theorem Device.bootUp_keeps {a : Device} (p0 : Device) (p1 : BootInputs) (p2 : Bool) (h0 : Keeps a p0) :
    Keeps a (Device.bootUp p0 p1 p2) := by
  unfold Device.bootUp
  extract_lets +onlyGivenNames x0 x1
  have h_x0 : Keeps a x0.1 := by
    unfold x0
    with_reducible apply Device.runRom_keeps
    assumption
  clear_value x0
  have h_x1 : ∀ z0, (Keeps a z0) → Keeps a (x1 z0) := by
    unfold x1
    intro d2
    intro x3
    with_reducible apply Device.mapBoot_keeps
    assumption
  clear_value x1
  split
  · rename_i v4 v5
    with_reducible apply Device.runDoorbells_keeps
    with_reducible apply Device.setDevState_keeps
    with_reducible apply h_x1
    with_reducible apply Device.startWorlds_keeps
    assumption
  · rename_i v6 v7 v8
    extract_lets +onlyGivenNames x9 x10
    have h_x9 : Keeps a x9 := by
      unfold x9
      with_reducible apply Device.trainLinks_keeps
      with_reducible apply Device.startWorlds_keeps
      with_reducible apply Device.provision_keeps
      assumption
    clear_value x9
    have h_x10 : Keeps a x10 := by
      unfold x10
      with_reducible apply Device.mapPower_keeps
      assumption
    clear_value x10
    with_reducible apply Device.runDoorbells_keeps
    with_reducible apply Device.setDevState_keeps
    with_reducible apply h_x1
    assumption

theorem Device.boundPasses_keeps {a : Device} (p0 : Device) (h0 : Keeps a p0) :
    Keeps a (Device.boundPasses p0) := by
  unfold Device.boundPasses
  extract_lets +onlyGivenNames x0
  clear_value x0
  split
  · rename_i v1 v2
    assumption
  · rename_i v3 v4 v5
    with_reducible apply Device.atDeadline_keeps
    · assumption
    · intro d6
      intro x7
      refine Keeps.foldl (fun d8 x9 h10 => ?_) ?_
      · with_reducible apply Device.endRemote_keeps
        assumption
      · assumption

theorem Device.cacheHit_keeps {a : Device} (p0 : Device) (p1 p2 p3 : Nat) (h0 : Keeps a p0) :
    ∀ y, (Device.cacheHit p0 p1 p2 p3) = some y → Keeps a y := by
  intro y h
  unfold Device.cacheHit at h
  split at h
  · cases h
  · split at h
    · injection h with h
      subst h
      exact Device.emit_keeps _ _ (Keeps.congr (d := p0) h0 rfl rfl rfl rfl rfl rfl rfl)
    · cases h

theorem Device.cellStep_keeps {a : Device} (p0 : Device) (p1 : Mmac) (p2 : Nat) (p3 : Nat) (p4 : Nat) (p5 : List Num) (h0 : Keeps a p0) :
    Keeps a (Device.cellStep p0 p1 p2 p3 p4 p5) := by
  unfold Device.cellStep
  extract_lets +onlyGivenNames x0 x1 x2 x3 x4 x5
  clear_value x0
  clear_value x1
  clear_value x2
  clear_value x3
  clear_value x4
  have h_x5 : Keeps a x5 := by
    unfold x5
    with_reducible apply Device.mapFabric_keeps
    assumption
  clear_value x5
  refine Keeps.ite (fun _ => ?_) (fun _ => ?_)
  · rename_i v6
    assumption
  · rename_i v7
    with_reducible apply Device.updBlock_keeps
    assumption

theorem Device.claimWindowEnd_keeps {a : Device} (p0 : Device) (h0 : Keeps a p0) :
    Keeps a (Device.claimWindowEnd p0) := by
  unfold Device.claimWindowEnd
  split
  · rename_i v0 v1
    assumption
  · rename_i v2 v3 v4
    with_reducible apply Device.atDeadline_keeps
    · assumption
    · intro d5
      intro x6
      with_reducible apply Device.closeClaims_keeps
      assumption

theorem Device.clampTargets_keeps {a : Device} (p0 : Device) (h0 : Keeps a p0) :
    Keeps a (Device.clampTargets p0) := by
  unfold Device.clampTargets
  refine Keeps.foldl (fun d0 x1 h2 => ?_) ?_
  · with_reducible apply Device.updClock_keeps
    assumption
  · assumption

theorem Device.stepForward_keeps {a : Device} (p0 : Device) (p1 : Int) (h0 : Keeps a p0) :
    Keeps a (Device.stepForward p0 p1) := by
  unfold Device.stepForward
  extract_lets +onlyGivenNames x0
  clear_value x0
  with_reducible apply Device.mapTally_keeps
  · with_reducible apply Device.advanceTo_keeps
    assumption
  · exact fun _ => Nat.le_refl _

theorem Device.closeBurst_keeps {a : Device} (p0 : Device) (h0 : Keeps a p0) :
    Keeps a (Device.closeBurst p0) := by
  unfold Device.closeBurst
  extract_lets +onlyGivenNames x0
  clear_value x0
  refine Keeps.ite (fun _ => ?_) (fun _ => ?_)
  · rename_i v1
    assumption
  · rename_i v2
    extract_lets +onlyGivenNames x3
    have h_x3 : Keeps a x3 := by
      unfold x3
      with_reducible apply Device.mapTally_keeps
      · assumption
      · exact fun _ => Nat.le_refl _
    clear_value x3
    split
    · rename_i v4 v5
      extract_lets +onlyGivenNames x6
      have h_x6 : Keeps a x6 := by
        unfold x6
        with_reducible apply Device.mapTally_keeps
        · assumption
        · exact fun _ => Nat.le_refl _
      clear_value x6
      refine Keeps.ite (fun _ => ?_) (fun _ => ?_)
      · rename_i v7
        with_reducible apply Device.enterHoldover_keeps
        assumption
      · rename_i v8
        assumption
    · rename_i v9 v10 v11
      extract_lets +onlyGivenNames x12 x13 x14 x15 x16 x17
      clear_value x12
      clear_value x13
      clear_value x14
      clear_value x15
      have h_x16 : Keeps a x16 := by
        unfold x16
        with_reducible apply Device.mapTally_keeps
        · assumption
        · exact fun _ => Nat.le_refl _
      clear_value x16
      have h_x17 : Keeps a x17 := by
        unfold x17
        refine Keeps.ite (fun _ => ?_) (fun _ => ?_)
        · rename_i v18
          with_reducible apply Device.setTallyState_keeps
          assumption
        · rename_i v19
          assumption
      clear_value x17
      refine Keeps.ite (fun _ => ?_) (fun _ => ?_)
      · rename_i v20
        with_reducible apply Device.stepForward_keeps
        assumption
      · rename_i v21
        assumption

theorem Device.endBuild_keeps {a : Device} (p0 : Device) (p1 : Nat) (p2 : Nat) (p3 : Option Report) (h0 : Keeps a p0) :
    Keeps a (Device.endBuild p0 p1 p2 p3) := by
  unfold Device.endBuild
  extract_lets +onlyGivenNames x0
  clear_value x0
  split
  · rename_i v1 v2
    assumption
  · rename_i v3 v4 v5
    extract_lets +onlyGivenNames x6 x7
    clear_value x6
    clear_value x7
    split
    · rename_i v8 v9
      extract_lets +onlyGivenNames x10 x11
      clear_value x10
      have h_x11 : Keeps a x11 := by
        unfold x11
        with_reducible apply Device.putBook_keeps
        assumption
      clear_value x11
      with_reducible apply Device.respond_keeps
      assumption
    · rename_i v12
      extract_lets +onlyGivenNames x13 x14
      clear_value x13
      clear_value x14
      with_reducible apply Device.respond_keeps
      with_reducible apply Device.putBook_keeps
      assumption

theorem Device.codebookDone_keeps {a : Device} (p0 : Device) (p1 : Nat) (p2 : Nat) (h0 : Keeps a p0) :
    Keeps a (Device.codebookDone p0 p1 p2) := by
  unfold Device.codebookDone
  extract_lets +onlyGivenNames x0
  clear_value x0
  split
  · rename_i v1 v2
    assumption
  · rename_i v3 v4 v5
    with_reducible apply Device.atInstant_keeps
    · assumption
    · intro d6
      intro x7
      extract_lets +onlyGivenNames x8 x9
      clear_value x8
      have h_x9 : Keeps a x9.1 := by
        unfold x9
        with_reducible apply Device.checkedRead_keeps
        assumption
      clear_value x9
      with_reducible apply Device.restRegions_keeps
      split
      · rename_i v10 v11 v12
        with_reducible apply Device.endBuild_keeps
        with_reducible apply Device.record_keeps
        assumption
      · rename_i v13 v14
        with_reducible apply Device.endBuild_keeps
        assumption

theorem Device.coldBoot_keeps {a : Device} (p0 : Device) (p1 : BootInputs) (h0 : Keeps a p0) :
    Keeps a (Device.coldBoot p0 p1) := by
  unfold Device.coldBoot
  refine Keeps.ite (fun _ => ?_) (fun _ => ?_)
  · rename_i v0
    with_reducible apply Device.bootUp_keeps
    assumption
  · rename_i v1
    assumption

theorem Device.completeS_keeps {a : Device} (p0 : Device) (p1 : Issue) (p2 : Word) (h0 : Keeps a p0) :
    Keeps a (Device.completeS p0 p1 p2) := by
  unfold Device.completeS
  with_reducible apply Device.complete_keeps
  assumption

theorem Device.completeV_keeps {a : Device} (p0 : Device) (p1 : Issue) (p2 : List (Word32 × BitVec 5)) (h0 : Keeps a p0) :
    Keeps a (Device.completeV p0 p1 p2) := by
  unfold Device.completeV
  with_reducible apply Device.complete_keeps
  assumption

theorem Device.pullLost_keeps {a : Device} (p0 : Device) (p1 : Pull) (h0 : Keeps a p0) :
    Keeps a (Device.pullLost p0 p1) := by
  unfold Device.pullLost
  refine Keeps.ite (fun _ => ?_) (fun _ => ?_)
  · rename_i v0
    with_reducible apply Device.endPull_keeps
    assumption
  · rename_i v1
    refine Keeps.ite (fun _ => ?_) (fun _ => ?_)
    · rename_i v2
      with_reducible apply Device.strike_keeps
      with_reducible apply Device.updDrove_keeps
      with_reducible apply Device.dropPull_keeps
      assumption
    · rename_i v3
      assumption

theorem Device.drovesLost_keeps {a : Device} (p0 : Device) (p1 : Nat) (p2 : Nat) (h0 : Keeps a p0) :
    Keeps a (Device.drovesLost p0 p1 p2) := by
  unfold Device.drovesLost
  extract_lets +onlyGivenNames x0 x1 x2 x3 x4 x5
  clear_value x0
  have h_x1 : Keeps a x1 := by
    unfold x1
    refine Keeps.foldl (fun d6 x7 h8 => ?_) ?_
    · with_reducible apply Device.pullLost_keeps
      assumption
    · assumption
  clear_value x1
  clear_value x2
  clear_value x3
  have h_x4 : Keeps a x4 := by
    unfold x4
    refine Keeps.foldl (fun d9 x10 h11 => ?_) ?_
    · with_reducible apply Device.endOffer_keeps
      with_reducible apply Device.mapService_keeps
      assumption
    · assumption
  clear_value x4
  clear_value x5
  refine Keeps.foldl (fun d12 x13 h14 => ?_) ?_
  · with_reducible apply Device.endRelease_keeps
    with_reducible apply Device.mapService_keeps
    assumption
  · assumption

theorem Device.connError_keeps {a : Device} (p0 : Device) (p1 : Nat) (h0 : Keeps a p0) :
    Keeps a (Device.connError p0 p1) := by
  unfold Device.connError
  split
  · rename_i v0 v1
    assumption
  · rename_i v2 v3 v4
    refine Keeps.ite (fun _ => ?_) (fun _ => ?_)
    · rename_i v5
      assumption
    · rename_i v6
      extract_lets +onlyGivenNames x7 x8 x9 x10 x11 x12 x13 x14 x15
      clear_value x7
      clear_value x8
      clear_value x9
      have h_x10 : Keeps a x10 := by
        unfold x10
        with_reducible apply Device.mapNet_keeps
        assumption
      clear_value x10
      have h_x11 : Keeps a x11 := by
        unfold x11
        with_reducible apply Device.updConn_keeps
        assumption
      clear_value x11
      have h_x12 : Keeps a x12 := by
        unfold x12
        refine Keeps.ite (fun _ => ?_) (fun _ => ?_)
        · rename_i v16
          assumption
        · rename_i v17
          with_reducible apply Device.connEvent_keeps
          assumption
      clear_value x12
      have h_x13 : Keeps a x13 := by
        unfold x13
        with_reducible apply Device.mapNet_keeps
        assumption
      clear_value x13
      have h_x14 : Keeps a x14 := by
        unfold x14
        refine Keeps.foldl (fun d18 x19 h20 => ?_) ?_
        · with_reducible apply Device.accessDone_keeps
          assumption
        · assumption
      clear_value x14
      have h_x15 : Keeps a x15 := by
        unfold x15
        refine Keeps.foldl (fun d21 x22 h23 => ?_) ?_
        · with_reducible apply Device.packetLost_keeps
          assumption
        · assumption
      clear_value x15
      with_reducible apply Device.closeIfDrained_keeps
      with_reducible apply Device.pumpAll_keeps
      with_reducible apply Device.drovesLost_keeps
      assumption

theorem Device.draw_keeps {a : Device} (p0 : Device) (h0 : Keeps a p0) :
    Keeps a (Device.draw p0).2 := by
  unfold Device.draw
  dsimp only
  refine Keeps.congr (d := p0) ?_ rfl rfl rfl rfl rfl rfl rfl
  assumption

theorem Device.refuseNoConn_keeps {a : Device} (p0 : Device) (p1 : Nat) (p2 : Frame) (h0 : Keeps a p0) :
    Keeps a (Device.refuseNoConn p0 p1 p2) := by
  unfold Device.refuseNoConn
  extract_lets +onlyGivenNames x0 x1 x2
  have h_x0 : Keeps a x0.2 := by
    unfold x0
    with_reducible apply Device.draw_keeps
    assumption
  clear_value x0
  clear_value x1
  clear_value x2
  split
  · rename_i v3 v4 v5
    with_reducible apply Device.enqueue_keeps
    assumption
  · rename_i v6 v7
    assumption

theorem Device.countLink_keeps {a : Device} (p0 : Device) (p1 : Nat) (p2 : Nat) (h0 : Keeps a p0) :
    Keeps a (Device.countLink p0 p1 p2) := by
  unfold Device.countLink
  with_reducible apply Device.updLink_keeps
  assumption

theorem Device.takeHeader_keeps {a : Device} (p0 : Device) (p1 : Nat) (p2 : Nat) (p3 : Frame) (h0 : Keeps a p0) :
    Keeps a (Device.takeHeader p0 p1 p2 p3) := by
  unfold Device.takeHeader
  split
  · rename_i v0 v1
    assumption
  · rename_i v2 v3 v4
    extract_lets +onlyGivenNames x5 x6
    clear_value x5
    have h_x6 : Keeps a x6 := by
      unfold x6
      refine Keeps.ite (fun _ => ?_) (fun _ => ?_)
      · rename_i v7
        with_reducible apply Device.updConn_keeps
        assumption
      · rename_i v8
        assumption
    clear_value x6
    refine Keeps.ite (fun _ => ?_) (fun _ => ?_)
    · rename_i v9
      with_reducible apply Device.applyAck_keeps
      assumption
    · rename_i v10
      assumption

theorem Device.readAgain_keeps {a : Device} (p0 : Device) (p1 : Nat) (p2 : Conn) (p3 : Nat) (p4 : Frame) (h0 : Keeps a p0) :
    Keeps a (Device.readAgain p0 p1 p2 p3 p4) := by
  unfold Device.readAgain
  extract_lets +onlyGivenNames x0
  clear_value x0
  with_reducible apply Device.sendThrough_keeps
  · assumption
  · intro d1
    intro x2
    with_reducible apply Device.sendOn_keeps
    assumption

theorem Device.mgmtAgain_keeps {a : Device} (p0 : Device) (p1 : Nat) (p2 : List Byte) (h0 : Keeps a p0) :
    Keeps a (Device.mgmtAgain p0 p1 p2) := by
  unfold Device.mgmtAgain
  split
  · rename_i v0 v1 v2 v3 v4 v5
    extract_lets +onlyGivenNames x6
    clear_value x6
    with_reducible apply Device.deliver_keeps
    with_reducible apply Device.updBox_keeps
    assumption
  · rename_i v7 v8 v9
    assumption

theorem Device.duplicate_keeps {a : Device} (p0 : Device) (p1 : Nat) (p2 : Conn) (p3 : Arrived) (p4 : Nat) (h0 : Keeps a p0) :
    Keeps a (Device.duplicate p0 p1 p2 p3 p4) := by
  unfold Device.duplicate
  extract_lets +onlyGivenNames x0
  have h_x0 : Keeps a x0 := by
    unfold x0
    with_reducible apply Device.sendAck_keeps
    assumption
  clear_value x0
  refine Keeps.ite (fun _ => ?_) (fun _ => ?_)
  · rename_i v1
    assumption
  · rename_i v2
    split
    · rename_i v3 v4
      extract_lets +onlyGivenNames x5
      clear_value x5
      refine Keeps.ite (fun _ => ?_) (fun _ => ?_)
      · rename_i v6
        refine Keeps.ite (fun _ => ?_) (fun _ => ?_)
        · rename_i v7
          with_reducible apply Device.answerPage_keeps
          assumption
        · rename_i v8
          with_reducible apply Device.readAgain_keeps
          assumption
      · rename_i v9
        with_reducible apply Device.sendOn_keeps
        assumption
    · rename_i v10 v11
      split
      · rename_i v12 v13 v14
        with_reducible apply Device.sendAtomic_keeps
        assumption
      · rename_i v15 v16
        assumption
    · rename_i v17 v18
      with_reducible apply Device.mgmtAgain_keeps
      assumption
    · rename_i v19 v20 v21 v22
      assumption

theorem Device.noteArrival_keeps {a : Device} (p0 : Device) (p1 : Nat) (p2 : Arrived) (p3 : Bool) (h0 : Keeps a p0) :
    Keeps a (Device.noteArrival p0 p1 p2 p3) := by
  unfold Device.noteArrival
  extract_lets +onlyGivenNames x0
  have h_x0 : Keeps a x0 := by
    unfold x0
    with_reducible apply Device.updConn_keeps
    assumption
  clear_value x0
  split
  · rename_i v1 v2
    assumption
  · rename_i v3 v4 v5
    refine Keeps.ite (fun _ => ?_) (fun _ => ?_)
    · rename_i v6
      with_reducible apply Device.sendAck_keeps
      assumption
    · rename_i v7
      assumption

theorem Device.keepBell_keeps {a : Device} (p0 : Device) (p1 : Nat) (p2 : Nat) (p3 : Arrived) (p4 : Bool) (h0 : Keeps a p0) :
    Keeps a (Device.keepBell p0 p1 p2 p3 p4) := by
  unfold Device.keepBell
  extract_lets +onlyGivenNames x0
  clear_value x0
  refine Keeps.ite (fun _ => ?_) (fun _ => ?_)
  · rename_i v1
    refine Keeps.ite (fun _ => ?_) (fun _ => ?_)
    · rename_i v2
      with_reducible apply Device.updConn_keeps
      assumption
    · rename_i v3
      refine Keeps.ite (fun _ => ?_) (fun _ => ?_)
      · rename_i v4
        with_reducible apply Device.updConn_keeps
        assumption
      · rename_i v5
        assumption
  · rename_i v6
    assumption

theorem Device.seePsn_keeps {a : Device} (p0 : Device) (p1 : Nat) (p2 : Nat) (h0 : Keeps a p0) :
    Keeps a (Device.seePsn p0 p1 p2) := by
  unfold Device.seePsn
  with_reducible apply Device.updConn_keeps
  assumption

theorem Device.refusePacket_keeps {a : Device} (p0 : Device) (p1 : Nat) (p2 : Conn) (p3 : Arrived) (p4 : Nat) (p5 : Nat) (h0 : Keeps a p0) :
    Keeps a (Device.refusePacket p0 p1 p2 p3 p4 p5) := by
  unfold Device.refusePacket
  extract_lets +onlyGivenNames x0 x1
  clear_value x0
  have h_x1 : Keeps a x1 := by
    unfold x1
    with_reducible apply Device.sendNak_keeps
    assumption
  clear_value x1
  refine Keeps.ite (fun _ => ?_) (fun _ => ?_)
  · rename_i v2
    split
    · rename_i v3 v4
      assumption
    · rename_i v5 v6 v7
      extract_lets +onlyGivenNames x8 x9
      clear_value x8
      have h_x9 : Keeps a x9 := by
        unfold x9
        with_reducible apply Device.updExposure_keeps
        assumption
      clear_value x9
      refine Keeps.ite (fun _ => ?_) (fun _ => ?_)
      · rename_i v10
        assumption
      · rename_i v11
        with_reducible apply Device.perform_keeps
        assumption
  · rename_i v12
    refine Keeps.ite (fun _ => ?_) (fun _ => ?_)
    · rename_i v13
      refine Keeps.ite (fun _ => ?_) (fun _ => ?_)
      · rename_i v14
        with_reducible apply Device.countLink_keeps
        assumption
      · rename_i v15
        assumption
    · rename_i v16
      with_reducible apply Device.streamPlaced_keeps
      with_reducible apply Device.noteArrival_keeps
      with_reducible apply Device.keepBell_keeps
      with_reducible apply Device.seePsn_keeps
      assumption

theorem Device.takeSequenced_keeps {a : Device} (p0 : Device) (p1 : Nat) (p2 : Arrived) (h0 : Keeps a p0) :
    Keeps a (Device.takeSequenced p0 p1 p2) := by
  unfold Device.takeSequenced
  split
  · rename_i v0 v1
    assumption
  · rename_i v2 v3 v4
    extract_lets +onlyGivenNames x5
    clear_value x5
    refine Keeps.ite (fun _ => ?_) (fun _ => ?_)
    · rename_i v6
      with_reducible apply Device.duplicate_keeps
      assumption
    · rename_i v7
      refine Keeps.ite (fun _ => ?_) (fun _ => ?_)
      · rename_i v8
        with_reducible apply Device.countLink_keeps
        assumption
      · rename_i v9
        extract_lets +onlyGivenNames x10
        clear_value x10
        refine Keeps.ite (fun _ => ?_) (fun _ => ?_)
        · rename_i v11
          with_reducible apply Device.refusePacket_keeps
          assumption
        · rename_i v12
          extract_lets +onlyGivenNames x13
          have h_x13 : Keeps a x13 := by
            unfold x13
            with_reducible apply Device.acceptPacket_keeps
            with_reducible apply Device.keepBell_keeps
            with_reducible apply Device.seePsn_keeps
            assumption
          clear_value x13
          with_reducible apply Device.streamPlaced_keeps
          with_reducible apply Device.noteArrival_keeps
          assumption

theorem Device.descData_keeps {a : Device} (p0 : Device) (p1 : Nat) (p2 : Nat) (p3 : Nat) (p4 : Nat) (p5 : Frame) (p6 : List Byte) (h0 : Keeps a p0) :
    Keeps a (Device.descData p0 p1 p2 p3 p4 p5 p6) := by
  unfold Device.descData
  split
  · rename_i v0 v1 v2 v3 v4 v5
    with_reducible apply Device.sendThrough_keeps
    · assumption
    · intro d6
      intro x7
      with_reducible apply Device.descEnds_keeps
      assumption
  · rename_i v8 v9 v10
    assumption

theorem Device.indirectData_keeps {a : Device} (p0 : Device) (p1 : Nat) (p2 : Nat) (p3 : List Byte) (h0 : Keeps a p0) :
    Keeps a (Device.indirectData p0 p1 p2 p3) := by
  unfold Device.indirectData
  extract_lets +onlyGivenNames x0 x1
  clear_value x0
  clear_value x1
  split
  · rename_i v2 v3
    assumption
  · rename_i v4 v5 v6 v7
    extract_lets +onlyGivenNames x8 x9 x10
    clear_value x8
    clear_value x9
    have h_x10 : Keeps a x10 := by
      unfold x10
      with_reducible apply Device.updBox_keeps
      assumption
    clear_value x10
    refine Keeps.ite (fun _ => ?_) (fun _ => ?_)
    · rename_i v11
      extract_lets +onlyGivenNames x12
      clear_value x12
      generalize em13 : kindOf (fieldU16 x12 0) = m13
      have h_m13 : ∀ y, m13 = some y → Kind.Keeps y := by
        subst m13
        intro h14
        intro h15
        exact kindOf_keeps _ _ h15
      clear em13
      split
      · rename_i v16
        assumption
      · rename_i v17 v18
        with_reducible apply Device.finishIndirect_keeps
        · with_reducible apply Device.updBox_keeps
          assumption
        · exact h_m13 _ rfl
    · rename_i v19
      assumption

theorem Device.readData_keeps {a : Device} (p0 : Device) (p1 : TxPacket) (p2 : Nat) (p3 : List Byte) (p4 : Nat) (p5 : Frame) (p6 : Nat) (h0 : Keeps a p0) :
    Keeps a (Device.readData p0 p1 p2 p3 p4 p5 p6) := by
  unfold Device.readData
  split
  · rename_i v0 v1 v2 v3
    with_reducible apply Device.descData_keeps
    assumption
  · rename_i v4 v5 v6
    with_reducible apply Device.remoteResult_keeps
    assumption
  · rename_i v7 v8 v9
    with_reducible apply Device.indirectData_keeps
    assumption
  · rename_i v10 v11 v12 v13
    assumption

theorem Device.takeReadResp_keeps {a : Device} (p0 : Device) (p1 : Nat) (p2 : Nat) (p3 : Frame) (p4 : Nat) (h0 : Keeps a p0) :
    Keeps a (Device.takeReadResp p0 p1 p2 p3 p4) := by
  unfold Device.takeReadResp
  split
  · rename_i v0 v1
    assumption
  · rename_i v2 v3 v4
    extract_lets +onlyGivenNames x5 x6 x7
    clear_value x5
    clear_value x6
    clear_value x7
    split
    · rename_i v8 v9
      assumption
    · rename_i v10 v11 v12
      refine Keeps.ite (fun _ => ?_) (fun _ => ?_)
      · rename_i v13
        with_reducible apply Device.streamMoved_keeps
        with_reducible apply Device.packetRefused_keeps
        with_reducible apply Device.answered_keeps
        assumption
      · rename_i v14
        refine Keeps.ite (fun _ => ?_) (fun _ => ?_)
        · rename_i v15
          assumption
        · rename_i v16
          extract_lets +onlyGivenNames x17 x18 x19
          clear_value x17
          clear_value x18
          have h_x19 : Keeps a x19 := by
            unfold x19
            refine Keeps.ite (fun _ => ?_) (fun _ => ?_)
            · rename_i v20
              with_reducible apply Device.answered_keeps
              assumption
            · rename_i v21
              with_reducible apply Device.updConn_keeps
              assumption
          clear_value x19
          with_reducible apply Device.streamMoved_keeps
          with_reducible apply Device.readData_keeps
          assumption

theorem Device.takeAtomicResp_keeps {a : Device} (p0 : Device) (p1 : Nat) (p2 : Nat) (p3 : Frame) (p4 : Nat) (h0 : Keeps a p0) :
    Keeps a (Device.takeAtomicResp p0 p1 p2 p3 p4) := by
  unfold Device.takeAtomicResp
  split
  · rename_i v0 v1
    assumption
  · rename_i v2 v3 v4
    extract_lets +onlyGivenNames x5 x6
    clear_value x5
    clear_value x6
    split
    · rename_i v7 v8
      assumption
    · rename_i v9 v10 v11
      extract_lets +onlyGivenNames x12
      have h_x12 : Keeps a x12 := by
        unfold x12
        with_reducible apply Device.answered_keeps
        assumption
      clear_value x12
      refine Keeps.ite (fun _ => ?_) (fun _ => ?_)
      · rename_i v13
        with_reducible apply Device.streamMoved_keeps
        with_reducible apply Device.packetRefused_keeps
        assumption
      · rename_i v14
        extract_lets +onlyGivenNames x15 x16
        clear_value x15
        have h_x16 : Keeps a x16 := by
          unfold x16
          split
          · rename_i v17 v18 v19 v20
            with_reducible apply Device.descData_keeps
            assumption
          · rename_i v21 v22 v23
            with_reducible apply Device.remoteResult_keeps
            assumption
          · rename_i v24 v25 v26
            assumption
        clear_value x16
        with_reducible apply Device.streamMoved_keeps
        assumption

theorem Device.takeAck_keeps {a : Device} (p0 : Device) (p1 : Nat) (p2 : Frame) (h0 : Keeps a p0) :
    Keeps a (Device.takeAck p0 p1 p2) := by
  unfold Device.takeAck
  split
  · rename_i v0 v1
    assumption
  · rename_i v2 v3 v4
    extract_lets +onlyGivenNames x5 x6 x7 x8 x9 x10
    clear_value x5
    clear_value x6
    clear_value x7
    clear_value x8
    clear_value x9
    clear_value x10
    with_reducible apply Device.applyAck_keeps
    with_reducible apply Device.updConn_keeps
    assumption

theorem Device.takeNak_keeps {a : Device} (p0 : Device) (p1 : Nat) (p2 : Frame) (p3 : Nat) (h0 : Keeps a p0) :
    Keeps a (Device.takeNak p0 p1 p2 p3) := by
  unfold Device.takeNak
  split
  · rename_i v0 v1
    assumption
  · rename_i v2 v3 v4
    extract_lets +onlyGivenNames x5 x6 x7 x8
    clear_value x5
    clear_value x6
    clear_value x7
    have h_x8 : Keeps a x8 := by
      unfold x8
      with_reducible apply Device.applyAck_keeps
      with_reducible apply Device.updConn_keeps
      with_reducible apply Device.countConn_keeps
      assumption
    clear_value x8
    refine Keeps.ite (fun _ => ?_) (fun _ => ?_)
    · rename_i v9
      with_reducible apply Device.connError_keeps
      assumption
    · rename_i v10
      split
      · rename_i v11 v12
        assumption
      · rename_i v13 v14 v15
        refine Keeps.ite (fun _ => ?_) (fun _ => ?_)
        · rename_i v16
          with_reducible apply Device.updConn_keeps
          assumption
        · rename_i v17
          refine Keeps.ite (fun _ => ?_) (fun _ => ?_)
          · rename_i v18
            with_reducible apply Device.respMoved_keeps
            with_reducible apply Device.post_keeps
            with_reducible apply Device.updConn_keeps
            assumption
          · rename_i v19
            with_reducible apply Device.respMoved_keeps
            with_reducible apply Device.streamMoved_keeps
            with_reducible apply Device.packetRefused_keeps
            with_reducible apply Device.updConn_keeps
            assumption

theorem Device.takeUnsequenced_keeps {a : Device} (p0 : Device) (p1 : Nat) (p2 : Arrived) (h0 : Keeps a p0) :
    Keeps a (Device.takeUnsequenced p0 p1 p2) := by
  unfold Device.takeUnsequenced
  split
  · rename_i v0 v1
    with_reducible apply Device.takeReadResp_keeps
    assumption
  · rename_i v2 v3
    with_reducible apply Device.takeAtomicResp_keeps
    assumption
  · rename_i v4 v5
    with_reducible apply Device.takeAck_keeps
    assumption
  · rename_i v6 v7
    with_reducible apply Device.takeNak_keeps
    assumption
  · rename_i v8 v9 v10 v11 v12
    assumption

theorem Device.takeFrame_keeps {a : Device} (p0 : Device) (p1 : Arrived) (h0 : Keeps a p0) :
    Keeps a (Device.takeFrame p0 p1) := by
  unfold Device.takeFrame
  extract_lets +onlyGivenNames x0 x1
  clear_value x0
  clear_value x1
  split
  · rename_i v2 v3
    with_reducible apply Device.refuseNoConn_keeps
    assumption
  · rename_i v4 v5 v6
    refine Keeps.ite (fun _ => ?_) (fun _ => ?_)
    · rename_i v7
      refine Keeps.ite (fun _ => ?_) (fun _ => ?_)
      · rename_i v8
        with_reducible apply Device.countLink_keeps
        assumption
      · rename_i v9
        extract_lets +onlyGivenNames x10 x11
        clear_value x10
        have h_x11 : Keeps a x11 := by
          unfold x11
          with_reducible apply Device.takeHeader_keeps
          with_reducible apply Device.updConn_keeps
          with_reducible apply Device.countConn_keeps
          with_reducible apply Device.countConn_keeps
          assumption
        clear_value x11
        refine Keeps.ite (fun _ => ?_) (fun _ => ?_)
        · rename_i v12
          with_reducible apply Device.takeSequenced_keeps
          assumption
        · rename_i v13
          with_reducible apply Device.takeUnsequenced_keeps
          assumption
    · rename_i v14
      with_reducible apply Device.refuseNoConn_keeps
      assumption

theorem Device.drainMisses_keeps {a : Device} (p0 : Device) (p1 : Nat) (h0 : Keeps a p0) :
    Keeps a (Device.drainMisses p0 p1) := by
  unfold Device.drainMisses
  extract_lets +onlyGivenNames x0 x1
  clear_value x0
  have h_x1 : Keeps a x1 := by
    unfold x1
    with_reducible apply Device.mapNet_keeps
    assumption
  clear_value x1
  refine Keeps.foldl (fun d2 x3 h4 => ?_) ?_
  · with_reducible apply Device.takeFrame_keeps
    assumption
  · assumption

theorem Device.sendPackets_keeps {a : Device} (p0 : Device) (p1 : Job) (p2 : List Outgoing) (h0 : Keeps a p0) :
    Keeps a (Device.sendPackets p0 p1 p2) := by
  unfold Device.sendPackets
  refine Keeps.foldl (fun d0 x1 h2 => ?_) ?_
  · with_reducible apply Device.postThrough_keeps
    · assumption
    · intro d3
      intro x4
      with_reducible apply Device.finish_keeps
      assumption
  · assumption

theorem Device.expect_keeps {a : Device} (p0 : Device) (p1 : Job) (p2 : Nat) (h0 : Keeps a p0) :
    Keeps a (Device.expect p0 p1 p2) := by
  unfold Device.expect
  with_reducible apply Device.updRing_keeps
  assumption

theorem kindWrite_keeps :
    DescKind.Keeps kindWrite := by
  unfold kindWrite
  intro b0 d1 c2 h3
  dsimp -zeta only
  extract_lets +onlyGivenNames x4 x5 x6 x7
  clear_value x4
  clear_value x5
  clear_value x6
  have h_x7 : Keeps b0 x7.1 := by
    unfold x7
    with_reducible apply Device.checkedRead_keeps
    assumption
  clear_value x7
  split
  · rename_i v8 v9 v10
    with_reducible apply Device.failTransfer_keeps
    assumption
  · rename_i v11 v12
    extract_lets +onlyGivenNames x13
    clear_value x13
    with_reducible apply Device.sendPackets_keeps
    with_reducible apply Device.expect_keeps
    assumption

theorem kindRead_keeps :
    DescKind.Keeps kindRead := by
  unfold kindRead
  intro b0 d1 c2 h3
  dsimp -zeta only
  extract_lets +onlyGivenNames x4
  clear_value x4
  with_reducible apply Device.post_keeps
  with_reducible apply Device.expect_keeps
  assumption

theorem kindAtomic_keeps :
    DescKind.Keeps kindAtomic := by
  unfold kindAtomic
  intro b0 d1 c2 h3
  dsimp -zeta only
  extract_lets +onlyGivenNames x4
  clear_value x4
  with_reducible apply Device.post_keeps
  with_reducible apply Device.expect_keeps
  assumption

theorem kindSend_keeps :
    DescKind.Keeps kindSend := by
  unfold kindSend
  intro b0 d1 c2 h3
  dsimp -zeta only
  extract_lets +onlyGivenNames x4 x5 x6 x7
  clear_value x4
  clear_value x5
  clear_value x6
  have h_x7 : Keeps b0 x7.1 := by
    unfold x7
    with_reducible apply Device.checkedRead_keeps
    assumption
  clear_value x7
  split
  · rename_i v8 v9 v10
    with_reducible apply Device.failTransfer_keeps
    assumption
  · rename_i v11 v12
    with_reducible apply Device.sendPackets_keeps
    with_reducible apply Device.expect_keeps
    assumption

theorem transportKind_keeps (p0 : Nat) :
    ∀ y, transportKind p0 = some y → DescKind.Keeps y := by
  intro y h
  unfold transportKind at h
  split at h
  · cases h; exact kindWrite_keeps
  · cases h; exact kindRead_keeps
  · cases h; exact kindAtomic_keeps
  · cases h; exact kindSend_keeps
  · cases h

theorem Device.takeHead_keeps {a : Device} (p0 : Device) (p1 : Nat) (p2 : Ring) (p3 : List Byte) (h0 : Keeps a p0) :
    Keeps a (Device.takeHead p0 p1 p2 p3) := by
  unfold Device.takeHead
  with_reducible apply Device.traced_keeps
  with_reducible apply Device.updRing_keeps
  assumption

theorem Device.dropUnknown_keeps {a : Device} (p0 : Nat) (p1 : Nat) (p2 : Device) (h2 : Keeps a p2) :
    Keeps a (Device.dropUnknown p0 p1 p2) := by
  induction p0 generalizing p1 p2
  · unfold Device.dropUnknown
    assumption
  · rename_i r0 r1
    unfold Device.dropUnknown
    split
    · rename_i v0 v1
      assumption
    · rename_i v2 v3 v4
      split
      · rename_i v5 v6
        assumption
      · rename_i v7 v8 v9
        refine Keeps.ite (fun _ => ?_) (fun _ => ?_)
        · rename_i v10
          with_reducible apply r1
          with_reducible apply Device.perform_keeps
          with_reducible apply Device.takeHead_keeps
          assumption
        · rename_i v11
          assumption

theorem Device.takeChecked_keeps {a : Device} (p0 : Device) (p1 : DescKind) (p2 : Job) (p3 : Nat) (p4 : Ring) (h0 : Keeps a p0) (h1 : DescKind.Keeps p1) :
    Keeps a (Device.takeChecked p0 p1 p2 p3 p4) := by
  unfold Device.takeChecked
  extract_lets +onlyGivenNames x0 x1
  have h_x0 : Keeps a x0.1 := by
    unfold x0
    with_reducible apply Device.checkedRead_keeps
    assumption
  clear_value x0
  have h_x1 : Keeps a x1 := by
    unfold x1
    with_reducible apply Device.takeHead_keeps
    assumption
  clear_value x1
  split
  · rename_i v2 v3 v4
    with_reducible apply Device.failTransfer_keeps
    assumption
  · rename_i v5 v6
    split
    · rename_i v7 v8 v9
      with_reducible apply Device.finish_keeps
      assumption
    · rename_i v10 v11
      split
      · rename_i v12 v13 v14
        with_reducible apply Device.finish_keeps
        assumption
      · rename_i v15 v16
        split
        · rename_i v17 v18 v19
          with_reducible apply Device.finish_keeps
          assumption
        · rename_i v20 v21
          exact h1 _ _ _ h_x1

theorem Device.takeDescriptor_keeps {a : Device} (p0 : Device) (p1 : DescKind) (p2 : Nat) (h0 : Keeps a p0) (h1 : DescKind.Keeps p1) :
    Keeps a (Device.takeDescriptor p0 p1 p2) := by
  unfold Device.takeDescriptor
  split
  · rename_i v0 v1
    assumption
  · rename_i v2 v3 v4
    split
    · rename_i v5 v6
      assumption
    · rename_i v7 v8 v9
      refine Keeps.ite (fun _ => ?_) (fun _ => ?_)
      · rename_i v10
        assumption
      · rename_i v11
        extract_lets +onlyGivenNames x12 x13
        clear_value x12
        clear_value x13
        split
        · rename_i v14 v15 v16
          with_reducible apply Device.updRing_keeps
          assumption
        · rename_i v17 v18
          split
          · rename_i v19 v20 v21
            refine Keeps.ite (fun _ => ?_) (fun _ => ?_)
            · rename_i v22
              with_reducible apply Device.fetchContext_keeps
              assumption
            · rename_i v23
              with_reducible apply Device.takeChecked_keeps
              · assumption
              · assumption
          · rename_i v24 v25
            with_reducible apply Device.takeChecked_keeps
            · assumption
            · assumption

theorem Device.retakeHead_keeps {a : Device} (p0 : Device) (p1 : Nat) (p2 : Nat) (h0 : Keeps a p0) :
    Keeps a (Device.retakeHead p0 p1 p2) := by
  unfold Device.retakeHead
  split
  · rename_i v0 v1
    assumption
  · rename_i v2 v3 v4
    generalize em5 : transportKind (fieldU8 v3 0) = m5
    have h_m5 : ∀ y, m5 = some y → DescKind.Keeps y := by
      subst m5
      intro h6
      intro h7
      exact transportKind_keeps _ _ h7
    clear em5
    split
    · rename_i v8
      assumption
    · rename_i v9 v10
      refine Keeps.ite (fun _ => ?_) (fun _ => ?_)
      · rename_i v11
        with_reducible apply Device.dropUnknown_keeps
        with_reducible apply Device.takeDescriptor_keeps
        · assumption
        · exact h_m5 _ rfl
      · rename_i v12
        assumption

theorem Device.contextCame_keeps {a : Device} (p0 : Device) (h0 : Keeps a p0) :
    Keeps a (Device.contextCame p0) := by
  unfold Device.contextCame
  split
  · rename_i v0 v1
    assumption
  · rename_i v2 v3 v4
    extract_lets +onlyGivenNames x5 x6 x7
    have h_x5 : Keeps a x5 := by
      unfold x5
      with_reducible apply Device.mapNet_keeps
      assumption
    clear_value x5
    have h_x6 : Keeps a x6 := by
      unfold x6
      split
      · rename_i v8 v9
        assumption
      · rename_i v10 v11 v12
        with_reducible apply Device.updConn_keeps
        with_reducible apply Device.evictFor_keeps
        assumption
    clear_value x6
    have h_x7 : Keeps a x7 := by
      unfold x7
      with_reducible apply Device.pump_keeps
      with_reducible apply Device.drainMisses_keeps
      assumption
    clear_value x7
    refine Keeps.foldl (fun d13 x14 h15 => ?_) ?_
    · with_reducible apply Device.retakeHead_keeps
      assumption
    · assumption

theorem Device.copyBytes_keeps {a : Device} (p0 : Device) (p1 : Nat) (p2 : Nat) (p3 : Nat) (p4 : Nat) (p5 : Nat) (h0 : Keeps a p0) :
    Keeps a (Device.copyBytes p0 p1 p2 p3 p4 p5).1 := by
  unfold Device.copyBytes
  extract_lets +onlyGivenNames x0 x1
  have h_x0 : Keeps a x0.1 := by
    unfold x0
    with_reducible apply Device.checkedRead_keeps
    assumption
  clear_value x0
  have h_x1 : Keeps a x1 := by
    unfold x1
    with_reducible apply Device.store_keeps
    assumption
  clear_value x1
  split
  · rename_i v2 v3
    assumption
  · rename_i v4 v5 v6
    extract_lets +onlyGivenNames x7 x8
    clear_value x7
    clear_value x8
    dsimp only
    refine Keeps.foldl (fun d9 x10 h11 => ?_) ?_
    · with_reducible apply Device.poison_keeps
      assumption
    · assumption

theorem Device.setAccumulators_keeps {a : Device} (p0 : Device) (p1 : Nat) (p2 : Nat) (p3 : List Word32) (h0 : Keeps a p0) :
    Keeps a (Device.setAccumulators p0 p1 p2 p3) := by
  unfold Device.setAccumulators
  with_reducible apply Device.mapFabric_keeps
  assumption

theorem Device.readBuffer_keeps {a : Device} (p0 : Device) (p1 : Nat) (p2 : Nat) (p3 : Nat) (h0 : Keeps a p0) :
    Keeps a (Device.readBuffer p0 p1 p2 p3).2 := by
  unfold Device.readBuffer
  extract_lets +onlyGivenNames x0 x1
  clear_value x0
  clear_value x1
  split
  · rename_i v2
    assumption
  · rename_i v3
    dsimp only
    refine Keeps.congr (d := p0) ?_ rfl rfl rfl rfl rfl rfl rfl
    assumption

theorem Device.withBuffer_keeps {a : Device} (p0 : Device) (p1 : Issue) (p2 : Nat) (p3 : Nat) (p4 : List Byte → Device → Device) (h0 : Keeps a p0) (h4 : ∀ z0 z1, (Keeps a z1) → Keeps a (p4 z0 z1)) :
    Keeps a (Device.withBuffer p0 p1 p2 p3 p4) := by
  unfold Device.withBuffer
  extract_lets +onlyGivenNames x0
  have h_x0 : Keeps a x0.1 := by
    unfold x0
    with_reducible apply Device.checkedRead_keeps
    assumption
  clear_value x0
  split
  · rename_i v1 v2 v3
    with_reducible apply Device.strike_keeps
    assumption
  · rename_i v4 v5
    extract_lets +onlyGivenNames x6
    have h_x6 : Keeps a x6.2 := by
      unfold x6
      with_reducible apply Device.readBuffer_keeps
      assumption
    clear_value x6
    with_reducible apply h4
    assumption

theorem Device.expandBytes_keeps {a : Device} (p0 : Device) (p1 : Issue) (p2 : Nat) (p3 : Nat) (h0 : Keeps a p0) :
    Keeps a (Device.expandBytes p0 p1 p2 p3).2 := by
  unfold Device.expandBytes
  split
  · rename_i v0
    with_reducible apply Device.readBuffer_keeps
    assumption
  · rename_i v1
    assumption

theorem Device.expandOne_keeps {a : Device} (p0 : Device) (p1 : Issue) (p2 : Binding) (p3 : Nat) (h0 : Keeps a p0) :
    Keeps a (Device.expandOne p0 p1 p2 p3).1 := by
  unfold Device.expandOne
  extract_lets +onlyGivenNames x0 x1
  clear_value x0
  have h_x1 : Keeps a x1.1 := by
    unfold x1
    with_reducible apply Device.checkedRead_keeps
    assumption
  clear_value x1
  split
  · rename_i v2 v3 v4
    assumption
  · rename_i v5 v6
    extract_lets +onlyGivenNames x7 x8 x9
    have h_x7 : Keeps a x7.2 := by
      unfold x7
      with_reducible apply Device.readBuffer_keeps
      assumption
    clear_value x7
    clear_value x8
    have h_x9 : Keeps a x9.1 := by
      unfold x9
      split
      · rename_i v10
        assumption
      · rename_i v11
        with_reducible apply Device.checkedRead_keeps
        assumption
    clear_value x9
    split
    · rename_i v12 v13 v14
      assumption
    · rename_i v15 v16
      extract_lets +onlyGivenNames x17 x18 x19 x20
      have h_x17 : Keeps a x17.2 := by
        unfold x17
        split
        · rename_i v21
          assumption
        · rename_i v22
          with_reducible apply Device.expandBytes_keeps
          assumption
      clear_value x17
      clear_value x18
      clear_value x19
      have h_x20 : Keeps a x20.1 := by
        unfold x20
        with_reducible apply Device.judgeBale_keeps
        assumption
      clear_value x20
      assumption

theorem Device.expandRun_keeps {a : Device} (p0 : Device) (p1 : Issue) (p2 : Binding) (p3 : Nat) (p4 : Nat) (p5 : List Byte) (h0 : Keeps a p0) :
    Keeps a (Device.expandRun p0 p1 p2 p3 p4 p5).1 := by
  induction p4 generalizing p0 p1 p2 p3 p5
  · unfold Device.expandRun
    assumption
  · rename_i r0 r1
    unfold Device.expandRun
    extract_lets +onlyGivenNames x0
    have h_x0 : Keeps a x0.1 := by
      unfold x0
      with_reducible apply Device.expandOne_keeps
      assumption
    clear_value x0
    split
    · rename_i v1 v2 v3
      assumption
    · rename_i v4 v5
      with_reducible apply r1
      assumption

theorem Device.withStream_keeps {a : Device} (p0 : Device) (p1 : Issue) (p2 : Option Binding) (p3 : Nat) (p4 : Nat) (p5 : List Byte → Device → Device) (h0 : Keeps a p0) (h5 : ∀ z0 z1, (Keeps a z1) → Keeps a (p5 z0 z1)) :
    Keeps a (Device.withStream p0 p1 p2 p3 p4 p5) := by
  unfold Device.withStream
  split
  · rename_i v0
    with_reducible apply Device.withBuffer_keeps
    · assumption
    · assumption
  · rename_i v1 v2
    extract_lets +onlyGivenNames x3
    have h_x3 : Keeps a x3.1 := by
      unfold x3
      with_reducible apply Device.expandRun_keeps
      assumption
    clear_value x3
    split
    · rename_i v4 v5 v6
      with_reducible apply Device.strike_keeps
      assumption
    · rename_i v7 v8
      with_reducible apply h5
      assumption

theorem Device.withMmac_keeps {a : Device} (p0 : Device) (p1 : Issue) (p2 : Option Binding) (p3 : Nat) (p4 : Nat) (p5 : Mmac → Device → Device) (h0 : Keeps a p0) (h5 : ∀ z0 z1, (Keeps a z1) → Keeps a (p5 z0 z1)) :
    Keeps a (Device.withMmac p0 p1 p2 p3 p4 p5) := by
  unfold Device.withMmac
  with_reducible apply Device.withStream_keeps
  · assumption
  · intro x0
    intro d1
    intro x2
    with_reducible apply Device.withBuffer_keeps
    · assumption
    · intro x3
      intro d4
      intro x5
      with_reducible apply h5
      assumption

theorem Device.matrixRound_keeps {a : Device} (p0 : Mmac) (p1 : Nat) (p2 : Device) (p3 : Nat) (h2 : Keeps a p2) :
    Keeps a (Device.matrixRound p0 p1 p2 p3) := by
  unfold Device.matrixRound
  refine Keeps.foldl (fun d0 x1 h2 => ?_) ?_
  · extract_lets +onlyGivenNames x3 x4
    clear_value x3
    clear_value x4
    refine Keeps.foldl (fun d5 x6 h7 => ?_) ?_
    · with_reducible apply Device.cellStep_keeps
      assumption
    · assumption
  · assumption

theorem Device.matrixRounds_keeps {a : Device} (p0 : Mmac) (p1 : Nat) (p2 : Nat) (p3 : Nat) (p4 : Device) (h4 : Keeps a p4) :
    Keeps a (Device.matrixRounds p0 p1 p2 p3 p4) := by
  unfold Device.matrixRounds
  refine Keeps.foldl (fun d0 x1 h2 => ?_) ?_
  · with_reducible apply Device.matrixRound_keeps
    assumption
  · assumption

theorem Device.cutMmac_keeps {a : Device} (p0 : Device) (p1 : Nat) (p2 : Nat) (p3 : Nat) (h0 : Keeps a p0) :
    Keeps a (Device.cutMmac p0 p1 p2 p3) := by
  unfold Device.cutMmac
  extract_lets +onlyGivenNames x0
  have h_x0 : Keeps a x0 := by
    unfold x0
    with_reducible apply Device.updBlock_keeps
    assumption
  clear_value x0
  split
  · rename_i v1 v2
    assumption
  · rename_i v3 v4 v5
    extract_lets +onlyGivenNames x6
    clear_value x6
    refine Keeps.ite (fun _ => ?_) (fun _ => ?_)
    · rename_i v7
      assumption
    · rename_i v8
      extract_lets +onlyGivenNames x9 x10
      clear_value x9
      have h_x10 : Keeps a x10 := by
        unfold x10
        with_reducible apply Device.updBlock_keeps
        with_reducible apply Device.setAccumulators_keeps
        assumption
      clear_value x10
      with_reducible apply Device.withMmac_keeps
      · assumption
      · intro x11
        intro d12
        intro x13
        with_reducible apply Device.updThread_keeps
        with_reducible apply Device.matrixRounds_keeps
        assumption

theorem Device.restart_keeps {a : Device} (p0 : Device) (h0 : Keeps a p0) :
    Keeps a (Device.restart p0) := by
  unfold Device.restart
  extract_lets +onlyGivenNames x0 x1 x2 x3
  have h_x0 : Keeps a x0 := by
    unfold x0
    with_reducible apply Device.mapPaths_keeps
    assumption
  clear_value x0
  have h_x1 : Keeps a x1 := by
    unfold x1
    with_reducible apply Device.mapService_keeps
    assumption
  clear_value x1
  clear_value x2
  have h_x3 : Keeps a x3 := by
    unfold x3
    refine Keeps.congr (d := x1) ?_ rfl rfl rfl rfl rfl rfl rfl
    assumption
  clear_value x3
  with_reducible apply Device.startWorlds_keeps
  with_reducible apply Device.mapBoot_keeps
  assumption

theorem Device.lockstepLasting_keeps {a : Device} (p0 : Device) (p1 : Nat) (p2 : Bool) (h0 : Keeps a p0) :
    Keeps a (Device.lockstepLasting p0 p1 p2) := by
  unfold Device.lockstepLasting
  extract_lets +onlyGivenNames x0
  have h_x0 : Keeps a x0 := by
    unfold x0
    with_reducible apply Device.mapFaults_keeps
    · with_reducible apply Device.record_keeps
      assumption
    · exact fun _ => ⟨rfl, rfl⟩
  clear_value x0
  refine Keeps.ite (fun _ => ?_) (fun _ => ?_)
  · rename_i v1
    with_reducible apply Device.restart_keeps
    assumption
  · rename_i v2
    assumption

theorem Device.lastingError_keeps {a : Device} (p0 : Device) (p1 : ErrorReport) (h0 : Keeps a p0) :
    Keeps a (Device.lastingError p0 p1) := by
  unfold Device.lastingError
  extract_lets +onlyGivenNames x0 x1 x2
  clear_value x0
  clear_value x1
  clear_value x2
  refine Keeps.ite (fun _ => ?_) (fun _ => ?_)
  · rename_i v3
    with_reducible apply Device.emit_keeps
    with_reducible apply Device.record_keeps
    assumption
  · rename_i v4
    refine Keeps.ite (fun _ => ?_) (fun _ => ?_)
    · rename_i v5
      with_reducible apply Device.connError_keeps
      with_reducible apply Device.record_keeps
      assumption
    · rename_i v6
      refine Keeps.ite (fun _ => ?_) (fun _ => ?_)
      · rename_i v7
        extract_lets +onlyGivenNames x8
        have h_x8 : Keeps a x8.2 := by
          unfold x8
          with_reducible apply Device.draw_keeps
          assumption
        clear_value x8
        with_reducible apply Device.lockstepLasting_keeps
        with_reducible apply Device.record_keeps
        assumption
      · rename_i v9
        refine Keeps.ite (fun _ => ?_) (fun _ => ?_)
        · rename_i v10
          with_reducible apply Device.perform_keeps
          assumption
        · rename_i v11
          with_reducible apply Device.record_keeps
          assumption

theorem Device.detectedError_keeps {a : Device} (p0 : Device) (p1 : ErrorReport) (p2 : Bool) (h0 : Keeps a p0) :
    Keeps a (Device.detectedError p0 p1 p2) := by
  unfold Device.detectedError
  refine Keeps.ite (fun _ => ?_) (fun _ => ?_)
  · rename_i v0
    assumption
  · rename_i v1
    refine Keeps.ite (fun _ => ?_) (fun _ => ?_)
    · rename_i v2
      with_reducible apply Device.mapFaults_keeps
      · assumption
      · exact fun _ => ⟨rfl, rfl⟩
    · rename_i v3
      refine Keeps.ite (fun _ => ?_) (fun _ => ?_)
      · rename_i v4
        with_reducible apply Device.record_keeps
        with_reducible apply Device.mapFaults_keeps
        · assumption
        · exact fun _ => ⟨rfl, rfl⟩
      · rename_i v5
        refine Keeps.ite (fun _ => ?_) (fun _ => ?_)
        · rename_i v6
          assumption
        · rename_i v7
          refine Keeps.ite (fun _ => ?_) (fun _ => ?_)
          · rename_i v8
            with_reducible apply Device.record_keeps
            assumption
          · rename_i v9
            with_reducible apply Device.lastingError_keeps
            assumption

theorem Device.eachLane_keeps {a : Device} (p0 : Nat) (p1 : ServeStep) (p2 : Lane → Nat → List (Nat × Nat)) (p3 : Device → Nat → Lane → Device × Lane) (p4 : Nat) (p5 : List Lane) (p6 : Device) (h3 : ∀ z0 z1 z2, (Keeps a z0) → Keeps a (p3 z0 z1 z2).1) (h6 : Keeps a p6) :
    Keeps a (Device.eachLane p0 p1 p2 p3 p4 p5 p6).1 := by
  induction p5 generalizing p0 p1 p2 p3 p4 p6
  · unfold Device.eachLane
    assumption
  · rename_i r0 r1 r2
    unfold Device.eachLane
    extract_lets +onlyGivenNames x0
    have h_x0 : Keeps a x0.1 := by
      unfold x0
      refine Keeps.foldl_fst (fun d1 x2 h3 => ?_) ?_
      · split
        · rename_i v4 v5 v6
          assumption
        · rename_i v7 v8
          with_reducible apply Device.checkedRead_keeps
          assumption
      · assumption
    clear_value x0
    split
    · rename_i v9 v10 v11
      assumption
    · rename_i v12 v13
      extract_lets +onlyGivenNames x14 x15
      have h_x14 : Keeps a x14.1 := by
        unfold x14
        with_reducible apply h3
        assumption
      clear_value x14
      have h_x15 : Keeps a x15.1 := by
        unfold x15
        with_reducible apply r2
        · assumption
        · assumption
      clear_value x15
      assumption

theorem Device.edgeMissed_keeps {a : Device} (p0 : Device) (h0 : Keeps a p0) :
    Keeps a (Device.edgeMissed p0) := by
  unfold Device.edgeMissed
  refine Keeps.ite (fun _ => ?_) (fun _ => ?_)
  · rename_i v0
    extract_lets +onlyGivenNames x1
    have h_x1 : Keeps a x1 := by
      unfold x1
      with_reducible apply Device.mapTally_keeps
      · assumption
      · exact fun _ => Nat.le_refl _
    clear_value x1
    refine Keeps.ite (fun _ => ?_) (fun _ => ?_)
    · rename_i v2
      with_reducible apply Device.enterHoldover_keeps
      assumption
    · rename_i v3
      assumption
  · rename_i v4
    assumption

theorem Device.edgeIn_keeps {a : Device} (p0 : Device) (h0 : Keeps a p0) :
    Keeps a (Device.edgeIn p0) := by
  unfold Device.edgeIn
  extract_lets +onlyGivenNames x0
  clear_value x0
  refine Keeps.ite (fun _ => ?_) (fun _ => ?_)
  · rename_i v1
    extract_lets +onlyGivenNames x2 x3
    clear_value x2
    clear_value x3
    refine Keeps.ite (fun _ => ?_) (fun _ => ?_)
    · rename_i v4
      with_reducible apply Device.edgeMissed_keeps
      assumption
    · rename_i v5
      extract_lets +onlyGivenNames x6 x7 x8
      clear_value x6
      clear_value x7
      have h_x8 : Keeps a x8 := by
        unfold x8
        with_reducible apply Device.mapTally_keeps
        · assumption
        · exact fun _ => Nat.le_refl _
      clear_value x8
      refine Keeps.ite (fun _ => ?_) (fun _ => ?_)
      · rename_i v9
        with_reducible apply Device.setTallyState_keeps
        assumption
      · rename_i v10
        refine Keeps.ite (fun _ => ?_) (fun _ => ?_)
        · rename_i v11
          with_reducible apply Device.setTallyState_keeps
          assumption
        · rename_i v12
          assumption
  · rename_i v13
    assumption

theorem Device.endHoldover_keeps {a : Device} (p0 : Device) (p1 : Nat) (h0 : Keeps a p0) :
    Keeps a (Device.endHoldover p0 p1) := by
  unfold Device.endHoldover
  refine Keeps.ite (fun _ => ?_) (fun _ => ?_)
  · rename_i v0
    assumption
  · rename_i v1
    refine Keeps.ite (fun _ => ?_) (fun _ => ?_)
    · rename_i v2
      with_reducible apply Device.setTallyState_keeps
      with_reducible apply Device.mapTally_keeps
      · assumption
      · exact fun _ => Nat.le_refl _
    · rename_i v3
      with_reducible apply Device.setTallyState_keeps
      with_reducible apply Device.mapTally_keeps
      · assumption
      · exact fun _ => Nat.le_refl _

theorem Device.writeOutputs_keeps {a : Device} (p0 : Device) (p1 : List Byte) (p2 : ServeConfig) (h0 : Keeps a p0) :
    Keeps a (Device.writeOutputs p0 p1 p2).1 := by
  unfold Device.writeOutputs
  extract_lets +onlyGivenNames x0
  clear_value x0
  refine Keeps.foldl_fst (fun d1 x2 h3 => ?_) ?_
  · extract_lets +onlyGivenNames x4
    clear_value x4
    dsimp only
    with_reducible apply Device.store_keeps
    assumption
  · assumption

theorem Device.endSelect_keeps {a : Device} (p0 : Device) (p1 : Nat) (p2 : Selecting) (h0 : Keeps a p0) :
    Keeps a (Device.endSelect p0 p1 p2) := by
  unfold Device.endSelect
  split
  · rename_i v0 v1
    assumption
  · rename_i v2 v3 v4
    split
    · rename_i v5 v6
      with_reducible apply Device.perform_keeps
      assumption
    · rename_i v7 v8 v9
      extract_lets +onlyGivenNames x10
      have h_x10 : Keeps a x10.1 := by
        unfold x10
        with_reducible apply Device.checkedRead_keeps
        assumption
      clear_value x10
      split
      · rename_i v11 v12 v13
        with_reducible apply Device.failTransfer_keeps
        assumption
      · rename_i v14 v15
        extract_lets +onlyGivenNames x16
        have h_x16 : Keeps a x16.1 := by
          unfold x16
          with_reducible apply Device.writeOutputs_keeps
          assumption
        clear_value x16
        with_reducible apply Device.perform_keeps
        assumption

theorem Device.endStep_keeps {a : Device} (p0 : Device) (p1 : Nat) (p2 : ServeStep) (p3 : Nat) (p4 : Nat) (h0 : Keeps a p0) :
    Keeps a (Device.endStep p0 p1 p2 p3 p4) := by
  unfold Device.endStep
  extract_lets +onlyGivenNames x0
  have h_x0 : Keeps a x0 := by
    unfold x0
    with_reducible apply Device.updServing_keeps
    assumption
  clear_value x0
  with_reducible apply Device.resumeDroves_keeps
  with_reducible apply Device.perform_keeps
  assumption

theorem Device.endSwitches_keeps {a : Device} (p0 : Device) (p1 : Paddock) (h0 : Keeps a p0) :
    Keeps a (Device.endSwitches p0 p1) := by
  unfold Device.endSwitches
  refine Keeps.congr (d := p0) ?_ rfl rfl rfl rfl rfl rfl rfl
  assumption

theorem Device.pinNode_keeps {a : Device} (p0 : Device) (p1 : PrefixTree) (p2 : Nat) (h0 : Keeps a p0) :
    Keeps a (Device.pinNode p0 p1 p2) := by
  unfold Device.pinNode
  with_reducible apply Device.storeLe_keeps
  assumption

theorem Device.endWalk_keeps {a : Device} (p0 : Device) (p1 : Job) (p2 : PrefixTree) (p3 : Nat) (p4 : Option Nat) (h0 : Keeps a p0) :
    Keeps a (Device.endWalk p0 p1 p2 p3 p4) := by
  unfold Device.endWalk
  extract_lets +onlyGivenNames x0
  have h_x0 : Keeps a x0 := by
    unfold x0
    split
    · rename_i v1 v2
      refine Keeps.ite (fun _ => ?_) (fun _ => ?_)
      · rename_i v3
        with_reducible apply Device.pinNode_keeps
        assumption
      · rename_i v4
        assumption
    · rename_i v5
      assumption
  clear_value x0
  with_reducible apply Device.finish_keeps
  assumption

theorem Device.updStep_keeps {a : Device} (p0 : Device) (p1 : Nat) (p2 : ServeStep → ServeStep) (h0 : Keeps a p0) :
    Keeps a (Device.updStep p0 p1 p2) := by
  unfold Device.updStep
  with_reducible apply Device.updServing_keeps
  assumption

theorem Device.enterPhase_keeps {a : Device} (p0 : Device) (p1 : Nat) (p2 : ServeStep) (p3 : StepPhase) (h0 : Keeps a p0) :
    Keeps a (Device.enterPhase p0 p1 p2 p3) := by
  unfold Device.enterPhase
  with_reducible apply Device.storeLe_keeps
  with_reducible apply Device.updStep_keeps
  assumption

theorem Device.evictNode_keeps {a : Device} (p0 : Device) (p1 : Nat) (p2 : PrefixTree) (p3 : Nat) (p4 : Nat) (h0 : Keeps a p0) :
    Keeps a (Device.evictNode p0 p1 p2 p3 p4) := by
  unfold Device.evictNode
  extract_lets +onlyGivenNames x0 x1 x2 x3 x4
  clear_value x0
  clear_value x1
  have h_x2 : Keeps a x2 := by
    unfold x2
    with_reducible apply Device.storeLe_keeps
    assumption
  clear_value x2
  have h_x3 : Keeps a x3 := by
    unfold x3
    refine Keeps.ite (fun _ => ?_) (fun _ => ?_)
    · rename_i v5
      assumption
    · rename_i v6
      with_reducible apply Device.storeLe_keeps
      assumption
  clear_value x3
  have h_x4 : Keeps a x4 := by
    unfold x4
    split
    · rename_i v7 v8 v9
      with_reducible apply Device.storeLe_keeps
      assumption
    · rename_i v10 v11
      assumption
  clear_value x4
  with_reducible apply Device.updDrove_keeps
  with_reducible apply Device.freeSet_keeps
  assumption

theorem Device.evictNodes_keeps {a : Device} (p0 : Nat) (p1 : PrefixTree) (p2 : Nat) (p3 : Nat) (p4 : Device) (h4 : Keeps a p4) :
    Keeps a (Device.evictNodes p0 p1 p2 p3 p4).2 := by
  induction p3 generalizing p0 p1 p2 p4
  · unfold Device.evictNodes
    assumption
  · rename_i r0 r1
    unfold Device.evictNodes
    split
    · rename_i v0 v1
      assumption
    · rename_i v2 v3 v4
      extract_lets +onlyGivenNames x5
      have h_x5 : Keeps a x5.2 := by
        unfold x5
        with_reducible apply r1
        with_reducible apply Device.evictNode_keeps
        assumption
      clear_value x5
      assumption

theorem Device.loadBale_keeps {a : Device} (p0 : Device) (p1 : Nat) (p2 : Nat) (p3 : Nat) (p4 : BaleTransfer) (p5 : Binding) (p6 : Nat) (p7 : Nat) (h0 : Keeps a p0) :
    Keeps a (Device.loadBale p0 p1 p2 p3 p4 p5 p6 p7).1 := by
  unfold Device.loadBale
  extract_lets +onlyGivenNames x0 x1 x2
  clear_value x0
  clear_value x1
  have h_x2 : Keeps a x2.1 := by
    unfold x2
    with_reducible apply Device.checkedRead_keeps
    assumption
  clear_value x2
  split
  · rename_i v3 v4 v5
    assumption
  · rename_i v6 v7
    extract_lets +onlyGivenNames x8 x9 x10 x11 x12 x13
    clear_value x8
    clear_value x9
    clear_value x10
    clear_value x11
    clear_value x12
    have h_x13 : Keeps a x13.1 := by
      unfold x13
      split
      · rename_i v14
        with_reducible apply Device.checkedRead_keeps
        assumption
      · rename_i v15
        assumption
    clear_value x13
    split
    · rename_i v16 v17 v18
      assumption
    · rename_i v19 v20
      extract_lets +onlyGivenNames x21 x22 x23
      clear_value x21
      clear_value x22
      have h_x23 : Keeps a x23.1 := by
        unfold x23
        with_reducible apply Device.judgeBale_keeps
        assumption
      clear_value x23
      split
      · rename_i v24 v25 v26
        assumption
      · rename_i v27 v28
        split
        · rename_i v29
          split
          · rename_i v30
            assumption
          · rename_i v31
            extract_lets +onlyGivenNames x32 x33 x34
            clear_value x32
            clear_value x33
            have h_x34 : Keeps a x34 := by
              unfold x34
              with_reducible apply Device.store_keeps
              assumption
            clear_value x34
            dsimp only
            with_reducible apply Device.store_keeps
            with_reducible apply Device.undefineBuffer_keeps
            assumption
        · rename_i v35
          dsimp only
          with_reducible apply Device.store_keeps
          assumption

theorem Device.loadBales_keeps {a : Device} (p0 : Nat) (p1 : Nat) (p2 : Nat) (p3 : BaleTransfer) (p4 : Binding) (p5 : Nat) (p6 : Nat) (p7 : Nat) (p8 : Device) (h8 : Keeps a p8) :
    Keeps a (Device.loadBales p0 p1 p2 p3 p4 p5 p6 p7 p8).1 := by
  induction p5 generalizing p0 p1 p2 p3 p4 p6 p7 p8
  · unfold Device.loadBales
    assumption
  · rename_i r0 r1
    unfold Device.loadBales
    extract_lets +onlyGivenNames x0
    have h_x0 : Keeps a x0.1 := by
      unfold x0
      with_reducible apply Device.loadBale_keeps
      assumption
    clear_value x0
    split
    · rename_i v1 v2 v3
      assumption
    · rename_i v4 v5
      with_reducible apply r1
      assumption

theorem Device.storeBale_keeps {a : Device} (p0 : Device) (p1 p2 p3 : Nat) (p4 : BaleTransfer) (p5 : Binding) (p6 : Nat) (h0 : Keeps a p0) :
    Keeps a (Device.storeBale p0 p1 p2 p3 p4 p5 p6).1 := by
  unfold Device.storeBale
  extract_lets off r
  have hr : Keeps a r.1 := Device.checkedRead_keeps _ _ _ _ _ h0
  clear_value r
  split
  · exact hr
  · split
    · exact Device.readBuffer_keeps _ _ _ _ hr
    · rename_i d1 hd
      exact Device.baleTo_keeps _ _ _ _ _ (Device.readBuffer_keeps _ _ _ _ hr) _ hd

theorem Device.storeBales_keeps {a : Device} (p0 : Nat) (p1 : Nat) (p2 : Nat) (p3 : BaleTransfer) (p4 : Binding) (p5 : Nat) (p6 : Nat) (p7 : Device) (h7 : Keeps a p7) :
    Keeps a (Device.storeBales p0 p1 p2 p3 p4 p5 p6 p7).1 := by
  induction p5 generalizing p6 p7 with
  | zero => exact h7
  | succ n ih =>
    unfold Device.storeBales
    extract_lets r
    have hr : Keeps a r.1 := Device.storeBale_keeps _ _ _ _ _ _ _ h7
    clear_value r
    split
    · exact hr
    · exact ih _ _ hr

theorem Device.storeSummaries_keeps {a : Device} (p0 : Device) (p1 : Nat) (p2 : Nat) (p3 : BaleTransfer) (p4 : Nat) (h0 : Keeps a p0) :
    Keeps a (Device.storeSummaries p0 p1 p2 p3 p4) := by
  unfold Device.storeSummaries
  split
  · rename_i v0 v1
    assumption
  · rename_i v2 v3 v4
    refine Keeps.ite (fun _ => ?_) (fun _ => ?_)
    · rename_i v5
      assumption
    · rename_i v6
      refine Keeps.foldl (fun d7 x8 h9 => ?_) ?_
      · split
        · rename_i v10 v11
          assumption
        · rename_i v12 v13 v14
          refine Keeps.ite (fun _ => ?_) (fun _ => ?_)
          · rename_i v15
            extract_lets +onlyGivenNames x16
            clear_value x16
            with_reducible apply Device.store_keeps
            assumption
          · rename_i v17
            assumption
      · assumption

theorem Device.runBale_keeps {a : Device} (p0 : Device) (p1 : Nat) (p2 : Nat) (p3 : BaleTransfer) (h0 : Keeps a p0) :
    Keeps a (Device.runBale p0 p1 p2 p3).1 := by
  unfold Device.runBale
  extract_lets +onlyGivenNames x0 x1 x2
  clear_value x0
  clear_value x1
  clear_value x2
  split
  · rename_i v3 v4
    extract_lets +onlyGivenNames x5
    have h_x5 : Keeps a x5.1 := by
      unfold x5
      with_reducible apply Device.loadBales_keeps
      assumption
    clear_value x5
    split
    · rename_i v6 v7
      assumption
    · rename_i v8 v9 v10
      dsimp only
      with_reducible apply Device.undefineBuffer_keeps
      assumption
  · rename_i v11 v12
    extract_lets +onlyGivenNames x13
    have h_x13 : Keeps a x13.1 := by
      unfold x13
      with_reducible apply Device.storeBales_keeps
      assumption
    clear_value x13
    split
    · rename_i v14 v15
      dsimp only
      with_reducible apply Device.storeSummaries_keeps
      assumption
    · rename_i v16 v17 v18
      assumption
  · rename_i v19 v20
    extract_lets +onlyGivenNames x21 x22
    clear_value x21
    have h_x22 : Keeps a x22.1 := by
      unfold x22
      with_reducible apply Device.expandRun_keeps
      assumption
    clear_value x22
    split
    · rename_i v23 v24 v25
      dsimp only
      with_reducible apply Device.undefineBuffer_keeps
      assumption
    · rename_i v26 v27
      dsimp only
      with_reducible apply Device.store_keeps
      assumption
  · rename_i v28 v29
    with_reducible apply Device.copyBytes_keeps
    assumption
  · rename_i v30 v31
    with_reducible apply Device.copyBytes_keeps
    assumption

theorem Device.signalsRange_keeps {a : Device} (p0 : Device) (p1 : Nat) (p2 : Nat) (p3 : Nat) (p4 : BaleTransfer) (h0 : Keeps a p0) :
    Keeps a (Device.signalsRange p0 p1 p2 p3 p4) := by
  unfold Device.signalsRange
  extract_lets +onlyGivenNames x0
  clear_value x0
  refine Keeps.ite (fun _ => ?_) (fun _ => ?_)
  · rename_i v1
    assumption
  · rename_i v2
    with_reducible apply Device.signals_keeps
    assumption

theorem Device.finishBale_keeps {a : Device} (p0 : Device) (p1 : Nat) (p2 : Nat) (h0 : Keeps a p0) :
    Keeps a (Device.finishBale p0 p1 p2) := by
  unfold Device.finishBale
  split
  · rename_i v0 v1 v2 v3 v4 v5 v6
    extract_lets +onlyGivenNames x7 x8
    have h_x7 : Keeps a x7 := by
      unfold x7
      with_reducible apply Device.unhold_keeps
      with_reducible apply Device.updBlock_keeps
      assumption
    clear_value x7
    have h_x8 : Keeps a x8.1 := by
      unfold x8
      with_reducible apply Device.runBale_keeps
      assumption
    clear_value x8
    split
    · rename_i v9 v10 v11
      with_reducible apply Device.strike_keeps
      assumption
    · rename_i v12 v13
      split
      · rename_i v14 v15
        assumption
      · rename_i v16 v17 v18
        with_reducible apply Device.perform_keeps
        with_reducible apply Device.signalsRange_keeps
        assumption
  · rename_i v19 v20 v21
    assumption

theorem Device.flitReplay_keeps {a : Device} (p0 : Device) (p1 : Nat) (p2 : Bool) (h0 : Keeps a p0) :
    Keeps a (Device.flitReplay p0 p1 p2) := by
  unfold Device.flitReplay
  refine Keeps.ite (fun _ => ?_) (fun _ => ?_)
  · rename_i v0
    assumption
  · rename_i v1
    split
    · rename_i v2 v3 v4 v5
      with_reducible apply Device.stileReplay_keeps
      with_reducible apply Device.mapFaults_keeps
      · assumption
      · exact fun _ => ⟨rfl, rfl⟩
    · rename_i v6 v7
      with_reducible apply Device.stileReplay_keeps
      assumption

theorem Device.foldDrains_keeps {a : Device} (p0 : Device) (p1 : Nat) (h0 : Keeps a p0) :
    Keeps a (Device.foldDrains p0 p1) := by
  unfold Device.foldDrains
  split
  · rename_i v0 v1
    assumption
  · rename_i v2 v3 v4
    split
    · rename_i v5 v6
      assumption
    · rename_i v7 v8 v9
      with_reducible apply Device.atDeadline_keeps
      · assumption
      · intro d10
        intro x11
        split
        · rename_i v12 v13
          assumption
        · rename_i v14 v15 v16
          with_reducible apply Device.putFold_keeps
          assumption

theorem Device.gatesMove_keeps {a : Device} (p0 : Device) (p1 : Nat) (h0 : Keeps a p0) :
    Keeps a (Device.gatesMove p0 p1) := by
  unfold Device.gatesMove
  split
  · rename_i v0 v1
    assumption
  · rename_i v2 v3 v4
    split
    · rename_i v5 v6
      assumption
    · rename_i v7 v8 v9 v10
      with_reducible apply Device.atInstant_keeps
      · assumption
      · intro d11
        intro x12
        with_reducible apply Device.updPort_keeps
        with_reducible apply Device.runCredits_keeps
        with_reducible apply Device.runCredits_keeps
        assumption

theorem Device.giveUp_keeps {a : Device} (p0 : Device) (p1 : Nat) (h0 : Keeps a p0) :
    Keeps a (Device.giveUp p0 p1) := by
  unfold Device.giveUp
  split
  · rename_i v0 v1
    assumption
  · rename_i v2 v3 v4
    refine Keeps.ite (fun _ => ?_) (fun _ => ?_)
    · rename_i v5
      assumption
    · rename_i v6
      with_reducible apply Device.atInstant_keeps
      · assumption
      · intro d7
        intro x8
        with_reducible apply Device.connError_keeps
        assumption

theorem Device.keepMmac_keeps {a : Device} (p0 : Device) (p1 : Issue) (p2 : Nat) (p3 : Nat) (p4 : Nat) (p5 : Nat) (p6 : Nat) (h0 : Keeps a p0) :
    Keeps a (Device.keepMmac p0 p1 p2 p3 p4 p5 p6) := by
  unfold Device.keepMmac
  extract_lets +onlyGivenNames x0 x1
  clear_value x0
  clear_value x1
  with_reducible apply Device.updBlock_keeps
  assumption

end Sys2Proof.Machine
end

