-- ==== Sys2Proof/Laws/Keeps6.lean ====
section
/-! SUPPORT. One lemma for each function that yields a device, in the order they call one another (part 6 of 7): what the
function does is kept in the sense of `Keeps`. -/

namespace Sys2Proof.Machine

theorem Device.resumeMmac_keeps {a : Device} (p0 : Device) (p1 : Nat) (p2 : Nat) (p3 : Nat) (h0 : Keeps a p0) :
    Keeps a (Device.resumeMmac p0 p1 p2 p3) := by
  unfold Device.resumeMmac
  extract_lets +onlyGivenNames x0
  clear_value x0
  refine Keeps.ite (fun _ => ?_) (fun _ => ?_)
  · rename_i v1
    assumption
  · rename_i v2
    extract_lets +onlyGivenNames x3 x4 x5
    clear_value x3
    clear_value x4
    have h_x5 : Keeps a x5 := by
      unfold x5
      with_reducible apply Device.updThread_keeps
      assumption
    clear_value x5
    with_reducible apply Device.withMmac_keeps
    · assumption
    · intro x6
      intro d7
      intro x8
      with_reducible apply Device.matrixRounds_keeps
      with_reducible apply Device.updBlock_keeps
      with_reducible apply Device.keepMmac_keeps
      assumption

theorem Device.goOnBlock_keeps {a : Device} (p0 : Device) (p1 : Nat) (p2 : Nat) (h0 : Keeps a p0) :
    Keeps a (Device.goOnBlock p0 p1 p2) := by
  unfold Device.goOnBlock
  refine Keeps.foldl (fun d0 x1 h2 => ?_) ?_
  · with_reducible apply Device.resumeMmac_keeps
    assumption
  · with_reducible apply Device.updBlock_keeps
    assumption

theorem Device.graceEnds_keeps {a : Device} (p0 : Device) (p1 : Nat) (h0 : Keeps a p0) :
    Keeps a (Device.graceEnds p0 p1) := by
  unfold Device.graceEnds
  split
  · rename_i v0 v1
    assumption
  · rename_i v2 v3 v4
    refine Keeps.ite (fun _ => ?_) (fun _ => ?_)
    · rename_i v5
      with_reducible apply Device.atDeadline_keeps
      · assumption
      · intro d6
        intro x7
        with_reducible apply Device.freeIfDrained_keeps
        with_reducible apply Device.updExposure_keeps
        assumption
    · rename_i v8
      assumption

theorem Device.raise_keeps {a : Device} (p0 : Device) (p1 : Issue) (p2 : Nat) (h0 : Keeps a p0) :
    Keeps a (Device.raise p0 p1 p2) := by
  unfold Device.raise
  with_reducible apply Device.exception_keeps
  assumption

theorem Device.guarded_keeps {a : Device} (p0 : Device) (p1 : Issue) (p2 : List (Bool × Nat)) (p3 : Device → Device) (h0 : Keeps a p0) (h3 : ∀ z0, (Keeps a z0) → Keeps a (p3 z0)) :
    Keeps a (Device.guarded p0 p1 p2 p3) := by
  unfold Device.guarded
  split
  · rename_i v0 v1 v2
    with_reducible apply Device.raise_keeps
    assumption
  · rename_i v3 v4
    with_reducible apply h3
    assumption

theorem Device.holdoverLimit_keeps {a : Device} (p0 : Device) (h0 : Keeps a p0) :
    Keeps a (Device.holdoverLimit p0) := by
  unfold Device.holdoverLimit
  refine Keeps.ite (fun _ => ?_) (fun _ => ?_)
  · rename_i v0
    with_reducible apply Device.atDeadline_keeps
    · assumption
    · intro d1
      intro x2
      with_reducible apply Device.endHoldover_keeps
      assumption
  · rename_i v3
    assumption

theorem Device.hostAccess_keeps {a : Device} (p0 : Device) (p1 : Nat) (p2 : HostAccess) (h0 : Keeps a p0) :
    Keeps a (Device.hostAccess p0 p1 p2) := by
  unfold Device.hostAccess
  extract_lets n b refused
  have hr : Keeps a refused := Device.emit_keeps _ _ h0
  clear_value refused
  split
  · exact h0
  · split
    · exact hr
    · split
      · rename_i d1 hd
        split at hd
        · exact Device.cacheHit_keeps _ _ _ _ h0 _ hd
        · cases hd
      · split
        · exact hr
        · split
          · exact hr
          · exact Device.joinWindow_keeps _ _ _ _ h0

theorem Device.updImage_keeps {a : Device} (p0 : Device) (p1 : Nat) (p2 : Image → Image) (h0 : Keeps a p0) :
    Keeps a (Device.updImage p0 p1 p2) := by
  unfold Device.updImage
  refine Keeps.congr (d := p0) ?_ rfl rfl rfl rfl rfl rfl rfl
  assumption

theorem Device.startBlock_keeps {a : Device} (p0 : Device) (p1 : List Byte) (p2 : Nat) (h0 : Keeps a p0) :
    Keeps a (Device.startBlock p0 p1 p2) := by
  unfold Device.startBlock
  with_reducible apply Device.updBlock_keeps
  assumption

theorem Device.liftClocks_keeps {a : Device} (p0 : Device) (h0 : Keeps a p0) :
    Keeps a (Device.liftClocks p0) := by
  unfold Device.liftClocks
  extract_lets +onlyGivenNames x0
  have h_x0 : ∀ z0 z1, (Keeps a z0) → Keeps a (x0 z0 z1) := by
    unfold x0
    intro d1
    intro x2
    intro x3
    with_reducible apply Device.updClock_keeps
    assumption
  clear_value x0
  with_reducible apply Device.settleThrottle_keeps
  refine Keeps.foldl (fun d4 x5 h6 => ?_) ?_
  · with_reducible apply h_x0
    assumption
  · assumption

theorem Device.passQueues_keeps {a : Device} (p0 : Device) (p1 : Nat) (p2 : List Win) (h0 : Keeps a p0) :
    Keeps a (Device.passQueues p0 p1 p2) := by
  unfold Device.passQueues
  extract_lets +onlyGivenNames x0 x1 x2 x3
  clear_value x0
  clear_value x1
  clear_value x2
  have h_x3 : Keeps a x3 := by
    unfold x3
    with_reducible apply Device.mapNet_keeps
    assumption
  clear_value x3
  refine Keeps.foldl (fun d4 x5 h6 => ?_) ?_
  · with_reducible apply Device.refuseDelivery_keeps
    assumption
  · assumption

theorem Device.switchTo_keeps {a : Device} (p0 : Device) (p1 : Nat) (p2 : Paddock) (p3 : Loading) (p4 : Image) (h0 : Keeps a p0) :
    Keeps a (Device.switchTo p0 p1 p2 p3 p4) := by
  unfold Device.switchTo
  extract_lets +onlyGivenNames x0 x1 x2 x3 x4
  clear_value x0
  clear_value x1
  have h_x2 : Keeps a x2 := by
    unfold x2
    split
    · rename_i v5 v6
      with_reducible apply Device.updImage_keeps
      assumption
    · rename_i v7
      assumption
  clear_value x2
  have h_x3 : Keeps a x3 := by
    unfold x3
    with_reducible apply Device.updImage_keeps
    assumption
  clear_value x3
  have h_x4 : Keeps a x4 := by
    unfold x4
    with_reducible apply Device.resetHurdles_keeps
    refine Keeps.foldl (fun d8 x9 h10 => ?_) ?_
    · with_reducible apply Device.updBlock_keeps
      with_reducible apply Device.startBlock_keeps
      assumption
    · assumption
  clear_value x4
  with_reducible apply Device.perform_keeps
  with_reducible apply Device.liftClocks_keeps
  with_reducible apply Device.passQueues_keeps
  assumption

theorem Device.imageSwitch_keeps {a : Device} (p0 : Device) (p1 : Nat) (h0 : Keeps a p0) :
    Keeps a (Device.imageSwitch p0 p1) := by
  unfold Device.imageSwitch
  split
  · rename_i v0 v1
    assumption
  · rename_i v2 v3 v4 v5
    split
    · rename_i v6 v7 v8 v9 v10 v11
      refine Keeps.ite (fun _ => ?_) (fun _ => ?_)
      · rename_i v12
        assumption
      · rename_i v13
        extract_lets +onlyGivenNames x14
        clear_value x14
        with_reducible apply Device.atInstant_keeps
        · assumption
        · intro d15
          intro x16
          extract_lets +onlyGivenNames x17
          have h_x17 : Keeps a x17 := by
            unfold x17
            with_reducible apply Device.mapService_keeps
            assumption
          clear_value x17
          refine Keeps.ite (fun _ => ?_) (fun _ => ?_)
          · rename_i v18
            with_reducible apply Device.switchTo_keeps
            assumption
          · rename_i v19
            with_reducible apply Device.perform_keeps
            with_reducible apply Device.updImage_keeps
            assumption
    · rename_i v20 v21 v22
      assumption

theorem Device.insertWalk_keeps {a : Device} (p0 : Nat) (p1 : PrefixTree) (p2 : Nat) (p3 : Nat) (p4 : Option Nat) (p5 : List Nat) (p6 : Device) (h6 : Keeps a p6) :
    Keeps a (Device.insertWalk p0 p1 p2 p3 p4 p5 p6).2.2 := by
  induction p5 generalizing p0 p1 p2 p3 p4 p6
  · unfold Device.insertWalk
    assumption
  · rename_i r0 r1 r2
    unfold Device.insertWalk
    extract_lets +onlyGivenNames x0
    clear_value x0
    split
    · rename_i v1 v2 v3 v4
      with_reducible apply r2
      assumption
    · rename_i v5 v6 v7 v8 v9
      split
      · rename_i v10
        with_reducible apply r2
        with_reducible apply Device.addNode_keeps
        assumption
      · rename_i v11
        assumption
    · rename_i v12 v13 v14 v15
      assumption

theorem Device.toNextCclk_keeps {a : Device} (p0 : Device) (p1 : Nat) (p2 : Nat) (h0 : Keeps a p0) :
    Keeps a (Device.toNextCclk p0 p1 p2) := by
  unfold Device.toNextCclk
  with_reducible apply Device.advanceTo_keeps
  assumption

theorem Device.takeTurn_keeps {a : Device} (p0 : Device) (p1 : Nat) (p2 : Nat) (p3 : Nat) (p4 : Nat) (p5 : Nat) (p6 : IWord) (h0 : Keeps a p0) :
    Keeps a (Device.takeTurn p0 p1 p2 p3 p4 p5 p6) := by
  unfold Device.takeTurn
  extract_lets +onlyGivenNames x0
  clear_value x0
  with_reducible apply Device.updBlock_keeps
  assumption

theorem Device.issueIn_keeps {a : Device} (p0 : Device) (p1 : Nat) (p2 : Nat) (p3 : Nat) (p4 : Nat) (p5 : Issue → Device → Device) (h0 : Keeps a p0) (h5 : ∀ z0 z1, (Keeps a z1) → Keeps a (p5 z0 z1)) :
    Keeps a (Device.issueIn p0 p1 p2 p3 p4 p5) := by
  unfold Device.issueIn
  extract_lets +onlyGivenNames x0 x1 x2
  clear_value x0
  clear_value x1
  have h_x2 : Keeps a x2 := by
    unfold x2
    with_reducible apply Device.takeTurn_keeps
    assumption
  clear_value x2
  refine Keeps.ite (fun _ => ?_) (fun _ => ?_)
  · rename_i v3
    with_reducible apply Device.exception_keeps
    assumption
  · rename_i v4
    refine Keeps.ite (fun _ => ?_) (fun _ => ?_)
    · rename_i v5
      with_reducible apply Device.raise_keeps
      assumption
    · rename_i v6
      with_reducible apply h5
      assumption

theorem Device.passedBy_keeps {a : Device} (p0 : Device) (p1 : Nat) (p2 : Nat) (p3 : Nat) (h0 : Keeps a p0) :
    Keeps a (Device.passedBy p0 p1 p2 p3) := by
  unfold Device.passedBy
  extract_lets +onlyGivenNames x0
  clear_value x0
  refine Keeps.ite (fun _ => ?_) (fun _ => ?_)
  · rename_i v1
    assumption
  · rename_i v2
    refine Keeps.ite (fun _ => ?_) (fun _ => ?_)
    · rename_i v3
      with_reducible apply Device.updThread_keeps
      assumption
    · rename_i v4
      assumption

theorem Device.issue_keeps {a : Device} (p0 : Device) (p1 : ThreadId) (p2 : Nat) (p3 : IWord) (p4 : Issue → Device → Device) (h0 : Keeps a p0) (h4 : ∀ z0 z1, (Keeps a z1) → Keeps a (p4 z0 z1)) :
    Keeps a (Device.issue p0 p1 p2 p3 p4) := by
  unfold Device.issue
  extract_lets +onlyGivenNames x0 x1
  clear_value x0
  clear_value x1
  split
  · rename_i v2 v3
    assumption
  · rename_i v4 v5 v6
    refine Keeps.ite (fun _ => ?_) (fun _ => ?_)
    · rename_i v7
      extract_lets +onlyGivenNames x8
      have h_x8 : Keeps a x8 := by
        unfold x8
        with_reducible apply Device.toNextCclk_keeps
        assumption
      clear_value x8
      refine Keeps.ite (fun _ => ?_) (fun _ => ?_)
      · rename_i v9
        assumption
      · rename_i v10
        split
        · rename_i v11 v12 v13
          with_reducible apply Device.issueIn_keeps
          · assumption
          · assumption
        · rename_i v14 v15
          with_reducible apply Device.passedBy_keeps
          assumption
    · rename_i v16
      assumption

theorem Device.pushBack_keeps {a : Device} (p0 : Device) (p1 : Nat) (p2 : Nat) (p3 : Nat) (p4 : List Nat) (h0 : Keeps a p0) :
    Keeps a (Device.pushBack p0 p1 p2 p3 p4) := by
  unfold Device.pushBack
  extract_lets +onlyGivenNames x0
  have h_x0 : Keeps a x0 := by
    unfold x0
    refine Keeps.ite (fun _ => ?_) (fun _ => ?_)
    · rename_i v1
      assumption
    · rename_i v2
      with_reducible apply Device.storeLe_keeps
      assumption
  clear_value x0
  refine Keeps.foldl (fun d3 x4 h5 => ?_) ?_
  · with_reducible apply Device.pushSet_keeps
    assumption
  · assumption

theorem Device.lanePages_keeps {a : Device} (p0 : Device) (p1 : Nat) (p2 : Paddock) (p3 : List Byte) (p4 : Nat) (p5 : Nat) (h0 : Keeps a p0) :
    Keeps a (Device.lanePages p0 p1 p2 p3 p4 p5).1 := by
  unfold Device.lanePages
  extract_lets +onlyGivenNames x0 x1
  clear_value x0
  clear_value x1
  split
  · rename_i v2
    assumption
  · rename_i v3
    extract_lets +onlyGivenNames x4 x5 x6 x7 x8 x9 x10
    clear_value x4
    clear_value x5
    clear_value x6
    clear_value x7
    clear_value x8
    clear_value x9
    have h_x10 : Keeps a x10.1 := by
      unfold x10
      with_reducible apply Device.addSets_keeps
      assumption
    clear_value x10
    split
    · rename_i v11
      assumption
    · rename_i v12
      dsimp only
      with_reducible apply Device.pushBack_keeps
      assumption

theorem Device.leaseExpiry_keeps {a : Device} (p0 : Device) (h0 : Keeps a p0) :
    Keeps a (Device.leaseExpiry p0) := by
  unfold Device.leaseExpiry
  split
  · rename_i v0 v1
    assumption
  · rename_i v2 v3 v4
    with_reducible apply Device.atDeadline_keeps
    · assumption
    · intro d5
      intro x6
      with_reducible apply Device.setOwner_keeps
      assumption

theorem Device.linkDown_keeps {a : Device} (p0 : Device) (p1 : Nat) (h0 : Keeps a p0) :
    Keeps a (Device.linkDown p0 p1) := by
  unfold Device.linkDown
  refine Keeps.ite (fun _ => ?_) (fun _ => ?_)
  · rename_i v0
    assumption
  · rename_i v1
    extract_lets +onlyGivenNames x2
    have h_x2 : Keeps a x2 := by
      unfold x2
      with_reducible apply Device.linkGoesDown_keeps
      assumption
    clear_value x2
    refine Keeps.ite (fun _ => ?_) (fun _ => ?_)
    · rename_i v3
      with_reducible apply Device.loseLane_keeps
      assumption
    · rename_i v4
      assumption

theorem Device.noteSyncSent_keeps {a : Device} (p0 : Device) (p1 : OutFrame) (h0 : Keeps a p0) :
    Keeps a (Device.noteSyncSent p0 p1) := by
  unfold Device.noteSyncSent
  refine Keeps.ite (fun _ => ?_) (fun _ => ?_)
  · rename_i v0
    extract_lets +onlyGivenNames x1 x2
    clear_value x1
    clear_value x2
    with_reducible apply Device.mapTally_keeps
    · assumption
    · exact fun _ => Nat.le_refl _
  · rename_i v3
    assumption

theorem Device.transmit_keeps {a : Device} (p0 : Device) (p1 : Nat) (p2 : Nat) (h0 : Keeps a p0) :
    Keeps a (Device.transmit p0 p1 p2) := by
  unfold Device.transmit
  split
  · rename_i v0 v1
    assumption
  · rename_i v2 v3 v4 v5
    extract_lets +onlyGivenNames x6 x7 x8 x9 x10
    clear_value x6
    clear_value x7
    have h_x8 : Keeps a x8 := by
      unfold x8
      with_reducible apply Device.noteSyncSent_keeps
      with_reducible apply Device.updLink_keeps
      assumption
    clear_value x8
    have h_x9 : Keeps a x9 := by
      unfold x9
      split
      · rename_i v11 v12 v13 v14
        with_reducible apply Device.updConn_keeps
        assumption
      · rename_i v15 v16
        assumption
    clear_value x9
    have h_x10 : Keeps a x10 := by
      unfold x10
      with_reducible apply Device.traced_keeps
      assumption
    clear_value x10
    with_reducible apply Device.emit_keeps
    assumption

theorem Device.selectLink_keeps {a : Device} (p0 : Device) (p1 : Nat) (h0 : Keeps a p0) :
    Keeps a (Device.selectLink p0 p1) := by
  unfold Device.selectLink
  extract_lets +onlyGivenNames x0 x1 x2
  have h_x0 : Keeps a x0 := by
    unfold x0
    with_reducible apply Device.runCredits_keeps
    assumption
  clear_value x0
  clear_value x1
  clear_value x2
  refine Keeps.ite (fun _ => ?_) (fun _ => ?_)
  · rename_i v3
    extract_lets +onlyGivenNames x4 x5 x6
    have h_x4 : Keeps a x4 := by
      unfold x4
      with_reducible apply Device.updLink_keeps
      assumption
    clear_value x4
    clear_value x5
    have h_x6 : Keeps a x6 := by
      unfold x6
      with_reducible apply Device.updLink_keeps
      assumption
    clear_value x6
    split
    · rename_i v7 v8 v9
      with_reducible apply Device.transmit_keeps
      assumption
    · rename_i v10 v11
      assumption
  · rename_i v12
    assumption

theorem Device.linkSelects_keeps {a : Device} (p0 : Device) (p1 : Nat) (h0 : Keeps a p0) :
    Keeps a (Device.linkSelects p0 p1) := by
  unfold Device.linkSelects
  extract_lets +onlyGivenNames x0
  clear_value x0
  with_reducible apply Device.atInstant_keeps
  · assumption
  · intro d1
    intro x2
    extract_lets +onlyGivenNames x3 x4 x5
    have h_x3 : Keeps a x3 := by
      unfold x3
      with_reducible apply Device.runCredits_keeps
      assumption
    clear_value x3
    clear_value x4
    clear_value x5
    refine Keeps.ite (fun _ => ?_) (fun _ => ?_)
    · rename_i v6
      with_reducible apply Device.selectLink_keeps
      assumption
    · rename_i v7
      split
      · rename_i v8 v9 v10
        with_reducible apply Device.atInstant_keeps
        · assumption
        · intro d11
          intro x12
          with_reducible apply Device.selectLink_keeps
          assumption
      · rename_i v13 v14
        assumption

theorem Device.lockstepMismatch_keeps {a : Device} (p0 : Device) (p1 : Nat) (h0 : Keeps a p0) :
    Keeps a (Device.lockstepMismatch p0 p1) := by
  unfold Device.lockstepMismatch
  refine Keeps.ite (fun _ => ?_) (fun _ => ?_)
  · rename_i v0
    assumption
  · rename_i v1
    extract_lets +onlyGivenNames x2
    clear_value x2
    split
    · rename_i v3 v4
      extract_lets +onlyGivenNames x5
      have h_x5 : Keeps a x5 := by
        unfold x5
        with_reducible apply Device.mapFaults_keeps
        · assumption
        · exact fun _ => ⟨rfl, rfl⟩
      clear_value x5
      refine Keeps.ite (fun _ => ?_) (fun _ => ?_)
      · rename_i v6
        with_reducible apply Device.lockstepLasting_keeps
        assumption
      · rename_i v7
        with_reducible apply Device.record_keeps
        assumption
    · rename_i v8
      extract_lets +onlyGivenNames x9
      have h_x9 : Keeps a x9.2 := by
        unfold x9
        with_reducible apply Device.draw_keeps
        assumption
      clear_value x9
      refine Keeps.ite (fun _ => ?_) (fun _ => ?_)
      · rename_i v10
        with_reducible apply Device.record_keeps
        assumption
      · rename_i v11
        with_reducible apply Device.lockstepLasting_keeps
        assumption

theorem Device.lookup_keeps {a : Device} (p0 : Device) (p1 : Job) (p2 : PrefixTree) (p3 : ServeConfig) (h0 : Keeps a p0) :
    Keeps a (Device.lookup p0 p1 p2 p3) := by
  unfold Device.lookup
  extract_lets +onlyGivenNames x0 x1 x2 x3 x4 x5
  clear_value x0
  clear_value x1
  clear_value x2
  clear_value x3
  have h_x4 : Keeps a x4 := by
    unfold x4
    with_reducible apply Device.store_keeps
    assumption
  clear_value x4
  have h_x5 : Keeps a x5 := by
    unfold x5
    refine Keeps.foldl (fun d6 x7 h8 => ?_) ?_
    · with_reducible apply Device.storeLe_keeps
      assumption
    · assumption
  clear_value x5
  with_reducible apply Device.endWalk_keeps
  assumption

theorem Device.maskLane_keeps {a : Device} (p0 : Device) (p1 : Nat) (p2 : ServeStep) (p3 : Nat) (p4 : Lane) (h0 : Keeps a p0) :
    Keeps a (Device.maskLane p0 p1 p2 p3 p4).1 := by
  unfold Device.maskLane
  split
  · rename_i v0
    assumption
  · rename_i v1
    extract_lets +onlyGivenNames x2
    clear_value x2
    split
    · rename_i v3 v4
      assumption
    · rename_i v5 v6
      extract_lets +onlyGivenNames x7 x8
      clear_value x7
      clear_value x8
      dsimp only
      with_reducible apply Device.storeLe_keeps
      with_reducible apply Device.store_keeps
      assumption

theorem Device.missFrame_keeps {a : Device} (p0 : Device) (p1 : Nat) (p2 : Arrived) (h0 : Keeps a p0) :
    Keeps a (Device.missFrame p0 p1 p2) := by
  unfold Device.missFrame
  extract_lets +onlyGivenNames x0 x1
  clear_value x0
  clear_value x1
  refine Keeps.ite (fun _ => ?_) (fun _ => ?_)
  · rename_i v2
    with_reducible apply Device.countLink_keeps
    assumption
  · rename_i v3
    extract_lets +onlyGivenNames x4
    clear_value x4
    with_reducible apply Device.fetchContext_keeps
    with_reducible apply Device.countConn_keeps
    with_reducible apply Device.mapNet_keeps
    assumption

theorem Device.netrefBack_keeps {a : Device} (p0 : Device) (p1 : Nat) (h0 : Keeps a p0) :
    Keeps a (Device.netrefBack p0 p1) := by
  unfold Device.netrefBack
  extract_lets +onlyGivenNames x0
  have h_x0 : Keeps a x0 := by
    unfold x0
    with_reducible apply Device.mapPower_keeps
    assumption
  clear_value x0
  refine Keeps.ite (fun _ => ?_) (fun _ => ?_)
  · rename_i v1
    assumption
  · rename_i v2
    refine Keeps.foldl (fun d3 x4 h5 => ?_) ?_
    · extract_lets +onlyGivenNames x6
      clear_value x6
      refine Keeps.ite (fun _ => ?_) (fun _ => ?_)
      · rename_i v7
        with_reducible apply Device.setLink_keeps
        assumption
      · rename_i v8
        assumption
    · assumption

theorem Device.netrefLoss_keeps {a : Device} (p0 : Device) (p1 : Nat) (h0 : Keeps a p0) :
    Keeps a (Device.netrefLoss p0 p1) := by
  unfold Device.netrefLoss
  extract_lets +onlyGivenNames x0
  have h_x0 : Keeps a x0 := by
    unfold x0
    with_reducible apply Device.mapPower_keeps
    assumption
  clear_value x0
  refine Keeps.foldl (fun d1 x2 h3 => ?_) ?_
  · extract_lets +onlyGivenNames x4
    clear_value x4
    refine Keeps.ite (fun _ => ?_) (fun _ => ?_)
    · rename_i v5
      with_reducible apply Device.setLink_keeps
      assumption
    · rename_i v6
      with_reducible apply Device.linkDown_keeps
      assumption
  · assumption

theorem Device.noteCopy_keeps {a : Device} (p0 : Device) (h0 : Keeps a p0) :
    Keeps a (Device.noteCopy p0) := by
  unfold Device.noteCopy
  split
  · rename_i v0 v1
    assumption
  · rename_i v2 v3 v4 v5
    with_reducible apply Device.atInstant_keeps
    · assumption
    · intro d6
      intro x7
      extract_lets +onlyGivenNames x8 x9
      clear_value x8
      clear_value x9
      with_reducible apply Device.mapFaults_keeps
      · with_reducible apply Device.sendNotes_keeps
        assumption
      · exact fun _ => ⟨rfl, rfl⟩

theorem Device.offerLapse_keeps {a : Device} (p0 : Device) (h0 : Keeps a p0) :
    Keeps a (Device.offerLapse p0) := by
  unfold Device.offerLapse
  split
  · rename_i v0 v1
    assumption
  · rename_i v2 v3 v4
    with_reducible apply Device.atDeadline_keeps
    · assumption
    · intro d5
      intro x6
      with_reducible apply Device.mapOwn_keeps
      assumption

theorem Device.openWindow_keeps {a : Device} (p0 : Device) (p1 : Nat) (p2 : Nat) (h0 : Keeps a p0) :
    Keeps a (Device.openWindow p0 p1 p2) := by
  unfold Device.openWindow
  refine Keeps.ite (fun _ => ?_) (fun _ => ?_)
  · rename_i v0
    assumption
  · rename_i v1
    split
    · rename_i v2 v3 v4 v5 v6 v7
      extract_lets +onlyGivenNames x8 x9 x10
      clear_value x8
      clear_value x9
      clear_value x10
      with_reducible apply Device.atInstant_keeps
      · assumption
      · intro d11
        intro x12
        extract_lets +onlyGivenNames x13
        have h_x13 : Keeps a x13 := by
          unfold x13
          refine Keeps.foldl (fun d14 x15 h16 => ?_) ?_
          · with_reducible apply Device.updThread_keeps
            assumption
          · assumption
        clear_value x13
        refine Keeps.ite (fun _ => ?_) (fun _ => ?_)
        · rename_i v17
          with_reducible apply Device.admitFrom_keeps
          assumption
        · rename_i v18
          assumption
    · rename_i v19 v20 v21
      assumption

theorem Device.pacingDue_keeps {a : Device} (p0 : Device) (p1 : Nat) (h0 : Keeps a p0) :
    Keeps a (Device.pacingDue p0 p1) := by
  unfold Device.pacingDue
  split
  · rename_i v0 v1
    assumption
  · rename_i v2 v3 v4
    split
    · rename_i v5 v6
      assumption
    · rename_i v7 v8 v9
      with_reducible apply Device.atInstant_keeps
      · assumption
      · intro d10
        intro x11
        with_reducible apply Device.pump_keeps
        assumption

theorem Device.startThreads_keeps {a : Device} (p0 : Device) (p1 : Nat) (p2 : Paddock) (h0 : Keeps a p0) :
    Keeps a (Device.startThreads p0 p1 p2) := by
  unfold Device.startThreads
  refine Keeps.ite (fun _ => ?_) (fun _ => ?_)
  · rename_i v0
    refine Keeps.foldl (fun d1 x2 h3 => ?_) ?_
    · with_reducible apply Device.goOnBlock_keeps
      assumption
    · assumption
  · rename_i v4
    split
    · rename_i v5 v6 v7
      refine Keeps.foldl (fun d8 x9 h10 => ?_) ?_
      · with_reducible apply Device.startBlock_keeps
        assumption
      · assumption
    · rename_i v11 v12
      assumption

theorem Device.paddockRunning_keeps {a : Device} (p0 : Device) (p1 : Nat) (h0 : Keeps a p0) :
    Keeps a (Device.paddockRunning p0 p1) := by
  unfold Device.paddockRunning
  split
  · rename_i v0 v1
    assumption
  · rename_i v2 v3 v4
    refine Keeps.ite (fun _ => ?_) (fun _ => ?_)
    · rename_i v5
      assumption
    · rename_i v6
      extract_lets +onlyGivenNames x7
      clear_value x7
      with_reducible apply Device.atInstant_keeps
      · assumption
      · intro d8
        intro x9
        extract_lets +onlyGivenNames x10 x11
        have h_x10 : Keeps a x10 := by
          unfold x10
          with_reducible apply Device.setPaddockState_keeps
          with_reducible apply Device.startThreads_keeps
          assumption
        clear_value x10
        have h_x11 : Keeps a x11 := by
          unfold x11
          refine Keeps.foldl (fun d12 x13 h14 => ?_) ?_
          · with_reducible apply Device.updBlock_keeps
            assumption
          · assumption
        clear_value x11
        with_reducible apply Device.schedule_keeps
        with_reducible apply Device.updPaddock_keeps
        with_reducible apply Device.endSwitches_keeps
        assumption

theorem Device.paddockWork_keeps {a : Device} (p0 : Device) (p1 : Nat) (h0 : Keeps a p0) :
    Keeps a (Device.paddockWork p0 p1) := by
  unfold Device.paddockWork
  split
  · rename_i v0 v1
    assumption
  · rename_i v2 v3 v4
    refine Keeps.ite (fun _ => ?_) (fun _ => ?_)
    · rename_i v5
      assumption
    · rename_i v6
      extract_lets +onlyGivenNames x7
      have h_x7 : Keeps a x7 := by
        unfold x7
        with_reducible apply Device.updPaddock_keeps
        assumption
      clear_value x7
      with_reducible apply Device.schedule_keeps
      refine Keeps.ite (fun _ => ?_) (fun _ => ?_)
      · rename_i v8
        with_reducible apply Device.setPaddockState_keeps
        assumption
      · rename_i v9
        assumption

theorem Device.popSets_keeps {a : Device} (p0 : Device) (p1 : Nat) (p2 : Nat) (p3 : Nat) (h0 : Keeps a p0) :
    ∀ y, (Device.popSets p0 p1 p2 p3) = some y → Keeps a y.2 := by
  induction p3 generalizing p0 with
  | zero =>
    intro y h
    unfold Device.popSets at h
    injection h with h
    subst h
    exact h0
  | succ n ih =>
    intro y h
    unfold Device.popSets at h
    split at h
    · cases h
    · rename_i r hr
      have h1 := Device.popSet_keeps p0 p1 p2 h0 _ hr
      split at h
      · cases h
      · rename_i rest hrest
        injection h with h
        subst h
        exact ih _ h1 rest hrest

theorem Device.safeStates_keeps {a : Device} (p0 : Device) (h0 : Keeps a p0) :
    Keeps a (Device.safeStates p0) := by
  unfold Device.safeStates
  with_reducible apply Device.mapPaths_keeps
  with_reducible apply Device.loseLane_keeps
  with_reducible apply Device.portsDown_keeps
  assumption

theorem Device.trip_keeps {a : Device} (p0 : Device) (h0 : Keeps a p0) :
    Keeps a (Device.trip p0) := by
  unfold Device.trip
  with_reducible apply Device.setDevState_keeps
  with_reducible apply Device.mapPower_keeps
  with_reducible apply Device.safeStates_keeps
  assumption

theorem Device.throttleDown_keeps {a : Device} (p0 : Device) (p1 : Nat) (h0 : Keeps a p0) :
    Keeps a (Device.throttleDown p0 p1) := by
  unfold Device.throttleDown
  extract_lets +onlyGivenNames x0
  clear_value x0
  refine Keeps.foldl (fun d1 x2 h3 => ?_) ?_
  · with_reducible apply Device.updClock_keeps
    assumption
  · with_reducible apply Device.mapPower_keeps
    assumption

theorem Device.throttleUp_keeps {a : Device} (p0 : Device) (h0 : Keeps a p0) :
    Keeps a (Device.throttleUp p0) := by
  unfold Device.throttleUp
  split
  · rename_i v0 v1
    assumption
  · rename_i v2 v3 v4 v5
    refine Keeps.foldl (fun d6 x7 h8 => ?_) ?_
    · with_reducible apply Device.updClock_keeps
      assumption
    · with_reducible apply Device.mapPower_keeps
      assumption

theorem Device.powerMeasurement_keeps {a : Device} (p0 : Device) (p1 : PowerReading) (h0 : Keeps a p0) :
    Keeps a (Device.powerMeasurement p0 p1) := by
  unfold Device.powerMeasurement
  refine Keeps.ite (fun _ => ?_) (fun _ => ?_)
  · rename_i v0
    assumption
  · rename_i v1
    with_reducible apply Device.atInstant_keeps
    · assumption
    · intro d2
      intro x3
      extract_lets +onlyGivenNames x4
      have h_x4 : Keeps a x4 := by
        unfold x4
        with_reducible apply Device.mapPower_keeps
        refine Keeps.foldl (fun d5 x6 h7 => ?_) ?_
        · with_reducible apply Device.updClock_keeps
          assumption
        · assumption
      clear_value x4
      refine Keeps.ite (fun _ => ?_) (fun _ => ?_)
      · rename_i v8
        with_reducible apply Device.trip_keeps
        assumption
      · rename_i v9
        extract_lets +onlyGivenNames x10 x11
        have h_x10 : Keeps a x10 := by
          unfold x10
          refine Keeps.ite (fun _ => ?_) (fun _ => ?_)
          · rename_i v12
            with_reducible apply Device.throttleDown_keeps
            assumption
          · rename_i v13
            refine Keeps.ite (fun _ => ?_) (fun _ => ?_)
            · rename_i v14
              with_reducible apply Device.throttleUp_keeps
              assumption
            · rename_i v15
              assumption
        clear_value x10
        have h_x11 : Keeps a x11 := by
          unfold x11
          with_reducible apply Device.settleThrottle_keeps
          with_reducible apply Device.clampTargets_keeps
          assumption
        clear_value x11
        with_reducible apply Device.mapPower_keeps
        assumption

theorem Device.ppsFall_keeps {a : Device} (p0 : Device) (h0 : Keeps a p0) :
    Keeps a (Device.ppsFall p0) := by
  unfold Device.ppsFall
  refine Keeps.ite (fun _ => ?_) (fun _ => ?_)
  · rename_i v0
    with_reducible apply Device.mapTally_keeps
    · with_reducible apply Device.advanceTo_keeps
      assumption
    · exact fun _ => Nat.le_refl _
  · rename_i v1
    assumption

theorem Device.ppsRise_keeps {a : Device} (p0 : Device) (h0 : Keeps a p0) :
    Keeps a (Device.ppsRise p0) := by
  unfold Device.ppsRise
  extract_lets +onlyGivenNames x0
  have h_x0 : Keeps a x0 := by
    unfold x0
    with_reducible apply Device.advanceTo_keeps
    assumption
  clear_value x0
  refine Keeps.ite (fun _ => ?_) (fun _ => ?_)
  · rename_i v1
    with_reducible apply Device.mapTally_keeps
    · assumption
    · exact fun _ => Nat.le_refl _
  · rename_i v2
    assumption

theorem Device.preemptStopped_keeps {a : Device} (p0 : Device) (p1 : Nat) (h0 : Keeps a p0) :
    Keeps a (Device.preemptStopped p0 p1) := by
  unfold Device.preemptStopped
  split
  · rename_i v0 v1
    assumption
  · rename_i v2 v3 v4
    split
    · rename_i v5 v6 v7 v8 v9
      extract_lets +onlyGivenNames x10
      clear_value x10
      refine Keeps.ite (fun _ => ?_) (fun _ => ?_)
      · rename_i v11
        extract_lets +onlyGivenNames x12 x13
        have h_x12 : Keeps a x12 := by
          unfold x12
          with_reducible apply Device.stopThreads_keeps
          assumption
        clear_value x12
        have h_x13 : Keeps a x13 := by
          unfold x13
          refine Keeps.ite (fun _ => ?_) (fun _ => ?_)
          · rename_i v14
            refine Keeps.foldl (fun d15 x16 h17 => ?_) ?_
            · with_reducible apply Device.cutMmac_keeps
              assumption
            · assumption
          · rename_i v18
            assumption
        clear_value x13
        with_reducible apply Device.setPaddockState_keeps
        refine Keeps.foldl (fun d19 x20 h21 => ?_) ?_
        · with_reducible apply Device.rouse_keeps
          assumption
        · assumption
      · rename_i v22
        assumption
    · rename_i v23 v24 v25
      assumption

theorem Device.preemptionEscalation_keeps {a : Device} (p0 : Device) (p1 : Nat) (h0 : Keeps a p0) :
    Keeps a (Device.preemptionEscalation p0 p1) := by
  unfold Device.preemptionEscalation
  split
  · rename_i v0 v1
    assumption
  · rename_i v2 v3 v4
    split
    · rename_i v5 v6
      assumption
    · rename_i v7 v8 v9
      with_reducible apply Device.atDeadline_keeps
      · assumption
      · intro d10
        intro x11
        split
        · rename_i v12 v13 v14
          refine Keeps.ite (fun _ => ?_) (fun _ => ?_)
          · rename_i v15
            with_reducible apply Device.escalate_keeps
            assumption
          · rename_i v16
            assumption
        · rename_i v17 v18
          assumption

theorem Device.pullDeadline_keeps {a : Device} (p0 : Device) (p1 : Nat) (h0 : Keeps a p0) :
    Keeps a (Device.pullDeadline p0 p1) := by
  unfold Device.pullDeadline
  split
  · rename_i v0 v1
    assumption
  · rename_i v2 v3 v4
    refine Keeps.ite (fun _ => ?_) (fun _ => ?_)
    · rename_i v5
      assumption
    · rename_i v6
      with_reducible apply Device.atDeadline_keeps
      · assumption
      · intro d7
        intro x8
        split
        · rename_i v9 v10
          assumption
        · rename_i v11 v12 v13
          refine Keeps.ite (fun _ => ?_) (fun _ => ?_)
          · rename_i v14
            assumption
          · rename_i v15
            with_reducible apply Device.revertOffer_keeps
            assumption

theorem Device.pwrGoodRise_keeps {a : Device} (p0 : Device) (h0 : Keeps a p0) :
    Keeps a (Device.pwrGoodRise p0) := by
  unfold Device.pwrGoodRise
  refine Keeps.ite (fun _ => ?_) (fun _ => ?_)
  · rename_i v0
    with_reducible apply Device.setDevState_keeps
    with_reducible apply Device.mapBoot_keeps
    assumption
  · rename_i v1
    assumption

theorem Device.readTokens_keeps {a : Device} (p0 : Device) (p1 : Job) (h0 : Keeps a p0) :
    Keeps a (Device.readTokens p0 p1).1 := by
  unfold Device.readTokens
  with_reducible apply Device.checkedRead_keeps
  assumption

theorem Device.takeSync_keeps {a : Device} (p0 : Device) (p1 : Frame) (h0 : Keeps a p0) :
    Keeps a (Device.takeSync p0 p1) := by
  unfold Device.takeSync
  extract_lets +onlyGivenNames x0 x1 x2
  clear_value x0
  clear_value x1
  clear_value x2
  refine Keeps.ite (fun _ => ?_) (fun _ => ?_)
  · rename_i v3
    assumption
  · rename_i v4
    split
    · rename_i v5 v6
      assumption
    · rename_i v7 v8 v9
      extract_lets +onlyGivenNames x10 x11 x12 x13 x14 x15
      clear_value x10
      clear_value x11
      clear_value x12
      clear_value x13
      clear_value x14
      have h_x15 : Keeps a x15 := by
        unfold x15
        with_reducible apply Device.mapTally_keeps
        · assumption
        · exact fun _ => Nat.le_refl _
      clear_value x15
      refine Keeps.ite (fun _ => ?_) (fun _ => ?_)
      · rename_i v16
        with_reducible apply Device.setTallyState_keeps
        with_reducible apply Device.mapTally_keeps
        · assumption
        · exact fun _ => Nat.le_refl _
      · rename_i v17
        assumption

theorem Device.takeNote_keeps {a : Device} (p0 : Device) (p1 : Frame) (h0 : Keeps a p0) :
    Keeps a (Device.takeNote p0 p1) := by
  unfold Device.takeNote
  extract_lets +onlyGivenNames x0 x1 x2 x3 x4 x5
  clear_value x0
  clear_value x1
  clear_value x2
  clear_value x3
  clear_value x4
  clear_value x5
  refine Keeps.ite (fun _ => ?_) (fun _ => ?_)
  · rename_i v6
    with_reducible apply Device.record_keeps
    with_reducible apply Device.mapFaults_keeps
    · assumption
    · exact fun _ => ⟨rfl, rfl⟩
  · rename_i v7
    assumption

theorem Device.receive_keeps {a : Device} (p0 : Device) (p1 : Fin 64) (p2 : Nat) (p3 : Frame) (h0 : Keeps a p0) :
    Keeps a (Device.receive p0 p1 p2 p3) := by
  unfold Device.receive
  extract_lets +onlyGivenNames x0
  clear_value x0
  refine Keeps.ite (fun _ => ?_) (fun _ => ?_)
  · rename_i v1
    assumption
  · rename_i v2
    extract_lets +onlyGivenNames x3 x4
    have h_x3 : Keeps a x3 := by
      unfold x3
      with_reducible apply Device.traced_keeps
      with_reducible apply Device.countLink_keeps
      assumption
    clear_value x3
    clear_value x4
    refine Keeps.ite (fun _ => ?_) (fun _ => ?_)
    · rename_i v5
      with_reducible apply Device.countLink_keeps
      assumption
    · rename_i v6
      refine Keeps.ite (fun _ => ?_) (fun _ => ?_)
      · rename_i v7
        with_reducible apply Device.countLink_keeps
        assumption
      · rename_i v8
        refine Keeps.ite (fun _ => ?_) (fun _ => ?_)
        · rename_i v9
          refine Keeps.ite (fun _ => ?_) (fun _ => ?_)
          · rename_i v10
            with_reducible apply Device.answerSync_keeps
            assumption
          · rename_i v11
            with_reducible apply Device.takeSync_keeps
            assumption
        · rename_i v12
          refine Keeps.ite (fun _ => ?_) (fun _ => ?_)
          · rename_i v13
            with_reducible apply Device.takeNote_keeps
            assumption
          · rename_i v14
            split
            · rename_i v15 v16 v17
              refine Keeps.ite (fun _ => ?_) (fun _ => ?_)
              · rename_i v18
                with_reducible apply Device.takeFrame_keeps
                assumption
              · rename_i v19
                with_reducible apply Device.missFrame_keeps
                assumption
            · rename_i v20 v21
              with_reducible apply Device.takeFrame_keeps
              assumption

theorem Device.ref25Loss_keeps {a : Device} (p0 : Device) (h0 : Keeps a p0) :
    Keeps a (Device.ref25Loss p0) := by
  unfold Device.ref25Loss
  refine Keeps.ite (fun _ => ?_) (fun _ => ?_)
  · rename_i v0
    assumption
  · rename_i v1
    extract_lets +onlyGivenNames x2 x3
    have h_x2 : Keeps a x2 := by
      unfold x2
      with_reducible apply Device.mapPower_keeps
      assumption
    clear_value x2
    have h_x3 : Keeps a x3 := by
      unfold x3
      with_reducible apply Device.safeStates_keeps
      with_reducible apply Device.setTallyState_keeps
      with_reducible apply Device.mapTally_keeps
      · assumption
      · exact fun _ => Nat.le_refl _
    clear_value x3
    refine Keeps.ite (fun _ => ?_) (fun _ => ?_)
    · rename_i v4
      assumption
    · rename_i v5
      with_reducible apply Device.setDevState_keeps
      assumption

theorem Device.warmClear_keeps {a : Device} (p0 : Device) (h0 : Keeps a p0) :
    Keeps a (Device.warmClear p0) := by
  exact Device.warmClear_keeps' h0

theorem Device.warmStart_keeps {a : Device} (p0 : Device) (h0 : Keeps a p0) :
    Keeps a (Device.warmStart p0) := by
  unfold Device.warmStart
  with_reducible apply Device.setDevState_keeps
  with_reducible apply Device.warmClear_keeps
  with_reducible apply Device.safeStates_keeps
  assumption

theorem Device.ref25Stable_keeps {a : Device} (p0 : Device) (h0 : Keeps a p0) :
    Keeps a (Device.ref25Stable p0) := by
  unfold Device.ref25Stable
  refine Keeps.ite (fun _ => ?_) (fun _ => ?_)
  · rename_i v0
    assumption
  · rename_i v1
    extract_lets +onlyGivenNames x2
    have h_x2 : Keeps a x2 := by
      unfold x2
      with_reducible apply Device.mapPower_keeps
      assumption
    clear_value x2
    refine Keeps.ite (fun _ => ?_) (fun _ => ?_)
    · rename_i v3
      with_reducible apply Device.warmStart_keeps
      with_reducible apply Device.mapTally_keeps
      · assumption
      · exact fun _ => Nat.le_refl _
    · rename_i v4
      extract_lets +onlyGivenNames x5
      have h_x5 : Keeps a x5 := by
        unfold x5
        with_reducible apply Device.mapTally_keeps
        · assumption
        · exact fun _ => Nat.le_refl _
      clear_value x5
      refine Keeps.ite (fun _ => ?_) (fun _ => ?_)
      · rename_i v6
        with_reducible apply Device.mapBoot_keeps
        assumption
      · rename_i v7
        assumption

theorem Device.resendDue_keeps {a : Device} (p0 : Device) (p1 : Nat) (h0 : Keeps a p0) :
    Keeps a (Device.resendDue p0 p1) := by
  unfold Device.resendDue
  split
  · rename_i v0 v1
    assumption
  · rename_i v2 v3 v4 v5
    extract_lets +onlyGivenNames x6
    clear_value x6
    with_reducible apply Device.atInstant_keeps
    · assumption
    · intro d7
      intro x8
      with_reducible apply Device.repair_keeps
      with_reducible apply Device.updConn_keeps
      assumption

theorem Device.resetNHigh_keeps {a : Device} (p0 : Device) (h0 : Keeps a p0) :
    Keeps a (Device.resetNHigh p0) := by
  unfold Device.resetNHigh
  extract_lets +onlyGivenNames x0
  have h_x0 : Keeps a x0 := by
    unfold x0
    with_reducible apply Device.mapBoot_keeps
    assumption
  clear_value x0
  refine Keeps.ite (fun _ => ?_) (fun _ => ?_)
  · rename_i v1
    refine Keeps.ite (fun _ => ?_) (fun _ => ?_)
    · rename_i v2
      with_reducible apply Device.warmStart_keeps
      assumption
    · rename_i v3
      with_reducible apply Device.setDevState_keeps
      assumption
  · rename_i v4
    assumption

theorem Device.resetNLow_keeps {a : Device} (p0 : Device) (h0 : Keeps a p0) :
    Keeps a (Device.resetNLow p0) := by
  unfold Device.resetNLow
  extract_lets +onlyGivenNames x0 x1
  have h_x0 : Keeps a x0 := by
    unfold x0
    with_reducible apply Device.mapBoot_keeps
    assumption
  clear_value x0
  clear_value x1
  refine Keeps.ite (fun _ => ?_) (fun _ => ?_)
  · rename_i v2
    assumption
  · rename_i v3
    with_reducible apply Device.setDevState_keeps
    with_reducible apply Device.mapBoot_keeps
    with_reducible apply Device.safeStates_keeps
    assumption

theorem Device.restartReset_keeps {a : Device} (p0 : Device) (h0 : Keeps a p0) :
    Keeps a (Device.restartReset p0) := by
  unfold Device.restartReset
  refine Keeps.ite (fun _ => ?_) (fun _ => ?_)
  · rename_i v0
    split
    · rename_i v1 v2 v3
      with_reducible apply Device.atInstant_keeps
      · assumption
      · intro d4
        intro x5
        with_reducible apply Device.restart_keeps
        assumption
    · rename_i v6 v7
      with_reducible apply Device.restart_keeps
      assumption
  · rename_i v8
    assumption

theorem Device.restoreBells_keeps {a : Device} (p0 : Device) (p1 : Nat) (p2 : Nat) (h0 : Keeps a p0) :
    Keeps a (Device.restoreBells p0 p1 p2) := by
  unfold Device.restoreBells
  refine Keeps.foldl (fun d0 x1 h2 => ?_) ?_
  · extract_lets +onlyGivenNames x3 x4
    clear_value x3
    clear_value x4
    with_reducible apply Device.updPaddock_keeps
    assumption
  · assumption

theorem Device.storeSparse_keeps {a : Device} (p0 : Device) (p1 : Nat) (p2 : Nat) (p3 : Sparse 8) (h0 : Keeps a p0) :
    Keeps a (Device.storeSparse p0 p1 p2 p3) := by
  unfold Device.storeSparse
  with_reducible apply Device.mapFaults_keeps
  · with_reducible apply Device.mapMem_keeps
    · assumption
    · (intro m hm; exact sparse_wf_replace _ _ _ hm)
  · exact fun _ => ⟨rfl, rfl⟩

theorem Device.restoreRecord_keeps {a : Device} (p0 : Device) (p1 : Paddock) (p2 : Nat) (h0 : Keeps a p0) :
    Keeps a (Device.restoreRecord p0 p1 p2) := by
  unfold Device.restoreRecord
  extract_lets +onlyGivenNames x0 x1 x2
  clear_value x0
  clear_value x1
  have h_x2 : Keeps a x2 := by
    unfold x2
    refine Keeps.ite (fun _ => ?_) (fun _ => ?_)
    · rename_i v3
      with_reducible apply Device.updBlock_keeps
      assumption
    · rename_i v4
      assumption
  clear_value x2
  refine Keeps.ite (fun _ => ?_) (fun _ => ?_)
  · rename_i v5
    extract_lets +onlyGivenNames x6 x7 x8
    clear_value x6
    have h_x7 : Keeps a x7 := by
      unfold x7
      with_reducible apply Device.updBlock_keeps
      assumption
    clear_value x7
    have h_x8 : Keeps a x8 := by
      unfold x8
      with_reducible apply Device.mapFabric_keeps
      assumption
    clear_value x8
    with_reducible apply Device.storeSparse_keeps
    assumption
  · rename_i v9
    assumption

theorem Device.restoreBlocks_keeps {a : Device} (p0 : Nat) (p1 : Paddock) (p2 : List Nat) (p3 : Device) (h3 : Keeps a p3) :
    Keeps a (Device.restoreBlocks p0 p1 p2 p3).1 := by
  induction p2 generalizing p0 p1 p3
  · unfold Device.restoreBlocks
    assumption
  · rename_i r0 r1 r2
    unfold Device.restoreBlocks
    extract_lets +onlyGivenNames x0
    have h_x0 : Keeps a x0.1 := by
      unfold x0
      with_reducible apply Device.checkedRead_keeps
      assumption
    clear_value x0
    split
    · rename_i v1 v2 v3
      assumption
    · rename_i v4 v5
      extract_lets +onlyGivenNames x6 x7
      have h_x6 : Keeps a x6 := by
        unfold x6
        with_reducible apply Device.restoreBells_keeps
        assumption
      clear_value x6
      have h_x7 : Keeps a x7 := by
        unfold x7
        with_reducible apply Device.updBlock_keeps
        assumption
      clear_value x7
      with_reducible apply r2
      with_reducible apply Device.restoreRecord_keeps
      assumption

theorem Device.restoreDone_keeps {a : Device} (p0 : Device) (p1 : Nat) (h0 : Keeps a p0) :
    Keeps a (Device.restoreDone p0 p1) := by
  unfold Device.restoreDone
  split
  · rename_i v0 v1
    assumption
  · rename_i v2 v3 v4
    refine Keeps.ite (fun _ => ?_) (fun _ => ?_)
    · rename_i v5
      assumption
    · rename_i v6
      extract_lets +onlyGivenNames x7 x8
      have h_x7 : Keeps a x7 := by
        unfold x7
        refine Keeps.foldl (fun d9 x10 h11 => ?_) ?_
        · with_reducible apply Device.setBlockPower_keeps
          assumption
        · assumption
      clear_value x7
      have h_x8 : Keeps a x8.1 := by
        unfold x8
        with_reducible apply Device.restoreBlocks_keeps
        assumption
      clear_value x8
      split
      · rename_i v12 v13 v14
        with_reducible apply Device.strike_keeps
        assumption
      · rename_i v15 v16
        with_reducible apply Device.updPaddock_keeps
        assumption

theorem Device.runDescriptor_keeps {a : Device} (p0 : Device) (p1 : DescKind) (p2 : Desc) (h0 : Keeps a p0) (h1 : DescKind.Keeps p1) :
    Keeps a (Device.runDescriptor p0 p1 p2) := by
  unfold Device.runDescriptor
  extract_lets +onlyGivenNames x0 x1 x2
  clear_value x0
  clear_value x1
  have h_x2 : Keeps a x2 := by
    unfold x2
    with_reducible apply Device.dropUnknown_keeps
    assumption
  clear_value x2
  split
  · rename_i v3 v4
    assumption
  · rename_i v5 v6 v7
    split
    · rename_i v8 v9
      refine Keeps.ite (fun _ => ?_) (fun _ => ?_)
      · rename_i v10
        extract_lets +onlyGivenNames x11
        have h_x11 : Keeps a x11 := by
          unfold x11
          with_reducible apply Device.updRing_keeps
          with_reducible apply Device.store_keeps
          assumption
        clear_value x11
        with_reducible apply Device.dropUnknown_keeps
        with_reducible apply Device.takeDescriptor_keeps
        · assumption
        · assumption
      · rename_i v12
        assumption
    · rename_i v13 v14 v15
      refine Keeps.ite (fun _ => ?_) (fun _ => ?_)
      · rename_i v16
        with_reducible apply Device.dropUnknown_keeps
        with_reducible apply Device.takeDescriptor_keeps
        · assumption
        · assumption
      · rename_i v17
        assumption

theorem Device.runRow_keeps {a : Device} (p0 : Device) (p1 : Kind) (p2 : Nat) (p3 : Cmd) (h0 : Keeps a p0) (h1 : Kind.Keeps p1) :
    Keeps a (Device.runRow p0 p1 p2 p3) := by
  unfold Device.runRow
  extract_lets +onlyGivenNames x0 x1 x2
  clear_value x0
  clear_value x1
  clear_value x2
  refine Keeps.ite (fun _ => ?_) (fun _ => ?_)
  · rename_i v3
    assumption
  · rename_i v4
    split
    · rename_i v5 v6
      with_reducible apply Device.updPage_keeps
      assumption
    · rename_i v7 v8
      refine Keeps.ite (fun _ => ?_) (fun _ => ?_)
      · rename_i v9
        assumption
      · rename_i v10
        with_reducible apply Device.execute_keeps
        · assumption
        · assumption
    · rename_i v11 v12
      extract_lets +onlyGivenNames x13
      have h_x13 : Keeps a x13 := by
        unfold x13
        with_reducible apply Device.updBox_keeps
        assumption
      clear_value x13
      refine Keeps.ite (fun _ => ?_) (fun _ => ?_)
      · rename_i v14
        with_reducible apply Device.execute_keeps
        · with_reducible apply Device.acceptBox_keeps
          assumption
        · assumption
      · rename_i v15
        refine Keeps.ite (fun _ => ?_) (fun _ => ?_)
        · rename_i v16
          with_reducible apply Device.updBox_keeps
          assumption
        · rename_i v17
          assumption

theorem Device.updateRecord_keeps {a : Device} (p0 : Device) (p1 : ServeConfig) (p2 : Lane) (p3 : Verdict) (h0 : Keeps a p0) :
    Keeps a (Device.updateRecord p0 p1 p2 p3) := by
  unfold Device.updateRecord
  extract_lets +onlyGivenNames x0 x1 x2 x3 x4 x5 x6 x7
  clear_value x0
  clear_value x1
  clear_value x2
  have h_x3 : Keeps a x3 := by
    unfold x3
    with_reducible apply Device.storeLe_keeps
    assumption
  clear_value x3
  have h_x4 : Keeps a x4 := by
    unfold x4
    split
    · rename_i v8 v9 v10
      with_reducible apply Device.storeLe_keeps
      assumption
    · rename_i v11 v12
      assumption
  clear_value x4
  have h_x5 : Keeps a x5 := by
    unfold x5
    with_reducible apply Device.storeLe_keeps
    with_reducible apply Device.storeLe_keeps
    assumption
  clear_value x5
  have h_x6 : Keeps a x6 := by
    unfold x6
    with_reducible apply Device.store_keeps
    with_reducible apply Device.storeLe_keeps
    assumption
  clear_value x6
  have h_x7 : Keeps a x7 := by
    unfold x7
    refine Keeps.ite (fun _ => ?_) (fun _ => ?_)
    · rename_i v13
      with_reducible apply Device.storeLe_keeps
      assumption
    · rename_i v14
      assumption
  clear_value x7
  refine Keeps.ite (fun _ => ?_) (fun _ => ?_)
  · rename_i v15
    assumption
  · rename_i v16
    extract_lets +onlyGivenNames x17
    clear_value x17
    with_reducible apply Device.storeLe_keeps
    with_reducible apply Device.storeLe_keeps
    assumption

theorem Device.sampleLane_keeps {a : Device} (p0 : Device) (p1 : Nat) (p2 : Paddock) (p3 : ServeStep) (p4 : Nat) (p5 : Lane) (h0 : Keeps a p0) :
    Keeps a (Device.sampleLane p0 p1 p2 p3 p4 p5).1 := by
  unfold Device.sampleLane
  extract_lets +onlyGivenNames x0 x1 x2 x3 x4 x5 x6 x7 x8 x9 x10 x11 x12 x13 x14 x15 x16
  clear_value x0
  clear_value x1
  clear_value x2
  clear_value x3
  clear_value x4
  clear_value x5
  clear_value x6
  have h_x7 : Keeps a x7 := by
    unfold x7
    refine Keeps.ite (fun _ => ?_) (fun _ => ?_)
    · rename_i v17
      with_reducible apply Device.updateRecord_keeps
      assumption
    · rename_i v18
      assumption
  clear_value x7
  have h_x8 : Keeps a x8 := by
    unfold x8
    refine Keeps.ite (fun _ => ?_) (fun _ => ?_)
    · rename_i v19
      assumption
    · rename_i v20
      with_reducible apply Device.pushBack_keeps
      assumption
  clear_value x8
  clear_value x9
  clear_value x10
  clear_value x11
  clear_value x12
  clear_value x13
  have h_x14 : Keeps a x14 := by
    unfold x14
    with_reducible apply Device.store_keeps
    assumption
  clear_value x14
  have h_x15 : Keeps a x15 := by
    unfold x15
    refine Keeps.congr (d := x14) ?_ rfl rfl rfl rfl rfl rfl rfl
    assumption
  clear_value x15
  have h_x16 : Keeps a x16 := by
    unfold x16
    with_reducible apply Device.updServing_keeps
    assumption
  clear_value x16
  extract_lets +onlyGivenNames x21
  have h_x21 : Keeps a x21 := by
    unfold x21
    refine Keeps.ite (fun _ => ?_) (fun _ => ?_)
    · rename_i v22
      with_reducible apply Device.releaseRecord_keeps
      assumption
    · rename_i v23
      assumption
  clear_value x21
  assumption

theorem Device.sampleLanes_keeps {a : Device} (p0 : Nat) (p1 : Paddock) (p2 : ServeStep) (p3 : Nat) (p4 : List Lane) (p5 : Device) (h5 : Keeps a p5) :
    Keeps a (Device.sampleLanes p0 p1 p2 p3 p4 p5).1 := by
  induction p4 generalizing p0 p1 p2 p3 p5
  · unfold Device.sampleLanes
    assumption
  · rename_i r0 r1 r2
    unfold Device.sampleLanes
    extract_lets +onlyGivenNames x0 x1
    have h_x0 : Keeps a x0.1 := by
      unfold x0
      with_reducible apply Device.sampleLane_keeps
      assumption
    clear_value x0
    have h_x1 : Keeps a x1.1 := by
      unfold x1
      with_reducible apply r2
      assumption
    clear_value x1
    assumption

theorem Device.saveBlock_keeps {a : Device} (p0 : Device) (p1 : Nat) (p2 : Paddock) (p3 : Bool) (p4 : Nat) (h0 : Keeps a p0) :
    Keeps a (Device.saveBlock p0 p1 p2 p3 p4) := by
  unfold Device.saveBlock
  extract_lets +onlyGivenNames x0 x1 x2 x3 x4 x5
  clear_value x0
  have h_x2 : Keeps a x2.2 := by
    unfold x2
    with_reducible apply Device.draw_keeps
    assumption
  clear_value x2
  clear_value x3
  have h_x4 : Keeps a x4 := by
    unfold x4
    refine Keeps.ite (fun _ => ?_) (fun _ => ?_)
    · rename_i v6
      assumption
    · rename_i v7
      assumption
  clear_value x4
  have h_x5 : Keeps a x5 := by
    unfold x5
    with_reducible apply Device.store_keeps
    assumption
  clear_value x5
  refine Keeps.ite (fun _ => ?_) (fun _ => ?_)
  · rename_i v8
    extract_lets +onlyGivenNames x9 x10 x11 x12
    clear_value x9
    have h_x10 : Keeps a x10 := by
      unfold x10
      with_reducible apply Device.store_keeps
      assumption
    clear_value x10
    have h_x11 : Keeps a x11 := by
      unfold x11
      with_reducible apply Device.storeSparse_keeps
      assumption
    clear_value x11
    have h_x12 : Keeps a x12 := by
      unfold x12
      with_reducible apply Device.storeSparse_keeps
      assumption
    clear_value x12
    with_reducible apply Device.storeSparse_keeps
    assumption
  · rename_i v13
    assumption

theorem Device.saveRings_keeps {a : Device} (p0 : Device) (p1 : Nat) (p2 : Paddock) (p3 : Bool) (h0 : Keeps a p0) :
    Keeps a (Device.saveRings p0 p1 p2 p3) := by
  unfold Device.saveRings
  with_reducible apply Device.store_keeps
  assumption

theorem Device.saveDone_keeps {a : Device} (p0 : Device) (p1 : Nat) (h0 : Keeps a p0) :
    Keeps a (Device.saveDone p0 p1) := by
  unfold Device.saveDone
  split
  · rename_i v0 v1
    assumption
  · rename_i v2 v3 v4
    refine Keeps.ite (fun _ => ?_) (fun _ => ?_)
    · rename_i v5
      assumption
    · rename_i v6
      extract_lets +onlyGivenNames x7 x8 x9 x10 x11 x12 x13 x14 x15 x16
      clear_value x7
      clear_value x8
      clear_value x9
      have h_x10 : Keeps a x10 := by
        unfold x10
        with_reducible apply Device.saveRings_keeps
        refine Keeps.foldl (fun d17 x18 h19 => ?_) ?_
        · with_reducible apply Device.saveBlock_keeps
          assumption
        · assumption
      clear_value x10
      clear_value x11
      have h_x12 : Keeps a x12 := by
        unfold x12
        with_reducible apply Device.updPaddock_keeps
        with_reducible apply Device.clearBlocksOf_keeps
        assumption
      clear_value x12
      clear_value x13
      clear_value x14
      have h_x15 : Keeps a x15 := by
        unfold x15
        with_reducible apply Device.setPaddockState_keeps
        assumption
      clear_value x15
      have h_x16 : Keeps a x16 := by
        unfold x16
        split
        · rename_i v20 v21 v22
          with_reducible apply Device.respond_keeps
          assumption
        · rename_i v23 v24
          assumption
      clear_value x16
      with_reducible apply Device.schedule_keeps
      assumption

theorem Device.startSelect_keeps {a : Device} (p0 : Device) (p1 : Nat) (h0 : Keeps a p0) :
    Keeps a (Device.startSelect p0 p1) := by
  unfold Device.startSelect
  split
  · rename_i v0 v1
    assumption
  · rename_i v2 v3 v4 v5
    refine Keeps.ite (fun _ => ?_) (fun _ => ?_)
    · rename_i v6
      assumption
    · rename_i v7
      extract_lets +onlyGivenNames x8 x9
      clear_value x8
      have h_x9 : Keeps a x9.1 := by
        unfold x9
        with_reducible apply Device.bookWork_keeps
        assumption
      clear_value x9
      with_reducible apply Device.mapService_keeps
      assumption

theorem Device.selectDone_keeps {a : Device} (p0 : Device) (p1 : Nat) (h0 : Keeps a p0) :
    Keeps a (Device.selectDone p0 p1) := by
  unfold Device.selectDone
  split
  · rename_i v0 v1
    assumption
  · rename_i v2 v3 v4 v5
    with_reducible apply Device.atInstant_keeps
    · assumption
    · intro d6
      intro x7
      with_reducible apply Device.endSelect_keeps
      with_reducible apply Device.startSelect_keeps
      with_reducible apply Device.mapService_keeps
      assumption

theorem Device.sendArrival_keeps {a : Device} (p0 : Device) (p1 : Issue) (p2 : Word) (p3 : Bool) (h0 : Keeps a p0) :
    Keeps a (Device.sendArrival p0 p1 p2 p3) := by
  unfold Device.sendArrival
  extract_lets +onlyGivenNames x0 x1
  clear_value x0
  clear_value x1
  with_reducible apply Device.mapFabric_keeps
  assumption

theorem Device.sendBurst_keeps {a : Device} (p0 : Device) (h0 : Keeps a p0) :
    Keeps a (Device.sendBurst p0) := by
  unfold Device.sendBurst
  extract_lets +onlyGivenNames x0 x1 x2 x3
  clear_value x0
  clear_value x1
  clear_value x2
  have h_x3 : Keeps a x3 := by
    unfold x3
    with_reducible apply Device.mapTally_keeps
    · assumption
    · exact fun _ => Nat.le_refl _
  clear_value x3
  refine Keeps.foldl (fun d4 x5 h6 => ?_) ?_
  · refine Keeps.ite (fun _ => ?_) (fun _ => ?_)
    · rename_i v7
      with_reducible apply Device.sendLoose_keeps
      assumption
    · rename_i v8
      assumption
  · assumption

theorem Device.setScratch_keeps {a : Device} (p0 : Device) (p1 : Nat) (p2 : List Byte) (h0 : Keeps a p0) :
    Keeps a (Device.setScratch p0 p1 p2) := by
  unfold Device.setScratch
  with_reducible apply Device.mapFabric_keeps
  assumption

theorem Device.slewDone_keeps {a : Device} (p0 : Device) (p1 : Nat) (h0 : Keeps a p0) :
    Keeps a (Device.slewDone p0 p1) := by
  unfold Device.slewDone
  refine Keeps.ite (fun _ => ?_) (fun _ => ?_)
  · rename_i v0
    assumption
  · rename_i v1
    with_reducible apply Device.atInstant_keeps
    · assumption
    · intro d2
      intro x3
      with_reducible apply Device.settleThrottle_keeps
      with_reducible apply Device.updClock_keeps
      assumption

theorem Device.sliceExpiry_keeps {a : Device} (p0 : Device) (p1 : Nat) (h0 : Keeps a p0) :
    Keeps a (Device.sliceExpiry p0 p1) := by
  unfold Device.sliceExpiry
  split
  · rename_i v0 v1
    assumption
  · rename_i v2 v3 v4
    extract_lets +onlyGivenNames x5
    clear_value x5
    refine Keeps.ite (fun _ => ?_) (fun _ => ?_)
    · rename_i v6
      with_reducible apply Device.atInstant_keeps
      · assumption
      · intro d7
        intro x8
        with_reducible apply Device.schedule_keeps
        assumption
    · rename_i v9
      assumption

theorem Device.slotMatches_keeps {a : Device} (p0 : Device) (p1 : ThreadId) (h0 : Keeps a p0) :
    Keeps a (Device.slotMatches p0 p1) := by
  unfold Device.slotMatches
  extract_lets +onlyGivenNames x0
  clear_value x0
  split
  · rename_i v1 v2 v3 v4
    split
    · rename_i v5 v6
      assumption
    · rename_i v7 v8 v9
      refine Keeps.ite (fun _ => ?_) (fun _ => ?_)
      · rename_i v10
        with_reducible apply Device.atInstant_keeps
        · assumption
        · intro d11
          intro x12
          with_reducible apply Device.updThread_keeps
          assumption
      · rename_i v13
        assumption
  · rename_i v14 v15
    assumption

theorem Device.stageApply_keeps {a : Device} (p0 : Device) (h0 : Keeps a p0) :
    Keeps a (Device.stageApply p0) := by
  unfold Device.stageApply
  split
  · rename_i v0 v1
    assumption
  · rename_i v2 v3 v4
    with_reducible apply Device.advanceTo_keeps
    assumption

theorem Device.standbyLeft_keeps {a : Device} (p0 : Device) (p1 : BootInputs) (h0 : Keeps a p0) :
    Keeps a (Device.standbyLeft p0 p1) := by
  unfold Device.standbyLeft
  refine Keeps.ite (fun _ => ?_) (fun _ => ?_)
  · rename_i v0
    extract_lets +onlyGivenNames x1
    have h_x1 : Keeps a x1 := by
      unfold x1
      with_reducible apply Device.mapNet_keeps
      assumption
    clear_value x1
    with_reducible apply Device.schedule_keeps
    with_reducible apply Device.settleState_keeps
    with_reducible apply Device.trainLinks_keeps
    with_reducible apply Device.setDevState_keeps
    assumption
  · rename_i v2
    assumption

theorem Device.standbyWake_keeps {a : Device} (p0 : Device) (h0 : Keeps a p0) :
    Keeps a (Device.standbyWake p0) := by
  unfold Device.standbyWake
  refine Keeps.ite (fun _ => ?_) (fun _ => ?_)
  · rename_i v0
    with_reducible apply Device.atInstant_keeps
    · assumption
    · intro d1
      intro x2
      with_reducible apply Device.leaveStandby_keeps
      assumption
  · rename_i v3
    assumption

theorem Device.startBale_keeps {a : Device} (p0 : Device) (p1 : Issue) (p2 : BaleOp) (p3 : List Byte) (h0 : Keeps a p0) :
    Keeps a (Device.startBale p0 p1 p2 p3) := by
  unfold Device.startBale
  extract_lets +onlyGivenNames x0
  clear_value x0
  with_reducible apply Device.complete_keeps
  with_reducible apply Device.updBlock_keeps
  assumption

theorem Device.startFrame_keeps {a : Device} (p0 : Device) (p1 : Nat) (h0 : Keeps a p0) :
    Keeps a (Device.startFrame p0 p1) := by
  unfold Device.startFrame
  split
  · rename_i v0 v1
    assumption
  · rename_i v2 v3 v4 v5
    extract_lets +onlyGivenNames x6 x7
    clear_value x6
    clear_value x7
    with_reducible apply Device.atInstant_keeps
    · assumption
    · intro d8
      intro x9
      with_reducible apply Device.updBlock_keeps
      assumption

theorem Device.startLane_keeps {a : Device} (p0 : Device) (p1 : Nat) (p2 : Paddock) (p3 : ServeStep) (p4 : Nat) (p5 : Lane) (h0 : Keeps a p0) :
    Keeps a (Device.startLane p0 p1 p2 p3 p4 p5).1 := by
  unfold Device.startLane
  extract_lets +onlyGivenNames x0 x1
  clear_value x0
  clear_value x1
  split
  · rename_i v2 v3 v4
    dsimp only
    with_reducible apply Device.store_keeps
    assumption
  · rename_i v5 v6
    extract_lets +onlyGivenNames x7 x8 x9 x10
    clear_value x7
    have h_x8 : Keeps a x8 := by
      unfold x8
      refine Keeps.ite (fun _ => ?_) (fun _ => ?_)
      · rename_i v11
        with_reducible apply Device.storeLe_keeps
        assumption
      · rename_i v12
        assumption
    clear_value x8
    clear_value x9
    have h_x10 : Keeps a x10.1 := by
      unfold x10
      with_reducible apply Device.lanePages_keeps
      assumption
    clear_value x10
    split
    · rename_i v13 v14 v15
      dsimp only
      with_reducible apply Device.store_keeps
      assumption
    · rename_i v16 v17
      extract_lets +onlyGivenNames x18
      clear_value x18
      dsimp only
      with_reducible apply Device.store_keeps
      assumption

theorem Device.writeTable_keeps {a : Device} (p0 : Device) (p1 : Nat) (p2 : Nat) (p3 : ServeConfig) (p4 : List Nat) (p5 : Nat) (p6 : Nat) (p7 : Nat) (p8 : Nat) (p9 : Bool) (h0 : Keeps a p0) :
    Keeps a (Device.writeTable p0 p1 p2 p3 p4 p5 p6 p7 p8 p9) := by
  unfold Device.writeTable
  extract_lets +onlyGivenNames x0
  clear_value x0
  with_reducible apply Device.mapService_keeps
  with_reducible apply Device.store_keeps
  assumption

theorem Device.startPull_keeps {a : Device} (p0 : Device) (p1 : Job) (p2 : ServeConfig) (h0 : Keeps a p0) :
    Keeps a (Device.startPull p0 p1 p2) := by
  unfold Device.startPull
  extract_lets x0 x1 x2 x3 x4 x5 x6
  clear_value x0
  clear_value x1
  clear_value x2
  clear_value x3
  clear_value x4
  clear_value x5
  clear_value x6
  split
  · rename_i v7 v8
    with_reducible apply Device.finish_keeps
    assumption
  · rename_i v9 v10
    generalize em13 : p0.popSets p1.paddock (fieldU8 x0 44) x5 = m13
    have h_m13 : ∀ y, m13 = some y → Keeps a y.2 := by
      subst m13
      intro h14
      intro h15
      exact Device.popSets_keeps _ _ _ _ h0 _ h15
    clear em13
    split
    · rename_i v16
      with_reducible apply Device.finish_keeps
      assumption
    · rename_i v17 v18
      generalize em19 : v18.snd.popSets p1.paddock (fieldU8 x0 47) x6 = m19
      have h_m19 : ∀ y, m19 = some y → Keeps a y.2 := by
        subst m19
        intro h20
        intro h21
        exact Device.popSets_keeps _ _ _ _ (h_m13 _ rfl) _ h21
      clear em19
      split
      · rename_i v22
        with_reducible apply Device.finish_keeps
        assumption
      · rename_i v23 v24
        extract_lets x27 x28 x29 x30 x31
        have h_x27 : Keeps a x27 := by
          unfold x27
          with_reducible apply Device.writeTable_keeps
          exact h_m19 _ rfl
        clear_value x27
        have h_x28 : Keeps a x28 := by
          unfold x28
          refine Keeps.ite (fun _ => ?_) (fun _ => ?_)
          · rename_i v32
            assumption
          · rename_i v33
            with_reducible apply Device.writeTable_keeps
            assumption
        clear_value x28
        clear_value x29
        have h_x30 : Keeps a x30 := by
          unfold x30
          with_reducible apply Device.mapService_keeps
          assumption
        clear_value x30
        have h_x31 : Keeps a x31 := by
          unfold x31
          with_reducible apply Device.sendSource_keeps
          assumption
        clear_value x31
        refine Keeps.ite (fun _ => ?_) (fun _ => ?_)
        · rename_i v34
          with_reducible apply Device.pullArrived_keeps
          assumption
        · rename_i v35
          assumption

theorem Device.startRemote_keeps {a : Device} (p0 : Device) (p1 : Issue) (p2 : Ctx) (p3 : Request) (p4 : List Byte) (h0 : Keeps a p0) :
    Keeps a (Device.startRemote p0 p1 p2 p3 p4) := by
  unfold Device.startRemote
  extract_lets +onlyGivenNames x0 x1 x2 x3 x4
  clear_value x0
  clear_value x1
  clear_value x2
  clear_value x3
  have h_x4 : Keeps a x4 := by
    unfold x4
    with_reducible apply Device.updThread_keeps
    with_reducible apply Device.mapFabric_keeps
    assumption
  clear_value x4
  split
  · rename_i v5
    with_reducible apply Device.endRemote_keeps
    assumption
  · rename_i v6 v7
    with_reducible apply Device.sendThrough_keeps
    · assumption
    · intro d8
      intro x9
      with_reducible apply Device.endRemote_keeps
      assumption

theorem Device.stepDeadline_keeps {a : Device} (p0 : Device) (p1 : Nat) (h0 : Keeps a p0) :
    Keeps a (Device.stepDeadline p0 p1) := by
  unfold Device.stepDeadline
  split
  · rename_i v0 v1
    assumption
  · rename_i v2 v3 v4
    with_reducible apply Device.atDeadline_keeps
    · assumption
    · intro d5
      intro x6
      with_reducible apply Device.endStep_keeps
      assumption

theorem Device.takeBell_keeps {a : Device} (p0 : Device) (p1 : Nat) (p2 : Nat) (h0 : Keeps a p0) :
    ∀ y, (Device.takeBell p0 p1 p2) = some y → Keeps a y := by
  intro y h
  unfold Device.takeBell at h
  dsimp only at h
  split at h
  · injection h with h
    subst h
    exact Device.setBell_keeps _ _ _ _ h0
  · cases h

theorem Device.throughShare_keeps {a : Device} (p0 : Device) (p1 : List (Nat × Nat)) (p2 : Device → Device) (h0 : Keeps a p0) (h2 : ∀ z0, (Keeps a z0) → Keeps a (p2 z0)) :
    Keeps a (Device.throughShare p0 p1 p2) := by
  unfold Device.throughShare
  extract_lets +onlyGivenNames x0
  have h_x0 : Keeps a x0.1 := by
    unfold x0
    with_reducible apply Device.bookWork_keeps
    assumption
  clear_value x0
  with_reducible apply Device.atInstant_keeps
  · assumption
  · assumption

theorem Device.stepMask_keeps {a : Device} (p0 : Device) (p1 : Nat) (h0 : Keeps a p0) :
    Keeps a (Device.stepMask p0 p1) := by
  unfold Device.stepMask
  split
  · exact h0
  · split
    · exact h0
    · split
      · exact h0
      · rename_i d1 hd
        apply Device.throughShare_keeps _ _ _ (Device.takeBell_keeps _ _ _ h0 _ hd)
        intro d1 h1
        extract_lets d2 r
        have h2 : Keeps a d2 := Device.enterPhase_keeps _ _ _ _ h1
        clear_value d2
        have hr : Keeps a r.1 := by
          unfold r
          apply Device.eachLane_keeps
          · intro z0 z1 z2 hz
            exact Device.maskLane_keeps _ _ _ _ _ hz
          · exact h2
        clear_value r
        split
        · exact Device.strike_keeps _ _ _ hr
        · exact Device.ringThrough_keeps _ _ _ _ _ _ (Device.enterPhase_keeps _ _ _ _ (Device.updStep_keeps _ _ _ hr))

theorem Device.stepSample_keeps {a : Device} (p0 : Device) (p1 : Nat) (h0 : Keeps a p0) :
    Keeps a (Device.stepSample p0 p1) := by
  unfold Device.stepSample
  split
  · split
    · exact h0
    · split
      · exact h0
      · rename_i d1 hd
        apply Device.throughShare_keeps _ _ _ (Device.takeBell_keeps _ _ _ h0 _ hd)
        intro d1 h1
        extract_lets d2 r
        have h2 : Keeps a d2 := Device.enterPhase_keeps _ _ _ _ h1
        clear_value d2
        have hr : Keeps a r.1 := by
          unfold r
          apply Device.eachLane_keeps
          · intro z0 z1 z2 hz
            exact hz
          · exact h2
        clear_value r
        split
        · exact Device.strike_keeps _ _ _ hr
        · exact Device.endStep_keeps _ _ _ _ _ (Device.sampleLanes_keeps _ _ _ _ _ _ hr)
  · exact h0

theorem Device.stepStart_keeps {a : Device} (p0 : Device) (p1 : Nat) (h0 : Keeps a p0) :
    Keeps a (Device.stepStart p0 p1) := by
  unfold Device.stepStart
  split
  · rename_i v0 v1 v2 v3 v4 v5 v6
    refine Keeps.ite (fun _ => ?_) (fun _ => ?_)
    · rename_i v7
      assumption
    · rename_i v8
      refine Keeps.ite (fun _ => ?_) (fun _ => ?_)
      · rename_i v9
        with_reducible apply Device.endStep_keeps
        assumption
      · rename_i v10
        extract_lets +onlyGivenNames x11
        clear_value x11
        with_reducible apply Device.throughShare_keeps
        · assumption
        · intro d12
          intro x13
          extract_lets +onlyGivenNames x14 x15
          have h_x14 : Keeps a x14 := by
            unfold x14
            with_reducible apply Device.store_keeps
            with_reducible apply Device.updStep_keeps
            assumption
          clear_value x14
          have h_x15 : Keeps a x15.1 := by
            unfold x15
            with_reducible apply Device.eachLane_keeps
            · intro d16
              intro x17
              intro x18
              intro x19
              with_reducible apply Device.startLane_keeps
              assumption
            · assumption
          clear_value x15
          split
          · rename_i v20 v21 v22
            with_reducible apply Device.strike_keeps
            assumption
          · rename_i v23 v24
            extract_lets +onlyGivenNames x25
            have h_x25 : Keeps a x25 := by
              unfold x25
              with_reducible apply Device.enterPhase_keeps
              with_reducible apply Device.updStep_keeps
              assumption
            clear_value x25
            with_reducible apply Device.ringThrough_keeps
            assumption
  · rename_i v26 v27 v28
    assumption

theorem Device.storeBuffer_keeps {a : Device} (p0 : Device) (p1 : Issue) (p2 : Nat) (p3 : List Byte) (h0 : Keeps a p0) :
    Keeps a (Device.storeBuffer p0 p1 p2 p3) := by
  unfold Device.storeBuffer
  with_reducible apply Device.store_keeps
  assumption

theorem Device.storeDoorbell_keeps {a : Device} (p0 : Device) (p1 : Nat) (p2 : Nat) (p3 : Word) (h0 : Keeps a p0) :
    Keeps a (Device.storeDoorbell p0 p1 p2 p3) := by
  unfold Device.storeDoorbell
  split
  · rename_i v0 v1
    assumption
  · rename_i v2 v3 v4
    refine Keeps.ite (fun _ => ?_) (fun _ => ?_)
    · rename_i v5
      with_reducible apply Device.accessFault_keeps
      assumption
    · rename_i v6
      with_reducible apply Device.dropUnknown_keeps
      with_reducible apply Device.postDoorbell_keeps
      assumption

theorem Device.syncBurst_keeps {a : Device} (p0 : Device) (h0 : Keeps a p0) :
    Keeps a (Device.syncBurst p0) := by
  unfold Device.syncBurst
  refine Keeps.ite (fun _ => ?_) (fun _ => ?_)
  · rename_i v0
    assumption
  · rename_i v1
    with_reducible apply Device.atInstant_keeps
    · assumption
    · intro d2
      intro x3
      with_reducible apply Device.sendBurst_keeps
      with_reducible apply Device.closeBurst_keeps
      assumption

theorem Device.tick_keeps {a : Device} (p0 : Device) (h0 : Keeps a p0) :
    Keeps a (Device.tick p0) := by
  unfold Device.tick
  with_reducible apply Device.advanceTo_keeps
  assumption

theorem Device.timeOut_keeps {a : Device} (p0 : Device) (p1 : Nat) (h0 : Keeps a p0) :
    Keeps a (Device.timeOut p0 p1) := by
  unfold Device.timeOut
  split
  · rename_i v0 v1
    assumption
  · rename_i v2 v3 v4
    split
    · rename_i v5 v6
      assumption
    · rename_i v7 v8 v9
      with_reducible apply Device.atDeadline_keeps
      · assumption
      · intro d10
        intro x11
        with_reducible apply Device.repair_keeps
        with_reducible apply Device.updConn_keeps
        with_reducible apply Device.countConn_keeps
        assumption

theorem Device.transfer_keeps {a : Device} (p0 : Device) (p1 : Issue) (p2 : Int) (p3 : Thread → Thread) (h0 : Keeps a p0) :
    Keeps a (Device.transfer p0 p1 p2 p3) := by
  unfold Device.transfer
  refine Keeps.ite (fun _ => ?_) (fun _ => ?_)
  · rename_i v0
    with_reducible apply Device.updThread_keeps
    assumption
  · rename_i v1
    with_reducible apply Device.raise_keeps
    assumption

theorem Device.warmReset_keeps {a : Device} (p0 : Device) (p1 : BootInputs) (h0 : Keeps a p0) :
    Keeps a (Device.warmReset p0 p1) := by
  unfold Device.warmReset
  refine Keeps.ite (fun _ => ?_) (fun _ => ?_)
  · rename_i v0
    with_reducible apply Device.bootUp_keeps
    assumption
  · rename_i v1
    refine Keeps.ite (fun _ => ?_) (fun _ => ?_)
    · rename_i v2
      split
      · rename_i v3 v4 v5
        with_reducible apply Device.atInstant_keeps
        · assumption
        · intro d6
          intro x7
          with_reducible apply Device.bootUp_keeps
          with_reducible apply Device.warmStart_keeps
          assumption
      · rename_i v8 v9
        with_reducible apply Device.bootUp_keeps
        with_reducible apply Device.warmStart_keeps
        assumption
    · rename_i v10
      assumption

theorem Device.writeImage_keeps {a : Device} (p0 : Device) (p1 : List Byte) (h0 : Keeps a p0) :
    Keeps a (Device.writeImage p0 p1).1 := by
  unfold Device.writeImage
  refine Keeps.foldl_fst (fun d0 x1 h2 => ?_) ?_
  · extract_lets +onlyGivenNames x3
    have h_x3 : Keeps a x3.1 := by
      unfold x3
      with_reducible apply Device.bookShare_keeps
      assumption
    clear_value x3
    assumption
  · assumption

theorem branchIf_keeps {a : Device} (p0 : Word → Word → Bool) (p1 : Issue) (p2 : Device) (h2 : Keeps a p2) :
    Keeps a (branchIf p0 p1 p2) := by
  unfold branchIf
  refine Keeps.ite (fun _ => ?_) (fun _ => ?_)
  · rename_i v0
    with_reducible apply Device.transfer_keeps
    assumption
  · rename_i v1
    with_reducible apply Device.complete_keeps
    assumption

theorem kindNop_keeps :
    DescKind.Keeps kindNop := by
  unfold kindNop
  intro b0 d1 c2 h3
  dsimp -zeta only
  with_reducible apply Device.finish_keeps
  assumption

end Sys2Proof.Machine
end

