-- ==== Sys2Proof/Laws/Keeps7.lean ====
section
/-! SUPPORT. One lemma for each function that yields a device, in the order they call one another (part 7 of 7): what the
function does is kept in the sense of `Keeps`. -/

namespace Sys2Proof.Machine

theorem kindRecv_keeps :
    DescKind.Keeps kindRecv := by
  unfold kindRecv
  intro b0 d1 c2 h3
  dsimp -zeta only
  with_reducible apply Device.updRing_keeps
  assumption

theorem kindWait_keeps :
    DescKind.Keeps kindWait := by
  unfold kindWait
  intro b0 d1 c2 h3
  dsimp -zeta only
  extract_lets +onlyGivenNames x4 x5
  clear_value x4
  clear_value x5
  refine Keeps.ite (fun _ => ?_) (fun _ => ?_)
  · rename_i v6
    split
    · rename_i v7 v8
      assumption
    · rename_i v9 v10 v11
      refine Keeps.ite (fun _ => ?_) (fun _ => ?_)
      · rename_i v12
        with_reducible apply Device.finish_keeps
        assumption
      · rename_i v13
        assumption
  · rename_i v14
    extract_lets +onlyGivenNames x15 x16 x17
    clear_value x15
    clear_value x16
    have h_x17 : Keeps b0 x17.1 := by
      unfold x17
      with_reducible apply Device.examine_keeps
      with_reducible apply Device.setBell_keeps
      assumption
    clear_value x17
    with_reducible apply Device.perform_keeps
    assumption

theorem kindImageLoad_keeps :
    DescKind.Keeps kindImageLoad := by
  unfold kindImageLoad
  intro b0 d1 c2 h3
  dsimp -zeta only
  extract_lets +onlyGivenNames x4 x5 x6
  clear_value x4
  have h_x5 : Keeps b0 x5.1 := by
    unfold x5
    with_reducible apply Device.writeImage_keeps
    assumption
  clear_value x5
  clear_value x6
  with_reducible apply Device.mapService_keeps
  with_reducible apply Device.updImage_keeps
  assumption

theorem kindCreate_keeps :
    DescKind.Keeps kindCreate := by
  unfold kindCreate
  intro b0 d1 c2 h3
  dsimp -zeta only
  extract_lets +onlyGivenNames x4 x5 x6
  clear_value x4
  clear_value x5
  have h_x6 : Keeps b0 x6.1 := by
    unfold x6
    split
    · rename_i v7
      assumption
    · rename_i v8
      with_reducible apply Device.checkedRead_keeps
      assumption
  clear_value x6
  split
  · rename_i v9 v10 v11
    with_reducible apply Device.failTransfer_keeps
    assumption
  · rename_i v12 v13
    extract_lets +onlyGivenNames x14 x15
    clear_value x14
    clear_value x15
    with_reducible apply Device.finish_keeps
    with_reducible apply Device.newRecord_keeps
    assumption

theorem kindOffer_keeps :
    DescKind.Keeps kindOffer := by
  unfold kindOffer
  intro b0 d1 c2 h3
  dsimp -zeta only
  with_reducible apply Device.startOffer_keeps
  assumption

theorem kindPull_keeps :
    DescKind.Keeps kindPull := by
  unfold kindPull
  intro b0 d1 c2 h3
  dsimp -zeta only
  split
  · rename_i v4 v5
    with_reducible apply Device.finish_keeps
    assumption
  · rename_i v6 v7 v8
    with_reducible apply Device.startPull_keeps
    assumption

theorem kindRelease_keeps :
    DescKind.Keeps kindRelease := by
  unfold kindRelease
  intro b0 d1 c2 h3
  dsimp -zeta only
  with_reducible apply Device.startRelease_keeps
  assumption

theorem kindLookup_keeps :
    DescKind.Keeps kindLookup := by
  unfold kindLookup
  intro b0 d1 c2 h3
  dsimp -zeta only
  extract_lets +onlyGivenNames x4
  have h_x4 : Keeps b0 x4.1 := by
    unfold x4
    with_reducible apply Device.readTokens_keeps
    assumption
  clear_value x4
  split
  · rename_i v5 v6 v7 v8 v9
    with_reducible apply Device.failTransfer_keeps
    assumption
  · rename_i v10 v11 v12 v13 v14 v15 v16 v17
    with_reducible apply Device.lookup_keeps
    assumption
  · rename_i v18 v19 v20 v21 v22
    with_reducible apply Device.finish_keeps
    assumption

theorem kindInsert_keeps :
    DescKind.Keeps kindInsert := by
  unfold kindInsert
  intro b0 d1 c2 h3
  dsimp -zeta only
  extract_lets +onlyGivenNames x4 x5
  clear_value x4
  have h_x5 : Keeps b0 x5.1 := by
    unfold x5
    with_reducible apply Device.readTokens_keeps
    assumption
  clear_value x5
  split
  · rename_i v6 v7 v8 v9
    with_reducible apply Device.failTransfer_keeps
    assumption
  · rename_i v10 v11 v12 v13 v14
    extract_lets +onlyGivenNames x15
    have h_x15 : Keeps b0 x15.2.2 := by
      unfold x15
      with_reducible apply Device.insertWalk_keeps
      assumption
    clear_value x15
    with_reducible apply Device.endWalk_keeps
    assumption
  · rename_i v16 v17 v18 v19
    with_reducible apply Device.finish_keeps
    assumption

theorem kindUnpin_keeps :
    DescKind.Keeps kindUnpin := by
  unfold kindUnpin
  intro b0 d1 c2 h3
  dsimp -zeta only
  with_reducible apply Device.finish_keeps
  with_reducible apply Device.unpinNode_keeps
  assumption

theorem kindEvict_keeps :
    DescKind.Keeps kindEvict := by
  unfold kindEvict
  intro b0 d1 c2 h3
  dsimp -zeta only
  split
  · rename_i v4 v5
    with_reducible apply Device.finish_keeps
    assumption
  · rename_i v6 v7 v8
    extract_lets +onlyGivenNames x9
    have h_x9 : Keeps b0 x9.2 := by
      unfold x9
      with_reducible apply Device.evictNodes_keeps
      assumption
    clear_value x9
    with_reducible apply Device.finish_keeps
    assumption

theorem kindTierMove_keeps : DescKind.Keeps kindTierMove := by
  unfold kindTierMove
  intro a d j h
  exact Device.queueMove_keeps _ _ _ h

theorem kindSelect_keeps :
    DescKind.Keeps kindSelect := by
  unfold kindSelect
  intro b0 d1 c2 h3
  dsimp -zeta only
  extract_lets +onlyGivenNames x4 x5
  clear_value x4
  clear_value x5
  with_reducible apply Device.startSelect_keeps
  with_reducible apply Device.mapService_keeps
  assumption

theorem kindStep_keeps :
    DescKind.Keeps kindStep := by
  unfold kindStep
  intro b0 d1 c2 h3
  dsimp -zeta only
  split
  · rename_i v4 v5
    assumption
  · rename_i v6 v7 v8
    extract_lets +onlyGivenNames x9 x10
    clear_value x9
    have h_x10 : Keeps b0 x10.1 := by
      unfold x10
      with_reducible apply Device.checkedRead_keeps
      assumption
    clear_value x10
    split
    · rename_i v11 v12 v13
      with_reducible apply Device.failTransfer_keeps
      assumption
    · rename_i v14 v15
      extract_lets +onlyGivenNames x16
      clear_value x16
      with_reducible apply Device.updServing_keeps
      assumption

theorem seqNop_keeps {a : Device} (p0 : Issue) (p1 : Device) (h1 : Keeps a p1) :
    Keeps a (seqNop p0 p1) := by
  unfold seqNop
  with_reducible apply Device.complete_keeps
  assumption

theorem seqHalt_keeps {a : Device} (p0 : Issue) (p1 : Device) (h1 : Keeps a p1) :
    Keeps a (seqHalt p0 p1) := by
  unfold seqHalt
  with_reducible apply Device.updThread_keeps
  assumption

theorem seqCall_keeps {a : Device} (p0 : Issue) (p1 : Device) (h1 : Keeps a p1) :
    Keeps a (seqCall p0 p1) := by
  unfold seqCall
  with_reducible apply Device.transfer_keeps
  assumption

theorem seqJumpr_keeps {a : Device} (p0 : Issue) (p1 : Device) (h1 : Keeps a p1) :
    Keeps a (seqJumpr p0 p1) := by
  unfold seqJumpr
  with_reducible apply Device.transfer_keeps
  assumption

theorem seqYield_keeps {a : Device} (p0 : Issue) (p1 : Device) (h1 : Keeps a p1) :
    Keeps a (seqYield p0 p1) := by
  unfold seqYield
  with_reducible apply Device.updThread_keeps
  assumption

theorem seqSlotwait_keeps {a : Device} (p0 : Issue) (p1 : Device) (h1 : Keeps a p1) :
    Keeps a (seqSlotwait p0 p1) := by
  unfold seqSlotwait
  extract_lets +onlyGivenNames x0 x1
  clear_value x0
  clear_value x1
  with_reducible apply Device.guarded_keeps
  · assumption
  · intro d2
    intro x3
    with_reducible apply Device.waitAt_keeps
    assumption

theorem seqTstart_keeps {a : Device} (p0 : Issue) (p1 : Device) (h1 : Keeps a p1) :
    Keeps a (seqTstart p0 p1) := by
  unfold seqTstart
  extract_lets +onlyGivenNames x0 x1
  clear_value x0
  clear_value x1
  with_reducible apply Device.guarded_keeps
  · assumption
  · intro d2
    intro x3
    with_reducible apply Device.complete_keeps
    with_reducible apply Device.updThread_keeps
    assumption

theorem scalar3_keeps {a : Device} (p0 : Word → Word → Word) (p1 : Issue) (p2 : Device) (h2 : Keeps a p2) :
    Keeps a (scalar3 p0 p1 p2) := by
  unfold scalar3
  with_reducible apply Device.completeS_keeps
  assumption

theorem scalarImm_keeps {a : Device} (p0 : Word → Word → Word) (p1 : Issue) (p2 : Device) (h2 : Keeps a p2) :
    Keeps a (scalarImm p0 p1 p2) := by
  unfold scalarImm
  with_reducible apply Device.completeS_keeps
  assumption

theorem scalarShift_keeps {a : Device} (p0 : Word → Nat → Word) (p1 : Issue) (p2 : Device) (h2 : Keeps a p2) :
    Keeps a (scalarShift p0 p1 p2) := by
  unfold scalarShift
  with_reducible apply Device.completeS_keeps
  assumption

theorem seqLih_keeps {a : Device} (p0 : Issue) (p1 : Device) (h1 : Keeps a p1) :
    Keeps a (seqLih p0 p1) := by
  unfold seqLih
  with_reducible apply Device.completeS_keeps
  assumption

theorem seqLd_keeps {a : Device} (p0 : Issue) (p1 : Device) (h1 : Keeps a p1) :
    Keeps a (seqLd p0 p1) := by
  unfold seqLd
  extract_lets +onlyGivenNames x0
  clear_value x0
  with_reducible apply Device.guarded_keeps
  · assumption
  · intro d1
    intro x2
    with_reducible apply Device.withBuffer_keeps
    · assumption
    · intro x3
      intro d4
      intro x5
      with_reducible apply Device.completeS_keeps
      assumption

theorem seqSt_keeps {a : Device} (p0 : Issue) (p1 : Device) (h1 : Keeps a p1) :
    Keeps a (seqSt p0 p1) := by
  unfold seqSt
  extract_lets +onlyGivenNames x0
  clear_value x0
  with_reducible apply Device.guarded_keeps
  · assumption
  · intro d1
    intro x2
    with_reducible apply Device.complete_keeps
    with_reducible apply Device.storeBuffer_keeps
    assumption

theorem seqMloadw_keeps {a : Device} (p0 : Issue) (p1 : Device) (h1 : Keeps a p1) :
    Keeps a (seqMloadw p0 p1) := by
  unfold seqMloadw
  extract_lets +onlyGivenNames x0 x1 x2 x3 x4
  clear_value x0
  clear_value x1
  clear_value x2
  clear_value x3
  clear_value x4
  with_reducible apply Device.guarded_keeps
  · assumption
  · intro d5
    intro x6
    with_reducible apply Device.withStream_keeps
    · assumption
    · intro x7
      intro d8
      intro x9
      with_reducible apply Device.complete_keeps
      refine Keeps.foldl (fun d10 x11 h12 => ?_) ?_
      · with_reducible apply Device.setScratch_keeps
        assumption
      · assumption

theorem seqMmac_keeps {a : Device} (p0 : Issue) (p1 : Device) (h1 : Keeps a p1) :
    Keeps a (seqMmac p0 p1) := by
  unfold seqMmac
  extract_lets +onlyGivenNames x0 x1 x2 x3 x4 x5 x6 x7 x8 x9 x10
  clear_value x0
  clear_value x1
  clear_value x2
  clear_value x3
  clear_value x4
  clear_value x5
  clear_value x6
  clear_value x7
  clear_value x8
  clear_value x9
  clear_value x10
  with_reducible apply Device.guarded_keeps
  · assumption
  · intro d11
    intro x12
    with_reducible apply Device.withMmac_keeps
    · assumption
    · intro x13
      intro d14
      intro x15
      with_reducible apply Device.matrixRounds_keeps
      with_reducible apply Device.complete_keeps
      with_reducible apply Device.keepMmac_keeps
      assumption

theorem seqMdrain_keeps {a : Device} (p0 : Issue) (p1 : Device) (h1 : Keeps a p1) :
    Keeps a (seqMdrain p0 p1) := by
  unfold seqMdrain
  extract_lets +onlyGivenNames x0 x1 x2 x3 x4
  clear_value x0
  clear_value x1
  clear_value x2
  clear_value x3
  clear_value x4
  with_reducible apply Device.guarded_keeps
  · assumption
  · intro d5
    intro x6
    extract_lets +onlyGivenNames x7 x8 x9 x10 x11 x12 x13 x14 x15
    clear_value x7
    clear_value x8
    clear_value x9
    clear_value x10
    clear_value x11
    clear_value x12
    have h_x13 : Keeps a x13 := by
      unfold x13
      with_reducible apply Device.updBlock_keeps
      assumption
    clear_value x13
    clear_value x14
    have h_x15 : Keeps a x15 := by
      unfold x15
      refine Keeps.ite (fun _ => ?_) (fun _ => ?_)
      · rename_i v16
        with_reducible apply Device.mapFabric_keeps
        assumption
      · rename_i v17
        assumption
    clear_value x15
    with_reducible apply Device.complete_keeps
    with_reducible apply Device.storeBuffer_keeps
    assumption

theorem seqMzero_keeps {a : Device} (p0 : Issue) (p1 : Device) (h1 : Keeps a p1) :
    Keeps a (seqMzero p0 p1) := by
  unfold seqMzero
  extract_lets +onlyGivenNames x0 x1
  clear_value x0
  clear_value x1
  with_reducible apply Device.complete_keeps
  with_reducible apply Device.mapFabric_keeps
  assumption

theorem seqVld_keeps {a : Device} (p0 : Issue) (p1 : Device) (h1 : Keeps a p1) :
    Keeps a (seqVld p0 p1) := by
  unfold seqVld
  extract_lets +onlyGivenNames x0
  clear_value x0
  with_reducible apply Device.guarded_keeps
  · assumption
  · intro d1
    intro x2
    with_reducible apply Device.withBuffer_keeps
    · assumption
    · intro x3
      intro d4
      intro x5
      with_reducible apply Device.complete_keeps
      assumption

theorem seqVst_keeps {a : Device} (p0 : Issue) (p1 : Device) (h1 : Keeps a p1) :
    Keeps a (seqVst p0 p1) := by
  unfold seqVst
  extract_lets +onlyGivenNames x0
  clear_value x0
  with_reducible apply Device.guarded_keeps
  · assumption
  · intro d1
    intro x2
    with_reducible apply Device.complete_keeps
    with_reducible apply Device.storeBuffer_keeps
    assumption

theorem vector2_keeps {a : Device} (p0 : Word32 → Word32 → Word32 × BitVec 5) (p1 : Issue) (p2 : Device) (h2 : Keeps a p2) :
    Keeps a (vector2 p0 p1 p2) := by
  unfold vector2
  with_reducible apply Device.completeV_keeps
  assumption

theorem seqVadd_keeps {a : Device} (p0 : Issue) (p1 : Device) (h1 : Keeps a p1) :
    Keeps a (seqVadd p0 p1) := by
  unfold seqVadd
  with_reducible apply vector2_keeps
  assumption

theorem seqVsub_keeps {a : Device} (p0 : Issue) (p1 : Device) (h1 : Keeps a p1) :
    Keeps a (seqVsub p0 p1) := by
  unfold seqVsub
  with_reducible apply vector2_keeps
  assumption

theorem seqVmul_keeps {a : Device} (p0 : Issue) (p1 : Device) (h1 : Keeps a p1) :
    Keeps a (seqVmul p0 p1) := by
  unfold seqVmul
  with_reducible apply vector2_keeps
  assumption

theorem seqVfma_keeps {a : Device} (p0 : Issue) (p1 : Device) (h1 : Keeps a p1) :
    Keeps a (seqVfma p0 p1) := by
  unfold seqVfma
  extract_lets +onlyGivenNames x0
  clear_value x0
  with_reducible apply Device.completeV_keeps
  assumption

theorem seqVmax_keeps {a : Device} (p0 : Issue) (p1 : Device) (h1 : Keeps a p1) :
    Keeps a (seqVmax p0 p1) := by
  unfold seqVmax
  with_reducible apply vector2_keeps
  assumption

theorem seqVmin_keeps {a : Device} (p0 : Issue) (p1 : Device) (h1 : Keeps a p1) :
    Keeps a (seqVmin p0 p1) := by
  unfold seqVmin
  with_reducible apply vector2_keeps
  assumption

theorem vector1_keeps {a : Device} (p0 : Word32 → Word32 × BitVec 5) (p1 : Issue) (p2 : Device) (h2 : Keeps a p2) :
    Keeps a (vector1 p0 p1 p2) := by
  unfold vector1
  with_reducible apply Device.completeV_keeps
  assumption

theorem seqVexp2_keeps {a : Device} (p0 : Issue) (p1 : Device) (h1 : Keeps a p1) :
    Keeps a (seqVexp2 p0 p1) := by
  unfold seqVexp2
  with_reducible apply vector1_keeps
  assumption

theorem seqVrcp_keeps {a : Device} (p0 : Issue) (p1 : Device) (h1 : Keeps a p1) :
    Keeps a (seqVrcp p0 p1) := by
  unfold seqVrcp
  with_reducible apply vector1_keeps
  assumption

theorem seqVrsqrt_keeps {a : Device} (p0 : Issue) (p1 : Device) (h1 : Keeps a p1) :
    Keeps a (seqVrsqrt p0 p1) := by
  unfold seqVrsqrt
  with_reducible apply vector1_keeps
  assumption

theorem seqVlog2_keeps {a : Device} (p0 : Issue) (p1 : Device) (h1 : Keeps a p1) :
    Keeps a (seqVlog2 p0 p1) := by
  unfold seqVlog2
  with_reducible apply vector1_keeps
  assumption

theorem seqVbcast_keeps {a : Device} (p0 : Issue) (p1 : Device) (h1 : Keeps a p1) :
    Keeps a (seqVbcast p0 p1) := by
  unfold seqVbcast
  with_reducible apply Device.complete_keeps
  assumption

theorem seqVredmax_keeps {a : Device} (p0 : Issue) (p1 : Device) (h1 : Keeps a p1) :
    Keeps a (seqVredmax p0 p1) := by
  unfold seqVredmax
  extract_lets +onlyGivenNames x0
  clear_value x0
  with_reducible apply Device.completeS_keeps
  assumption

theorem seqVredsum_keeps {a : Device} (p0 : Issue) (p1 : Device) (h1 : Keeps a p1) :
    Keeps a (seqVredsum p0 p1) := by
  unfold seqVredsum
  extract_lets +onlyGivenNames x0
  clear_value x0
  with_reducible apply Device.complete_keeps
  assumption

theorem seqVmovs_keeps {a : Device} (p0 : Issue) (p1 : Device) (h1 : Keeps a p1) :
    Keeps a (seqVmovs p0 p1) := by
  unfold seqVmovs
  with_reducible apply Device.completeS_keeps
  assumption

theorem seqVcvt_keeps {a : Device} (p0 : Issue) (p1 : Device) (h1 : Keeps a p1) :
    Keeps a (seqVcvt p0 p1) := by
  unfold seqVcvt
  extract_lets +onlyGivenNames x0 x1 x2
  clear_value x0
  clear_value x1
  clear_value x2
  with_reducible apply Device.guarded_keeps
  · assumption
  · intro d3
    intro x4
    extract_lets +onlyGivenNames x5 x6 x7 x8
    clear_value x5
    clear_value x6
    clear_value x7
    have h_x8 : Keeps a x8 := by
      unfold x8
      with_reducible apply Device.updBlock_keeps
      assumption
    clear_value x8
    with_reducible apply Device.complete_keeps
    with_reducible apply Device.storeBuffer_keeps
    assumption

theorem seqVqmx_keeps {a : Device} (p0 : Issue) (p1 : Device) (h1 : Keeps a p1) :
    Keeps a (seqVqmx p0 p1) := by
  unfold seqVqmx
  extract_lets +onlyGivenNames x0 x1 x2 x3
  clear_value x0
  clear_value x1
  clear_value x2
  clear_value x3
  with_reducible apply Device.guarded_keeps
  · assumption
  · intro d4
    intro x5
    extract_lets +onlyGivenNames x6 x7 x8 x9 x10 x11 x12
    clear_value x6
    clear_value x7
    clear_value x8
    clear_value x9
    clear_value x10
    have h_x11 : Keeps a x11 := by
      unfold x11
      with_reducible apply Device.updBlock_keeps
      assumption
    clear_value x11
    have h_x12 : Keeps a x12 := by
      unfold x12
      with_reducible apply Device.storeBuffer_keeps
      assumption
    clear_value x12
    with_reducible apply Device.complete_keeps
    with_reducible apply Device.storeBuffer_keeps
    assumption

theorem seqVunpk_keeps {a : Device} (p0 : Issue) (p1 : Device) (h1 : Keeps a p1) :
    Keeps a (seqVunpk p0 p1) := by
  unfold seqVunpk
  extract_lets +onlyGivenNames x0 x1 x2 x3 x4
  clear_value x0
  clear_value x1
  clear_value x2
  clear_value x3
  clear_value x4
  with_reducible apply Device.guarded_keeps
  · assumption
  · intro d5
    intro x6
    with_reducible apply Device.withBuffer_keeps
    · assumption
    · intro x7
      intro d8
      intro x9
      with_reducible apply Device.withBuffer_keeps
      · assumption
      · intro x10
        intro d11
        intro x12
        with_reducible apply Device.completeV_keeps
        assumption

theorem seqBsetx_keeps {a : Device} (p0 : Issue) (p1 : Device) (h1 : Keeps a p1) :
    Keeps a (seqBsetx p0 p1) := by
  unfold seqBsetx
  with_reducible apply Device.complete_keeps
  assumption

theorem seqBload_keeps {a : Device} (p0 : Issue) (p1 : Device) (h1 : Keeps a p1) :
    Keeps a (seqBload p0 p1) := by
  unfold seqBload
  extract_lets +onlyGivenNames x0 x1 x2 x3
  clear_value x0
  clear_value x1
  clear_value x2
  clear_value x3
  with_reducible apply Device.guarded_keeps
  · assumption
  · intro d4
    intro x5
    with_reducible apply Device.startBale_keeps
    assumption

theorem seqBstore_keeps {a : Device} (p0 : Issue) (p1 : Device) (h1 : Keeps a p1) :
    Keeps a (seqBstore p0 p1) := by
  unfold seqBstore
  extract_lets +onlyGivenNames x0 x1 x2
  clear_value x0
  clear_value x1
  clear_value x2
  with_reducible apply Device.guarded_keeps
  · assumption
  · intro d3
    intro x4
    with_reducible apply Device.startBale_keeps
    assumption

theorem seqBexpand_keeps {a : Device} (p0 : Issue) (p1 : Device) (h1 : Keeps a p1) :
    Keeps a (seqBexpand p0 p1) := by
  unfold seqBexpand
  extract_lets +onlyGivenNames x0 x1
  clear_value x0
  clear_value x1
  with_reducible apply Device.guarded_keeps
  · assumption
  · intro d2
    intro x3
    with_reducible apply Device.startBale_keeps
    assumption

theorem seqBcopy_keeps {a : Device} (p0 : Issue) (p1 : Device) (h1 : Keeps a p1) :
    Keeps a (seqBcopy p0 p1) := by
  unfold seqBcopy
  extract_lets +onlyGivenNames x0 x1
  clear_value x0
  clear_value x1
  with_reducible apply Device.guarded_keeps
  · assumption
  · intro d2
    intro x3
    with_reducible apply Device.startBale_keeps
    assumption

theorem seqAmax_keeps {a : Device} (p0 : Issue) (p1 : Device) (h1 : Keeps a p1) :
    Keeps a (seqAmax p0 p1) := by
  unfold seqAmax
  extract_lets +onlyGivenNames x0
  clear_value x0
  with_reducible apply Device.complete_keeps
  assumption

theorem seqAexp_keeps {a : Device} (p0 : Issue) (p1 : Device) (h1 : Keeps a p1) :
    Keeps a (seqAexp p0 p1) := by
  unfold seqAexp
  with_reducible apply Device.completeV_keeps
  assumption

theorem seqAresc_keeps {a : Device} (p0 : Issue) (p1 : Device) (h1 : Keeps a p1) :
    Keeps a (seqAresc p0 p1) := by
  unfold seqAresc
  extract_lets +onlyGivenNames x0
  clear_value x0
  with_reducible apply Device.completeV_keeps
  assumption

theorem seqAmerge_keeps {a : Device} (p0 : Issue) (p1 : Device) (h1 : Keeps a p1) :
    Keeps a (seqAmerge p0 p1) := by
  unfold seqAmerge
  extract_lets +onlyGivenNames x0 x1 x2 x3 x4
  clear_value x0
  clear_value x1
  clear_value x2
  clear_value x3
  clear_value x4
  with_reducible apply Device.complete_keeps
  assumption

theorem seqAbias_keeps {a : Device} (p0 : Issue) (p1 : Device) (h1 : Keeps a p1) :
    Keeps a (seqAbias p0 p1) := by
  unfold seqAbias
  extract_lets +onlyGivenNames x0
  clear_value x0
  with_reducible apply Device.guarded_keeps
  · assumption
  · intro d1
    intro x2
    with_reducible apply Device.withBuffer_keeps
    · assumption
    · intro x3
      intro d4
      intro x5
      with_reducible apply Device.completeV_keeps
      assumption

theorem remoteIssue_keeps {a : Device} (p0 : Request) (p1 : Issue) (p2 : Device) (h2 : Keeps a p2) :
    Keeps a (remoteIssue p0 p1 p2) := by
  unfold remoteIssue
  extract_lets +onlyGivenNames x0 x1 x2 x3 x4
  clear_value x0
  clear_value x1
  clear_value x2
  clear_value x3
  clear_value x4
  with_reducible apply Device.guarded_keeps
  · assumption
  · intro d5
    intro x6
    split
    · rename_i v7
      assumption
    · rename_i v8 v9
      split
      · rename_i v10 v11 v12 v13 v14
        with_reducible apply Device.withBuffer_keeps
        · assumption
        · intro x15
          intro d16
          intro x17
          with_reducible apply Device.startRemote_keeps
          assumption
      · rename_i v18 v19 v20
        with_reducible apply Device.startRemote_keeps
        assumption

theorem seqRload_keeps {a : Device} (p0 : Issue) (p1 : Device) (h1 : Keeps a p1) :
    Keeps a (seqRload p0 p1) := by
  unfold seqRload
  with_reducible apply remoteIssue_keeps
  assumption

theorem seqRstore_keeps {a : Device} (p0 : Issue) (p1 : Device) (h1 : Keeps a p1) :
    Keeps a (seqRstore p0 p1) := by
  unfold seqRstore
  with_reducible apply remoteIssue_keeps
  assumption

theorem seqRflag_keeps {a : Device} (p0 : Issue) (p1 : Device) (h1 : Keeps a p1) :
    Keeps a (seqRflag p0 p1) := by
  unfold seqRflag
  with_reducible apply remoteIssue_keeps
  assumption

theorem seqRatom_keeps {a : Device} (p0 : Issue) (p1 : Device) (h1 : Keeps a p1) :
    Keeps a (seqRatom p0 p1) := by
  unfold seqRatom
  with_reducible apply remoteIssue_keeps
  assumption

theorem seqRput_keeps {a : Device} (p0 : Issue) (p1 : Device) (h1 : Keeps a p1) :
    Keeps a (seqRput p0 p1) := by
  unfold seqRput
  with_reducible apply remoteIssue_keeps
  assumption

theorem seqRget_keeps {a : Device} (p0 : Issue) (p1 : Device) (h1 : Keeps a p1) :
    Keeps a (seqRget p0 p1) := by
  unfold seqRget
  with_reducible apply remoteIssue_keeps
  assumption

theorem seqBring_keeps {a : Device} (p0 : Issue) (p1 : Device) (h1 : Keeps a p1) :
    Keeps a (seqBring p0 p1) := by
  unfold seqBring
  extract_lets +onlyGivenNames x0 x1 x2 x3 x4
  clear_value x0
  clear_value x1
  clear_value x2
  clear_value x3
  clear_value x4
  with_reducible apply Device.guarded_keeps
  · assumption
  · intro d5
    intro x6
    refine Keeps.ite (fun _ => ?_) (fun _ => ?_)
    · rename_i v7
      with_reducible apply Device.perform_keeps
      with_reducible apply Device.complete_keeps
      assumption
    · rename_i v8
      with_reducible apply Device.sendThrough_keeps
      · with_reducible apply Device.complete_keeps
        assumption
      · intro d9
        intro x10
        assumption

theorem seqBwait_keeps {a : Device} (p0 : Issue) (p1 : Device) (h1 : Keeps a p1) :
    Keeps a (seqBwait p0 p1) := by
  unfold seqBwait
  extract_lets +onlyGivenNames x0 x1 x2 x3
  clear_value x0
  clear_value x1
  clear_value x2
  clear_value x3
  with_reducible apply Device.guarded_keeps
  · assumption
  · intro d4
    intro x5
    extract_lets +onlyGivenNames x6 x7 x8 x9 x10
    clear_value x6
    clear_value x7
    clear_value x8
    have h_x9 : Keeps a x9 := by
      unfold x9
      with_reducible apply Device.setBell_keeps
      with_reducible apply Device.waitAt_keeps
      assumption
    clear_value x9
    have h_x10 : Keeps a x10.1 := by
      unfold x10
      with_reducible apply Device.examine_keeps
      assumption
    clear_value x10
    with_reducible apply Device.perform_keeps
    assumption

theorem seqBtry_keeps {a : Device} (p0 : Issue) (p1 : Device) (h1 : Keeps a p1) :
    Keeps a (seqBtry p0 p1) := by
  unfold seqBtry
  extract_lets +onlyGivenNames x0 x1 x2
  clear_value x0
  clear_value x1
  clear_value x2
  with_reducible apply Device.guarded_keeps
  · assumption
  · intro d3
    intro x4
    extract_lets +onlyGivenNames x5
    clear_value x5
    refine Keeps.ite (fun _ => ?_) (fun _ => ?_)
    · rename_i v6
      extract_lets +onlyGivenNames x7
      clear_value x7
      with_reducible apply Device.completeS_keeps
      with_reducible apply Device.traced_keeps
      with_reducible apply Device.setBell_keeps
      assumption
    · rename_i v8
      with_reducible apply Device.completeS_keeps
      assumption

theorem seqBread_keeps {a : Device} (p0 : Issue) (p1 : Device) (h1 : Keeps a p1) :
    Keeps a (seqBread p0 p1) := by
  unfold seqBread
  extract_lets +onlyGivenNames x0
  clear_value x0
  with_reducible apply Device.guarded_keeps
  · assumption
  · intro d1
    intro x2
    extract_lets +onlyGivenNames x3 x4
    clear_value x3
    have h_x4 : Keeps a x4 := by
      unfold x4
      refine Keeps.ite (fun _ => ?_) (fun _ => ?_)
      · rename_i v5
        assumption
      · rename_i v6
        with_reducible apply Device.setBell_keeps
        assumption
    clear_value x4
    with_reducible apply Device.completeS_keeps
    assumption

theorem seqHarrive_keeps {a : Device} (p0 : Issue) (p1 : Device) (h1 : Keeps a p1) :
    Keeps a (seqHarrive p0 p1) := by
  unfold seqHarrive
  extract_lets +onlyGivenNames x0
  clear_value x0
  with_reducible apply Device.guarded_keeps
  · assumption
  · intro d1
    intro x2
    with_reducible apply Device.complete_keeps
    with_reducible apply Device.sendArrival_keeps
    assumption

theorem seqHwait_keeps {a : Device} (p0 : Issue) (p1 : Device) (h1 : Keeps a p1) :
    Keeps a (seqHwait p0 p1) := by
  unfold seqHwait
  extract_lets +onlyGivenNames x0
  clear_value x0
  with_reducible apply Device.guarded_keeps
  · assumption
  · intro d1
    intro x2
    with_reducible apply Device.awaitRound_keeps
    assumption

theorem seqHpass_keeps {a : Device} (p0 : Issue) (p1 : Device) (h1 : Keeps a p1) :
    Keeps a (seqHpass p0 p1) := by
  unfold seqHpass
  extract_lets +onlyGivenNames x0
  clear_value x0
  refine Keeps.ite (fun _ => ?_) (fun _ => ?_)
  · rename_i v1
    with_reducible apply Device.guarded_keeps
    · assumption
    · intro d2
      intro x3
      with_reducible apply Device.awaitRound_keeps
      assumption
  · rename_i v4
    with_reducible apply Device.guarded_keeps
    · assumption
    · intro d5
      intro x6
      with_reducible apply Device.waitAt_keeps
      with_reducible apply Device.sendArrival_keeps
      assumption

theorem seqWwait_keeps {a : Device} (p0 : Issue) (p1 : Device) (h1 : Keeps a p1) :
    Keeps a (seqWwait p0 p1) := by
  unfold seqWwait
  with_reducible apply Device.waitAt_keeps
  assumption

theorem seqWleft_keeps {a : Device} (p0 : Issue) (p1 : Device) (h1 : Keeps a p1) :
    Keeps a (seqWleft p0 p1) := by
  unfold seqWleft
  with_reducible apply Device.completeS_keeps
  assumption

theorem seqRdstat_keeps {a : Device} (p0 : Issue) (p1 : Device) (h1 : Keeps a p1) :
    Keeps a (seqRdstat p0 p1) := by
  unfold seqRdstat
  with_reducible apply Device.completeS_keeps
  assumption

theorem seqClrstat_keeps {a : Device} (p0 : Issue) (p1 : Device) (h1 : Keeps a p1) :
    Keeps a (seqClrstat p0 p1) := by
  unfold seqClrstat
  with_reducible apply Device.complete_keeps
  assumption

theorem seqVseed_keeps {a : Device} (p0 : Issue) (p1 : Device) (h1 : Keeps a p1) :
    Keeps a (seqVseed p0 p1) := by
  unfold seqVseed
  with_reducible apply Device.complete_keeps
  with_reducible apply Device.updBlock_keeps
  assumption

theorem seqRdtally_keeps {a : Device} (p0 : Issue) (p1 : Device) (h1 : Keeps a p1) :
    Keeps a (seqRdtally p0 p1) := by
  unfold seqRdtally
  with_reducible apply Device.completeS_keeps
  assumption

theorem seqRdid_keeps {a : Device} (p0 : Issue) (p1 : Device) (h1 : Keeps a p1) :
    Keeps a (seqRdid p0 p1) := by
  unfold seqRdid
  with_reducible apply Device.completeS_keeps
  assumption

theorem seqRdslot_keeps {a : Device} (p0 : Issue) (p1 : Device) (h1 : Keeps a p1) :
    Keeps a (seqRdslot p0 p1) := by
  unfold seqRdslot
  with_reducible apply Device.completeS_keeps
  assumption

end Sys2Proof.Machine
end

