-- ==== Sys2Proof/Laws/Exec.lean ====
section
/-! SUPPORT. Every command answers a next state that keeps its queue, and all but PWR_GOOD falling keep what `Keeps` says. -/

namespace Sys2Proof.Machine

/-- Every command but the fall of PWR_GOOD answers a next state in which only the device has changed, and it keeps. -/
theorem exec_keeps (i : Instr) (s : State) (h : i ≠ .pwrGoodFall) :
    ∃ d, exec i s = .next { s with dev := d } ∧ Keeps s.dev d := by
  have k := Keeps.refl s.dev
  cases i with
  | identify _ => exact ⟨_, rfl, Device.runRow_keeps _ _ _ _ k immIdentify_keeps⟩
  | mbxNext _ => exact ⟨_, rfl, Device.runRow_keeps _ _ _ _ k immMbxNext_keeps⟩
  | deviceIdSet _ => exact ⟨_, rfl, Device.runRow_keeps _ _ _ _ k stagedDeviceIdSet_keeps⟩
  | ownClaim _ => exact ⟨_, rfl, Device.runRow_keeps _ _ _ _ k immOwnClaim_keeps⟩
  | ownRenew _ => exact ⟨_, rfl, Device.runRow_keeps _ _ _ _ k immOwnRenew_keeps⟩
  | ownRelease _ => exact ⟨_, rfl, Device.runRow_keeps _ _ _ _ k immOwnRelease_keeps⟩
  | ownHandover _ => exact ⟨_, rfl, Device.runRow_keeps _ _ _ _ k immOwnHandover_keeps⟩
  | ownAccept _ => exact ⟨_, rfl, Device.runRow_keeps _ _ _ _ k immOwnAccept_keeps⟩
  | ownStatus _ => exact ⟨_, rfl, Device.runRow_keeps _ _ _ _ k immOwnStatus_keeps⟩
  | ownFabricBind _ => exact ⟨_, rfl, Device.runRow_keeps _ _ _ _ k stagedFabricBind_keeps⟩
  | stageOpen _ => exact ⟨_, rfl, Device.runRow_keeps _ _ _ _ k immStageOpen_keeps⟩
  | stageCheck _ => exact ⟨_, rfl, Device.runRow_keeps _ _ _ _ k immStageCheck_keeps⟩
  | stageCommit _ => exact ⟨_, rfl, Device.runRow_keeps _ _ _ _ k immStageCommit_keeps⟩
  | stageAbort _ => exact ⟨_, rfl, Device.runRow_keeps _ _ _ _ k immStageAbort_keeps⟩
  | stageStatus _ => exact ⟨_, rfl, Device.runRow_keeps _ _ _ _ k immStageStatus_keeps⟩
  | paddockCreate _ => exact ⟨_, rfl, Device.runRow_keeps _ _ _ _ k stagedPaddockCreate_keeps⟩
  | paddockDestroy _ => exact ⟨_, rfl, Device.runRow_keeps _ _ _ _ k stagedPaddockDestroy_keeps⟩
  | paddockModify _ => exact ⟨_, rfl, Device.runRow_keeps _ _ _ _ k stagedPaddockModify_keeps⟩
  | paddockWindowSet _ => exact ⟨_, rfl, Device.runRow_keeps _ _ _ _ k stagedPaddockWindowSet_keeps⟩
  | paddockPreempt _ => exact ⟨_, rfl, Device.runRow_keeps _ _ _ _ k immPaddockPreempt_keeps⟩
  | paddockResume _ => exact ⟨_, rfl, Device.runRow_keeps _ _ _ _ k immPaddockResume_keeps⟩
  | paddockStatus _ => exact ⟨_, rfl, Device.runRow_keeps _ _ _ _ k immPaddockStatus_keeps⟩
  | imageRegister _ => exact ⟨_, rfl, Device.runRow_keeps _ _ _ _ k immImageRegister_keeps⟩
  | imageInfo _ => exact ⟨_, rfl, Device.runRow_keeps _ _ _ _ k immImageInfo_keeps⟩
  | imageRetire _ => exact ⟨_, rfl, Device.runRow_keeps _ _ _ _ k immImageRetire_keeps⟩
  | foldJoin _ => exact ⟨_, rfl, Device.runRow_keeps _ _ _ _ k stagedFoldJoin_keeps⟩
  | foldLeave _ => exact ⟨_, rfl, Device.runRow_keeps _ _ _ _ k stagedFoldLeave_keeps⟩
  | foldMapSet _ => exact ⟨_, rfl, Device.runRow_keeps _ _ _ _ k stagedFoldMapSet_keeps⟩
  | foldStatus _ => exact ⟨_, rfl, Device.runRow_keeps _ _ _ _ k immFoldStatus_keeps⟩
  | foldMeter _ => exact ⟨_, rfl, Device.runRow_keeps _ _ _ _ k immFoldMeter_keeps⟩
  | queueCreate _ => exact ⟨_, rfl, Device.runRow_keeps _ _ _ _ k stagedQueueCreate_keeps⟩
  | queueDestroy _ => exact ⟨_, rfl, Device.runRow_keeps _ _ _ _ k stagedQueueDestroy_keeps⟩
  | queueStatus _ => exact ⟨_, rfl, Device.runRow_keeps _ _ _ _ k immQueueStatus_keeps⟩
  | connOpen _ => exact ⟨_, rfl, Device.runRow_keeps _ _ _ _ k stagedConnOpen_keeps⟩
  | connClose _ => exact ⟨_, rfl, Device.runRow_keeps _ _ _ _ k stagedConnClose_keeps⟩
  | connStatus _ => exact ⟨_, rfl, Device.runRow_keeps _ _ _ _ k immConnStatus_keeps⟩
  | exposeCreate _ => exact ⟨_, rfl, Device.runRow_keeps _ _ _ _ k stagedExposeCreate_keeps⟩
  | exposeRevoke _ => exact ⟨_, rfl, Device.runRow_keeps _ _ _ _ k stagedExposeRevoke_keeps⟩
  | exposeStatus _ => exact ⟨_, rfl, Device.runRow_keeps _ _ _ _ k immExposeStatus_keeps⟩
  | portConfig _ => exact ⟨_, rfl, Device.runRow_keeps _ _ _ _ k stagedPortConfig_keeps⟩
  | portStatus _ => exact ⟨_, rfl, Device.runRow_keeps _ _ _ _ k immPortStatus_keeps⟩
  | trafficClassSet _ => exact ⟨_, rfl, Device.runRow_keeps _ _ _ _ k stagedTrafficClassSet_keeps⟩
  | trafficPolicerSet _ => exact ⟨_, rfl, Device.runRow_keeps _ _ _ _ k stagedTrafficPolicerSet_keeps⟩
  | trafficShaperSet _ => exact ⟨_, rfl, Device.runRow_keeps _ _ _ _ k stagedTrafficShaperSet_keeps⟩
  | trafficGateList _ => exact ⟨_, rfl, Device.runRow_keeps _ _ _ _ k stagedTrafficGateList_keeps⟩
  | trafficOverheadSet _ => exact ⟨_, rfl, Device.runRow_keeps _ _ _ _ k stagedTrafficOverheadSet_keeps⟩
  | trafficStatus _ => exact ⟨_, rfl, Device.runRow_keeps _ _ _ _ k immTrafficStatus_keeps⟩
  | droveConfig _ => exact ⟨_, rfl, Device.runRow_keeps _ _ _ _ k stagedDroveConfig_keeps⟩
  | droveStatus _ => exact ⟨_, rfl, Device.runRow_keeps _ _ _ _ k immDroveStatus_keeps⟩
  | prefixConfig _ => exact ⟨_, rfl, Device.runRow_keeps _ _ _ _ k stagedPrefixConfig_keeps⟩
  | prefixStatus _ => exact ⟨_, rfl, Device.runRow_keeps _ _ _ _ k immPrefixStatus_keeps⟩
  | baleCodebookLoad _ => exact ⟨_, rfl, Device.runRow_keeps _ _ _ _ k immCodebookLoad_keeps⟩
  | baleCodebookBuild _ => exact ⟨_, rfl, Device.runRow_keeps _ _ _ _ k immCodebookBuild_keeps⟩
  | baleCodebookStatus _ => exact ⟨_, rfl, Device.runRow_keeps _ _ _ _ k immCodebookStatus_keeps⟩
  | baleTensorSet _ => exact ⟨_, rfl, Device.runRow_keeps _ _ _ _ k stagedTensorSet_keeps⟩
  | serveConfig _ => exact ⟨_, rfl, Device.runRow_keeps _ _ _ _ k stagedServeConfig_keeps⟩
  | serveMaskLoad _ => exact ⟨_, rfl, Device.runRow_keeps _ _ _ _ k immMaskLoad_keeps⟩
  | serveMaskRetire _ => exact ⟨_, rfl, Device.runRow_keeps _ _ _ _ k immMaskRetire_keeps⟩
  | serveStatus _ => exact ⟨_, rfl, Device.runRow_keeps _ _ _ _ k immServeStatus_keeps⟩
  | bellRead _ => exact ⟨_, rfl, Device.runRow_keeps _ _ _ _ k immBellRead_keeps⟩
  | hurdleRead _ => exact ⟨_, rfl, Device.runRow_keeps _ _ _ _ k immHurdleRead_keeps⟩
  | faultRingSet _ => exact ⟨_, rfl, Device.runRow_keeps _ _ _ _ k stagedFaultRingSet_keeps⟩
  | faultRead _ => exact ⟨_, rfl, Device.runRow_keeps _ _ _ _ k immFaultRead_keeps⟩
  | faultClear _ => exact ⟨_, rfl, Device.runRow_keeps _ _ _ _ k immFaultClear_keeps⟩
  | faultInject _ => exact ⟨_, rfl, Device.runRow_keeps _ _ _ _ k immFaultInject_keeps⟩
  | attestReport _ => exact ⟨_, rfl, Device.runRow_keeps _ _ _ _ k immAttestReport_keeps⟩
  | attestCerts _ => exact ⟨_, rfl, Device.runRow_keeps _ _ _ _ k immAttestCerts_keeps⟩
  | worldSet _ => exact ⟨_, rfl, Device.runRow_keeps _ _ _ _ k stagedWorldSet_keeps⟩
  | worldStatus _ => exact ⟨_, rfl, Device.runRow_keeps _ _ _ _ k immWorldStatus_keeps⟩
  | powerStateSet _ => exact ⟨_, rfl, Device.runRow_keeps _ _ _ _ k immPowerStateSet_keeps⟩
  | powerLimitSet _ => exact ⟨_, rfl, Device.runRow_keeps _ _ _ _ k stagedPowerLimitSet_keeps⟩
  | powerStatus _ => exact ⟨_, rfl, Device.runRow_keeps _ _ _ _ k immPowerStatus_keeps⟩
  | clockRegionSet _ => exact ⟨_, rfl, Device.runRow_keeps _ _ _ _ k stagedClockRegionSet_keeps⟩
  | clockStatus _ => exact ⟨_, rfl, Device.runRow_keeps _ _ _ _ k immClockStatus_keeps⟩
  | clockTallyConfig _ => exact ⟨_, rfl, Device.runRow_keeps _ _ _ _ k stagedTallyConfig_keeps⟩
  | clockTallyStatus _ => exact ⟨_, rfl, Device.runRow_keeps _ _ _ _ k immTallyStatus_keeps⟩
  | fwInfo _ => exact ⟨_, rfl, Device.runRow_keeps _ _ _ _ k immFwInfo_keeps⟩
  | fwWrite _ => exact ⟨_, rfl, Device.runRow_keeps _ _ _ _ k immFwWrite_keeps⟩
  | fwActivate _ => exact ⟨_, rfl, Device.runRow_keeps _ _ _ _ k immFwActivate_keeps⟩
  | traceConfig _ => exact ⟨_, rfl, Device.runRow_keeps _ _ _ _ k stagedTraceConfig_keeps⟩
  | traceRead _ => exact ⟨_, rfl, Device.runRow_keeps _ _ _ _ k immTraceRead_keeps⟩
  | nopDescriptor _ => exact ⟨_, rfl, Device.runDescriptor_keeps _ _ _ k kindNop_keeps⟩
  | writeDescriptor _ => exact ⟨_, rfl, Device.runDescriptor_keeps _ _ _ k kindWrite_keeps⟩
  | readDescriptor _ => exact ⟨_, rfl, Device.runDescriptor_keeps _ _ _ k kindRead_keeps⟩
  | atomicDescriptor _ => exact ⟨_, rfl, Device.runDescriptor_keeps _ _ _ k kindAtomic_keeps⟩
  | sendDescriptor _ => exact ⟨_, rfl, Device.runDescriptor_keeps _ _ _ k kindSend_keeps⟩
  | recv _ => exact ⟨_, rfl, Device.runDescriptor_keeps _ _ _ k kindRecv_keeps⟩
  | wait _ => exact ⟨_, rfl, Device.runDescriptor_keeps _ _ _ k kindWait_keeps⟩
  | imageLoad _ => exact ⟨_, rfl, Device.runDescriptor_keeps _ _ _ k kindImageLoad_keeps⟩
  | droveCreate _ => exact ⟨_, rfl, Device.runDescriptor_keeps _ _ _ k kindCreate_keeps⟩
  | droveOffer _ => exact ⟨_, rfl, Device.runDescriptor_keeps _ _ _ k kindOffer_keeps⟩
  | drovePull _ => exact ⟨_, rfl, Device.runDescriptor_keeps _ _ _ k kindPull_keeps⟩
  | droveRelease _ => exact ⟨_, rfl, Device.runDescriptor_keeps _ _ _ k kindRelease_keeps⟩
  | prefixLookup _ => exact ⟨_, rfl, Device.runDescriptor_keeps _ _ _ k kindLookup_keeps⟩
  | prefixInsert _ => exact ⟨_, rfl, Device.runDescriptor_keeps _ _ _ k kindInsert_keeps⟩
  | prefixUnpin _ => exact ⟨_, rfl, Device.runDescriptor_keeps _ _ _ k kindUnpin_keeps⟩
  | prefixEvict _ => exact ⟨_, rfl, Device.runDescriptor_keeps _ _ _ k kindEvict_keeps⟩
  | tierMove _ => exact ⟨_, rfl, Device.runDescriptor_keeps _ _ _ k kindTierMove_keeps⟩
  | pageSelect _ => exact ⟨_, rfl, Device.runDescriptor_keeps _ _ _ k kindSelect_keeps⟩
  | step _ => exact ⟨_, rfl, Device.runDescriptor_keeps _ _ _ k kindStep_keeps⟩
  | stepStart _ => exact ⟨_, rfl, Device.stepStart_keeps _ _ k⟩
  | stepMask _ => exact ⟨_, rfl, Device.stepMask_keeps _ _ k⟩
  | stepSample _ => exact ⟨_, rfl, Device.stepSample_keeps _ _ k⟩
  | stepDeadline _ => exact ⟨_, rfl, Device.stepDeadline_keeps _ _ k⟩
  | nop _ _ => exact ⟨_, rfl, Device.issue_keeps _ _ _ _ _ k fun _ _ x => seqNop_keeps _ _ x⟩
  | halt _ _ => exact ⟨_, rfl, Device.issue_keeps _ _ _ _ _ k fun _ _ x => seqHalt_keeps _ _ x⟩
  | jump _ _ => exact ⟨_, rfl, Device.issue_keeps _ _ _ _ _ k fun _ _ x => Device.transfer_keeps _ _ _ _ x⟩
  | beq _ _ => exact ⟨_, rfl, Device.issue_keeps _ _ _ _ _ k fun _ _ x => branchIf_keeps _ _ _ x⟩
  | bne _ _ => exact ⟨_, rfl, Device.issue_keeps _ _ _ _ _ k fun _ _ x => branchIf_keeps _ _ _ x⟩
  | blt _ _ => exact ⟨_, rfl, Device.issue_keeps _ _ _ _ _ k fun _ _ x => branchIf_keeps _ _ _ x⟩
  | bge _ _ => exact ⟨_, rfl, Device.issue_keeps _ _ _ _ _ k fun _ _ x => branchIf_keeps _ _ _ x⟩
  | bltu _ _ => exact ⟨_, rfl, Device.issue_keeps _ _ _ _ _ k fun _ _ x => branchIf_keeps _ _ _ x⟩
  | bgeu _ _ => exact ⟨_, rfl, Device.issue_keeps _ _ _ _ _ k fun _ _ x => branchIf_keeps _ _ _ x⟩
  | call _ _ => exact ⟨_, rfl, Device.issue_keeps _ _ _ _ _ k fun _ _ x => seqCall_keeps _ _ x⟩
  | jumpr _ _ => exact ⟨_, rfl, Device.issue_keeps _ _ _ _ _ k fun _ _ x => seqJumpr_keeps _ _ x⟩
  | yield _ _ => exact ⟨_, rfl, Device.issue_keeps _ _ _ _ _ k fun _ _ x => seqYield_keeps _ _ x⟩
  | slotwait _ _ => exact ⟨_, rfl, Device.issue_keeps _ _ _ _ _ k fun _ _ x => seqSlotwait_keeps _ _ x⟩
  | slotCounterMatch _ => exact ⟨_, rfl, Device.slotMatches_keeps _ _ k⟩
  | tstart _ _ => exact ⟨_, rfl, Device.issue_keeps _ _ _ _ _ k fun _ _ x => seqTstart_keeps _ _ x⟩
  | add _ _ => exact ⟨_, rfl, Device.issue_keeps _ _ _ _ _ k fun _ _ x => scalar3_keeps _ _ _ x⟩
  | sub _ _ => exact ⟨_, rfl, Device.issue_keeps _ _ _ _ _ k fun _ _ x => scalar3_keeps _ _ _ x⟩
  | and _ _ => exact ⟨_, rfl, Device.issue_keeps _ _ _ _ _ k fun _ _ x => scalar3_keeps _ _ _ x⟩
  | or _ _ => exact ⟨_, rfl, Device.issue_keeps _ _ _ _ _ k fun _ _ x => scalar3_keeps _ _ _ x⟩
  | xor _ _ => exact ⟨_, rfl, Device.issue_keeps _ _ _ _ _ k fun _ _ x => scalar3_keeps _ _ _ x⟩
  | sll _ _ => exact ⟨_, rfl, Device.issue_keeps _ _ _ _ _ k fun _ _ x => scalar3_keeps _ _ _ x⟩
  | srl _ _ => exact ⟨_, rfl, Device.issue_keeps _ _ _ _ _ k fun _ _ x => scalar3_keeps _ _ _ x⟩
  | sra _ _ => exact ⟨_, rfl, Device.issue_keeps _ _ _ _ _ k fun _ _ x => scalar3_keeps _ _ _ x⟩
  | mul _ _ => exact ⟨_, rfl, Device.issue_keeps _ _ _ _ _ k fun _ _ x => scalar3_keeps _ _ _ x⟩
  | mulhu _ _ => exact ⟨_, rfl, Device.issue_keeps _ _ _ _ _ k fun _ _ x => scalar3_keeps _ _ _ x⟩
  | min _ _ => exact ⟨_, rfl, Device.issue_keeps _ _ _ _ _ k fun _ _ x => scalar3_keeps _ _ _ x⟩
  | max _ _ => exact ⟨_, rfl, Device.issue_keeps _ _ _ _ _ k fun _ _ x => scalar3_keeps _ _ _ x⟩
  | slt _ _ => exact ⟨_, rfl, Device.issue_keeps _ _ _ _ _ k fun _ _ x => scalar3_keeps _ _ _ x⟩
  | sltu _ _ => exact ⟨_, rfl, Device.issue_keeps _ _ _ _ _ k fun _ _ x => scalar3_keeps _ _ _ x⟩
  | addi _ _ => exact ⟨_, rfl, Device.issue_keeps _ _ _ _ _ k fun _ _ x => scalarImm_keeps _ _ _ x⟩
  | andi _ _ => exact ⟨_, rfl, Device.issue_keeps _ _ _ _ _ k fun _ _ x => scalarImm_keeps _ _ _ x⟩
  | ori _ _ => exact ⟨_, rfl, Device.issue_keeps _ _ _ _ _ k fun _ _ x => scalarImm_keeps _ _ _ x⟩
  | xori _ _ => exact ⟨_, rfl, Device.issue_keeps _ _ _ _ _ k fun _ _ x => scalarImm_keeps _ _ _ x⟩
  | slli _ _ => exact ⟨_, rfl, Device.issue_keeps _ _ _ _ _ k fun _ _ x => scalarShift_keeps _ _ _ x⟩
  | srli _ _ => exact ⟨_, rfl, Device.issue_keeps _ _ _ _ _ k fun _ _ x => scalarShift_keeps _ _ _ x⟩
  | srai _ _ => exact ⟨_, rfl, Device.issue_keeps _ _ _ _ _ k fun _ _ x => scalarShift_keeps _ _ _ x⟩
  | lih _ _ => exact ⟨_, rfl, Device.issue_keeps _ _ _ _ _ k fun _ _ x => seqLih_keeps _ _ x⟩
  | ld _ _ => exact ⟨_, rfl, Device.issue_keeps _ _ _ _ _ k fun _ _ x => seqLd_keeps _ _ x⟩
  | st _ _ => exact ⟨_, rfl, Device.issue_keeps _ _ _ _ _ k fun _ _ x => seqSt_keeps _ _ x⟩
  | mloadw _ _ => exact ⟨_, rfl, Device.issue_keeps _ _ _ _ _ k fun _ _ x => seqMloadw_keeps _ _ x⟩
  | mmac _ _ => exact ⟨_, rfl, Device.issue_keeps _ _ _ _ _ k fun _ _ x => seqMmac_keeps _ _ x⟩
  | mdrain _ _ => exact ⟨_, rfl, Device.issue_keeps _ _ _ _ _ k fun _ _ x => seqMdrain_keeps _ _ x⟩
  | mzero _ _ => exact ⟨_, rfl, Device.issue_keeps _ _ _ _ _ k fun _ _ x => seqMzero_keeps _ _ x⟩
  | vld _ _ => exact ⟨_, rfl, Device.issue_keeps _ _ _ _ _ k fun _ _ x => seqVld_keeps _ _ x⟩
  | vst _ _ => exact ⟨_, rfl, Device.issue_keeps _ _ _ _ _ k fun _ _ x => seqVst_keeps _ _ x⟩
  | vadd _ _ => exact ⟨_, rfl, Device.issue_keeps _ _ _ _ _ k fun _ _ x => seqVadd_keeps _ _ x⟩
  | vsub _ _ => exact ⟨_, rfl, Device.issue_keeps _ _ _ _ _ k fun _ _ x => seqVsub_keeps _ _ x⟩
  | vmul _ _ => exact ⟨_, rfl, Device.issue_keeps _ _ _ _ _ k fun _ _ x => seqVmul_keeps _ _ x⟩
  | vfma _ _ => exact ⟨_, rfl, Device.issue_keeps _ _ _ _ _ k fun _ _ x => seqVfma_keeps _ _ x⟩
  | vmax _ _ => exact ⟨_, rfl, Device.issue_keeps _ _ _ _ _ k fun _ _ x => seqVmax_keeps _ _ x⟩
  | vmin _ _ => exact ⟨_, rfl, Device.issue_keeps _ _ _ _ _ k fun _ _ x => seqVmin_keeps _ _ x⟩
  | vexp2 _ _ => exact ⟨_, rfl, Device.issue_keeps _ _ _ _ _ k fun _ _ x => seqVexp2_keeps _ _ x⟩
  | vrcp _ _ => exact ⟨_, rfl, Device.issue_keeps _ _ _ _ _ k fun _ _ x => seqVrcp_keeps _ _ x⟩
  | vrsqrt _ _ => exact ⟨_, rfl, Device.issue_keeps _ _ _ _ _ k fun _ _ x => seqVrsqrt_keeps _ _ x⟩
  | vlog2 _ _ => exact ⟨_, rfl, Device.issue_keeps _ _ _ _ _ k fun _ _ x => seqVlog2_keeps _ _ x⟩
  | vbcast _ _ => exact ⟨_, rfl, Device.issue_keeps _ _ _ _ _ k fun _ _ x => seqVbcast_keeps _ _ x⟩
  | vredmax _ _ => exact ⟨_, rfl, Device.issue_keeps _ _ _ _ _ k fun _ _ x => seqVredmax_keeps _ _ x⟩
  | vredsum _ _ => exact ⟨_, rfl, Device.issue_keeps _ _ _ _ _ k fun _ _ x => seqVredsum_keeps _ _ x⟩
  | vmovs _ _ => exact ⟨_, rfl, Device.issue_keeps _ _ _ _ _ k fun _ _ x => seqVmovs_keeps _ _ x⟩
  | vcvt _ _ => exact ⟨_, rfl, Device.issue_keeps _ _ _ _ _ k fun _ _ x => seqVcvt_keeps _ _ x⟩
  | vqmx _ _ => exact ⟨_, rfl, Device.issue_keeps _ _ _ _ _ k fun _ _ x => seqVqmx_keeps _ _ x⟩
  | vunpk _ _ => exact ⟨_, rfl, Device.issue_keeps _ _ _ _ _ k fun _ _ x => seqVunpk_keeps _ _ x⟩
  | bsetx _ _ => exact ⟨_, rfl, Device.issue_keeps _ _ _ _ _ k fun _ _ x => seqBsetx_keeps _ _ x⟩
  | bload _ _ => exact ⟨_, rfl, Device.issue_keeps _ _ _ _ _ k fun _ _ x => seqBload_keeps _ _ x⟩
  | bstore _ _ => exact ⟨_, rfl, Device.issue_keeps _ _ _ _ _ k fun _ _ x => seqBstore_keeps _ _ x⟩
  | bexpand _ _ => exact ⟨_, rfl, Device.issue_keeps _ _ _ _ _ k fun _ _ x => seqBexpand_keeps _ _ x⟩
  | bcopy _ _ => exact ⟨_, rfl, Device.issue_keeps _ _ _ _ _ k fun _ _ x => seqBcopy_keeps _ _ x⟩
  | baleTransferDone _ _ => exact ⟨_, rfl, Device.finishBale_keeps _ _ _ k⟩
  | amax _ _ => exact ⟨_, rfl, Device.issue_keeps _ _ _ _ _ k fun _ _ x => seqAmax_keeps _ _ x⟩
  | aexp _ _ => exact ⟨_, rfl, Device.issue_keeps _ _ _ _ _ k fun _ _ x => seqAexp_keeps _ _ x⟩
  | aresc _ _ => exact ⟨_, rfl, Device.issue_keeps _ _ _ _ _ k fun _ _ x => seqAresc_keeps _ _ x⟩
  | amerge _ _ => exact ⟨_, rfl, Device.issue_keeps _ _ _ _ _ k fun _ _ x => seqAmerge_keeps _ _ x⟩
  | abias _ _ => exact ⟨_, rfl, Device.issue_keeps _ _ _ _ _ k fun _ _ x => seqAbias_keeps _ _ x⟩
  | rload _ _ => exact ⟨_, rfl, Device.issue_keeps _ _ _ _ _ k fun _ _ x => seqRload_keeps _ _ x⟩
  | rstore _ _ => exact ⟨_, rfl, Device.issue_keeps _ _ _ _ _ k fun _ _ x => seqRstore_keeps _ _ x⟩
  | rflag _ _ => exact ⟨_, rfl, Device.issue_keeps _ _ _ _ _ k fun _ _ x => seqRflag_keeps _ _ x⟩
  | ratom _ _ => exact ⟨_, rfl, Device.issue_keeps _ _ _ _ _ k fun _ _ x => seqRatom_keeps _ _ x⟩
  | rput _ _ => exact ⟨_, rfl, Device.issue_keeps _ _ _ _ _ k fun _ _ x => seqRput_keeps _ _ x⟩
  | rget _ _ => exact ⟨_, rfl, Device.issue_keeps _ _ _ _ _ k fun _ _ x => seqRget_keeps _ _ x⟩
  | remoteLoadBound => exact ⟨_, rfl, Device.boundPasses_keeps _ k⟩
  | bring _ _ => exact ⟨_, rfl, Device.issue_keeps _ _ _ _ _ k fun _ _ x => seqBring_keeps _ _ x⟩
  | bwait _ _ => exact ⟨_, rfl, Device.issue_keeps _ _ _ _ _ k fun _ _ x => seqBwait_keeps _ _ x⟩
  | bellWaitTimeout _ => exact ⟨_, rfl, Device.bellTimeout_keeps _ _ _ k⟩
  | btry _ _ => exact ⟨_, rfl, Device.issue_keeps _ _ _ _ _ k fun _ _ x => seqBtry_keeps _ _ x⟩
  | bread _ _ => exact ⟨_, rfl, Device.issue_keeps _ _ _ _ _ k fun _ _ x => seqBread_keeps _ _ x⟩
  | harrive _ _ => exact ⟨_, rfl, Device.issue_keeps _ _ _ _ _ k fun _ _ x => seqHarrive_keeps _ _ x⟩
  | hwait _ _ => exact ⟨_, rfl, Device.issue_keeps _ _ _ _ _ k fun _ _ x => seqHwait_keeps _ _ x⟩
  | hpass _ _ => exact ⟨_, rfl, Device.issue_keeps _ _ _ _ _ k fun _ _ x => seqHpass_keeps _ _ x⟩
  | hurdleArrival => exact ⟨_, rfl, Device.applyArrival_keeps _ k⟩
  | wwait _ _ => exact ⟨_, rfl, Device.issue_keeps _ _ _ _ _ k fun _ _ x => seqWwait_keeps _ _ x⟩
  | wleft _ _ => exact ⟨_, rfl, Device.issue_keeps _ _ _ _ _ k fun _ _ x => seqWleft_keeps _ _ x⟩
  | rdstat _ _ => exact ⟨_, rfl, Device.issue_keeps _ _ _ _ _ k fun _ _ x => seqRdstat_keeps _ _ x⟩
  | clrstat _ _ => exact ⟨_, rfl, Device.issue_keeps _ _ _ _ _ k fun _ _ x => seqClrstat_keeps _ _ x⟩
  | vseed _ _ => exact ⟨_, rfl, Device.issue_keeps _ _ _ _ _ k fun _ _ x => seqVseed_keeps _ _ x⟩
  | rdtally _ _ => exact ⟨_, rfl, Device.issue_keeps _ _ _ _ _ k fun _ _ x => seqRdtally_keeps _ _ x⟩
  | rdid _ _ => exact ⟨_, rfl, Device.issue_keeps _ _ _ _ _ k fun _ _ x => seqRdid_keeps _ _ x⟩
  | rdslot _ _ => exact ⟨_, rfl, Device.issue_keeps _ _ _ _ _ k fun _ _ x => seqRdslot_keeps _ _ x⟩
  | blockFrameStart _ => exact ⟨_, rfl, Device.startFrame_keeps _ _ k⟩
  | edgeWindowOpen _ _ => exact ⟨_, rfl, Device.openWindow_keeps _ _ _ k⟩
  | write _ _ => exact ⟨_, rfl, Device.receive_keeps _ _ _ _ k⟩
  | writeFlag _ _ => exact ⟨_, rfl, Device.receive_keeps _ _ _ _ k⟩
  | readReq _ _ => exact ⟨_, rfl, Device.receive_keeps _ _ _ _ k⟩
  | readResp _ _ => exact ⟨_, rfl, Device.receive_keeps _ _ _ _ k⟩
  | atomic _ _ => exact ⟨_, rfl, Device.receive_keeps _ _ _ _ k⟩
  | atomicResp _ _ => exact ⟨_, rfl, Device.receive_keeps _ _ _ _ k⟩
  | send _ _ => exact ⟨_, rfl, Device.receive_keeps _ _ _ _ k⟩
  | ack _ _ => exact ⟨_, rfl, Device.receive_keeps _ _ _ _ k⟩
  | nak _ _ => exact ⟨_, rfl, Device.receive_keeps _ _ _ _ k⟩
  | syncReq _ _ => exact ⟨_, rfl, Device.receive_keeps _ _ _ _ k⟩
  | syncResp _ _ => exact ⟨_, rfl, Device.receive_keeps _ _ _ _ k⟩
  | mgmtCmd _ _ => exact ⟨_, rfl, Device.receive_keeps _ _ _ _ k⟩
  | peerNote _ _ => exact ⟨_, rfl, Device.receive_keeps _ _ _ _ k⟩
  | pullPages _ _ => exact ⟨_, rfl, Device.receive_keeps _ _ _ _ k⟩
  | pagesHeld _ _ => exact ⟨_, rfl, Device.receive_keeps _ _ _ _ k⟩
  | pullRecord _ _ => exact ⟨_, rfl, Device.receive_keeps _ _ _ _ k⟩
  | record _ _ => exact ⟨_, rfl, Device.receive_keeps _ _ _ _ k⟩
  | confirm _ _ => exact ⟨_, rfl, Device.receive_keeps _ _ _ _ k⟩
  | released _ _ => exact ⟨_, rfl, Device.receive_keeps _ _ _ _ k⟩
  | abort _ _ => exact ⟨_, rfl, Device.receive_keeps _ _ _ _ k⟩
  | refuse _ _ => exact ⟨_, rfl, Device.receive_keeps _ _ _ _ k⟩
  | retag _ _ => exact ⟨_, rfl, Device.receive_keeps _ _ _ _ k⟩
  | retagDone _ _ => exact ⟨_, rfl, Device.receive_keeps _ _ _ _ k⟩
  | releasePages _ _ => exact ⟨_, rfl, Device.receive_keeps _ _ _ _ k⟩
  | releaseDone _ _ => exact ⟨_, rfl, Device.receive_keeps _ _ _ _ k⟩
  | drovePullDeadline _ => exact ⟨_, rfl, Device.pullDeadline_keeps _ _ k⟩
  | contextFetchDone => exact ⟨_, rfl, Device.contextCame_keeps _ k⟩
  | retransmissionTimer _ => exact ⟨_, rfl, Device.timeOut_keeps _ _ k⟩
  | ackTimer _ => exact ⟨_, rfl, Device.ackDue_keeps _ _ k⟩
  | nakResend _ => exact ⟨_, rfl, Device.resendDue_keeps _ _ k⟩
  | connGiveUp _ => exact ⟨_, rfl, Device.giveUp_keeps _ _ k⟩
  | revocationGraceEnd _ => exact ⟨_, rfl, Device.graceEnds_keeps _ _ k⟩
  | foldDrainEnd _ => exact ⟨_, rfl, Device.foldDrains_keeps _ _ k⟩
  | linkSelect _ => exact ⟨_, rfl, Device.linkSelects_keeps _ _ k⟩
  | gateEntryChange _ => exact ⟨_, rfl, Device.gatesMove_keeps _ _ k⟩
  | mbxDoorbell _ _ => exact ⟨_, rfl, Device.pageWrite_keeps _ _ _ _ k⟩
  | mbxDone _ _ => exact ⟨_, rfl, Device.pageWrite_keeps _ _ _ _ k⟩
  | mbxIrq _ _ => exact ⟨_, rfl, Device.pageWrite_keeps _ _ _ _ k⟩
  | bellRing _ _ => exact ⟨_, rfl, Device.pageWrite_keeps _ _ _ _ k⟩
  | ringDoorbell _ _ _ => exact ⟨_, rfl, Keeps.ite (fun _ => Device.storeDoorbell_keeps _ _ _ _ k) fun _ => k⟩
  | stgRegisterWrite _ _ _ => exact ⟨_, rfl, Device.pageWrite_keeps _ _ _ _ k⟩
  | registerWrite _ _ _ => exact ⟨_, rfl, Device.pageWrite_keeps _ _ _ _ k⟩
  | hostAccess _ _ => exact ⟨_, rfl, Device.hostAccess_keeps _ _ _ k⟩
  | stageApply => exact ⟨_, rfl, Device.stageApply_keeps _ k⟩
  | leaseExpiry => exact ⟨_, rfl, Device.leaseExpiry_keeps _ k⟩
  | claimWindowEnd => exact ⟨_, rfl, Device.claimWindowEnd_keeps _ k⟩
  | handoverOfferLapse => exact ⟨_, rfl, Device.offerLapse_keeps _ k⟩
  | syncBurst => exact ⟨_, rfl, Device.syncBurst_keeps _ k⟩
  | holdoverLimit => exact ⟨_, rfl, Device.holdoverLimit_keeps _ k⟩
  | laneClockLoss => exact ⟨_, rfl, Device.loseLane_keeps _ k⟩
  | tallyPpsIn => exact ⟨_, rfl, Device.edgeIn_keeps _ k⟩
  | ppsEdgeMissed => exact ⟨_, rfl, Device.edgeMissed_keeps _ k⟩
  | tallyPpsOut => exact ⟨_, rfl, Device.ppsRise_keeps _ k⟩
  | paddockWork _ => exact ⟨_, rfl, Device.paddockWork_keeps _ _ k⟩
  | sliceExpiry _ => exact ⟨_, rfl, Device.sliceExpiry_keeps _ _ k⟩
  | preemptionEscalation _ => exact ⟨_, rfl, Device.preemptionEscalation_keeps _ _ k⟩
  | preemptStopped _ => exact ⟨_, rfl, Device.preemptStopped_keeps _ _ k⟩
  | saveDone _ => exact ⟨_, rfl, Device.saveDone_keeps _ _ k⟩
  | restoreDone _ => exact ⟨_, rfl, Device.restoreDone_keeps _ _ k⟩
  | paddockRunning _ => exact ⟨_, rfl, Device.paddockRunning_keeps _ _ k⟩
  | imageLoadSwitch _ => exact ⟨_, rfl, Device.imageSwitch_keeps _ _ k⟩
  | codebookBuildDone _ _ => exact ⟨_, rfl, Device.codebookDone_keeps _ _ _ k⟩
  | detectedErrorRetry _ _ => exact ⟨_, rfl, Device.detectedError_keeps _ _ _ k⟩
  | stileFlitReplay _ _ => exact ⟨_, rfl, Device.flitReplay_keeps _ _ _ k⟩
  | lockstepMismatch _ => exact ⟨_, rfl, Device.lockstepMismatch_keeps _ _ k⟩
  | peerNoteCopy => exact ⟨_, rfl, Device.noteCopy_keeps _ k⟩
  | powerMeasurement _ => exact ⟨_, rfl, Device.powerMeasurement_keeps _ _ k⟩
  | aoclkTrim _ => exact ⟨_, rfl, Device.aoclkTrim_keeps _ _ k⟩
  | blockSleep _ => exact ⟨_, rfl, Device.blockSleep_keeps _ _ k⟩
  | blockWake _ => exact ⟨_, rfl, Device.blockWake_keeps _ _ k⟩
  | standbyWake => exact ⟨_, rfl, Device.standbyWake_keeps _ k⟩
  | pwrGoodRise => exact ⟨_, rfl, Device.pwrGoodRise_keeps _ k⟩
  | coldBoot _ => exact ⟨_, rfl, Device.coldBoot_keeps _ _ k⟩
  | pwrGoodFall => exact absurd rfl h
  | resetNLow => exact ⟨_, rfl, Device.resetNLow_keeps _ k⟩
  | resetNHigh => exact ⟨_, rfl, Device.resetNHigh_keeps _ k⟩
  | warmReset _ => exact ⟨_, rfl, Device.warmReset_keeps _ _ k⟩
  | restartReset => exact ⟨_, rfl, Device.restartReset_keeps _ k⟩
  | ref25Loss => exact ⟨_, rfl, Device.ref25Loss_keeps _ k⟩
  | ref25Stable => exact ⟨_, rfl, Device.ref25Stable_keeps _ k⟩
  | netrefLoss _ => exact ⟨_, rfl, Device.netrefLoss_keeps _ _ k⟩
  | netrefStable _ => exact ⟨_, rfl, Device.netrefBack_keeps _ _ k⟩
  | linkUp _ => exact ⟨_, rfl, Device.linkUp_keeps _ _ k⟩
  | linkDown _ => exact ⟨_, rfl, Device.linkDown_keeps _ _ k⟩
  | pacingRelease _ => exact ⟨_, rfl, Device.pacingDue_keeps _ _ k⟩
  | tallyPpsOutFall => exact ⟨_, rfl, Device.ppsFall_keeps _ k⟩
  | cclkSlewDone _ => exact ⟨_, rfl, Device.slewDone_keeps _ _ k⟩
  | pageSelectDone _ => exact ⟨_, rfl, Device.selectDone_keeps _ _ k⟩
  | standbyLeft _ => exact ⟨_, rfl, Device.standbyLeft_keeps _ _ k⟩

end Sys2Proof.Machine
end

