-- ==== Sys2Proof/Laws/State.lean ====
section
/-! SUPPORT. What each update of the device leaves and what it changes, field by field: every lemma is true by unfolding
one definition. -/

namespace Sys2Proof.Machine

@[simp] theorem State.on_dev (s : State) (f : Device → Device) : (s.on f).dev = f s.dev := rfl
@[simp] theorem State.on_pending (s : State) (f : Device → Device) : (s.on f).pending = s.pending := rfl

/-! `mapTally` -/

@[simp] theorem Device.mapTally_tally (d : Device) (f : Tally → Tally) : (d.mapTally f).tally = f d.tally := rfl
@[simp] theorem Device.mapTally_state (d : Device) (f : Tally → Tally) : (d.mapTally f).state = d.state := rfl
@[simp] theorem Device.mapTally_stateSince (d : Device) (f : Tally → Tally) : (d.mapTally f).stateSince = d.stateSince := rfl
@[simp] theorem Device.mapTally_deviceId (d : Device) (f : Tally → Tally) : (d.mapTally f).deviceId = d.deviceId := rfl
@[simp] theorem Device.mapTally_formerIds (d : Device) (f : Tally → Tally) : (d.mapTally f).formerIds = d.formerIds := rfl
@[simp] theorem Device.mapTally_boot (d : Device) (f : Tally → Tally) : (d.mapTally f).boot = d.boot := rfl
@[simp] theorem Device.mapTally_power (d : Device) (f : Tally → Tally) : (d.mapTally f).power = d.power := rfl
@[simp] theorem Device.mapTally_paths (d : Device) (f : Tally → Tally) : (d.mapTally f).paths = d.paths := rfl
@[simp] theorem Device.mapTally_own (d : Device) (f : Tally → Tally) : (d.mapTally f).own = d.own := rfl
@[simp] theorem Device.mapTally_staging (d : Device) (f : Tally → Tally) : (d.mapTally f).staging = d.staging := rfl
@[simp] theorem Device.mapTally_security (d : Device) (f : Tally → Tally) : (d.mapTally f).security = d.security := rfl
@[simp] theorem Device.mapTally_faults (d : Device) (f : Tally → Tally) : (d.mapTally f).faults = d.faults := rfl
@[simp] theorem Device.mapTally_trace (d : Device) (f : Tally → Tally) : (d.mapTally f).trace = d.trace := rfl
@[simp] theorem Device.mapTally_paddocks (d : Device) (f : Tally → Tally) : (d.mapTally f).paddocks = d.paddocks := rfl
@[simp] theorem Device.mapTally_images (d : Device) (f : Tally → Tally) : (d.mapTally f).images = d.images := rfl
@[simp] theorem Device.mapTally_fabric (d : Device) (f : Tally → Tally) : (d.mapTally f).fabric = d.fabric := rfl
@[simp] theorem Device.mapTally_net (d : Device) (f : Tally → Tally) : (d.mapTally f).net = d.net := rfl
@[simp] theorem Device.mapTally_service (d : Device) (f : Tally → Tally) : (d.mapTally f).service = d.service := rfl
@[simp] theorem Device.mapTally_mem (d : Device) (f : Tally → Tally) : (d.mapTally f).mem = d.mem := rfl
@[simp] theorem Device.mapTally_hostLines (d : Device) (f : Tally → Tally) : (d.mapTally f).hostLines = d.hostLines := rfl
@[simp] theorem Device.mapTally_outbox (d : Device) (f : Tally → Tally) : (d.mapTally f).outbox = d.outbox := rfl
@[simp] theorem Device.mapTally_draws (d : Device) (f : Tally → Tally) : (d.mapTally f).draws = d.draws := rfl

/-! `mapBoot` -/

@[simp] theorem Device.mapBoot_tally (d : Device) (f : Boot → Boot) : (d.mapBoot f).tally = d.tally := rfl
@[simp] theorem Device.mapBoot_state (d : Device) (f : Boot → Boot) : (d.mapBoot f).state = d.state := rfl
@[simp] theorem Device.mapBoot_stateSince (d : Device) (f : Boot → Boot) : (d.mapBoot f).stateSince = d.stateSince := rfl
@[simp] theorem Device.mapBoot_deviceId (d : Device) (f : Boot → Boot) : (d.mapBoot f).deviceId = d.deviceId := rfl
@[simp] theorem Device.mapBoot_formerIds (d : Device) (f : Boot → Boot) : (d.mapBoot f).formerIds = d.formerIds := rfl
@[simp] theorem Device.mapBoot_boot (d : Device) (f : Boot → Boot) : (d.mapBoot f).boot = f d.boot := rfl
@[simp] theorem Device.mapBoot_power (d : Device) (f : Boot → Boot) : (d.mapBoot f).power = d.power := rfl
@[simp] theorem Device.mapBoot_paths (d : Device) (f : Boot → Boot) : (d.mapBoot f).paths = d.paths := rfl
@[simp] theorem Device.mapBoot_own (d : Device) (f : Boot → Boot) : (d.mapBoot f).own = d.own := rfl
@[simp] theorem Device.mapBoot_staging (d : Device) (f : Boot → Boot) : (d.mapBoot f).staging = d.staging := rfl
@[simp] theorem Device.mapBoot_security (d : Device) (f : Boot → Boot) : (d.mapBoot f).security = d.security := rfl
@[simp] theorem Device.mapBoot_faults (d : Device) (f : Boot → Boot) : (d.mapBoot f).faults = d.faults := rfl
@[simp] theorem Device.mapBoot_trace (d : Device) (f : Boot → Boot) : (d.mapBoot f).trace = d.trace := rfl
@[simp] theorem Device.mapBoot_paddocks (d : Device) (f : Boot → Boot) : (d.mapBoot f).paddocks = d.paddocks := rfl
@[simp] theorem Device.mapBoot_images (d : Device) (f : Boot → Boot) : (d.mapBoot f).images = d.images := rfl
@[simp] theorem Device.mapBoot_fabric (d : Device) (f : Boot → Boot) : (d.mapBoot f).fabric = d.fabric := rfl
@[simp] theorem Device.mapBoot_net (d : Device) (f : Boot → Boot) : (d.mapBoot f).net = d.net := rfl
@[simp] theorem Device.mapBoot_service (d : Device) (f : Boot → Boot) : (d.mapBoot f).service = d.service := rfl
@[simp] theorem Device.mapBoot_mem (d : Device) (f : Boot → Boot) : (d.mapBoot f).mem = d.mem := rfl
@[simp] theorem Device.mapBoot_hostLines (d : Device) (f : Boot → Boot) : (d.mapBoot f).hostLines = d.hostLines := rfl
@[simp] theorem Device.mapBoot_outbox (d : Device) (f : Boot → Boot) : (d.mapBoot f).outbox = d.outbox := rfl
@[simp] theorem Device.mapBoot_draws (d : Device) (f : Boot → Boot) : (d.mapBoot f).draws = d.draws := rfl
@[simp] theorem Device.mapBoot_now (d : Device) (f : Boot → Boot) : (d.mapBoot f).now = d.now := rfl

/-! `mapPower` -/

@[simp] theorem Device.mapPower_tally (d : Device) (f : Power → Power) : (d.mapPower f).tally = d.tally := rfl
@[simp] theorem Device.mapPower_state (d : Device) (f : Power → Power) : (d.mapPower f).state = d.state := rfl
@[simp] theorem Device.mapPower_stateSince (d : Device) (f : Power → Power) : (d.mapPower f).stateSince = d.stateSince := rfl
@[simp] theorem Device.mapPower_deviceId (d : Device) (f : Power → Power) : (d.mapPower f).deviceId = d.deviceId := rfl
@[simp] theorem Device.mapPower_formerIds (d : Device) (f : Power → Power) : (d.mapPower f).formerIds = d.formerIds := rfl
@[simp] theorem Device.mapPower_boot (d : Device) (f : Power → Power) : (d.mapPower f).boot = d.boot := rfl
@[simp] theorem Device.mapPower_power (d : Device) (f : Power → Power) : (d.mapPower f).power = f d.power := rfl
@[simp] theorem Device.mapPower_paths (d : Device) (f : Power → Power) : (d.mapPower f).paths = d.paths := rfl
@[simp] theorem Device.mapPower_own (d : Device) (f : Power → Power) : (d.mapPower f).own = d.own := rfl
@[simp] theorem Device.mapPower_staging (d : Device) (f : Power → Power) : (d.mapPower f).staging = d.staging := rfl
@[simp] theorem Device.mapPower_security (d : Device) (f : Power → Power) : (d.mapPower f).security = d.security := rfl
@[simp] theorem Device.mapPower_faults (d : Device) (f : Power → Power) : (d.mapPower f).faults = d.faults := rfl
@[simp] theorem Device.mapPower_trace (d : Device) (f : Power → Power) : (d.mapPower f).trace = d.trace := rfl
@[simp] theorem Device.mapPower_paddocks (d : Device) (f : Power → Power) : (d.mapPower f).paddocks = d.paddocks := rfl
@[simp] theorem Device.mapPower_images (d : Device) (f : Power → Power) : (d.mapPower f).images = d.images := rfl
@[simp] theorem Device.mapPower_fabric (d : Device) (f : Power → Power) : (d.mapPower f).fabric = d.fabric := rfl
@[simp] theorem Device.mapPower_net (d : Device) (f : Power → Power) : (d.mapPower f).net = d.net := rfl
@[simp] theorem Device.mapPower_service (d : Device) (f : Power → Power) : (d.mapPower f).service = d.service := rfl
@[simp] theorem Device.mapPower_mem (d : Device) (f : Power → Power) : (d.mapPower f).mem = d.mem := rfl
@[simp] theorem Device.mapPower_hostLines (d : Device) (f : Power → Power) : (d.mapPower f).hostLines = d.hostLines := rfl
@[simp] theorem Device.mapPower_outbox (d : Device) (f : Power → Power) : (d.mapPower f).outbox = d.outbox := rfl
@[simp] theorem Device.mapPower_draws (d : Device) (f : Power → Power) : (d.mapPower f).draws = d.draws := rfl
@[simp] theorem Device.mapPower_now (d : Device) (f : Power → Power) : (d.mapPower f).now = d.now := rfl

/-! `mapPaths` -/

@[simp] theorem Device.mapPaths_tally (d : Device) (f : ControlPaths → ControlPaths) : (d.mapPaths f).tally = d.tally := rfl
@[simp] theorem Device.mapPaths_state (d : Device) (f : ControlPaths → ControlPaths) : (d.mapPaths f).state = d.state := rfl
@[simp] theorem Device.mapPaths_stateSince (d : Device) (f : ControlPaths → ControlPaths) : (d.mapPaths f).stateSince = d.stateSince := rfl
@[simp] theorem Device.mapPaths_deviceId (d : Device) (f : ControlPaths → ControlPaths) : (d.mapPaths f).deviceId = d.deviceId := rfl
@[simp] theorem Device.mapPaths_formerIds (d : Device) (f : ControlPaths → ControlPaths) : (d.mapPaths f).formerIds = d.formerIds := rfl
@[simp] theorem Device.mapPaths_boot (d : Device) (f : ControlPaths → ControlPaths) : (d.mapPaths f).boot = d.boot := rfl
@[simp] theorem Device.mapPaths_power (d : Device) (f : ControlPaths → ControlPaths) : (d.mapPaths f).power = d.power := rfl
@[simp] theorem Device.mapPaths_paths (d : Device) (f : ControlPaths → ControlPaths) : (d.mapPaths f).paths = f d.paths := rfl
@[simp] theorem Device.mapPaths_own (d : Device) (f : ControlPaths → ControlPaths) : (d.mapPaths f).own = d.own := rfl
@[simp] theorem Device.mapPaths_staging (d : Device) (f : ControlPaths → ControlPaths) : (d.mapPaths f).staging = d.staging := rfl
@[simp] theorem Device.mapPaths_security (d : Device) (f : ControlPaths → ControlPaths) : (d.mapPaths f).security = d.security := rfl
@[simp] theorem Device.mapPaths_faults (d : Device) (f : ControlPaths → ControlPaths) : (d.mapPaths f).faults = d.faults := rfl
@[simp] theorem Device.mapPaths_trace (d : Device) (f : ControlPaths → ControlPaths) : (d.mapPaths f).trace = d.trace := rfl
@[simp] theorem Device.mapPaths_paddocks (d : Device) (f : ControlPaths → ControlPaths) : (d.mapPaths f).paddocks = d.paddocks := rfl
@[simp] theorem Device.mapPaths_images (d : Device) (f : ControlPaths → ControlPaths) : (d.mapPaths f).images = d.images := rfl
@[simp] theorem Device.mapPaths_fabric (d : Device) (f : ControlPaths → ControlPaths) : (d.mapPaths f).fabric = d.fabric := rfl
@[simp] theorem Device.mapPaths_net (d : Device) (f : ControlPaths → ControlPaths) : (d.mapPaths f).net = d.net := rfl
@[simp] theorem Device.mapPaths_service (d : Device) (f : ControlPaths → ControlPaths) : (d.mapPaths f).service = d.service := rfl
@[simp] theorem Device.mapPaths_mem (d : Device) (f : ControlPaths → ControlPaths) : (d.mapPaths f).mem = d.mem := rfl
@[simp] theorem Device.mapPaths_hostLines (d : Device) (f : ControlPaths → ControlPaths) : (d.mapPaths f).hostLines = d.hostLines := rfl
@[simp] theorem Device.mapPaths_outbox (d : Device) (f : ControlPaths → ControlPaths) : (d.mapPaths f).outbox = d.outbox := rfl
@[simp] theorem Device.mapPaths_draws (d : Device) (f : ControlPaths → ControlPaths) : (d.mapPaths f).draws = d.draws := rfl
@[simp] theorem Device.mapPaths_now (d : Device) (f : ControlPaths → ControlPaths) : (d.mapPaths f).now = d.now := rfl

/-! `mapOwn` -/

@[simp] theorem Device.mapOwn_tally (d : Device) (f : Ownership → Ownership) : (d.mapOwn f).tally = d.tally := rfl
@[simp] theorem Device.mapOwn_state (d : Device) (f : Ownership → Ownership) : (d.mapOwn f).state = d.state := rfl
@[simp] theorem Device.mapOwn_stateSince (d : Device) (f : Ownership → Ownership) : (d.mapOwn f).stateSince = d.stateSince := rfl
@[simp] theorem Device.mapOwn_deviceId (d : Device) (f : Ownership → Ownership) : (d.mapOwn f).deviceId = d.deviceId := rfl
@[simp] theorem Device.mapOwn_formerIds (d : Device) (f : Ownership → Ownership) : (d.mapOwn f).formerIds = d.formerIds := rfl
@[simp] theorem Device.mapOwn_boot (d : Device) (f : Ownership → Ownership) : (d.mapOwn f).boot = d.boot := rfl
@[simp] theorem Device.mapOwn_power (d : Device) (f : Ownership → Ownership) : (d.mapOwn f).power = d.power := rfl
@[simp] theorem Device.mapOwn_paths (d : Device) (f : Ownership → Ownership) : (d.mapOwn f).paths = d.paths := rfl
@[simp] theorem Device.mapOwn_own (d : Device) (f : Ownership → Ownership) : (d.mapOwn f).own = f d.own := rfl
@[simp] theorem Device.mapOwn_staging (d : Device) (f : Ownership → Ownership) : (d.mapOwn f).staging = d.staging := rfl
@[simp] theorem Device.mapOwn_security (d : Device) (f : Ownership → Ownership) : (d.mapOwn f).security = d.security := rfl
@[simp] theorem Device.mapOwn_faults (d : Device) (f : Ownership → Ownership) : (d.mapOwn f).faults = d.faults := rfl
@[simp] theorem Device.mapOwn_trace (d : Device) (f : Ownership → Ownership) : (d.mapOwn f).trace = d.trace := rfl
@[simp] theorem Device.mapOwn_paddocks (d : Device) (f : Ownership → Ownership) : (d.mapOwn f).paddocks = d.paddocks := rfl
@[simp] theorem Device.mapOwn_images (d : Device) (f : Ownership → Ownership) : (d.mapOwn f).images = d.images := rfl
@[simp] theorem Device.mapOwn_fabric (d : Device) (f : Ownership → Ownership) : (d.mapOwn f).fabric = d.fabric := rfl
@[simp] theorem Device.mapOwn_net (d : Device) (f : Ownership → Ownership) : (d.mapOwn f).net = d.net := rfl
@[simp] theorem Device.mapOwn_service (d : Device) (f : Ownership → Ownership) : (d.mapOwn f).service = d.service := rfl
@[simp] theorem Device.mapOwn_mem (d : Device) (f : Ownership → Ownership) : (d.mapOwn f).mem = d.mem := rfl
@[simp] theorem Device.mapOwn_hostLines (d : Device) (f : Ownership → Ownership) : (d.mapOwn f).hostLines = d.hostLines := rfl
@[simp] theorem Device.mapOwn_outbox (d : Device) (f : Ownership → Ownership) : (d.mapOwn f).outbox = d.outbox := rfl
@[simp] theorem Device.mapOwn_draws (d : Device) (f : Ownership → Ownership) : (d.mapOwn f).draws = d.draws := rfl
@[simp] theorem Device.mapOwn_now (d : Device) (f : Ownership → Ownership) : (d.mapOwn f).now = d.now := rfl

/-! `mapStaging` -/

@[simp] theorem Device.mapStaging_tally (d : Device) (f : Staging → Staging) : (d.mapStaging f).tally = d.tally := rfl
@[simp] theorem Device.mapStaging_state (d : Device) (f : Staging → Staging) : (d.mapStaging f).state = d.state := rfl
@[simp] theorem Device.mapStaging_stateSince (d : Device) (f : Staging → Staging) : (d.mapStaging f).stateSince = d.stateSince := rfl
@[simp] theorem Device.mapStaging_deviceId (d : Device) (f : Staging → Staging) : (d.mapStaging f).deviceId = d.deviceId := rfl
@[simp] theorem Device.mapStaging_formerIds (d : Device) (f : Staging → Staging) : (d.mapStaging f).formerIds = d.formerIds := rfl
@[simp] theorem Device.mapStaging_boot (d : Device) (f : Staging → Staging) : (d.mapStaging f).boot = d.boot := rfl
@[simp] theorem Device.mapStaging_power (d : Device) (f : Staging → Staging) : (d.mapStaging f).power = d.power := rfl
@[simp] theorem Device.mapStaging_paths (d : Device) (f : Staging → Staging) : (d.mapStaging f).paths = d.paths := rfl
@[simp] theorem Device.mapStaging_own (d : Device) (f : Staging → Staging) : (d.mapStaging f).own = d.own := rfl
@[simp] theorem Device.mapStaging_staging (d : Device) (f : Staging → Staging) : (d.mapStaging f).staging = f d.staging := rfl
@[simp] theorem Device.mapStaging_security (d : Device) (f : Staging → Staging) : (d.mapStaging f).security = d.security := rfl
@[simp] theorem Device.mapStaging_faults (d : Device) (f : Staging → Staging) : (d.mapStaging f).faults = d.faults := rfl
@[simp] theorem Device.mapStaging_trace (d : Device) (f : Staging → Staging) : (d.mapStaging f).trace = d.trace := rfl
@[simp] theorem Device.mapStaging_paddocks (d : Device) (f : Staging → Staging) : (d.mapStaging f).paddocks = d.paddocks := rfl
@[simp] theorem Device.mapStaging_images (d : Device) (f : Staging → Staging) : (d.mapStaging f).images = d.images := rfl
@[simp] theorem Device.mapStaging_fabric (d : Device) (f : Staging → Staging) : (d.mapStaging f).fabric = d.fabric := rfl
@[simp] theorem Device.mapStaging_net (d : Device) (f : Staging → Staging) : (d.mapStaging f).net = d.net := rfl
@[simp] theorem Device.mapStaging_service (d : Device) (f : Staging → Staging) : (d.mapStaging f).service = d.service := rfl
@[simp] theorem Device.mapStaging_mem (d : Device) (f : Staging → Staging) : (d.mapStaging f).mem = d.mem := rfl
@[simp] theorem Device.mapStaging_hostLines (d : Device) (f : Staging → Staging) : (d.mapStaging f).hostLines = d.hostLines := rfl
@[simp] theorem Device.mapStaging_outbox (d : Device) (f : Staging → Staging) : (d.mapStaging f).outbox = d.outbox := rfl
@[simp] theorem Device.mapStaging_draws (d : Device) (f : Staging → Staging) : (d.mapStaging f).draws = d.draws := rfl
@[simp] theorem Device.mapStaging_now (d : Device) (f : Staging → Staging) : (d.mapStaging f).now = d.now := rfl

/-! `mapSecurity` -/

@[simp] theorem Device.mapSecurity_tally (d : Device) (f : Security → Security) : (d.mapSecurity f).tally = d.tally := rfl
@[simp] theorem Device.mapSecurity_state (d : Device) (f : Security → Security) : (d.mapSecurity f).state = d.state := rfl
@[simp] theorem Device.mapSecurity_stateSince (d : Device) (f : Security → Security) : (d.mapSecurity f).stateSince = d.stateSince := rfl
@[simp] theorem Device.mapSecurity_deviceId (d : Device) (f : Security → Security) : (d.mapSecurity f).deviceId = d.deviceId := rfl
@[simp] theorem Device.mapSecurity_formerIds (d : Device) (f : Security → Security) : (d.mapSecurity f).formerIds = d.formerIds := rfl
@[simp] theorem Device.mapSecurity_boot (d : Device) (f : Security → Security) : (d.mapSecurity f).boot = d.boot := rfl
@[simp] theorem Device.mapSecurity_power (d : Device) (f : Security → Security) : (d.mapSecurity f).power = d.power := rfl
@[simp] theorem Device.mapSecurity_paths (d : Device) (f : Security → Security) : (d.mapSecurity f).paths = d.paths := rfl
@[simp] theorem Device.mapSecurity_own (d : Device) (f : Security → Security) : (d.mapSecurity f).own = d.own := rfl
@[simp] theorem Device.mapSecurity_staging (d : Device) (f : Security → Security) : (d.mapSecurity f).staging = d.staging := rfl
@[simp] theorem Device.mapSecurity_security (d : Device) (f : Security → Security) : (d.mapSecurity f).security = f d.security := rfl
@[simp] theorem Device.mapSecurity_faults (d : Device) (f : Security → Security) : (d.mapSecurity f).faults = d.faults := rfl
@[simp] theorem Device.mapSecurity_trace (d : Device) (f : Security → Security) : (d.mapSecurity f).trace = d.trace := rfl
@[simp] theorem Device.mapSecurity_paddocks (d : Device) (f : Security → Security) : (d.mapSecurity f).paddocks = d.paddocks := rfl
@[simp] theorem Device.mapSecurity_images (d : Device) (f : Security → Security) : (d.mapSecurity f).images = d.images := rfl
@[simp] theorem Device.mapSecurity_fabric (d : Device) (f : Security → Security) : (d.mapSecurity f).fabric = d.fabric := rfl
@[simp] theorem Device.mapSecurity_net (d : Device) (f : Security → Security) : (d.mapSecurity f).net = d.net := rfl
@[simp] theorem Device.mapSecurity_service (d : Device) (f : Security → Security) : (d.mapSecurity f).service = d.service := rfl
@[simp] theorem Device.mapSecurity_mem (d : Device) (f : Security → Security) : (d.mapSecurity f).mem = d.mem := rfl
@[simp] theorem Device.mapSecurity_hostLines (d : Device) (f : Security → Security) : (d.mapSecurity f).hostLines = d.hostLines := rfl
@[simp] theorem Device.mapSecurity_outbox (d : Device) (f : Security → Security) : (d.mapSecurity f).outbox = d.outbox := rfl
@[simp] theorem Device.mapSecurity_draws (d : Device) (f : Security → Security) : (d.mapSecurity f).draws = d.draws := rfl
@[simp] theorem Device.mapSecurity_now (d : Device) (f : Security → Security) : (d.mapSecurity f).now = d.now := rfl

/-! `mapFaults` -/

@[simp] theorem Device.mapFaults_tally (d : Device) (f : Faults → Faults) : (d.mapFaults f).tally = d.tally := rfl
@[simp] theorem Device.mapFaults_state (d : Device) (f : Faults → Faults) : (d.mapFaults f).state = d.state := rfl
@[simp] theorem Device.mapFaults_stateSince (d : Device) (f : Faults → Faults) : (d.mapFaults f).stateSince = d.stateSince := rfl
@[simp] theorem Device.mapFaults_deviceId (d : Device) (f : Faults → Faults) : (d.mapFaults f).deviceId = d.deviceId := rfl
@[simp] theorem Device.mapFaults_formerIds (d : Device) (f : Faults → Faults) : (d.mapFaults f).formerIds = d.formerIds := rfl
@[simp] theorem Device.mapFaults_boot (d : Device) (f : Faults → Faults) : (d.mapFaults f).boot = d.boot := rfl
@[simp] theorem Device.mapFaults_power (d : Device) (f : Faults → Faults) : (d.mapFaults f).power = d.power := rfl
@[simp] theorem Device.mapFaults_paths (d : Device) (f : Faults → Faults) : (d.mapFaults f).paths = d.paths := rfl
@[simp] theorem Device.mapFaults_own (d : Device) (f : Faults → Faults) : (d.mapFaults f).own = d.own := rfl
@[simp] theorem Device.mapFaults_staging (d : Device) (f : Faults → Faults) : (d.mapFaults f).staging = d.staging := rfl
@[simp] theorem Device.mapFaults_security (d : Device) (f : Faults → Faults) : (d.mapFaults f).security = d.security := rfl
@[simp] theorem Device.mapFaults_faults (d : Device) (f : Faults → Faults) : (d.mapFaults f).faults = f d.faults := rfl
@[simp] theorem Device.mapFaults_trace (d : Device) (f : Faults → Faults) : (d.mapFaults f).trace = d.trace := rfl
@[simp] theorem Device.mapFaults_paddocks (d : Device) (f : Faults → Faults) : (d.mapFaults f).paddocks = d.paddocks := rfl
@[simp] theorem Device.mapFaults_images (d : Device) (f : Faults → Faults) : (d.mapFaults f).images = d.images := rfl
@[simp] theorem Device.mapFaults_fabric (d : Device) (f : Faults → Faults) : (d.mapFaults f).fabric = d.fabric := rfl
@[simp] theorem Device.mapFaults_net (d : Device) (f : Faults → Faults) : (d.mapFaults f).net = d.net := rfl
@[simp] theorem Device.mapFaults_service (d : Device) (f : Faults → Faults) : (d.mapFaults f).service = d.service := rfl
@[simp] theorem Device.mapFaults_mem (d : Device) (f : Faults → Faults) : (d.mapFaults f).mem = d.mem := rfl
@[simp] theorem Device.mapFaults_hostLines (d : Device) (f : Faults → Faults) : (d.mapFaults f).hostLines = d.hostLines := rfl
@[simp] theorem Device.mapFaults_outbox (d : Device) (f : Faults → Faults) : (d.mapFaults f).outbox = d.outbox := rfl
@[simp] theorem Device.mapFaults_draws (d : Device) (f : Faults → Faults) : (d.mapFaults f).draws = d.draws := rfl
@[simp] theorem Device.mapFaults_now (d : Device) (f : Faults → Faults) : (d.mapFaults f).now = d.now := rfl

/-! `mapTrace` -/

@[simp] theorem Device.mapTrace_tally (d : Device) (f : Trace → Trace) : (d.mapTrace f).tally = d.tally := rfl
@[simp] theorem Device.mapTrace_state (d : Device) (f : Trace → Trace) : (d.mapTrace f).state = d.state := rfl
@[simp] theorem Device.mapTrace_stateSince (d : Device) (f : Trace → Trace) : (d.mapTrace f).stateSince = d.stateSince := rfl
@[simp] theorem Device.mapTrace_deviceId (d : Device) (f : Trace → Trace) : (d.mapTrace f).deviceId = d.deviceId := rfl
@[simp] theorem Device.mapTrace_formerIds (d : Device) (f : Trace → Trace) : (d.mapTrace f).formerIds = d.formerIds := rfl
@[simp] theorem Device.mapTrace_boot (d : Device) (f : Trace → Trace) : (d.mapTrace f).boot = d.boot := rfl
@[simp] theorem Device.mapTrace_power (d : Device) (f : Trace → Trace) : (d.mapTrace f).power = d.power := rfl
@[simp] theorem Device.mapTrace_paths (d : Device) (f : Trace → Trace) : (d.mapTrace f).paths = d.paths := rfl
@[simp] theorem Device.mapTrace_own (d : Device) (f : Trace → Trace) : (d.mapTrace f).own = d.own := rfl
@[simp] theorem Device.mapTrace_staging (d : Device) (f : Trace → Trace) : (d.mapTrace f).staging = d.staging := rfl
@[simp] theorem Device.mapTrace_security (d : Device) (f : Trace → Trace) : (d.mapTrace f).security = d.security := rfl
@[simp] theorem Device.mapTrace_faults (d : Device) (f : Trace → Trace) : (d.mapTrace f).faults = d.faults := rfl
@[simp] theorem Device.mapTrace_trace (d : Device) (f : Trace → Trace) : (d.mapTrace f).trace = f d.trace := rfl
@[simp] theorem Device.mapTrace_paddocks (d : Device) (f : Trace → Trace) : (d.mapTrace f).paddocks = d.paddocks := rfl
@[simp] theorem Device.mapTrace_images (d : Device) (f : Trace → Trace) : (d.mapTrace f).images = d.images := rfl
@[simp] theorem Device.mapTrace_fabric (d : Device) (f : Trace → Trace) : (d.mapTrace f).fabric = d.fabric := rfl
@[simp] theorem Device.mapTrace_net (d : Device) (f : Trace → Trace) : (d.mapTrace f).net = d.net := rfl
@[simp] theorem Device.mapTrace_service (d : Device) (f : Trace → Trace) : (d.mapTrace f).service = d.service := rfl
@[simp] theorem Device.mapTrace_mem (d : Device) (f : Trace → Trace) : (d.mapTrace f).mem = d.mem := rfl
@[simp] theorem Device.mapTrace_hostLines (d : Device) (f : Trace → Trace) : (d.mapTrace f).hostLines = d.hostLines := rfl
@[simp] theorem Device.mapTrace_outbox (d : Device) (f : Trace → Trace) : (d.mapTrace f).outbox = d.outbox := rfl
@[simp] theorem Device.mapTrace_draws (d : Device) (f : Trace → Trace) : (d.mapTrace f).draws = d.draws := rfl
@[simp] theorem Device.mapTrace_now (d : Device) (f : Trace → Trace) : (d.mapTrace f).now = d.now := rfl

/-! `mapFabric` -/

@[simp] theorem Device.mapFabric_tally (d : Device) (f : Fabric → Fabric) : (d.mapFabric f).tally = d.tally := rfl
@[simp] theorem Device.mapFabric_state (d : Device) (f : Fabric → Fabric) : (d.mapFabric f).state = d.state := rfl
@[simp] theorem Device.mapFabric_stateSince (d : Device) (f : Fabric → Fabric) : (d.mapFabric f).stateSince = d.stateSince := rfl
@[simp] theorem Device.mapFabric_deviceId (d : Device) (f : Fabric → Fabric) : (d.mapFabric f).deviceId = d.deviceId := rfl
@[simp] theorem Device.mapFabric_formerIds (d : Device) (f : Fabric → Fabric) : (d.mapFabric f).formerIds = d.formerIds := rfl
@[simp] theorem Device.mapFabric_boot (d : Device) (f : Fabric → Fabric) : (d.mapFabric f).boot = d.boot := rfl
@[simp] theorem Device.mapFabric_power (d : Device) (f : Fabric → Fabric) : (d.mapFabric f).power = d.power := rfl
@[simp] theorem Device.mapFabric_paths (d : Device) (f : Fabric → Fabric) : (d.mapFabric f).paths = d.paths := rfl
@[simp] theorem Device.mapFabric_own (d : Device) (f : Fabric → Fabric) : (d.mapFabric f).own = d.own := rfl
@[simp] theorem Device.mapFabric_staging (d : Device) (f : Fabric → Fabric) : (d.mapFabric f).staging = d.staging := rfl
@[simp] theorem Device.mapFabric_security (d : Device) (f : Fabric → Fabric) : (d.mapFabric f).security = d.security := rfl
@[simp] theorem Device.mapFabric_faults (d : Device) (f : Fabric → Fabric) : (d.mapFabric f).faults = d.faults := rfl
@[simp] theorem Device.mapFabric_trace (d : Device) (f : Fabric → Fabric) : (d.mapFabric f).trace = d.trace := rfl
@[simp] theorem Device.mapFabric_paddocks (d : Device) (f : Fabric → Fabric) : (d.mapFabric f).paddocks = d.paddocks := rfl
@[simp] theorem Device.mapFabric_images (d : Device) (f : Fabric → Fabric) : (d.mapFabric f).images = d.images := rfl
@[simp] theorem Device.mapFabric_fabric (d : Device) (f : Fabric → Fabric) : (d.mapFabric f).fabric = f d.fabric := rfl
@[simp] theorem Device.mapFabric_net (d : Device) (f : Fabric → Fabric) : (d.mapFabric f).net = d.net := rfl
@[simp] theorem Device.mapFabric_service (d : Device) (f : Fabric → Fabric) : (d.mapFabric f).service = d.service := rfl
@[simp] theorem Device.mapFabric_mem (d : Device) (f : Fabric → Fabric) : (d.mapFabric f).mem = d.mem := rfl
@[simp] theorem Device.mapFabric_hostLines (d : Device) (f : Fabric → Fabric) : (d.mapFabric f).hostLines = d.hostLines := rfl
@[simp] theorem Device.mapFabric_outbox (d : Device) (f : Fabric → Fabric) : (d.mapFabric f).outbox = d.outbox := rfl
@[simp] theorem Device.mapFabric_draws (d : Device) (f : Fabric → Fabric) : (d.mapFabric f).draws = d.draws := rfl
@[simp] theorem Device.mapFabric_now (d : Device) (f : Fabric → Fabric) : (d.mapFabric f).now = d.now := rfl

/-! `mapNet` -/

@[simp] theorem Device.mapNet_tally (d : Device) (f : Network → Network) : (d.mapNet f).tally = d.tally := rfl
@[simp] theorem Device.mapNet_state (d : Device) (f : Network → Network) : (d.mapNet f).state = d.state := rfl
@[simp] theorem Device.mapNet_stateSince (d : Device) (f : Network → Network) : (d.mapNet f).stateSince = d.stateSince := rfl
@[simp] theorem Device.mapNet_deviceId (d : Device) (f : Network → Network) : (d.mapNet f).deviceId = d.deviceId := rfl
@[simp] theorem Device.mapNet_formerIds (d : Device) (f : Network → Network) : (d.mapNet f).formerIds = d.formerIds := rfl
@[simp] theorem Device.mapNet_boot (d : Device) (f : Network → Network) : (d.mapNet f).boot = d.boot := rfl
@[simp] theorem Device.mapNet_power (d : Device) (f : Network → Network) : (d.mapNet f).power = d.power := rfl
@[simp] theorem Device.mapNet_paths (d : Device) (f : Network → Network) : (d.mapNet f).paths = d.paths := rfl
@[simp] theorem Device.mapNet_own (d : Device) (f : Network → Network) : (d.mapNet f).own = d.own := rfl
@[simp] theorem Device.mapNet_staging (d : Device) (f : Network → Network) : (d.mapNet f).staging = d.staging := rfl
@[simp] theorem Device.mapNet_security (d : Device) (f : Network → Network) : (d.mapNet f).security = d.security := rfl
@[simp] theorem Device.mapNet_faults (d : Device) (f : Network → Network) : (d.mapNet f).faults = d.faults := rfl
@[simp] theorem Device.mapNet_trace (d : Device) (f : Network → Network) : (d.mapNet f).trace = d.trace := rfl
@[simp] theorem Device.mapNet_paddocks (d : Device) (f : Network → Network) : (d.mapNet f).paddocks = d.paddocks := rfl
@[simp] theorem Device.mapNet_images (d : Device) (f : Network → Network) : (d.mapNet f).images = d.images := rfl
@[simp] theorem Device.mapNet_fabric (d : Device) (f : Network → Network) : (d.mapNet f).fabric = d.fabric := rfl
@[simp] theorem Device.mapNet_net (d : Device) (f : Network → Network) : (d.mapNet f).net = f d.net := rfl
@[simp] theorem Device.mapNet_service (d : Device) (f : Network → Network) : (d.mapNet f).service = d.service := rfl
@[simp] theorem Device.mapNet_mem (d : Device) (f : Network → Network) : (d.mapNet f).mem = d.mem := rfl
@[simp] theorem Device.mapNet_hostLines (d : Device) (f : Network → Network) : (d.mapNet f).hostLines = d.hostLines := rfl
@[simp] theorem Device.mapNet_outbox (d : Device) (f : Network → Network) : (d.mapNet f).outbox = d.outbox := rfl
@[simp] theorem Device.mapNet_draws (d : Device) (f : Network → Network) : (d.mapNet f).draws = d.draws := rfl
@[simp] theorem Device.mapNet_now (d : Device) (f : Network → Network) : (d.mapNet f).now = d.now := rfl

/-! `mapService` -/

@[simp] theorem Device.mapService_tally (d : Device) (f : Service → Service) : (d.mapService f).tally = d.tally := rfl
@[simp] theorem Device.mapService_state (d : Device) (f : Service → Service) : (d.mapService f).state = d.state := rfl
@[simp] theorem Device.mapService_stateSince (d : Device) (f : Service → Service) : (d.mapService f).stateSince = d.stateSince := rfl
@[simp] theorem Device.mapService_deviceId (d : Device) (f : Service → Service) : (d.mapService f).deviceId = d.deviceId := rfl
@[simp] theorem Device.mapService_formerIds (d : Device) (f : Service → Service) : (d.mapService f).formerIds = d.formerIds := rfl
@[simp] theorem Device.mapService_boot (d : Device) (f : Service → Service) : (d.mapService f).boot = d.boot := rfl
@[simp] theorem Device.mapService_power (d : Device) (f : Service → Service) : (d.mapService f).power = d.power := rfl
@[simp] theorem Device.mapService_paths (d : Device) (f : Service → Service) : (d.mapService f).paths = d.paths := rfl
@[simp] theorem Device.mapService_own (d : Device) (f : Service → Service) : (d.mapService f).own = d.own := rfl
@[simp] theorem Device.mapService_staging (d : Device) (f : Service → Service) : (d.mapService f).staging = d.staging := rfl
@[simp] theorem Device.mapService_security (d : Device) (f : Service → Service) : (d.mapService f).security = d.security := rfl
@[simp] theorem Device.mapService_faults (d : Device) (f : Service → Service) : (d.mapService f).faults = d.faults := rfl
@[simp] theorem Device.mapService_trace (d : Device) (f : Service → Service) : (d.mapService f).trace = d.trace := rfl
@[simp] theorem Device.mapService_paddocks (d : Device) (f : Service → Service) : (d.mapService f).paddocks = d.paddocks := rfl
@[simp] theorem Device.mapService_images (d : Device) (f : Service → Service) : (d.mapService f).images = d.images := rfl
@[simp] theorem Device.mapService_fabric (d : Device) (f : Service → Service) : (d.mapService f).fabric = d.fabric := rfl
@[simp] theorem Device.mapService_net (d : Device) (f : Service → Service) : (d.mapService f).net = d.net := rfl
@[simp] theorem Device.mapService_service (d : Device) (f : Service → Service) : (d.mapService f).service = f d.service := rfl
@[simp] theorem Device.mapService_mem (d : Device) (f : Service → Service) : (d.mapService f).mem = d.mem := rfl
@[simp] theorem Device.mapService_hostLines (d : Device) (f : Service → Service) : (d.mapService f).hostLines = d.hostLines := rfl
@[simp] theorem Device.mapService_outbox (d : Device) (f : Service → Service) : (d.mapService f).outbox = d.outbox := rfl
@[simp] theorem Device.mapService_draws (d : Device) (f : Service → Service) : (d.mapService f).draws = d.draws := rfl
@[simp] theorem Device.mapService_now (d : Device) (f : Service → Service) : (d.mapService f).now = d.now := rfl

/-! `mapMem` -/

@[simp] theorem Device.mapMem_tally (d : Device) (f : Sparse 8 → Sparse 8) : (d.mapMem f).tally = d.tally := rfl
@[simp] theorem Device.mapMem_state (d : Device) (f : Sparse 8 → Sparse 8) : (d.mapMem f).state = d.state := rfl
@[simp] theorem Device.mapMem_stateSince (d : Device) (f : Sparse 8 → Sparse 8) : (d.mapMem f).stateSince = d.stateSince := rfl
@[simp] theorem Device.mapMem_deviceId (d : Device) (f : Sparse 8 → Sparse 8) : (d.mapMem f).deviceId = d.deviceId := rfl
@[simp] theorem Device.mapMem_formerIds (d : Device) (f : Sparse 8 → Sparse 8) : (d.mapMem f).formerIds = d.formerIds := rfl
@[simp] theorem Device.mapMem_boot (d : Device) (f : Sparse 8 → Sparse 8) : (d.mapMem f).boot = d.boot := rfl
@[simp] theorem Device.mapMem_power (d : Device) (f : Sparse 8 → Sparse 8) : (d.mapMem f).power = d.power := rfl
@[simp] theorem Device.mapMem_paths (d : Device) (f : Sparse 8 → Sparse 8) : (d.mapMem f).paths = d.paths := rfl
@[simp] theorem Device.mapMem_own (d : Device) (f : Sparse 8 → Sparse 8) : (d.mapMem f).own = d.own := rfl
@[simp] theorem Device.mapMem_staging (d : Device) (f : Sparse 8 → Sparse 8) : (d.mapMem f).staging = d.staging := rfl
@[simp] theorem Device.mapMem_security (d : Device) (f : Sparse 8 → Sparse 8) : (d.mapMem f).security = d.security := rfl
@[simp] theorem Device.mapMem_faults (d : Device) (f : Sparse 8 → Sparse 8) : (d.mapMem f).faults = d.faults := rfl
@[simp] theorem Device.mapMem_trace (d : Device) (f : Sparse 8 → Sparse 8) : (d.mapMem f).trace = d.trace := rfl
@[simp] theorem Device.mapMem_paddocks (d : Device) (f : Sparse 8 → Sparse 8) : (d.mapMem f).paddocks = d.paddocks := rfl
@[simp] theorem Device.mapMem_images (d : Device) (f : Sparse 8 → Sparse 8) : (d.mapMem f).images = d.images := rfl
@[simp] theorem Device.mapMem_fabric (d : Device) (f : Sparse 8 → Sparse 8) : (d.mapMem f).fabric = d.fabric := rfl
@[simp] theorem Device.mapMem_net (d : Device) (f : Sparse 8 → Sparse 8) : (d.mapMem f).net = d.net := rfl
@[simp] theorem Device.mapMem_service (d : Device) (f : Sparse 8 → Sparse 8) : (d.mapMem f).service = d.service := rfl
@[simp] theorem Device.mapMem_mem (d : Device) (f : Sparse 8 → Sparse 8) : (d.mapMem f).mem = f d.mem := rfl
@[simp] theorem Device.mapMem_hostLines (d : Device) (f : Sparse 8 → Sparse 8) : (d.mapMem f).hostLines = d.hostLines := rfl
@[simp] theorem Device.mapMem_outbox (d : Device) (f : Sparse 8 → Sparse 8) : (d.mapMem f).outbox = d.outbox := rfl
@[simp] theorem Device.mapMem_draws (d : Device) (f : Sparse 8 → Sparse 8) : (d.mapMem f).draws = d.draws := rfl
@[simp] theorem Device.mapMem_now (d : Device) (f : Sparse 8 → Sparse 8) : (d.mapMem f).now = d.now := rfl

/-! `emit` -/

@[simp] theorem Device.emit_tally (d : Device) (e : OutEvent) : (d.emit e).tally = d.tally := rfl
@[simp] theorem Device.emit_state (d : Device) (e : OutEvent) : (d.emit e).state = d.state := rfl
@[simp] theorem Device.emit_stateSince (d : Device) (e : OutEvent) : (d.emit e).stateSince = d.stateSince := rfl
@[simp] theorem Device.emit_deviceId (d : Device) (e : OutEvent) : (d.emit e).deviceId = d.deviceId := rfl
@[simp] theorem Device.emit_formerIds (d : Device) (e : OutEvent) : (d.emit e).formerIds = d.formerIds := rfl
@[simp] theorem Device.emit_boot (d : Device) (e : OutEvent) : (d.emit e).boot = d.boot := rfl
@[simp] theorem Device.emit_power (d : Device) (e : OutEvent) : (d.emit e).power = d.power := rfl
@[simp] theorem Device.emit_paths (d : Device) (e : OutEvent) : (d.emit e).paths = d.paths := rfl
@[simp] theorem Device.emit_own (d : Device) (e : OutEvent) : (d.emit e).own = d.own := rfl
@[simp] theorem Device.emit_staging (d : Device) (e : OutEvent) : (d.emit e).staging = d.staging := rfl
@[simp] theorem Device.emit_security (d : Device) (e : OutEvent) : (d.emit e).security = d.security := rfl
@[simp] theorem Device.emit_faults (d : Device) (e : OutEvent) : (d.emit e).faults = d.faults := rfl
@[simp] theorem Device.emit_trace (d : Device) (e : OutEvent) : (d.emit e).trace = d.trace := rfl
@[simp] theorem Device.emit_paddocks (d : Device) (e : OutEvent) : (d.emit e).paddocks = d.paddocks := rfl
@[simp] theorem Device.emit_images (d : Device) (e : OutEvent) : (d.emit e).images = d.images := rfl
@[simp] theorem Device.emit_fabric (d : Device) (e : OutEvent) : (d.emit e).fabric = d.fabric := rfl
@[simp] theorem Device.emit_net (d : Device) (e : OutEvent) : (d.emit e).net = d.net := rfl
@[simp] theorem Device.emit_service (d : Device) (e : OutEvent) : (d.emit e).service = d.service := rfl
@[simp] theorem Device.emit_mem (d : Device) (e : OutEvent) : (d.emit e).mem = d.mem := rfl
@[simp] theorem Device.emit_hostLines (d : Device) (e : OutEvent) : (d.emit e).hostLines = d.hostLines := rfl
@[simp] theorem Device.emit_draws (d : Device) (e : OutEvent) : (d.emit e).draws = d.draws := rfl
@[simp] theorem Device.emit_now (d : Device) (e : OutEvent) : (d.emit e).now = d.now := rfl

/-! `updPaddock` -/

@[simp] theorem Device.updPaddock_tally (d : Device) (p : Nat) (f : Paddock → Paddock) : (d.updPaddock p f).tally = d.tally := rfl
@[simp] theorem Device.updPaddock_state (d : Device) (p : Nat) (f : Paddock → Paddock) : (d.updPaddock p f).state = d.state := rfl
@[simp] theorem Device.updPaddock_stateSince (d : Device) (p : Nat) (f : Paddock → Paddock) : (d.updPaddock p f).stateSince = d.stateSince := rfl
@[simp] theorem Device.updPaddock_deviceId (d : Device) (p : Nat) (f : Paddock → Paddock) : (d.updPaddock p f).deviceId = d.deviceId := rfl
@[simp] theorem Device.updPaddock_formerIds (d : Device) (p : Nat) (f : Paddock → Paddock) : (d.updPaddock p f).formerIds = d.formerIds := rfl
@[simp] theorem Device.updPaddock_boot (d : Device) (p : Nat) (f : Paddock → Paddock) : (d.updPaddock p f).boot = d.boot := rfl
@[simp] theorem Device.updPaddock_power (d : Device) (p : Nat) (f : Paddock → Paddock) : (d.updPaddock p f).power = d.power := rfl
@[simp] theorem Device.updPaddock_paths (d : Device) (p : Nat) (f : Paddock → Paddock) : (d.updPaddock p f).paths = d.paths := rfl
@[simp] theorem Device.updPaddock_own (d : Device) (p : Nat) (f : Paddock → Paddock) : (d.updPaddock p f).own = d.own := rfl
@[simp] theorem Device.updPaddock_staging (d : Device) (p : Nat) (f : Paddock → Paddock) : (d.updPaddock p f).staging = d.staging := rfl
@[simp] theorem Device.updPaddock_security (d : Device) (p : Nat) (f : Paddock → Paddock) : (d.updPaddock p f).security = d.security := rfl
@[simp] theorem Device.updPaddock_faults (d : Device) (p : Nat) (f : Paddock → Paddock) : (d.updPaddock p f).faults = d.faults := rfl
@[simp] theorem Device.updPaddock_trace (d : Device) (p : Nat) (f : Paddock → Paddock) : (d.updPaddock p f).trace = d.trace := rfl
@[simp] theorem Device.updPaddock_images (d : Device) (p : Nat) (f : Paddock → Paddock) : (d.updPaddock p f).images = d.images := rfl
@[simp] theorem Device.updPaddock_fabric (d : Device) (p : Nat) (f : Paddock → Paddock) : (d.updPaddock p f).fabric = d.fabric := rfl
@[simp] theorem Device.updPaddock_net (d : Device) (p : Nat) (f : Paddock → Paddock) : (d.updPaddock p f).net = d.net := rfl
@[simp] theorem Device.updPaddock_service (d : Device) (p : Nat) (f : Paddock → Paddock) : (d.updPaddock p f).service = d.service := rfl
@[simp] theorem Device.updPaddock_mem (d : Device) (p : Nat) (f : Paddock → Paddock) : (d.updPaddock p f).mem = d.mem := rfl
@[simp] theorem Device.updPaddock_hostLines (d : Device) (p : Nat) (f : Paddock → Paddock) : (d.updPaddock p f).hostLines = d.hostLines := rfl
@[simp] theorem Device.updPaddock_outbox (d : Device) (p : Nat) (f : Paddock → Paddock) : (d.updPaddock p f).outbox = d.outbox := rfl
@[simp] theorem Device.updPaddock_draws (d : Device) (p : Nat) (f : Paddock → Paddock) : (d.updPaddock p f).draws = d.draws := rfl
@[simp] theorem Device.updPaddock_now (d : Device) (p : Nat) (f : Paddock → Paddock) : (d.updPaddock p f).now = d.now := rfl

/-! `updBlock` -/

@[simp] theorem Device.updBlock_tally (d : Device) (b : Nat) (f : Block → Block) : (d.updBlock b f).tally = d.tally := rfl
@[simp] theorem Device.updBlock_state (d : Device) (b : Nat) (f : Block → Block) : (d.updBlock b f).state = d.state := rfl
@[simp] theorem Device.updBlock_stateSince (d : Device) (b : Nat) (f : Block → Block) : (d.updBlock b f).stateSince = d.stateSince := rfl
@[simp] theorem Device.updBlock_deviceId (d : Device) (b : Nat) (f : Block → Block) : (d.updBlock b f).deviceId = d.deviceId := rfl
@[simp] theorem Device.updBlock_formerIds (d : Device) (b : Nat) (f : Block → Block) : (d.updBlock b f).formerIds = d.formerIds := rfl
@[simp] theorem Device.updBlock_boot (d : Device) (b : Nat) (f : Block → Block) : (d.updBlock b f).boot = d.boot := rfl
@[simp] theorem Device.updBlock_power (d : Device) (b : Nat) (f : Block → Block) : (d.updBlock b f).power = d.power := rfl
@[simp] theorem Device.updBlock_paths (d : Device) (b : Nat) (f : Block → Block) : (d.updBlock b f).paths = d.paths := rfl
@[simp] theorem Device.updBlock_own (d : Device) (b : Nat) (f : Block → Block) : (d.updBlock b f).own = d.own := rfl
@[simp] theorem Device.updBlock_staging (d : Device) (b : Nat) (f : Block → Block) : (d.updBlock b f).staging = d.staging := rfl
@[simp] theorem Device.updBlock_security (d : Device) (b : Nat) (f : Block → Block) : (d.updBlock b f).security = d.security := rfl
@[simp] theorem Device.updBlock_faults (d : Device) (b : Nat) (f : Block → Block) : (d.updBlock b f).faults = d.faults := rfl
@[simp] theorem Device.updBlock_trace (d : Device) (b : Nat) (f : Block → Block) : (d.updBlock b f).trace = d.trace := rfl
@[simp] theorem Device.updBlock_paddocks (d : Device) (b : Nat) (f : Block → Block) : (d.updBlock b f).paddocks = d.paddocks := rfl
@[simp] theorem Device.updBlock_images (d : Device) (b : Nat) (f : Block → Block) : (d.updBlock b f).images = d.images := rfl
@[simp] theorem Device.updBlock_net (d : Device) (b : Nat) (f : Block → Block) : (d.updBlock b f).net = d.net := rfl
@[simp] theorem Device.updBlock_service (d : Device) (b : Nat) (f : Block → Block) : (d.updBlock b f).service = d.service := rfl
@[simp] theorem Device.updBlock_mem (d : Device) (b : Nat) (f : Block → Block) : (d.updBlock b f).mem = d.mem := rfl
@[simp] theorem Device.updBlock_hostLines (d : Device) (b : Nat) (f : Block → Block) : (d.updBlock b f).hostLines = d.hostLines := rfl
@[simp] theorem Device.updBlock_outbox (d : Device) (b : Nat) (f : Block → Block) : (d.updBlock b f).outbox = d.outbox := rfl
@[simp] theorem Device.updBlock_draws (d : Device) (b : Nat) (f : Block → Block) : (d.updBlock b f).draws = d.draws := rfl
@[simp] theorem Device.updBlock_now (d : Device) (b : Nat) (f : Block → Block) : (d.updBlock b f).now = d.now := rfl

/-! `updThread` -/

@[simp] theorem Device.updThread_tally (d : Device) (b t : Nat) (f : Thread → Thread) : (d.updThread b t f).tally = d.tally := rfl
@[simp] theorem Device.updThread_state (d : Device) (b t : Nat) (f : Thread → Thread) : (d.updThread b t f).state = d.state := rfl
@[simp] theorem Device.updThread_stateSince (d : Device) (b t : Nat) (f : Thread → Thread) : (d.updThread b t f).stateSince = d.stateSince := rfl
@[simp] theorem Device.updThread_deviceId (d : Device) (b t : Nat) (f : Thread → Thread) : (d.updThread b t f).deviceId = d.deviceId := rfl
@[simp] theorem Device.updThread_formerIds (d : Device) (b t : Nat) (f : Thread → Thread) : (d.updThread b t f).formerIds = d.formerIds := rfl
@[simp] theorem Device.updThread_boot (d : Device) (b t : Nat) (f : Thread → Thread) : (d.updThread b t f).boot = d.boot := rfl
@[simp] theorem Device.updThread_power (d : Device) (b t : Nat) (f : Thread → Thread) : (d.updThread b t f).power = d.power := rfl
@[simp] theorem Device.updThread_paths (d : Device) (b t : Nat) (f : Thread → Thread) : (d.updThread b t f).paths = d.paths := rfl
@[simp] theorem Device.updThread_own (d : Device) (b t : Nat) (f : Thread → Thread) : (d.updThread b t f).own = d.own := rfl
@[simp] theorem Device.updThread_staging (d : Device) (b t : Nat) (f : Thread → Thread) : (d.updThread b t f).staging = d.staging := rfl
@[simp] theorem Device.updThread_security (d : Device) (b t : Nat) (f : Thread → Thread) : (d.updThread b t f).security = d.security := rfl
@[simp] theorem Device.updThread_faults (d : Device) (b t : Nat) (f : Thread → Thread) : (d.updThread b t f).faults = d.faults := rfl
@[simp] theorem Device.updThread_trace (d : Device) (b t : Nat) (f : Thread → Thread) : (d.updThread b t f).trace = d.trace := rfl
@[simp] theorem Device.updThread_paddocks (d : Device) (b t : Nat) (f : Thread → Thread) : (d.updThread b t f).paddocks = d.paddocks := rfl
@[simp] theorem Device.updThread_images (d : Device) (b t : Nat) (f : Thread → Thread) : (d.updThread b t f).images = d.images := rfl
@[simp] theorem Device.updThread_net (d : Device) (b t : Nat) (f : Thread → Thread) : (d.updThread b t f).net = d.net := rfl
@[simp] theorem Device.updThread_service (d : Device) (b t : Nat) (f : Thread → Thread) : (d.updThread b t f).service = d.service := rfl
@[simp] theorem Device.updThread_mem (d : Device) (b t : Nat) (f : Thread → Thread) : (d.updThread b t f).mem = d.mem := rfl
@[simp] theorem Device.updThread_hostLines (d : Device) (b t : Nat) (f : Thread → Thread) : (d.updThread b t f).hostLines = d.hostLines := rfl
@[simp] theorem Device.updThread_outbox (d : Device) (b t : Nat) (f : Thread → Thread) : (d.updThread b t f).outbox = d.outbox := rfl
@[simp] theorem Device.updThread_draws (d : Device) (b t : Nat) (f : Thread → Thread) : (d.updThread b t f).draws = d.draws := rfl
@[simp] theorem Device.updThread_now (d : Device) (b t : Nat) (f : Thread → Thread) : (d.updThread b t f).now = d.now := rfl

/-! `updRing` -/

@[simp] theorem Device.updRing_tally (d : Device) (q : Nat) (f : Ring → Ring) : (d.updRing q f).tally = d.tally := rfl
@[simp] theorem Device.updRing_state (d : Device) (q : Nat) (f : Ring → Ring) : (d.updRing q f).state = d.state := rfl
@[simp] theorem Device.updRing_stateSince (d : Device) (q : Nat) (f : Ring → Ring) : (d.updRing q f).stateSince = d.stateSince := rfl
@[simp] theorem Device.updRing_deviceId (d : Device) (q : Nat) (f : Ring → Ring) : (d.updRing q f).deviceId = d.deviceId := rfl
@[simp] theorem Device.updRing_formerIds (d : Device) (q : Nat) (f : Ring → Ring) : (d.updRing q f).formerIds = d.formerIds := rfl
@[simp] theorem Device.updRing_boot (d : Device) (q : Nat) (f : Ring → Ring) : (d.updRing q f).boot = d.boot := rfl
@[simp] theorem Device.updRing_power (d : Device) (q : Nat) (f : Ring → Ring) : (d.updRing q f).power = d.power := rfl
@[simp] theorem Device.updRing_paths (d : Device) (q : Nat) (f : Ring → Ring) : (d.updRing q f).paths = d.paths := rfl
@[simp] theorem Device.updRing_own (d : Device) (q : Nat) (f : Ring → Ring) : (d.updRing q f).own = d.own := rfl
@[simp] theorem Device.updRing_staging (d : Device) (q : Nat) (f : Ring → Ring) : (d.updRing q f).staging = d.staging := rfl
@[simp] theorem Device.updRing_security (d : Device) (q : Nat) (f : Ring → Ring) : (d.updRing q f).security = d.security := rfl
@[simp] theorem Device.updRing_faults (d : Device) (q : Nat) (f : Ring → Ring) : (d.updRing q f).faults = d.faults := rfl
@[simp] theorem Device.updRing_trace (d : Device) (q : Nat) (f : Ring → Ring) : (d.updRing q f).trace = d.trace := rfl
@[simp] theorem Device.updRing_paddocks (d : Device) (q : Nat) (f : Ring → Ring) : (d.updRing q f).paddocks = d.paddocks := rfl
@[simp] theorem Device.updRing_images (d : Device) (q : Nat) (f : Ring → Ring) : (d.updRing q f).images = d.images := rfl
@[simp] theorem Device.updRing_fabric (d : Device) (q : Nat) (f : Ring → Ring) : (d.updRing q f).fabric = d.fabric := rfl
@[simp] theorem Device.updRing_service (d : Device) (q : Nat) (f : Ring → Ring) : (d.updRing q f).service = d.service := rfl
@[simp] theorem Device.updRing_mem (d : Device) (q : Nat) (f : Ring → Ring) : (d.updRing q f).mem = d.mem := rfl
@[simp] theorem Device.updRing_hostLines (d : Device) (q : Nat) (f : Ring → Ring) : (d.updRing q f).hostLines = d.hostLines := rfl
@[simp] theorem Device.updRing_outbox (d : Device) (q : Nat) (f : Ring → Ring) : (d.updRing q f).outbox = d.outbox := rfl
@[simp] theorem Device.updRing_draws (d : Device) (q : Nat) (f : Ring → Ring) : (d.updRing q f).draws = d.draws := rfl
@[simp] theorem Device.updRing_now (d : Device) (q : Nat) (f : Ring → Ring) : (d.updRing q f).now = d.now := rfl

/-! `updConn` -/

@[simp] theorem Device.updConn_tally (d : Device) (c : Nat) (f : Conn → Conn) : (d.updConn c f).tally = d.tally := rfl
@[simp] theorem Device.updConn_state (d : Device) (c : Nat) (f : Conn → Conn) : (d.updConn c f).state = d.state := rfl
@[simp] theorem Device.updConn_stateSince (d : Device) (c : Nat) (f : Conn → Conn) : (d.updConn c f).stateSince = d.stateSince := rfl
@[simp] theorem Device.updConn_deviceId (d : Device) (c : Nat) (f : Conn → Conn) : (d.updConn c f).deviceId = d.deviceId := rfl
@[simp] theorem Device.updConn_formerIds (d : Device) (c : Nat) (f : Conn → Conn) : (d.updConn c f).formerIds = d.formerIds := rfl
@[simp] theorem Device.updConn_boot (d : Device) (c : Nat) (f : Conn → Conn) : (d.updConn c f).boot = d.boot := rfl
@[simp] theorem Device.updConn_power (d : Device) (c : Nat) (f : Conn → Conn) : (d.updConn c f).power = d.power := rfl
@[simp] theorem Device.updConn_paths (d : Device) (c : Nat) (f : Conn → Conn) : (d.updConn c f).paths = d.paths := rfl
@[simp] theorem Device.updConn_own (d : Device) (c : Nat) (f : Conn → Conn) : (d.updConn c f).own = d.own := rfl
@[simp] theorem Device.updConn_staging (d : Device) (c : Nat) (f : Conn → Conn) : (d.updConn c f).staging = d.staging := rfl
@[simp] theorem Device.updConn_security (d : Device) (c : Nat) (f : Conn → Conn) : (d.updConn c f).security = d.security := rfl
@[simp] theorem Device.updConn_faults (d : Device) (c : Nat) (f : Conn → Conn) : (d.updConn c f).faults = d.faults := rfl
@[simp] theorem Device.updConn_trace (d : Device) (c : Nat) (f : Conn → Conn) : (d.updConn c f).trace = d.trace := rfl
@[simp] theorem Device.updConn_paddocks (d : Device) (c : Nat) (f : Conn → Conn) : (d.updConn c f).paddocks = d.paddocks := rfl
@[simp] theorem Device.updConn_images (d : Device) (c : Nat) (f : Conn → Conn) : (d.updConn c f).images = d.images := rfl
@[simp] theorem Device.updConn_fabric (d : Device) (c : Nat) (f : Conn → Conn) : (d.updConn c f).fabric = d.fabric := rfl
@[simp] theorem Device.updConn_service (d : Device) (c : Nat) (f : Conn → Conn) : (d.updConn c f).service = d.service := rfl
@[simp] theorem Device.updConn_mem (d : Device) (c : Nat) (f : Conn → Conn) : (d.updConn c f).mem = d.mem := rfl
@[simp] theorem Device.updConn_hostLines (d : Device) (c : Nat) (f : Conn → Conn) : (d.updConn c f).hostLines = d.hostLines := rfl
@[simp] theorem Device.updConn_outbox (d : Device) (c : Nat) (f : Conn → Conn) : (d.updConn c f).outbox = d.outbox := rfl
@[simp] theorem Device.updConn_draws (d : Device) (c : Nat) (f : Conn → Conn) : (d.updConn c f).draws = d.draws := rfl
@[simp] theorem Device.updConn_now (d : Device) (c : Nat) (f : Conn → Conn) : (d.updConn c f).now = d.now := rfl

/-! `updExposure` -/

@[simp] theorem Device.updExposure_tally (d : Device) (i : Nat) (f : Exposure → Exposure) : (d.updExposure i f).tally = d.tally := rfl
@[simp] theorem Device.updExposure_state (d : Device) (i : Nat) (f : Exposure → Exposure) : (d.updExposure i f).state = d.state := rfl
@[simp] theorem Device.updExposure_stateSince (d : Device) (i : Nat) (f : Exposure → Exposure) : (d.updExposure i f).stateSince = d.stateSince := rfl
@[simp] theorem Device.updExposure_deviceId (d : Device) (i : Nat) (f : Exposure → Exposure) : (d.updExposure i f).deviceId = d.deviceId := rfl
@[simp] theorem Device.updExposure_formerIds (d : Device) (i : Nat) (f : Exposure → Exposure) : (d.updExposure i f).formerIds = d.formerIds := rfl
@[simp] theorem Device.updExposure_boot (d : Device) (i : Nat) (f : Exposure → Exposure) : (d.updExposure i f).boot = d.boot := rfl
@[simp] theorem Device.updExposure_power (d : Device) (i : Nat) (f : Exposure → Exposure) : (d.updExposure i f).power = d.power := rfl
@[simp] theorem Device.updExposure_paths (d : Device) (i : Nat) (f : Exposure → Exposure) : (d.updExposure i f).paths = d.paths := rfl
@[simp] theorem Device.updExposure_own (d : Device) (i : Nat) (f : Exposure → Exposure) : (d.updExposure i f).own = d.own := rfl
@[simp] theorem Device.updExposure_staging (d : Device) (i : Nat) (f : Exposure → Exposure) : (d.updExposure i f).staging = d.staging := rfl
@[simp] theorem Device.updExposure_security (d : Device) (i : Nat) (f : Exposure → Exposure) : (d.updExposure i f).security = d.security := rfl
@[simp] theorem Device.updExposure_faults (d : Device) (i : Nat) (f : Exposure → Exposure) : (d.updExposure i f).faults = d.faults := rfl
@[simp] theorem Device.updExposure_trace (d : Device) (i : Nat) (f : Exposure → Exposure) : (d.updExposure i f).trace = d.trace := rfl
@[simp] theorem Device.updExposure_paddocks (d : Device) (i : Nat) (f : Exposure → Exposure) : (d.updExposure i f).paddocks = d.paddocks := rfl
@[simp] theorem Device.updExposure_images (d : Device) (i : Nat) (f : Exposure → Exposure) : (d.updExposure i f).images = d.images := rfl
@[simp] theorem Device.updExposure_fabric (d : Device) (i : Nat) (f : Exposure → Exposure) : (d.updExposure i f).fabric = d.fabric := rfl
@[simp] theorem Device.updExposure_service (d : Device) (i : Nat) (f : Exposure → Exposure) : (d.updExposure i f).service = d.service := rfl
@[simp] theorem Device.updExposure_mem (d : Device) (i : Nat) (f : Exposure → Exposure) : (d.updExposure i f).mem = d.mem := rfl
@[simp] theorem Device.updExposure_hostLines (d : Device) (i : Nat) (f : Exposure → Exposure) : (d.updExposure i f).hostLines = d.hostLines := rfl
@[simp] theorem Device.updExposure_outbox (d : Device) (i : Nat) (f : Exposure → Exposure) : (d.updExposure i f).outbox = d.outbox := rfl
@[simp] theorem Device.updExposure_draws (d : Device) (i : Nat) (f : Exposure → Exposure) : (d.updExposure i f).draws = d.draws := rfl
@[simp] theorem Device.updExposure_now (d : Device) (i : Nat) (f : Exposure → Exposure) : (d.updExposure i f).now = d.now := rfl

/-! `updPort` -/

@[simp] theorem Device.updPort_tally (d : Device) (p : Nat) (f : Port → Port) : (d.updPort p f).tally = d.tally := rfl
@[simp] theorem Device.updPort_state (d : Device) (p : Nat) (f : Port → Port) : (d.updPort p f).state = d.state := rfl
@[simp] theorem Device.updPort_stateSince (d : Device) (p : Nat) (f : Port → Port) : (d.updPort p f).stateSince = d.stateSince := rfl
@[simp] theorem Device.updPort_deviceId (d : Device) (p : Nat) (f : Port → Port) : (d.updPort p f).deviceId = d.deviceId := rfl
@[simp] theorem Device.updPort_formerIds (d : Device) (p : Nat) (f : Port → Port) : (d.updPort p f).formerIds = d.formerIds := rfl
@[simp] theorem Device.updPort_boot (d : Device) (p : Nat) (f : Port → Port) : (d.updPort p f).boot = d.boot := rfl
@[simp] theorem Device.updPort_power (d : Device) (p : Nat) (f : Port → Port) : (d.updPort p f).power = d.power := rfl
@[simp] theorem Device.updPort_paths (d : Device) (p : Nat) (f : Port → Port) : (d.updPort p f).paths = d.paths := rfl
@[simp] theorem Device.updPort_own (d : Device) (p : Nat) (f : Port → Port) : (d.updPort p f).own = d.own := rfl
@[simp] theorem Device.updPort_staging (d : Device) (p : Nat) (f : Port → Port) : (d.updPort p f).staging = d.staging := rfl
@[simp] theorem Device.updPort_security (d : Device) (p : Nat) (f : Port → Port) : (d.updPort p f).security = d.security := rfl
@[simp] theorem Device.updPort_faults (d : Device) (p : Nat) (f : Port → Port) : (d.updPort p f).faults = d.faults := rfl
@[simp] theorem Device.updPort_trace (d : Device) (p : Nat) (f : Port → Port) : (d.updPort p f).trace = d.trace := rfl
@[simp] theorem Device.updPort_paddocks (d : Device) (p : Nat) (f : Port → Port) : (d.updPort p f).paddocks = d.paddocks := rfl
@[simp] theorem Device.updPort_images (d : Device) (p : Nat) (f : Port → Port) : (d.updPort p f).images = d.images := rfl
@[simp] theorem Device.updPort_fabric (d : Device) (p : Nat) (f : Port → Port) : (d.updPort p f).fabric = d.fabric := rfl
@[simp] theorem Device.updPort_service (d : Device) (p : Nat) (f : Port → Port) : (d.updPort p f).service = d.service := rfl
@[simp] theorem Device.updPort_mem (d : Device) (p : Nat) (f : Port → Port) : (d.updPort p f).mem = d.mem := rfl
@[simp] theorem Device.updPort_hostLines (d : Device) (p : Nat) (f : Port → Port) : (d.updPort p f).hostLines = d.hostLines := rfl
@[simp] theorem Device.updPort_outbox (d : Device) (p : Nat) (f : Port → Port) : (d.updPort p f).outbox = d.outbox := rfl
@[simp] theorem Device.updPort_draws (d : Device) (p : Nat) (f : Port → Port) : (d.updPort p f).draws = d.draws := rfl
@[simp] theorem Device.updPort_now (d : Device) (p : Nat) (f : Port → Port) : (d.updPort p f).now = d.now := rfl

/-! `updLink` -/

@[simp] theorem Device.updLink_tally (d : Device) (l : Nat) (f : Link → Link) : (d.updLink l f).tally = d.tally := rfl
@[simp] theorem Device.updLink_state (d : Device) (l : Nat) (f : Link → Link) : (d.updLink l f).state = d.state := rfl
@[simp] theorem Device.updLink_stateSince (d : Device) (l : Nat) (f : Link → Link) : (d.updLink l f).stateSince = d.stateSince := rfl
@[simp] theorem Device.updLink_deviceId (d : Device) (l : Nat) (f : Link → Link) : (d.updLink l f).deviceId = d.deviceId := rfl
@[simp] theorem Device.updLink_formerIds (d : Device) (l : Nat) (f : Link → Link) : (d.updLink l f).formerIds = d.formerIds := rfl
@[simp] theorem Device.updLink_boot (d : Device) (l : Nat) (f : Link → Link) : (d.updLink l f).boot = d.boot := rfl
@[simp] theorem Device.updLink_power (d : Device) (l : Nat) (f : Link → Link) : (d.updLink l f).power = d.power := rfl
@[simp] theorem Device.updLink_paths (d : Device) (l : Nat) (f : Link → Link) : (d.updLink l f).paths = d.paths := rfl
@[simp] theorem Device.updLink_own (d : Device) (l : Nat) (f : Link → Link) : (d.updLink l f).own = d.own := rfl
@[simp] theorem Device.updLink_staging (d : Device) (l : Nat) (f : Link → Link) : (d.updLink l f).staging = d.staging := rfl
@[simp] theorem Device.updLink_security (d : Device) (l : Nat) (f : Link → Link) : (d.updLink l f).security = d.security := rfl
@[simp] theorem Device.updLink_faults (d : Device) (l : Nat) (f : Link → Link) : (d.updLink l f).faults = d.faults := rfl
@[simp] theorem Device.updLink_trace (d : Device) (l : Nat) (f : Link → Link) : (d.updLink l f).trace = d.trace := rfl
@[simp] theorem Device.updLink_paddocks (d : Device) (l : Nat) (f : Link → Link) : (d.updLink l f).paddocks = d.paddocks := rfl
@[simp] theorem Device.updLink_images (d : Device) (l : Nat) (f : Link → Link) : (d.updLink l f).images = d.images := rfl
@[simp] theorem Device.updLink_fabric (d : Device) (l : Nat) (f : Link → Link) : (d.updLink l f).fabric = d.fabric := rfl
@[simp] theorem Device.updLink_service (d : Device) (l : Nat) (f : Link → Link) : (d.updLink l f).service = d.service := rfl
@[simp] theorem Device.updLink_mem (d : Device) (l : Nat) (f : Link → Link) : (d.updLink l f).mem = d.mem := rfl
@[simp] theorem Device.updLink_hostLines (d : Device) (l : Nat) (f : Link → Link) : (d.updLink l f).hostLines = d.hostLines := rfl
@[simp] theorem Device.updLink_outbox (d : Device) (l : Nat) (f : Link → Link) : (d.updLink l f).outbox = d.outbox := rfl
@[simp] theorem Device.updLink_draws (d : Device) (l : Nat) (f : Link → Link) : (d.updLink l f).draws = d.draws := rfl
@[simp] theorem Device.updLink_now (d : Device) (l : Nat) (f : Link → Link) : (d.updLink l f).now = d.now := rfl

/-! `updHurdle` -/

@[simp] theorem Device.updHurdle_tally (d : Device) (h : Nat) (f : Hurdle → Hurdle) : (d.updHurdle h f).tally = d.tally := rfl
@[simp] theorem Device.updHurdle_state (d : Device) (h : Nat) (f : Hurdle → Hurdle) : (d.updHurdle h f).state = d.state := rfl
@[simp] theorem Device.updHurdle_stateSince (d : Device) (h : Nat) (f : Hurdle → Hurdle) : (d.updHurdle h f).stateSince = d.stateSince := rfl
@[simp] theorem Device.updHurdle_deviceId (d : Device) (h : Nat) (f : Hurdle → Hurdle) : (d.updHurdle h f).deviceId = d.deviceId := rfl
@[simp] theorem Device.updHurdle_formerIds (d : Device) (h : Nat) (f : Hurdle → Hurdle) : (d.updHurdle h f).formerIds = d.formerIds := rfl
@[simp] theorem Device.updHurdle_boot (d : Device) (h : Nat) (f : Hurdle → Hurdle) : (d.updHurdle h f).boot = d.boot := rfl
@[simp] theorem Device.updHurdle_power (d : Device) (h : Nat) (f : Hurdle → Hurdle) : (d.updHurdle h f).power = d.power := rfl
@[simp] theorem Device.updHurdle_paths (d : Device) (h : Nat) (f : Hurdle → Hurdle) : (d.updHurdle h f).paths = d.paths := rfl
@[simp] theorem Device.updHurdle_own (d : Device) (h : Nat) (f : Hurdle → Hurdle) : (d.updHurdle h f).own = d.own := rfl
@[simp] theorem Device.updHurdle_staging (d : Device) (h : Nat) (f : Hurdle → Hurdle) : (d.updHurdle h f).staging = d.staging := rfl
@[simp] theorem Device.updHurdle_security (d : Device) (h : Nat) (f : Hurdle → Hurdle) : (d.updHurdle h f).security = d.security := rfl
@[simp] theorem Device.updHurdle_faults (d : Device) (h : Nat) (f : Hurdle → Hurdle) : (d.updHurdle h f).faults = d.faults := rfl
@[simp] theorem Device.updHurdle_trace (d : Device) (h : Nat) (f : Hurdle → Hurdle) : (d.updHurdle h f).trace = d.trace := rfl
@[simp] theorem Device.updHurdle_paddocks (d : Device) (h : Nat) (f : Hurdle → Hurdle) : (d.updHurdle h f).paddocks = d.paddocks := rfl
@[simp] theorem Device.updHurdle_images (d : Device) (h : Nat) (f : Hurdle → Hurdle) : (d.updHurdle h f).images = d.images := rfl
@[simp] theorem Device.updHurdle_net (d : Device) (h : Nat) (f : Hurdle → Hurdle) : (d.updHurdle h f).net = d.net := rfl
@[simp] theorem Device.updHurdle_service (d : Device) (h : Nat) (f : Hurdle → Hurdle) : (d.updHurdle h f).service = d.service := rfl
@[simp] theorem Device.updHurdle_mem (d : Device) (h : Nat) (f : Hurdle → Hurdle) : (d.updHurdle h f).mem = d.mem := rfl
@[simp] theorem Device.updHurdle_hostLines (d : Device) (h : Nat) (f : Hurdle → Hurdle) : (d.updHurdle h f).hostLines = d.hostLines := rfl
@[simp] theorem Device.updHurdle_outbox (d : Device) (h : Nat) (f : Hurdle → Hurdle) : (d.updHurdle h f).outbox = d.outbox := rfl
@[simp] theorem Device.updHurdle_draws (d : Device) (h : Nat) (f : Hurdle → Hurdle) : (d.updHurdle h f).draws = d.draws := rfl
@[simp] theorem Device.updHurdle_now (d : Device) (h : Nat) (f : Hurdle → Hurdle) : (d.updHurdle h f).now = d.now := rfl

/-! `updServing` -/

@[simp] theorem Device.updServing_tally (d : Device) (p : Nat) (f : Serving → Serving) : (d.updServing p f).tally = d.tally := rfl
@[simp] theorem Device.updServing_state (d : Device) (p : Nat) (f : Serving → Serving) : (d.updServing p f).state = d.state := rfl
@[simp] theorem Device.updServing_stateSince (d : Device) (p : Nat) (f : Serving → Serving) : (d.updServing p f).stateSince = d.stateSince := rfl
@[simp] theorem Device.updServing_deviceId (d : Device) (p : Nat) (f : Serving → Serving) : (d.updServing p f).deviceId = d.deviceId := rfl
@[simp] theorem Device.updServing_formerIds (d : Device) (p : Nat) (f : Serving → Serving) : (d.updServing p f).formerIds = d.formerIds := rfl
@[simp] theorem Device.updServing_boot (d : Device) (p : Nat) (f : Serving → Serving) : (d.updServing p f).boot = d.boot := rfl
@[simp] theorem Device.updServing_power (d : Device) (p : Nat) (f : Serving → Serving) : (d.updServing p f).power = d.power := rfl
@[simp] theorem Device.updServing_paths (d : Device) (p : Nat) (f : Serving → Serving) : (d.updServing p f).paths = d.paths := rfl
@[simp] theorem Device.updServing_own (d : Device) (p : Nat) (f : Serving → Serving) : (d.updServing p f).own = d.own := rfl
@[simp] theorem Device.updServing_staging (d : Device) (p : Nat) (f : Serving → Serving) : (d.updServing p f).staging = d.staging := rfl
@[simp] theorem Device.updServing_security (d : Device) (p : Nat) (f : Serving → Serving) : (d.updServing p f).security = d.security := rfl
@[simp] theorem Device.updServing_faults (d : Device) (p : Nat) (f : Serving → Serving) : (d.updServing p f).faults = d.faults := rfl
@[simp] theorem Device.updServing_trace (d : Device) (p : Nat) (f : Serving → Serving) : (d.updServing p f).trace = d.trace := rfl
@[simp] theorem Device.updServing_paddocks (d : Device) (p : Nat) (f : Serving → Serving) : (d.updServing p f).paddocks = d.paddocks := rfl
@[simp] theorem Device.updServing_images (d : Device) (p : Nat) (f : Serving → Serving) : (d.updServing p f).images = d.images := rfl
@[simp] theorem Device.updServing_fabric (d : Device) (p : Nat) (f : Serving → Serving) : (d.updServing p f).fabric = d.fabric := rfl
@[simp] theorem Device.updServing_net (d : Device) (p : Nat) (f : Serving → Serving) : (d.updServing p f).net = d.net := rfl
@[simp] theorem Device.updServing_mem (d : Device) (p : Nat) (f : Serving → Serving) : (d.updServing p f).mem = d.mem := rfl
@[simp] theorem Device.updServing_hostLines (d : Device) (p : Nat) (f : Serving → Serving) : (d.updServing p f).hostLines = d.hostLines := rfl
@[simp] theorem Device.updServing_outbox (d : Device) (p : Nat) (f : Serving → Serving) : (d.updServing p f).outbox = d.outbox := rfl
@[simp] theorem Device.updServing_draws (d : Device) (p : Nat) (f : Serving → Serving) : (d.updServing p f).draws = d.draws := rfl
@[simp] theorem Device.updServing_now (d : Device) (p : Nat) (f : Serving → Serving) : (d.updServing p f).now = d.now := rfl

/-! `updDrove` -/

@[simp] theorem Device.updDrove_tally (d : Device) (p : Nat) (f : DroveState → DroveState) : (d.updDrove p f).tally = d.tally := rfl
@[simp] theorem Device.updDrove_state (d : Device) (p : Nat) (f : DroveState → DroveState) : (d.updDrove p f).state = d.state := rfl
@[simp] theorem Device.updDrove_stateSince (d : Device) (p : Nat) (f : DroveState → DroveState) : (d.updDrove p f).stateSince = d.stateSince := rfl
@[simp] theorem Device.updDrove_deviceId (d : Device) (p : Nat) (f : DroveState → DroveState) : (d.updDrove p f).deviceId = d.deviceId := rfl
@[simp] theorem Device.updDrove_formerIds (d : Device) (p : Nat) (f : DroveState → DroveState) : (d.updDrove p f).formerIds = d.formerIds := rfl
@[simp] theorem Device.updDrove_boot (d : Device) (p : Nat) (f : DroveState → DroveState) : (d.updDrove p f).boot = d.boot := rfl
@[simp] theorem Device.updDrove_power (d : Device) (p : Nat) (f : DroveState → DroveState) : (d.updDrove p f).power = d.power := rfl
@[simp] theorem Device.updDrove_paths (d : Device) (p : Nat) (f : DroveState → DroveState) : (d.updDrove p f).paths = d.paths := rfl
@[simp] theorem Device.updDrove_own (d : Device) (p : Nat) (f : DroveState → DroveState) : (d.updDrove p f).own = d.own := rfl
@[simp] theorem Device.updDrove_staging (d : Device) (p : Nat) (f : DroveState → DroveState) : (d.updDrove p f).staging = d.staging := rfl
@[simp] theorem Device.updDrove_security (d : Device) (p : Nat) (f : DroveState → DroveState) : (d.updDrove p f).security = d.security := rfl
@[simp] theorem Device.updDrove_faults (d : Device) (p : Nat) (f : DroveState → DroveState) : (d.updDrove p f).faults = d.faults := rfl
@[simp] theorem Device.updDrove_trace (d : Device) (p : Nat) (f : DroveState → DroveState) : (d.updDrove p f).trace = d.trace := rfl
@[simp] theorem Device.updDrove_paddocks (d : Device) (p : Nat) (f : DroveState → DroveState) : (d.updDrove p f).paddocks = d.paddocks := rfl
@[simp] theorem Device.updDrove_images (d : Device) (p : Nat) (f : DroveState → DroveState) : (d.updDrove p f).images = d.images := rfl
@[simp] theorem Device.updDrove_fabric (d : Device) (p : Nat) (f : DroveState → DroveState) : (d.updDrove p f).fabric = d.fabric := rfl
@[simp] theorem Device.updDrove_net (d : Device) (p : Nat) (f : DroveState → DroveState) : (d.updDrove p f).net = d.net := rfl
@[simp] theorem Device.updDrove_mem (d : Device) (p : Nat) (f : DroveState → DroveState) : (d.updDrove p f).mem = d.mem := rfl
@[simp] theorem Device.updDrove_hostLines (d : Device) (p : Nat) (f : DroveState → DroveState) : (d.updDrove p f).hostLines = d.hostLines := rfl
@[simp] theorem Device.updDrove_outbox (d : Device) (p : Nat) (f : DroveState → DroveState) : (d.updDrove p f).outbox = d.outbox := rfl
@[simp] theorem Device.updDrove_draws (d : Device) (p : Nat) (f : DroveState → DroveState) : (d.updDrove p f).draws = d.draws := rfl
@[simp] theorem Device.updDrove_now (d : Device) (p : Nat) (f : DroveState → DroveState) : (d.updDrove p f).now = d.now := rfl

/-! `store` -/

@[simp] theorem Device.store_tally (d : Device) (a : Nat) (bs : List Byte) : (d.store a bs).tally = d.tally := rfl
@[simp] theorem Device.store_state (d : Device) (a : Nat) (bs : List Byte) : (d.store a bs).state = d.state := rfl
@[simp] theorem Device.store_stateSince (d : Device) (a : Nat) (bs : List Byte) : (d.store a bs).stateSince = d.stateSince := rfl
@[simp] theorem Device.store_deviceId (d : Device) (a : Nat) (bs : List Byte) : (d.store a bs).deviceId = d.deviceId := rfl
@[simp] theorem Device.store_formerIds (d : Device) (a : Nat) (bs : List Byte) : (d.store a bs).formerIds = d.formerIds := rfl
@[simp] theorem Device.store_boot (d : Device) (a : Nat) (bs : List Byte) : (d.store a bs).boot = d.boot := rfl
@[simp] theorem Device.store_power (d : Device) (a : Nat) (bs : List Byte) : (d.store a bs).power = d.power := rfl
@[simp] theorem Device.store_paths (d : Device) (a : Nat) (bs : List Byte) : (d.store a bs).paths = d.paths := rfl
@[simp] theorem Device.store_own (d : Device) (a : Nat) (bs : List Byte) : (d.store a bs).own = d.own := rfl
@[simp] theorem Device.store_staging (d : Device) (a : Nat) (bs : List Byte) : (d.store a bs).staging = d.staging := rfl
@[simp] theorem Device.store_security (d : Device) (a : Nat) (bs : List Byte) : (d.store a bs).security = d.security := rfl
@[simp] theorem Device.store_trace (d : Device) (a : Nat) (bs : List Byte) : (d.store a bs).trace = d.trace := rfl
@[simp] theorem Device.store_paddocks (d : Device) (a : Nat) (bs : List Byte) : (d.store a bs).paddocks = d.paddocks := rfl
@[simp] theorem Device.store_images (d : Device) (a : Nat) (bs : List Byte) : (d.store a bs).images = d.images := rfl
@[simp] theorem Device.store_fabric (d : Device) (a : Nat) (bs : List Byte) : (d.store a bs).fabric = d.fabric := rfl
@[simp] theorem Device.store_net (d : Device) (a : Nat) (bs : List Byte) : (d.store a bs).net = d.net := rfl
@[simp] theorem Device.store_service (d : Device) (a : Nat) (bs : List Byte) : (d.store a bs).service = d.service := rfl
@[simp] theorem Device.store_hostLines (d : Device) (a : Nat) (bs : List Byte) : (d.store a bs).hostLines = d.hostLines := rfl
@[simp] theorem Device.store_outbox (d : Device) (a : Nat) (bs : List Byte) : (d.store a bs).outbox = d.outbox := rfl
@[simp] theorem Device.store_draws (d : Device) (a : Nat) (bs : List Byte) : (d.store a bs).draws = d.draws := rfl
@[simp] theorem Device.store_now (d : Device) (a : Nat) (bs : List Byte) : (d.store a bs).now = d.now := rfl

end Sys2Proof.Machine
end

