-- ==== Sys2Proof/Laws/Memory.lean ====
section
/-! SUPPORT. Lookup after update in tables and in sparse memory; a load after a store; little-endian bytes. That every
memory operation keeps the canonical form stands in Laws/Keeps.lean. -/

namespace Sys2Proof

variable {α : Type}

@[simp] theorem Table.find_nil (q : Nat) : Table.find ([] : Table α) q = none := rfl

@[simp] theorem Table.find_put_self (t : Table α) (k : Nat) (v : α) : Table.find (Table.put t k v) k = some v := by
  induction t with
  | nil => simp [Table.put, Table.find]
  | cons e t ih =>
    obtain ⟨q, x⟩ := e
    unfold Table.put
    split
    · simp [Table.find]
    · split
      · simp [Table.find]
      · rename_i h; simp [Table.find, h, ih]

theorem Table.find_put_ne (t : Table α) {k q : Nat} (v : α) (h : q ≠ k) :
    Table.find (Table.put t k v) q = Table.find t q := by
  induction t with
  | nil => simp [Table.put, Table.find, h]
  | cons e t ih =>
    obtain ⟨r, x⟩ := e
    unfold Table.put
    split
    · simp [Table.find, h]
    · split
      · rename_i hr; subst hr; simp [Table.find, h]
      · simp [Table.find, ih]

theorem Table.find_del_ne (t : Table α) {k q : Nat} (h : q ≠ k) : Table.find (Table.del t k) q = Table.find t q := by
  induction t with
  | nil => rfl
  | cons e t ih =>
    obtain ⟨r, x⟩ := e
    unfold Table.del
    split
    · rename_i hr; subst hr; simp [Table.find, h]
    · simp [Table.find, ih]

theorem Table.find_none_of_lt (t : Table α) (k : Nat) (h : (t.all fun e => decide (k < e.1)) = true) :
    Table.find t k = none := by
  induction t with
  | nil => rfl
  | cons e t ih =>
    obtain ⟨q, x⟩ := e
    simp only [List.all_cons, Bool.and_eq_true, decide_eq_true_eq] at h
    unfold Table.find
    rw [if_neg (by omega), ih h.2]

theorem Table.find_del_self (t : Table α) (k : Nat) (h : Table.rising t = true) : Table.find (Table.del t k) k = none := by
  induction t with
  | nil => rfl
  | cons e t ih =>
    obtain ⟨q, x⟩ := e
    simp only [Table.rising, Bool.and_eq_true] at h
    unfold Table.del
    split
    · rename_i hk; subst hk; exact Table.find_none_of_lt t k h.1
    · rename_i hk; simp [Table.find, hk, ih h.2]

@[simp] theorem Table.find_update_self (t : Table α) (k : Nat) (f : α → α) :
    Table.find (Table.update t k f) k = (Table.find t k).map f := by
  unfold Table.update
  split
  · rename_i h; simp [h]
  · rename_i x h; simp [h]

theorem Table.find_update_ne (t : Table α) {k q : Nat} (f : α → α) (h : q ≠ k) :
    Table.find (Table.update t k f) q = Table.find t q := by
  unfold Table.update
  split
  · rfl
  · exact Table.find_put_ne t _ h

@[simp] theorem Table.find_mapAll {β : Type} (t : Table α) (f : Nat → α → β) (q : Nat) :
    Table.find (Table.mapAll t f) q = (Table.find t q).map (f q) := by
  induction t with
  | nil => rfl
  | cons e t ih =>
    obtain ⟨r, x⟩ := e
    unfold Table.mapAll at ih ⊢
    simp only [List.map_cons, Table.find]
    split
    · rename_i h; subst h; rfl
    · exact ih

/-! ### Sparse words -/

theorem Sparse.get_set_ne {w : Nat} (m : Sparse w) {k q : Nat} (v : BitVec w) (h : q ≠ k) : (m.set k v).get q = m.get q := by
  unfold Sparse.get Sparse.set
  split
  · rw [Table.find_del_ne m h]
  · rw [Table.find_put_ne m v h]

theorem Sparse.get_set_self {w : Nat} (m : Sparse w) (k : Nat) (v : BitVec w) (h : Sparse.wf m = true) :
    (m.set k v).get k = v := by
  unfold Sparse.get Sparse.set
  split
  · rename_i hv
    unfold Sparse.wf at h
    rw [Bool.and_eq_true] at h
    rw [Table.find_del_self m k h.1, hv]; rfl
  · simp

theorem Sparse.get_setMany_outside {w : Nat} (m : Sparse w) (k q : Nat) (vs : List (BitVec w))
    (h : q < k ∨ k + vs.length ≤ q) : (m.setMany k vs).get q = m.get q := by
  induction vs generalizing m k with
  | nil => rfl
  | cons v vs ih =>
    unfold Sparse.setMany
    simp only [List.length_cons] at h
    rw [ih _ _ (by omega), Sparse.get_set_ne m v (by omega)]

theorem Sparse.get_setMany_inside {w : Nat} (m : Sparse w) (k i : Nat) (vs : List (BitVec w)) (hm : Sparse.wf m = true)
    (h : i < vs.length) : (m.setMany k vs).get (k + i) = vs[i] := by
  induction vs generalizing m k i with
  | nil => simp at h
  | cons v vs ih =>
    unfold Sparse.setMany
    cases i with
    | zero => rw [Sparse.get_setMany_outside _ _ _ _ (by omega)]; exact Sparse.get_set_self m k v hm
    | succ i =>
      have := ih (m.set k v) (k + 1) i (Machine.sparse_wf_set k v hm) (by simpa using h)
      rw [show k + 1 + i = k + (i + 1) by omega] at this
      simpa using this

theorem Sparse.getMany_setMany {w : Nat} (m : Sparse w) (k : Nat) (vs : List (BitVec w)) (hm : Sparse.wf m = true) :
    (m.setMany k vs).getMany k vs.length = vs := by
  apply List.ext_getElem
  · simp [Sparse.getMany]
  · intro i h1 h2
    simp only [Sparse.getMany, List.getElem_map, List.getElem_range]
    exact Sparse.get_setMany_inside m k i vs hm h2

/-! ### Little-endian bytes -/

@[simp] theorem leBytes_length (n v : Nat) : (leBytes n v).length = n := by
  induction n generalizing v with
  | zero => rfl
  | succ n ih => simp [leBytes, ih]

theorem leValue_leBytes (n v : Nat) : leValue (leBytes n v) = v % 256 ^ n := by
  induction n generalizing v with
  | zero => simp [leBytes, leValue, Nat.mod_one]
  | succ n ih =>
    simp only [leBytes, leValue, ih, BitVec.toNat_ofNat]
    have h : 256 ^ (n + 1) = 256 * 256 ^ n := by rw [Nat.pow_succ, Nat.mul_comm]
    rw [h, Nat.mod_mul]

namespace Machine

/-! ### Stores -/

/-- A byte outside a store reads as before. -/
theorem Device.load_store_outside (d : Device) (a x : Nat) (bs : List Byte) (h : x < a ∨ a + bs.length ≤ x) :
    (d.store a bs).load x 1 = d.load x 1 := by
  have hl : (storedBytes d.faults.poisoned a bs).length = bs.length := by
    unfold storedBytes
    dsimp only
    split
    · rfl
    · simp
  simp only [Device.load, Device.store, Sparse.getMany, List.range_one, List.map_cons, List.map_nil, Nat.add_zero]
  rw [Sparse.get_setMany_outside _ _ _ _ (by rw [hl]; exact h)]

/-- Stored bytes are stored as given where they touch no poisoned word. -/
theorem storedBytes_clean (poisoned : List Nat) (a : Nat) (bs : List Byte)
    (h : ∀ q ∈ poisoned, q + 8 ≤ a ∨ a + bs.length ≤ q) : storedBytes poisoned a bs = bs := by
  unfold storedBytes
  dsimp only
  rw [if_pos]
  rw [List.isEmpty_iff, List.filter_eq_nil_iff]
  intro q hq
  have := h q hq
  simp
  omega

/-- Stored bytes read back where they touch no poisoned word and memory is in its canonical form. -/
theorem Device.load_store (d : Device) (a : Nat) (bs : List Byte) (hm : Sparse.wf d.mem = true)
    (h : ∀ q ∈ d.faults.poisoned, q + 8 ≤ a ∨ a + bs.length ≤ q) : (d.store a bs).load a bs.length = bs := by
  simp only [Device.load, Device.store, storedBytes_clean _ _ _ h]
  exact Sparse.getMany_setMany d.mem a bs hm

/-! ### Threads -/

@[simp] theorem Device.block_updBlock (d : Device) (b : Nat) (f : Block → Block) :
    (d.updBlock b f).block b = f (d.block b) := by
  simp [Device.block, Device.updBlock, Device.mapFabric]

theorem Device.block_updBlock_ne (d : Device) {b c : Nat} (f : Block → Block) (h : c ≠ b) :
    (d.updBlock b f).block c = d.block c := by
  simp [Device.block, Device.updBlock, Device.mapFabric, Table.find_put_ne _ _ h]

theorem Block.thread_updThread (b : Block) (t : Nat) (f : Thread → Thread) (h : t < b.threads.size) :
    (b.updThread t f).thread t = f (b.thread t) := by
  simp [Block.thread, Block.updThread, h]

theorem Block.thread_updThread_ne (b : Block) {t u : Nat} (f : Thread → Thread) (h : u ≠ t) :
    (b.updThread t f).thread u = b.thread u := by
  simp only [Block.thread, Block.updThread]
  congr 1
  simp [Ne.symm h]

end Machine

end Sys2Proof
end

