-- ==== Sys2Proof/Laws/Time.lean ====
section
/-! SUPPORT. What the passing of time does: where no committed set is due, only the Tally, its slew and the fold meters
move. -/

namespace Sys2Proof.Machine

theorem applyDue_of_quiet {d : Device} {t : Nat} (h : ∀ e ∈ d.committed, t < e.2.instant) (n : Nat) :
    Device.applyDue n t d = d := by
  cases n with
  | zero => rfl
  | succ n =>
    unfold Device.applyDue
    split
    · rfl
    · rename_i e r he
      have := h e (by rw [he]; exact List.mem_cons_self)
      rw [if_neg (by omega)]

/-- With no committed set due, the Tally moves to the instant and nothing else happens. -/
theorem Device.advanceTo_clear {d : Device} {t : Nat} (h : Clear d t) : d.advanceTo t = d.passTo t := by
  unfold Device.advanceTo
  rw [if_pos h.counts, applyDue_of_quiet h.quiet]

@[simp] theorem Device.passTo_now (d : Device) (t : Nat) : (d.passTo t).now = max d.now t := by
  unfold Device.passTo
  split
  · omega
  · show t = _; omega

theorem Device.passTo_of_le {d : Device} {t : Nat} (h : t ≤ d.now) : d.passTo t = d := if_pos h

@[simp] theorem Device.passTo_max (d : Device) (t : Nat) : d.passTo (max d.now t) = d.passTo t := by
  by_cases h : t ≤ d.now
  · rw [Nat.max_eq_left h, Device.passTo_of_le h, Device.passTo_of_le (Nat.le_refl _)]
  · rw [Nat.max_eq_right (by omega)]

/-- What is due at an instant happens there, with no committed set in between. -/
theorem Device.atInstant_clear {d : Device} {t : Nat} (f : Device → Device) (h : Clear d t) :
    d.atInstant t f = f (d.passTo t) := by
  unfold Device.atInstant
  rw [Device.advanceTo_clear h]
  simp only [Device.passTo_now]
  rw [if_pos (by omega)]

/-- A deadline is acted on at its instant with no committed set in between and no earlier arrival still inside the device; the
Tally then stands past it. -/
theorem Device.atDeadline_clear {d : Device} {t : Nat} (f : Device → Device) (h : Decided d t) :
    d.atDeadline t f = (f (d.passTo t)).advanceTo (t + 1) := by
  have hu : (d.passTo t).unseen t = false := by
    rw [← h.seen]
    unfold Device.passTo
    split <;> rfl
  unfold Device.atDeadline Device.watermark
  rw [Device.advanceTo_clear h.clear]
  simp only [Device.passTo_now, hu]
  rw [if_pos ⟨Nat.le_max_right _ _, trivial⟩]

@[simp] theorem Device.passTo_state (d : Device) (t : Nat) : (d.passTo t).state = d.state := by
  unfold Device.passTo; split <;> rfl
@[simp] theorem Device.passTo_stateSince (d : Device) (t : Nat) : (d.passTo t).stateSince = d.stateSince := by
  unfold Device.passTo; split <;> rfl
@[simp] theorem Device.passTo_deviceId (d : Device) (t : Nat) : (d.passTo t).deviceId = d.deviceId := by
  unfold Device.passTo; split <;> rfl
@[simp] theorem Device.passTo_formerIds (d : Device) (t : Nat) : (d.passTo t).formerIds = d.formerIds := by
  unfold Device.passTo; split <;> rfl
@[simp] theorem Device.passTo_boot (d : Device) (t : Nat) : (d.passTo t).boot = d.boot := by
  unfold Device.passTo; split <;> rfl
@[simp] theorem Device.passTo_power (d : Device) (t : Nat) : (d.passTo t).power = d.power := by
  unfold Device.passTo; split <;> rfl
@[simp] theorem Device.passTo_paths (d : Device) (t : Nat) : (d.passTo t).paths = d.paths := by
  unfold Device.passTo; split <;> rfl
@[simp] theorem Device.passTo_own (d : Device) (t : Nat) : (d.passTo t).own = d.own := by
  unfold Device.passTo; split <;> rfl
@[simp] theorem Device.passTo_staging (d : Device) (t : Nat) : (d.passTo t).staging = d.staging := by
  unfold Device.passTo; split <;> rfl
@[simp] theorem Device.passTo_security (d : Device) (t : Nat) : (d.passTo t).security = d.security := by
  unfold Device.passTo; split <;> rfl
@[simp] theorem Device.passTo_faults (d : Device) (t : Nat) : (d.passTo t).faults = d.faults := by
  unfold Device.passTo; split <;> rfl
@[simp] theorem Device.passTo_trace (d : Device) (t : Nat) : (d.passTo t).trace = d.trace := by
  unfold Device.passTo; split <;> rfl
@[simp] theorem Device.passTo_paddocks (d : Device) (t : Nat) : (d.passTo t).paddocks = d.paddocks := by
  unfold Device.passTo; split <;> rfl
@[simp] theorem Device.passTo_images (d : Device) (t : Nat) : (d.passTo t).images = d.images := by
  unfold Device.passTo; split <;> rfl
@[simp] theorem Device.passTo_fabric (d : Device) (t : Nat) : (d.passTo t).fabric = d.fabric := by
  unfold Device.passTo; split <;> rfl
@[simp] theorem Device.passTo_net (d : Device) (t : Nat) : (d.passTo t).net = d.net := by
  unfold Device.passTo; split <;> rfl
@[simp] theorem Device.passTo_mem (d : Device) (t : Nat) : (d.passTo t).mem = d.mem := by
  unfold Device.passTo; split <;> rfl
@[simp] theorem Device.passTo_hostLines (d : Device) (t : Nat) : (d.passTo t).hostLines = d.hostLines := by
  unfold Device.passTo; split <;> rfl
@[simp] theorem Device.passTo_outbox (d : Device) (t : Nat) : (d.passTo t).outbox = d.outbox := by
  unfold Device.passTo; split <;> rfl
@[simp] theorem Device.passTo_draws (d : Device) (t : Nat) : (d.passTo t).draws = d.draws := by
  unfold Device.passTo; split <;> rfl
@[simp] theorem Device.passTo_tally_state (d : Device) (t : Nat) : (d.passTo t).tally.state = d.tally.state := by
  unfold Device.passTo; split <;> rfl
@[simp] theorem Device.passTo_tally_cfg (d : Device) (t : Nat) : (d.passTo t).tally.cfg = d.tally.cfg := by
  unfold Device.passTo; split <;> rfl
@[simp] theorem Device.passTo_tally_actingRoot (d : Device) (t : Nat) : (d.passTo t).tally.actingRoot = d.tally.actingRoot := by
  unfold Device.passTo; split <;> rfl
@[simp] theorem Device.passTo_tally_ppsOut (d : Device) (t : Nat) : (d.passTo t).tally.ppsOut = d.tally.ppsOut := by
  unfold Device.passTo; split <;> rfl
@[simp] theorem Device.passTo_service_loading (d : Device) (t : Nat) : (d.passTo t).service.loading = d.service.loading := by
  unfold Device.passTo; split <;> rfl
@[simp] theorem Device.passTo_service_offers (d : Device) (t : Nat) : (d.passTo t).service.offers = d.service.offers := by
  unfold Device.passTo; split <;> rfl
@[simp] theorem Device.passTo_service_selecting (d : Device) (t : Nat) : (d.passTo t).service.selecting = d.service.selecting := by
  unfold Device.passTo; split <;> rfl
@[simp] theorem Device.passTo_service_serving (d : Device) (t : Nat) : (d.passTo t).service.serving = d.service.serving := by
  unfold Device.passTo; split <;> rfl
@[simp] theorem Device.passTo_service_books (d : Device) (t : Nat) : (d.passTo t).service.books = d.service.books := by
  unfold Device.passTo; split <;> rfl
@[simp] theorem Device.passTo_service_droves (d : Device) (t : Nat) : (d.passTo t).service.droves = d.service.droves := by
  unfold Device.passTo; split <;> rfl
@[simp] theorem Device.passTo_paddock (d : Device) (t p : Nat) : (d.passTo t).paddock p = d.paddock p := by simp [Device.paddock]
@[simp] theorem Device.passTo_occupant (d : Device) (t b : Nat) : (d.passTo t).occupant b = d.occupant b := by simp [Device.occupant]
@[simp] theorem Device.passTo_block (d : Device) (t b : Nat) : (d.passTo t).block b = d.block b := by simp [Device.block]
@[simp] theorem Device.passTo_thread (d : Device) (t b n : Nat) : (d.passTo t).thread b n = d.thread b n := by simp [Device.thread]
@[simp] theorem Device.passTo_conn (d : Device) (t c : Nat) : (d.passTo t).conn c = d.conn c := by simp [Device.conn]
@[simp] theorem Device.passTo_ring (d : Device) (t q : Nat) : (d.passTo t).ring q = d.ring q := by simp [Device.ring]

end Sys2Proof.Machine
end

