-- ==== Sys2Proof/Laws/Mailbox.lean ====
section
/-! SUPPORT. Mailboxes: lookup after update, what a response does, and what an accepted command does. -/

namespace Sys2Proof.Machine

/-! ### Mailboxes, kept lists and pages -/

@[simp] theorem ControlPaths.box_setBox (c : ControlPaths) (p : Path) (m : Mailbox) : (c.setBox p m).box p = m := by
  cases p with
  | host i => exact Vector.getElem_set_self i.isLt
  | fabric i => exact Vector.getElem_set_self i.isLt
  | board => rfl

theorem ControlPaths.box_setBox_ne (c : ControlPaths) {p q : Path} (m : Mailbox) (h : q ≠ p) :
    (c.setBox p m).box q = c.box q := by
  cases p with
  | host i =>
    cases q with
    | host j => exact Vector.getElem_set_ne i.isLt j.isLt fun e => h (congrArg Path.host (Fin.ext e.symm))
    | fabric _ => rfl
    | board => rfl
  | fabric i =>
    cases q with
    | fabric j => exact Vector.getElem_set_ne i.isLt j.isLt fun e => h (congrArg Path.fabric (Fin.ext e.symm))
    | host _ => rfl
    | board => rfl
  | board =>
    cases q with
    | board => exact absurd rfl h
    | host _ => rfl
    | fabric _ => rfl

@[simp] theorem ControlPaths.kept_setBox (c : ControlPaths) (p : Path) (m : Mailbox) (k : Master) :
    (c.setBox p m).kept k = c.kept k := by cases p <;> cases k <;> rfl
@[simp] theorem ControlPaths.page_setBox (c : ControlPaths) (p : Path) (m : Mailbox) (k : Master) :
    (c.setBox p m).page k = c.page k := by cases p <;> cases k <;> rfl
@[simp] theorem ControlPaths.box_setKept (c : ControlPaths) (k : Master) (l : List KeptCommand) (p : Path) :
    (c.setKept k l).box p = c.box p := by cases p <;> cases k <;> rfl
@[simp] theorem ControlPaths.page_setKept (c : ControlPaths) (k m : Master) (l : List KeptCommand) :
    (c.setKept k l).page m = c.page m := by cases m <;> cases k <;> rfl
@[simp] theorem ControlPaths.kept_setKept (c : ControlPaths) (k : Master) (l : List KeptCommand) :
    (c.setKept k l).kept k = l := by cases k <;> rfl
theorem ControlPaths.kept_setKept_ne (c : ControlPaths) {k m : Master} (l : List KeptCommand) (h : m ≠ k) :
    (c.setKept k l).kept m = c.kept m := by
  cases k <;> cases m <;> first | rfl | exact absurd rfl h

@[simp] theorem Device.box_updBox (d : Device) (p : Path) (f : Mailbox → Mailbox) :
    (d.updBox p f).paths.box p = f (d.paths.box p) := by simp [Device.updBox]
theorem Device.box_updBox_ne (d : Device) {p q : Path} (f : Mailbox → Mailbox) (h : q ≠ p) :
    (d.updBox p f).paths.box q = d.paths.box q := by simp [Device.updBox, ControlPaths.box_setBox_ne _ _ h]
@[simp] theorem Device.kept_updBox (d : Device) (p : Path) (f : Mailbox → Mailbox) (k : Master) :
    (d.updBox p f).paths.kept k = d.paths.kept k := by simp [Device.updBox]
@[simp] theorem Device.page_updBox (d : Device) (p : Path) (f : Mailbox → Mailbox) (k : Master) :
    (d.updBox p f).paths.page k = d.paths.page k := by simp [Device.updBox]

/-! ### A response -/

theorem Device.signalDone_paths (d : Device) (m : Master) : (d.signalDone m).paths = d.paths := by
  unfold Device.signalDone; dsimp only; repeat' split
  all_goals rfl
theorem Device.signalDone_own (d : Device) (m : Master) : (d.signalDone m).own = d.own := by
  unfold Device.signalDone; dsimp only; repeat' split
  all_goals rfl
theorem Device.signalDone_staging (d : Device) (m : Master) : (d.signalDone m).staging = d.staging := by
  unfold Device.signalDone; dsimp only; repeat' split
  all_goals rfl
theorem Device.signalDone_mem (d : Device) (m : Master) : (d.signalDone m).mem = d.mem := by
  unfold Device.signalDone; dsimp only; repeat' split
  all_goals rfl

/-! ### Headers -/

@[simp] theorem cmdHeader_length (c : Cmd) (op : Nat) : (cmdHeader c op).length = 32 := by simp [cmdHeader]

theorem padTo_self (n : Nat) (bs : List Byte) (h : bs.length = n) : padTo n bs = bs := by
  unfold padTo
  rw [List.take_of_length_le (by omega), show n - bs.length = 0 by omega]
  simp [zeros]

theorem header_of_cmd (c : Cmd) (op : Nat) (rest : List Byte) :
    padTo 32 ((cmdHeader c op ++ rest).take 32) = cmdHeader c op := by
  rw [List.take_left' (cmdHeader_length c op)]
  exact padTo_self 32 _ (cmdHeader_length c op)

theorem leBytes_two (v : Nat) : leBytes 2 v = [BitVec.ofNat 8 v, BitVec.ofNat 8 (v / 256)] := rfl
theorem leBytes_four (v : Nat) : leBytes 4 v =
    [BitVec.ofNat 8 v, BitVec.ofNat 8 (v / 256), BitVec.ofNat 8 (v / 256 / 256), BitVec.ofNat 8 (v / 256 / 256 / 256)] := rfl

theorem header_sequence (c : Cmd) (op : Nat) : fieldU32 (cmdHeader c op) 4 = c.sequence.toNat := by
  have h : bytesAt (cmdHeader c op) 4 4 = leBytes 4 c.sequence.toNat := rfl
  unfold fieldU32
  rw [h, leValue_leBytes]
  exact Nat.mod_eq_of_lt (by have := c.sequence.isLt; omega)

theorem header_payloadLength (c : Cmd) (op : Nat) : fieldU32 (cmdHeader c op) 8 = c.payloadLength.toNat := by
  have h : bytesAt (cmdHeader c op) 8 4 = leBytes 4 c.payloadLength.toNat := rfl
  unfold fieldU32
  rw [h, leValue_leBytes]
  exact Nat.mod_eq_of_lt (by have := c.payloadLength.isLt; omega)

/-! ### An accepted command -/

/-- A command that is accepted and passes steps 1 to 6 for its header is left to its own checks and effect. -/
theorem Device.runRow_accepted {s : State} {op : Nat} {k : Kind} {c : Cmd} (h : Accepted s op k c) :
    s.dev.runRow k op c = (s.dev.takes c op).finishCall k op (callOf c op) := by
  have hf : (pathMaster c.path == Master.fabric && s.dev.security.bound.isNone) = false := by
    cases hm : pathMaster c.path
    · rfl
    · have := h.bound hm
      cases hb : s.dev.security.bound
      · rw [hb] at this; cases this
      · rfl
    · rfl
  have hrow : s.dev.runRow k op c = (s.dev.takes c op).execute k op c.path := by
    unfold Device.runRow
    simp only [hf, h.idle, h.served, if_true]
    rfl
  have hseq : ∀ x ∈ (s.dev.takes c op).paths.kept (pathMaster c.path),
      fieldU32 x.header 4 ≠ fieldU32 (cmdHeader c op) 4 := by rw [header_sequence]; exact h.fresh
  have hkept : (s.dev.takes c op).keptFor (pathMaster c.path) (cmdHeader c op) = none := by
    unfold Device.keptFor
    rw [List.find?_eq_none]
    intro x hx hh
    exact hseq x hx (by rw [of_decide_eq_true hh])
  have hany : ((s.dev.takes c op).paths.kept (pathMaster c.path)).any
      (fun x => decide (fieldU32 x.header 4 = fieldU32 (cmdHeader c op) 4)) = false := by
    rw [List.any_eq_false]
    intro x hx
    simpa using hseq x hx
  have hdrop : (cmdHeader c op ++ c.payload).drop 32 = c.payload := List.drop_left' (cmdHeader_length c op)
  have hdefer : (s.dev.takes c op).defersRight k c.path (cmdHeader c op) = false := by
    unfold Device.defersRight
    rw [h.inlined]
    split <;> simp
  have hexec : (s.dev.takes c op).execute k op c.path = (s.dev.takes c op).executeCall k op c.path := by
    unfold Device.execute
    simp only [h.held, header_of_cmd, hkept, hany]
    rfl
  have hright := h.right
  unfold callOf at hright
  rw [hrow, hexec]
  unfold Device.executeCall
  simp only [h.held, header_of_cmd, hdrop, header_payloadLength, h.state, hdefer]
  simp only [Bool.false_eq_true, if_false, hright, List.cons_append, List.nil_append, h.header, h.deadline, h.length, firstFail,
    h.inlined]
  rfl

/-- An immediate command that passes its checks has its effect. -/
theorem Device.runRow_runs {s : State} {op : Nat} {m : Immediate} {c : Cmd} (h : Runs s op m c) :
    s.dev.runRow (.immediate m) op c = m.run (s.dev.takes c op) (callOf c op) := by
  rw [Device.runRow_accepted h.accepted]
  unfold Device.finishCall
  simp only [h.checks]

end Sys2Proof.Machine
end

