-- ==== Sys2Proof/Laws/Issue.lean ====
section
/-! SUPPORT. What a sequencer row does where its instruction issues, and how an instruction completes. -/

namespace Sys2Proof.Machine

/-- A thread that has its turn changes no thread. -/
@[simp] theorem Device.thread_takeTurn (d : Device) (p b t c op : Nat) (w : IWord) (e u : Nat) :
    (d.takeTurn p b t c op w).thread e u = d.thread e u := by
  unfold Device.takeTurn Device.thread
  by_cases h : e = b
  · subst h
    rw [Device.block_updBlock]
    rfl
  · rw [Device.block_updBlock_ne _ _ h]

/-- In its turn an instruction with no ILLEGAL condition has its effect on the state in which it has its turn. -/
theorem Device.issue_run {s0 s : State} {t : ThreadId} {op : Nat} {w : IWord} {p c : Nat} (h : Issues s0 t op w p c s)
    (run : Issue → Device → Device) : s0.dev.issue t op w run = run (issueOf t p c op w) s.dev := by
  have hs := h.has.state
  have hp := h.pc
  have hw := h.has.word
  have hn : s0.dev.isNext t.block.val t.thread.val op w = true := by
    unfold Device.isNext
    simp [hw.1]
  have ht : (s0.dev.thread t.block.val t.thread.val).mayIssue = true := h.has.may
  have hpc : ¬ 8192 ≤ ((s0.atCclk p t.block.val).thread t.block.val t.thread.val).pc := by
    rw [hs] at hp
    exact Nat.not_le.2 (by simpa [State.threadOf, State.on] using hp)
  unfold Device.issue
  dsimp only
  rw [h.has.paddock.1]
  dsimp only
  rw [ht, hn]
  simp only [Bool.and_self, if_true]
  have hq := h.has.paddock.2
  have hc := h.has.turn
  unfold State.atCclk at hq hc hpc hw hs
  rw [if_neg (by rw [hq]; simp)]
  rw [hc]
  dsimp only
  unfold Device.issueIn
  dsimp only
  rw [if_neg hpc, hw.2]
  dsimp only
  rw [h.legal, hs]
  rfl

/-- A thread of the device after one has changed. -/
theorem Device.thread_updThread (d : Device) {b t : Nat} (f : Thread → Thread) (h : t < 16) :
    (d.updThread b t f).thread b t = f (d.thread b t) := by
  unfold Device.thread Device.updThread
  rw [Device.block_updBlock]
  exact Block.thread_updThread _ t f h

theorem Device.thread_updThread_ne (d : Device) {b t c u : Nat} (f : Thread → Thread) (h : (c, u) ≠ (b, t)) :
    (d.updThread b t f).thread c u = d.thread c u := by
  unfold Device.thread Device.updThread
  by_cases hb : c = b
  · subst hb
    rw [Device.block_updBlock]
    exact Block.thread_updThread_ne _ f fun e => h (by rw [e])
  · rw [Device.block_updBlock_ne _ _ hb]

/-- An instruction with a next one in the store completes with its thread changed and nothing else. -/
theorem Device.complete_of (d : Device) (i : Issue) (f : Thread → Thread) (ht : i.thread < 16) (hp : (d.self i).pc < 8191) :
    d.complete i f =
      d.updThread i.block i.thread fun t => { f t with pc := t.pc + 1, state := .ready, waits := .nothing } := by
  unfold Device.complete Device.pastEnd
  rw [if_pos]
  show ((Device.updThread d i.block i.thread _).thread i.block i.thread).pc < 8192
  rw [Device.thread_updThread d _ ht]
  show (d.thread i.block i.thread).pc + 1 < 8192
  have : (d.thread i.block i.thread).pc < 8191 := hp
  omega

/-- At the last PC of the store an instruction that completes leaves its thread past the end, and ADDRESS is raised. -/
theorem Device.complete_last (d : Device) (i : Issue) (f : Thread → Thread) (ht : i.thread < 16) (hp : (d.self i).pc = 8191) :
    d.complete i f =
      (d.updThread i.block i.thread fun t => { f t with pc := t.pc + 1, state := .ready, waits := .nothing }).exception i 8191
        i.op exAddress := by
  unfold Device.complete Device.pastEnd
  rw [if_neg]
  show ¬ ((Device.updThread d i.block i.thread _).thread i.block i.thread).pc < 8192
  rw [Device.thread_updThread d _ ht]
  show ¬ (d.thread i.block i.thread).pc + 1 < 8192
  have : (d.thread i.block i.thread).pc = 8191 := hp
  omega

/-- Conditions that do not apply let the instruction go on. -/
theorem Device.guarded_none {d : Device} {i : Issue} {cs : List (Bool × Nat)} {run : Device → Device}
    (h : ∀ e ∈ cs, e.1 = false) : d.guarded i cs run = run d := by
  unfold Device.guarded
  rw [List.find?_eq_none.2 fun e he => by rw [h e he]; exact Bool.false_ne_true]

/-- Bytes that are readable at once are handed on as they stand. -/
theorem Device.withBuffer_readable {s : State} {t : ThreadId} {p off n op c : Nat} {w : IWord} (h : Readable s t p off n)
    (run : List Byte → Device → Device) :
    s.dev.withBuffer (issueOf t p c op w) off n run = run (s.buffer t off n) s.dev := by
  unfold Device.withBuffer
  have hc : s.dev.checkedRead (bufferAddr (issueOf t p c op w).block off) n (s.dev.sourceOf (issueOf t p c op w))
      (issueOf t p c op w).paddock = (s.dev, none) := h.clean
  rw [hc]
  dsimp only
  unfold Device.readBuffer
  have hq : ((s.dev.arriving (issueOf t p c op w).block).filter fun r => decide (r.1 < off + n ∧ off < r.1 + r.2)) = [] := h.quiet
  rw [hq]
  rfl

/-- A row whose instruction issues changes the device alone, as its meaning does from the state of its turn. -/
theorem State.issue_is {s0 s : State} {t : ThreadId} {op : Nat} {w : IWord} {p c : Nat} (h : Issues s0 t op w p c s)
    {run : Issue → Device → Device} {d : Device} (hr : run (issueOf t p c op w) s.dev = d) :
    s0.on (·.issue t op w run) = s.on fun _ => d := by
  have hs := h.has.state
  unfold State.on
  dsimp only
  rw [Device.issue_run h, hr, hs]
  rfl

/-- A row whose meaning only completes its instruction. -/
theorem State.issue_completes {s0 s : State} {t : ThreadId} {op : Nat} {w : IWord} {p c : Nat} (h : Proceeds s0 t op w p c s)
    {run : Issue → Device → Device} {f : Thread → Thread}
    (hr : run (issueOf t p c op w) s.dev = s.dev.complete (issueOf t p c op w) f) :
    s0.on (·.issue t op w run) = s.completes t f := by
  rw [State.issue_is h.issues hr, Device.complete_of s.dev (issueOf t p c op w) f t.thread.isLt h.next]
  rfl

end Sys2Proof.Machine
end

