-- ==== Sys2Proof/Laws/Rings.lean ====
section
/-! SUPPORT. What a descriptor row does where its descriptor is taken, and where its ring stands empty. -/

namespace Sys2Proof.Machine

/-- A ring without a head drops nothing. -/
theorem Device.dropUnknown_empty {d : Device} {q : Nat} {r : Ring} (hr : d.ring q = some r) (hh : d.headOf r = none) (n : Nat) :
    Device.dropUnknown n q d = d := by
  cases n with
  | zero => rfl
  | succ n => simp only [Device.dropUnknown, hr, hh]

/-- A head of a known type stays. -/
theorem Device.dropUnknown_known {d : Device} {q : Nat} {r : Ring} {bs : List Byte} (hr : d.ring q = some r)
    (hh : d.headOf r = some bs) (hk : knownType (fieldU8 bs 0) = true) (n : Nat) : Device.dropUnknown n q d = d := by
  cases n with
  | zero => rfl
  | succ n => simp [Device.dropUnknown, hr, hh, hk]

/-- The first byte of a row's descriptor is its type. -/
theorem rowBytes_type {k : DescKind} (x : Desc) (h : k.type < 256) : fieldU8 (rowBytes k x) 0 = k.type := by
  have : bytesAt (rowBytes k x) 0 1 = [BitVec.ofNat 8 k.type] := rfl
  simp [fieldU8, this, leValue, BitVec.toNat_ofNat, Nat.mod_eq_of_lt h]

/-- A descriptor that is taken and passes its checks starts. -/
theorem Device.runDescriptor_taken {s : State} {x : Desc} {k : DescKind} {r : Ring} (h : Taken s x k r) (hb : k.type < 256)
    (hk : knownType k.type = true) :
    s.dev.runDescriptor k x = Device.dropUnknown 65536 x.ring.val (k.run (s.taken x k r) (jobOf x k r)) := by
  have ht := rowBytes_type x hb
  have hd := Device.dropUnknown_known h.ring h.head (by rw [ht]; exact hk) 65536
  have hs := h.sound
  have hc := h.checks
  unfold State.taken jobOf at hc
  unfold State.taken at hs
  have go : s.dev.takeChecked k (jobOf x k r) (r.base + 64 * (r.taken % max r.entries 1)) r =
      k.run (s.taken x k r) (jobOf x k r) := by
    unfold Device.takeChecked jobOf State.taken
    dsimp only
    rw [h.slot]
    simp only [hs, h.header, hc]
  unfold Device.runDescriptor
  simp only [hd, h.ring, h.head, if_true]
  congr 1
  unfold Device.takeDescriptor
  simp only [h.ring, h.head, ht, h.may, h.mapped, ne_eq, not_true_eq_false, Bool.true_eq_false, or_self, if_false]
  split
  · rename_i c hconn
    rw [if_neg (by rw [h.cached c hconn]; decide)]
    exact go
  · exact go

/-- A descriptor row whose descriptor is taken. -/
theorem State.descriptor_is {s : State} {x : Desc} {k : DescKind} {r : Ring} (h : Taken s x k r) (hb : k.type < 256)
    (hk : knownType k.type = true) :
    s.on (·.runDescriptor k x) = s.goesOn x (k.run (s.taken x k r) (jobOf x k r)) := by
  unfold State.goesOn State.on
  dsimp only
  rw [Device.runDescriptor_taken h hb hk]

/-- A row on an empty LIVE ring posts its descriptor. -/
theorem State.descriptor_posted {s : State} {x : Desc} {r : Ring} (k : DescKind) (hr : s.dev.ring x.ring.val = some r)
    (hl : r.state = .live) (hh : s.dev.headOf r = none) :
    s.on (·.runDescriptor k x) = s.goesOn x
      (((s.dev.store (r.base + 64 * (r.taken % max r.entries 1)) (rowBytes k x)).updRing x.ring.val fun q =>
        { q with produced := (q.taken + 1) % 2 ^ 32 }).takeDescriptor k x.ring.val) := by
  unfold State.goesOn State.on Device.runDescriptor
  simp only [Device.dropUnknown_empty hr hh 65536, hr, hh, hl, if_true]

end Sys2Proof.Machine
end

