-- ==== Sys2Proof/Laws/Frames.lean ====
section
/-! SUPPORT. What a frame that arrives does: dropped frames, frames of a connection, and packets that are new. -/

namespace Sys2Proof.Machine

/-- A frame that arrives and is neither a sync frame nor a note goes to its connection. -/
theorem Device.receive_comes {s : State} {link : Fin 64} {op : Nat} {f : Frame} {c : Conn} (h : Comes s link op f c)
    (h20 : op ≠ 0x20) (h24 : op ≠ 0x24) : s.dev.receive link op f =
      if sequenced op then (s.headed link op f).takeSequenced f.conn.toNat (s.arrived link op f)
      else (s.headed link op f).takeUnsequenced f.conn.toNat (s.arrived link op f) := by
  have hm := h.arrives.mine
  have hc := h.conn
  unfold State.received at hm hc
  have hl : (c.state = .open ∨ c.state = .closing) ∧ c.gen = f.gen.toNat := ⟨h.live, h.gen⟩
  unfold Device.receive
  dsimp only
  rw [if_neg (fun e => e h.arrives.up)]
  simp only [h.arrives.fits, hm, Bool.not_true, Bool.false_eq_true, if_false, h20, h24, hc, h.cached, if_true]
  unfold Device.takeFrame
  simp only [hc, hl, and_self, if_true]
  rw [if_neg]
  · rfl
  · rintro ⟨h1, h2⟩
    have := h.manager h1
    unfold State.received at this
    rw [this] at h2
    exact absurd h2 (by decide)

/-- A new sequenced packet that meets no refusal is accepted. -/
theorem Device.receive_fresh {s : State} {link : Fin 64} {op : Nat} {f : Frame} {c : Conn} (h : Fresh s link op f c)
    (hq : sequenced op = true) (h20 : op ≠ 0x20) (h24 : op ≠ 0x24) : s.dev.receive link op f =
      ((((s.seen link op f c).acceptPacket f.conn.toNat c (s.arrived link op f) (wirePsn c.rxNext f.psn.toNat)).noteArrival
        f.conn.toNat (s.arrived link op f) (c.gapBelow (wirePsn c.rxNext f.psn.toNat))).streamPlaced f.conn.toNat) := by
  obtain ⟨c0, h0⟩ := h.comes
  rw [Device.receive_comes h0 h20 h24, if_pos hq]
  have hs : (s.arrived link op f).frame = f := rfl
  have hn : ¬ (wirePsn c.rxNext f.psn.toNat < c.rxNext ∨ c.rxSeen.contains (wirePsn c.rxNext f.psn.toNat) = true) := by
    rintro (h1 | h1)
    · exact absurd h.new.1 (by omega)
    · rw [h.new.2] at h1; cases h1
  have hg : ¬ c.rxNext + 256 ≤ wirePsn c.rxNext f.psn.toNat := Nat.not_le.2 h.near
  unfold Device.takeSequenced
  simp only [h.conn, hs, hn, if_false, hg, h.sound, ne_eq, not_true_eq_false]
  rfl

/-- A frame row whose packet is accepted. -/
theorem State.frame_is {s : State} {link : Fin 64} {op : Nat} {f : Frame} {c : Conn} (h : Fresh s link op f c)
    (hq : sequenced op = true) (h20 : op ≠ 0x20) (h24 : op ≠ 0x24) :
    s.on (·.receive link op f) = s.streamed link op f c
      ((s.seen link op f c).acceptPacket f.conn.toNat c (s.arrived link op f) (wirePsn c.rxNext f.psn.toNat)) := by
  unfold State.streamed State.on
  dsimp only
  rw [Device.receive_fresh h hq h20 h24]

/-- A link that is not UP takes no frame. -/
theorem Device.receive_down {s : State} {link : Fin 64} {op : Nat} {f : Frame} (h : (s.dev.link link.val).state ≠ .up) :
    s.dev.receive link op f = s.dev := by
  unfold Device.receive
  rw [if_pos h]

/-- A frame of a wrong form is counted as bad. -/
theorem Device.receive_bad {s : State} {link : Fin 64} {op : Nat} {f : Frame} (h : (s.dev.link link.val).state = .up)
    (hf : frameFits op f = false) : s.dev.receive link op f = (s.received link op f).countLink link.val 4 := by
  unfold Device.receive
  simp only [h, not_true_eq_false, ne_eq, if_false, hf]
  rfl

/-- A frame for another device is counted as misaddressed. -/
theorem Device.receive_astray {s : State} {link : Fin 64} {op : Nat} {f : Frame} (h : (s.dev.link link.val).state = .up)
    (hf : frameFits op f = true) (hm : (s.received link op f).addressed op f s.dev.now = false) :
    s.dev.receive link op f = (s.received link op f).countLink link.val 5 := by
  unfold State.received at hm
  unfold Device.receive
  simp only [h, not_true_eq_false, ne_eq, if_false, hf, Bool.not_true, Bool.false_eq_true, hm]
  rfl

end Sys2Proof.Machine
end

