-- ==== Sys2Proof/Laws/Streams.lean ====
section
/-! SUPPORT. What reading an operand stream of bales leaves as it was: the fabric, with every thread and register. -/

namespace Sys2Proof.Machine

/-- A fault record touches no block. -/
theorem Device.record_fabric (d : Device) (r : Report) (stamp : Option Nat) : (d.record r stamp).fabric = d.fabric := by
  unfold Device.record Device.recordBytes Device.mirrorRecord
  dsimp only
  repeat' split
  all_goals rfl

/-- Judging a bale touches no block. -/
theorem Device.judgeBale_fabric (d : Device) (p source tensor addr code : Nat) :
    (d.judgeBale p source tensor addr code).1.fabric = d.fabric := by
  unfold Device.judgeBale
  dsimp only
  repeat' split
  all_goals first | rfl | exact Device.record_fabric _ _ _

/-- A checked read touches no block. -/
theorem Device.checkedRead_fabric (d : Device) (a n source p : Nat) : (d.checkedRead a n source p).1.fabric = d.fabric := by
  unfold Device.checkedRead
  dsimp only
  repeat' split
  all_goals first | rfl | exact Device.record_fabric _ _ _

/-- Reading the buffer touches no block. -/
theorem Device.readBuffer_fabric (d : Device) (b off n : Nat) : (d.readBuffer b off n).2.fabric = d.fabric := by
  unfold Device.readBuffer
  dsimp only
  split <;> rfl

/-- Expanding one bale touches no block. -/
theorem Device.expandOne_fabric (d : Device) (i : Issue) (b : Binding) (off : Nat) :
    (d.expandOne i b off).1.fabric = d.fabric := by
  unfold Device.expandOne Device.expandBytes
  dsimp only
  repeat' split
  all_goals simp only [Device.judgeBale_fabric, Device.readBuffer_fabric, Device.checkedRead_fabric]

/-- Expanding the bales of an operand touches no block. -/
theorem Device.expandRun_fabric (i : Issue) (b : Binding) (n : Nat) :
    ∀ (d : Device) (off : Nat) (acc : List Byte), (d.expandRun i b off n acc).1.fabric = d.fabric := by
  induction n with
  | zero => intro d off acc; rfl
  | succ n ih =>
    intro d off acc
    simp only [Device.expandRun]
    split
    · exact Device.expandOne_fabric _ _ _ _
    · rw [ih]
      exact Device.expandOne_fabric _ _ _ _

/-- An operand stream that is readable, or that expands without failure, is what the instruction goes on with. -/
theorem State.withStream_is {s : State} {t : ThreadId} {p op off n c : Nat} {w : IWord}
    (hread : s.operandBinding t p op w = none → Readable s t p off n)
    (hok : (s.operandStream t p c op w off n).2.1 = none) (run : List Byte → Device → Device) :
    s.dev.withStream (issueOf t p c op w) (s.operandBinding t p op w) off n run =
      run (s.operandStream t p c op w off n).2.2 (s.operandStream t p c op w off n).1 := by
  unfold State.operandStream at *
  generalize s.operandBinding t p op w = b at *
  cases b with
  | none => exact Device.withBuffer_readable (hread rfl) run
  | some b =>
    dsimp only at hok ⊢
    unfold Device.withStream
    dsimp only
    rw [hok]

end Sys2Proof.Machine
end

