-- ==== Sys2Proof/WellFormed.lean ====
section
/-! DEFINITION. Which commands are well formed: the operands that the types leave wider than the spec's encodings. What a
well-formed command may still have wrong (a reserved field, a wrong length field) is the command's own business: its
meaning answers it as the spec says. -/

namespace Sys2Proof

/-- Payload bytes the mailbox of a path has room for behind the header (R72). -/
def Path.room : Path → Nat
  | .host _ => 2016
  | .fabric _ => 8160
  | .board => 224

/-- The command's bytes fit its mailbox (R72, R80). -/
def Cmd.wellFormed (c : Cmd) : Bool := decide (c.payload.length ≤ c.path.room)

/-- A descriptor has 64 bytes (R328). -/
def Desc.wellFormed (d : Desc) : Bool := decide (d.bytes.length = 63)

/-- A frame fits the MTU of its port (R309). -/
def Frame.wellFormed (f : Frame) : Bool := decide (f.ext.length + f.payload.length ≤ 9216)

/-- Bytes of a host access. -/
def HostAccess.bytes (x : HostAccess) : Nat := if x.store then x.data.length else x.size

/-- A host access has 1, 2, 4, 8 or 64 bytes, naturally aligned (R174, R442). -/
def HostAccess.wellFormed (x : HostAccess) : Bool :=
  decide (x.bytes ∈ [1, 2, 4, 8, 64]) && decide (x.address.toNat % x.bytes = 0)

/-- A measurement has the currents of eight rail groups and the readings of 32 dies (R475, R497). -/
def PowerReading.wellFormed (r : PowerReading) : Bool := decide (r.groups.length = 8 ∧ r.tj.length = 32)

/-- A transfer to a control page has at least one byte and no more than the page (R514). -/
def pageBytesFit (bytes : List Byte) : Bool := decide (1 ≤ bytes.length ∧ bytes.length ≤ 65536)

/-- The command is well formed. -/
def Instr.wellFormed : Instr → Bool
  | .identify c | .mbxNext c | .deviceIdSet c | .ownClaim c | .ownRenew c | .ownRelease c | .ownHandover c
  | .ownAccept c | .ownStatus c | .ownFabricBind c | .stageOpen c | .stageCheck c | .stageCommit c
  | .stageAbort c | .stageStatus c | .paddockCreate c | .paddockDestroy c | .paddockModify c
  | .paddockWindowSet c | .paddockPreempt c | .paddockResume c | .paddockStatus c | .imageRegister c
  | .imageInfo c | .imageRetire c | .foldJoin c | .foldLeave c | .foldMapSet c | .foldStatus c | .foldMeter c
  | .queueCreate c | .queueDestroy c | .queueStatus c | .connOpen c | .connClose c | .connStatus c
  | .exposeCreate c | .exposeRevoke c | .exposeStatus c | .portConfig c | .portStatus c | .trafficClassSet c
  | .trafficPolicerSet c | .trafficShaperSet c | .trafficGateList c | .trafficOverheadSet c | .trafficStatus c
  | .droveConfig c | .droveStatus c | .prefixConfig c | .prefixStatus c | .baleCodebookLoad c
  | .baleCodebookBuild c | .baleCodebookStatus c | .baleTensorSet c | .serveConfig c | .serveMaskLoad c
  | .serveMaskRetire c | .serveStatus c | .bellRead c | .hurdleRead c | .faultRingSet c | .faultRead c
  | .faultClear c | .faultInject c | .attestReport c | .attestCerts c | .worldSet c | .worldStatus c
  | .powerStateSet c | .powerLimitSet c | .powerStatus c | .clockRegionSet c | .clockStatus c
  | .clockTallyConfig c | .clockTallyStatus c | .fwInfo c | .fwWrite c | .fwActivate c | .traceConfig c
  | .traceRead c =>
    c.wellFormed
  | .nopDescriptor d | .writeDescriptor d | .readDescriptor d | .atomicDescriptor d | .sendDescriptor d
  | .recv d | .wait d | .imageLoad d | .droveCreate d | .droveOffer d | .drovePull d | .droveRelease d
  | .prefixLookup d | .prefixInsert d | .prefixUnpin d | .prefixEvict d | .tierMove d | .pageSelect d | .step d =>
    d.wellFormed
  | .write _ f | .writeFlag _ f | .readReq _ f | .readResp _ f | .atomic _ f | .atomicResp _ f | .send _ f
  | .ack _ f | .nak _ f | .syncReq _ f | .syncResp _ f | .mgmtCmd _ f | .peerNote _ f | .pullPages _ f
  | .pagesHeld _ f | .pullRecord _ f | .record _ f | .confirm _ f | .released _ f | .abort _ f | .refuse _ f
  | .retag _ f | .retagDone _ f | .releasePages _ f | .releaseDone _ f =>
    f.wellFormed
  | .registerWrite _ _ bytes => pageBytesFit bytes
  | .hostAccess _ x => x.wellFormed
  | .powerMeasurement r => r.wellFormed
  | .stepStart _ | .stepMask _ | .stepSample _ | .stepDeadline _ | .nop _ _ | .halt _ _ | .jump _ _ | .beq _ _
  | .bne _ _ | .blt _ _ | .bge _ _ | .bltu _ _ | .bgeu _ _ | .call _ _ | .jumpr _ _ | .yield _ _
  | .slotwait _ _ | .slotCounterMatch _ | .tstart _ _ | .add _ _ | .sub _ _ | .and _ _ | .or _ _ | .xor _ _
  | .sll _ _ | .srl _ _ | .sra _ _ | .mul _ _ | .mulhu _ _ | .min _ _ | .max _ _ | .slt _ _ | .sltu _ _
  | .addi _ _ | .andi _ _ | .ori _ _ | .xori _ _ | .slli _ _ | .srli _ _ | .srai _ _ | .lih _ _ | .ld _ _
  | .st _ _ | .mloadw _ _ | .mmac _ _ | .mdrain _ _ | .mzero _ _ | .vld _ _ | .vst _ _ | .vadd _ _ | .vsub _ _
  | .vmul _ _ | .vfma _ _ | .vmax _ _ | .vmin _ _ | .vexp2 _ _ | .vrcp _ _ | .vrsqrt _ _ | .vlog2 _ _
  | .vbcast _ _ | .vredmax _ _ | .vredsum _ _ | .vmovs _ _ | .vcvt _ _ | .vqmx _ _ | .vunpk _ _ | .bsetx _ _
  | .bload _ _ | .bstore _ _ | .bexpand _ _ | .bcopy _ _ | .baleTransferDone _ _ | .amax _ _ | .aexp _ _
  | .aresc _ _ | .amerge _ _ | .abias _ _ | .rload _ _ | .rstore _ _ | .rflag _ _ | .ratom _ _ | .rput _ _
  | .rget _ _ | .remoteLoadBound | .bring _ _ | .bwait _ _ | .bellWaitTimeout _ | .btry _ _ | .bread _ _
  | .harrive _ _ | .hwait _ _ | .hpass _ _ | .hurdleArrival | .wwait _ _ | .wleft _ _ | .rdstat _ _
  | .clrstat _ _ | .vseed _ _ | .rdtally _ _ | .rdid _ _ | .rdslot _ _ | .blockFrameStart _
  | .edgeWindowOpen _ _ | .drovePullDeadline _ | .contextFetchDone | .retransmissionTimer _ | .ackTimer _
  | .nakResend _ | .connGiveUp _ | .revocationGraceEnd _ | .foldDrainEnd _ | .linkSelect _ | .gateEntryChange _
  | .mbxDoorbell _ _ | .mbxDone _ _ | .mbxIrq _ _ | .bellRing _ _ | .ringDoorbell _ _ _
  | .stgRegisterWrite _ _ _ | .stageApply | .leaseExpiry | .claimWindowEnd | .handoverOfferLapse | .syncBurst
  | .holdoverLimit | .laneClockLoss | .tallyPpsIn | .ppsEdgeMissed | .tallyPpsOut | .paddockWork _
  | .sliceExpiry _ | .preemptionEscalation _ | .preemptStopped _ | .saveDone _ | .restoreDone _
  | .paddockRunning _ | .imageLoadSwitch _ | .codebookBuildDone _ _ | .detectedErrorRetry _ _
  | .stileFlitReplay _ _ | .lockstepMismatch _ | .peerNoteCopy | .aoclkTrim _ | .blockSleep _ | .blockWake _
  | .standbyWake | .pwrGoodRise | .coldBoot _ | .pwrGoodFall | .resetNLow | .resetNHigh | .warmReset _
  | .restartReset | .ref25Loss | .ref25Stable | .netrefLoss _ | .netrefStable _ | .linkUp _ | .linkDown _
  | .pacingRelease _ | .tallyPpsOutFall | .cclkSlewDone _ | .pageSelectDone _ | .standbyLeft _ =>
    true

end Sys2Proof
end

