-- ==== Sys2Proof/Tests/Slice0.lean ====
section
/-! SUPPORT. The model's own tests: terms that `wellFormed` refuses, values worked out by hand from the spec, and for each
statement with hypotheses a state and operands that meet them all. -/

namespace Sys2Proof.Tests

open Sys2Proof Sys2Proof.Machine

set_option maxRecDepth 20000
set_option Elab.async false

/-! ### Well-formedness -/

theorem test_command_too_long : (Instr.identify { path := .board, payload := List.replicate 225 0 }).wellFormed = false ∧
    (Instr.identify { path := .board, payload := List.replicate 224 0 }).wellFormed = true := by decide +kernel

theorem test_descriptor_too_short : (Instr.nopDescriptor { ring := 0, bytes := List.replicate 62 0 }).wellFormed = false ∧
    (Instr.nopDescriptor { ring := 0 }).wellFormed = true := by decide +kernel

theorem test_frame_too_long : (Instr.write 0 { payload := List.replicate 9217 0 }).wellFormed = false := by decide +kernel

theorem test_host_access_size : (Instr.hostAccess 0 { store := false, address := 0, size := 3 }).wellFormed = false ∧
    (Instr.hostAccess 0 { store := true, address := 0, data := List.replicate 16 0 }).wellFormed = false := by decide +kernel

theorem test_host_access_unaligned : (Instr.hostAccess 0 { store := false, address := 4, size := 8 }).wellFormed = false := by
  decide +kernel

theorem test_measurement_groups : (Instr.powerMeasurement { groups := List.replicate 7 (some 0), tj := List.replicate 32 0 }).wellFormed = false ∧
    (Instr.powerMeasurement { groups := List.replicate 8 none, tj := List.replicate 31 0 }).wellFormed = false := by decide +kernel

theorem test_page_write_empty : (Instr.registerWrite .board 0 []).wellFormed = false := by decide +kernel

/-! ### States -/

/-- A binding of one lane and bale size 4,096 − 512. -/
def tBinding : List Byte := leBytes 2 2048 ++ [1, 0] ++ leBytes 2 3584 ++ [1, 0] ++ zeros 24

/-- A paddock that runs on block 0, with a tensor bound. -/
def tPaddock : Paddock :=
  { role := 0, world := .nonsecure, priority := 1, operator := none, budget := 80000, slice := 80000, ringSave := 0,
    hurdles := 1, nbells := Vector.replicate 4 (0, 64), blocks := 1, saveBase := Vector.replicate 16 0,
    windows := [{ base := 0, units := 64, secure := false, shared := false },
                { base := 0x80000000000, units := 1, secure := false, shared := false }], state := .running, holds := true, tensors := [(2048, tBinding)] }

/-- One 32-byte window entry of an image (R170). -/
def tWindow (n dir edge kind : Nat) : List Byte :=
  leBytes 1 n ++ leBytes 1 dir ++ leBytes 1 edge ++ zeros 1 ++ leBytes 1 kind ++ zeros 1 ++ leBytes 2 0 ++ leBytes 2 4 ++ zeros 6 ++
    leBytes 8 1 ++ leBytes 2 0xFFFF ++ zeros 6

/-- An image with windows in and out of block 0 from network die 0, into block 0 and HBM region 0 from the host die, into HBM
region 0 from tier die 4 and network die 0, out of it to that die, a LOCAL remote context 0, and a slot table of block 0 that grants thread 0 both
slotted resources, and window 3, throughout its frame of 4,096 slots (R162, R164, R335). -/
def tImage : List Byte :=
  zeros 8 ++ leBytes 2 3 ++ zeros 6 ++ leBytes 4 4096 ++ leBytes 4 1000 ++ zeros 104 ++
    (leBytes 2 5 ++ zeros 2 ++ leBytes 4 7 ++ leBytes 4 176 ++ leBytes 4 224) ++
    (leBytes 2 7 ++ zeros 2 ++ leBytes 4 1 ++ leBytes 4 400 ++ leBytes 4 32) ++
    (leBytes 2 3 ++ zeros 2 ++ leBytes 4 1 ++ leBytes 4 432 ++ leBytes 4 32) ++
    tWindow 0 0 0 0 ++ tWindow 1 1 0 0 ++ tWindow 2 0 6 0 ++ tWindow 3 0 6 1 ++ tWindow 4 0 4 1 ++ tWindow 5 0 0 1 ++ tWindow 6 1 0 1 ++
    (leBytes 1 0 ++ leBytes 1 1 ++ zeros 1 ++ leBytes 1 3 ++ zeros 28) ++
    (leBytes 2 0 ++ zeros 2 ++ leBytes 4 3 ++ leBytes 8 (4096 * 2 ^ 24) ++ leBytes 8 (4096 * 2 ^ 24 + 2 ^ 22) ++
      leBytes 8 (4096 * 2 ^ 24 + 2 * 2 ^ 22 + 3 * 2 ^ 10))

/-- A thread at a PC with three scalar registers. -/
def tThread (pc : Nat) (s1 s2 s3 : Word) : Thread :=
  { pc := pc, state := .ready, bale := 2048, s := ((Sparse.set [] 1 s1).set 2 s2).set 3 s3 }

/-- The 64-bit word of an instruction (R136). -/
def tWord (op : Nat) (w : IWord) : BitVec 64 :=
  BitVec.ofNat 64 (op * 2 ^ 56 + w.a.toNat * 2 ^ 51 + w.b.toNat * 2 ^ 46 + w.c.toNat * 2 ^ 41 + w.k.toNat)

/-- A device on which thread 0 of block 0 may issue for paddock 0. -/
def tDevice (t : Thread) (op : Nat := 0) (w : IWord := {}) : Device :=
  { state := .run, deviceId := some 5, paddocks := [(0, tPaddock)], power := { blocks := [(0, .run)] },
    images := [(0, { bytes := tImage, state := .resident })],
    fabric := { blocks := [(0, { threads := (Vector.replicate 16 ({} : Thread)).set 0 t, istore := Sparse.set [] t.pc (tWord op w) })] } }

/-- Its state, with an instruction at the thread's PC. -/
def tBusy (pc : Nat) (s1 s2 s3 : Word) (op : Nat) (w : IWord) : State := { dev := tDevice (tThread pc s1 s2 s3) op w }

/-- Thread 0 of block 0. -/
def tT : ThreadId := { block := 0, thread := 0 }

/-- The state in which that thread has its turn, in CCLK 0. -/
def tTurn (s : State) (op : Nat) (w : IWord) : State := s.on fun _ => (s.atCclk 0 0).takeTurn 0 0 0 0 op w

/-- Whether an instruction of that thread issues in CCLK 0. -/
def tMayIssue (s : State) (op : Nat) (w : IWord) : Bool :=
  decide (s.dev.issuesFor 0 = some 0) && decide ((s.atCclk 0 0).issuesFor 0 = some 0) && (s.threadOf tT).mayIssue &&
  decide (s.dev.nextWord 0 0 = (op, w)) && decide ((s.atCclk 0 0).nextWord 0 0 = (op, w)) &&
  decide ((s.atCclk 0 0).turn 0 0 0 = some 0) && decide (((tTurn s op w).threadOf tT).pc < 8192) && wordLegal op w

theorem tIssued {s : State} {op : Nat} {w : IWord} (h : tMayIssue s op w = true) : Issues s tT op w 0 0 (tTurn s op w) := by
  simp only [tMayIssue, Bool.and_eq_true, decide_eq_true_eq] at h
  obtain ⟨⟨⟨⟨⟨⟨⟨h1, h2⟩, h3⟩, h4⟩, h5⟩, h6⟩, h7⟩, h8⟩ := h
  exact ⟨⟨⟨h1, h2⟩, h3, ⟨h4, h5⟩, h6, rfl⟩, h7, h8⟩

/-- The instruction issues on that device, and its hypotheses hold in the state of its turn. -/
abbrev TI (pc : Nat) (s1 s2 s3 : Word) (op : Nat) (w : IWord) : Prop :=
  Issues (tBusy pc s1 s2 s3 op w) tT op w 0 0 (tTurn (tBusy pc s1 s2 s3 op w) op w)

/-- It issues at a PC with a next one. -/
abbrev TP (pc : Nat) (s1 s2 s3 : Word) (op : Nat) (w : IWord) : Prop :=
  Proceeds (tBusy pc s1 s2 s3 op w) tT op w 0 0 (tTurn (tBusy pc s1 s2 s3 op w) op w)

theorem tIssues {pc : Nat} {s1 s2 s3 : Word} {op : Nat} {w : IWord} (h : tMayIssue (tBusy pc s1 s2 s3 op w) op w = true) :
    TI pc s1 s2 s3 op w := tIssued h

/-- Whether it has a next one. -/
def tMayProceed (s : State) (op : Nat) (w : IWord) : Bool :=
  tMayIssue s op w && decide (((tTurn s op w).threadOf tT).pc < 8191)

theorem tGoes {s : State} {op : Nat} {w : IWord} (h : tMayProceed s op w = true) : Proceeds s tT op w 0 0 (tTurn s op w) := by
  simp only [tMayProceed, Bool.and_eq_true, decide_eq_true_eq] at h
  exact ⟨tIssued h.1, h.2⟩

theorem tProceeds {pc : Nat} {s1 s2 s3 : Word} {op : Nat} {w : IWord} (h : tMayProceed (tBusy pc s1 s2 s3 op w) op w = true) :
    TP pc s1 s2 s3 op w := tGoes h

/-- The state of the turn on that device. -/
abbrev TS (pc : Nat) (s1 s2 s3 : Word) (op : Nat) (w : IWord) : State := tTurn (tBusy pc s1 s2 s3 op w) op w

/-- A device without injected or poisoned memory and without transfers under way reads any range at once. -/
theorem tReadable (pc : Nat) (s1 s2 s3 : Word) (op : Nat) (w : IWord) (off n : Nat)
    (h : (TS pc s1 s2 s3 op w).dev.arriving 0 = [] ∧ (TS pc s1 s2 s3 op w).dev.faults = {}) :
    Readable (TS pc s1 s2 s3 op w) tT 0 off n := by
  obtain ⟨h, g⟩ := h
  refine ⟨by simp [Device.checkedRead, Device.poisonIn, Device.injected, g], ?_⟩
  show ((TS pc s1 s2 s3 op w).dev.arriving 0).filter _ = []
  rw [h]; rfl

/-! ### Witnesses: the sequencer -/

/-- VectorArithmetic, VectorScalars, RegisterRowsFrame and the rows of the rest: each issues at the last PC with a next one. -/
theorem test_every_row_proceeds : ∀ e ∈ sequencerRows tT {}, TP 8190 0 0 0 e.2 {} := fun e he =>
  tProceeds
    (List.all_eq_true.1 (by decide +kernel : ((sequencerRows tT {}).all fun e => tMayProceed (tBusy 8190 0 0 0 e.2 {}) e.2 {}) = true) e he)

/-- ScalarResults: R138's instructions on chosen operands. -/
theorem test_scalar_hypotheses : ∀ op ∈ List.range' 0x10 14, TP 0 1 2 0 op { a := 3, b := 1, c := 2 } := fun op h =>
  tProceeds
    (List.all_eq_true.1 (by decide +kernel : ((List.range' 0x10 14).all fun op =>
      tMayProceed (tBusy 0 1 2 0 op { a := 3, b := 1, c := 2 }) op { a := 3, b := 1, c := 2 }) = true) op h)

/-- ImmediateResults. -/
theorem test_immediate_hypotheses : ∀ op ∈ List.range' 0x20 8, TP 0 1 2 0 op { a := 3, b := 1, k := 63 } :=
  fun op h => tProceeds
    (List.all_eq_true.1 (by decide +kernel : ((List.range' 0x20 8).all fun op =>
      tMayProceed (tBusy 0 1 2 0 op { a := 3, b := 1, k := 63 }) op { a := 3, b := 1, k := 63 }) = true) op h)

/-- BranchesAndJumps, taken: equal operands and the target 8,191; the other conditions and the target 0. -/
theorem test_branch_taken :
    TI 8190 7 7 0 0x03 { b := 1, c := 2, k := 1 } ∧ ((8190 : Nat) : Int) + immSigned { k := 1 } = 8191 ∧
    TI 1 7 8 0 0x04 { b := 1, c := 2, k := 0xFFFFFFFF } ∧ ((1 : Nat) : Int) + immSigned { k := 0xFFFFFFFF } = 0 ∧
    TI 1 (-1) 0 0 0x05 { b := 1, c := 2, k := 0xFFFFFFFF } ∧ (-1 : Word).toInt < (0 : Word).toInt ∧
    TI 1 0 0 0 0x06 { b := 1, c := 2, k := 0xFFFFFFFF } ∧
    TI 1 0 (-1) 0 0x07 { b := 1, c := 2, k := 0xFFFFFFFF } ∧ (0 : Word).toNat < (-1 : Word).toNat ∧
    TI 1 (-1) (-1) 0 0x08 { b := 1, c := 2, k := 0xFFFFFFFF } ∧
    TI 8190 0 0 0 0x02 { k := 1 } ∧ TI 0 0 0 0 0x09 { a := 3 } ∧
    TI 0 8191 0 0 0x0A { a := 3, b := 1 } := by
  refine ⟨tIssues ?_, ?_, tIssues ?_, ?_, tIssues ?_, ?_,
    tIssues ?_, tIssues ?_, ?_, tIssues ?_, tIssues ?_,
    tIssues ?_, tIssues ?_⟩ <;> decide +kernel

/-- BranchesAndJumps, not taken: the least difference that makes each condition fail. -/
theorem test_branch_not_taken :
    TP 8190 7 8 0 0x03 { b := 1, c := 2 } ∧ TP 8190 7 7 0 0x04 { b := 1, c := 2 } ∧
    TP 8190 0 0 0 0x05 { b := 1, c := 2 } ∧ TP 8190 (-1) 0 0 0x06 { b := 1, c := 2 } ∧
    TP 8190 0 0 0 0x07 { b := 1, c := 2 } ∧ TP 8190 0 (-1) 0 0x08 { b := 1, c := 2 } := by
  refine ⟨tProceeds ?_, tProceeds ?_, tProceeds ?_, tProceeds ?_,
    tProceeds ?_, tProceeds ?_⟩ <;> decide +kernel

/-- ControlOutsideStore: targets 8,192 and −1. -/
theorem test_control_outside :
    TI 8191 7 7 0 0x03 { b := 1, c := 2, k := 1 } ∧ TI 0 0 0 0 0x02 { k := 0xFFFFFFFF } ∧
    ((0 : Nat) : Int) + immSigned { k := 0xFFFFFFFF } < 0 ∧ TI 0 8192 0 0 0x0A { a := 3, b := 1 } := by
  refine ⟨tIssues ?_, tIssues ?_, ?_, tIssues ?_⟩ <;> decide +kernel

/-- ThreadControl: the last slot of the frame, and a TSTART of idle thread 15 at the last PC. -/
theorem test_thread_control :
    TI 0 0 0 0 0x0C { k := 4095 } ∧ immUnsigned { k := 4095 } < (TS 0 0 0 0 0x0C { k := 4095 }).dev.frameOf 0 ∧
    TP 0 15 0 0 0x0D { b := 1, k := 8191 } ∧ (0 ≤ immSigned { k := 8191 } ∧ immSigned { k := 8191 } < 8192) ∧
    ((TS 0 15 0 0 0x0D { b := 1, k := 8191 }).dev.thread 0 15).state = .idle := by
  refine ⟨tIssues ?_, ?_, tProceeds ?_, ?_, ?_⟩ <;> decide +kernel

/-- BufferAccess: the last word and the last vector of the buffer. -/
theorem test_buffer_access :
    TP 0 0xFFFF8 0 0 0x28 { a := 3, b := 1 } ∧ TP 0 0xFFFF8 0 0 0x29 { b := 1, c := 2 } ∧
    TP 0 0xFFF00 0 0 0x40 { a := 3, b := 1 } ∧ TP 0 0xFFF00 0 0 0x41 { b := 1, c := 2 } ∧
    Readable (TS 0 0xFFFF8 0 0 0x28 { a := 3, b := 1 }) tT 0 0xFFFF8 8 ∧
    Readable (TS 0 0xFFF00 0 0 0x40 { a := 3, b := 1 }) tT 0 0xFFF00 256 ∧ Sound (TS 0 0xFFFF8 0 0 0x29 { b := 1, c := 2 }) := by
  refine ⟨tProceeds ?_, tProceeds ?_, tProceeds ?_, tProceeds ?_,
    tReadable _ _ _ _ _ _ _ _ ?_, tReadable _ _ _ _ _ _ _ _ ?_, ⟨?_, ?_⟩⟩ <;> decide +kernel

/-- Conversions: E4M3 with and without an MX scale at the last offsets that fit. -/
theorem test_conversions :
    TP 0 0xFFFC0 0xFFFFE 0 0x50 { a := 1, c := 2, k := 3 * 2 ^ 38 + 2 ^ 36 } ∧
    TP 0 0xFFFC0 0xFFFFE 0 0x51 { a := 1, c := 2, k := 3 * 2 ^ 38 + 2 * 2 ^ 36 } ∧
    TP 0 0xFFFC0 0xFFFFE 0 0x52 { a := 4, b := 1, c := 2, k := 3 * 2 ^ 38 + 2 * 2 ^ 36 } ∧
    formatAllowed (fmtField { k := 3 * 2 ^ 38 + 2 ^ 36 }) (smField { k := 3 * 2 ^ 38 + 2 ^ 36 }) = true ∧
    smField { k := 3 * 2 ^ 38 + 2 * 2 ^ 36 } = 2 ∧ formatAllowed (fmtField { k := 3 * 2 ^ 38 + 2 * 2 ^ 36 }) 2 = true ∧
    0xFFFC0 + 8 * elemBits 3 = 0x100000 := by
  refine ⟨tProceeds ?_, tProceeds ?_, tProceeds ?_, ?_, ?_, ?_, ?_⟩ <;> decide +kernel

/-- MatrixInstructions: one word of scratch per cell; one round of INT8 in the last scratch bytes that hold it; MDRAIN to the
last bytes of the buffer. -/
theorem test_matrix :
    TP 0 0xFF000 0 0 0x30 { b := 1, k := 4092 * 2 ^ 18 } ∧ classBits { k := 4092 * 2 ^ 18 } 29 18 + 4 * 1 = 4096 ∧
    TP 0 0 0 0 0x31 { a := 31, b := 1, k := 5 * 2 ^ 38 + 2 ^ 36 + 5 * 2 ^ 33 + 2 ^ 31 + 2 ^ 18 + 4064 * 2 ^ 6 } ∧
    pairAllowed 5 5 = true ∧ formatAllowed 5 1 = true ∧ 4064 + 1 * weightBytes 5 1 = 4096 ∧
    TP 0 0xFFF80 0 0 0x32 { a := 31, b := 1 } ∧ fmtField {} ≤ 2 ∧ 0xFFF80 + 4 * elemBits 0 = 0x100000 := by
  refine ⟨tProceeds ?_, ?_, tProceeds ?_, ?_, ?_, ?_, tProceeds ?_, ?_, ?_⟩ <;> decide +kernel

/-- AttentionHelpers: the last table an ABIAS may name. -/
theorem test_attention : TP 0 0 0 0 0x74 { a := 3, b := 1, c := 2, k := 0xFF800 } ∧
    immUnsigned { k := 0xFF800 } + 2048 = 0x100000 := by
  refine ⟨tProceeds ?_, ?_⟩ <;> decide +kernel

/-- The same thread before its instruction, with a bell of the paddock at its greatest value (R182). -/
def tBell (s : State) (n : Nat) : State := s.on fun d => d.setBell 0 n { value := 0x7FFFFFFF, unseen := [(0, 8)] }

/-- BellInstructions: the last bell of the block, the first network bell of die 0, and the bounds of increments and
thresholds. -/
theorem test_bells :
    TP 0 63 0 0 0x90 { b := 1, k := 65535 } ∧ (TS 0 63 0 0 0x90 { b := 1, k := 65535 }).dev.bellOfPaddock 0 63 = true ∧
    TP 0 65536 0 0 0x90 { b := 1, k := 1 } ∧ (TS 0 65536 0 0 0x90 { b := 1, k := 1 }).dev.bellOfPaddock 0 65536 = true ∧
    (∃ win, (TS 0 65536 0 0 0x90 { b := 1, k := 1 }).dev.windowFor 0 1 0 (bellAddress 0) 16 = some win ∧
      (TS 0 65536 0 0 0x90 { b := 1, k := 1 }).dev.routeDown win = false) ∧
    TI 0 63 0x7FFFFFFF 0 0x91 { a := 3, b := 1, c := 2 } ∧
    TP 0 63 1 0 0x92 { a := 3, b := 1, c := 2 } ∧ ((TS 0 63 1 0 0x92 { a := 3, b := 1, c := 2 }).dev.bell 0 63).value < 1 := by
  refine ⟨tProceeds ?_, ?_, tProceeds ?_, ?_, ⟨winAt tImage 208, ?_, ?_⟩, tIssues ?_, tProceeds ?_, ?_⟩ <;> decide +kernel

/-- BTRY and BREAD of a bell that has the greatest threshold and has not been observed. -/
theorem test_bells_full :
    Proceeds (tBell (tBusy 0 63 0x7FFFFFFF 0 0x92 { a := 3, b := 1, c := 2 }) 63) tT 0x92 { a := 3, b := 1, c := 2 } 0 0
      (tTurn (tBell (tBusy 0 63 0x7FFFFFFF 0 0x92 { a := 3, b := 1, c := 2 }) 63) 0x92 { a := 3, b := 1, c := 2 }) ∧
    Proceeds (tBell (tBusy 0 63 0 0 0x93 { a := 3, b := 1 }) 63) tT 0x93 { a := 3, b := 1 } 0 0
      (tTurn (tBell (tBusy 0 63 0 0 0x93 { a := 3, b := 1 }) 63) 0x93 { a := 3, b := 1 }) ∧
    ((tTurn (tBell (tBusy 0 63 0 0 0x93 { a := 3, b := 1 }) 63) 0x93 { a := 3, b := 1 }).dev.bell 0 63).unseen ≠ [] := by
  refine ⟨tGoes ?_, tGoes ?_, ?_⟩ <;> decide +kernel

/-- A thread that resumes an HPASS whose round 0 in s3 is over. -/
def tPassing : State := (tBusy 0 0 0 0 0xA2 { a := 3, b := 1 }).on fun d =>
  (d.updThread 0 0 fun x => { x with resumePass := true }).mapFabric fun f => { f with hurdles := [(0, { round := 1 })] }

/-- HurdleInstructions: an arrival of one and of 16,384 at hurdle 0, a round that is not over and one that is. -/
theorem test_hurdles :
    TP 0 0x10000 0 0 0xA0 { a := 3, b := 1 } ∧ arrivalCount 0x10000 = 1 ∧ arrivalCount 0x40000000 = 16384 ∧
    bitsOf 0x40000000 15 8 = 0 ∧ bitsOf 0x40000000 63 31 = 0 ∧
    ((TS 0 0x40000000 0 0 0xA2 { a := 3, b := 1 }).dev.hurdleOwner 0).map (·.1) = some 0 ∧
    TI 0 0x40000000 0 0 0xA2 { a := 3, b := 1 } ∧ ((TS 0 0x40000000 0 0 0xA2 { a := 3, b := 1 }).threadOf tT).resumePass = false ∧
    TI 0 0 0 0 0xA1 { b := 1, c := 2 } ∧ ((TS 0 0 0 0 0xA1 { b := 1, c := 2 }).dev.hurdle 0).round ≤ 0 ∧
    Proceeds tPassing tT 0xA2 { a := 3, b := 1 } 0 0 (tTurn tPassing 0xA2 { a := 3, b := 1 }) ∧
    ((tTurn tPassing 0xA2 { a := 3, b := 1 }).threadOf tT).resumePass = true ∧
    ((tTurn tPassing 0xA2 { a := 3, b := 1 }).reg tT 3).toNat < ((tTurn tPassing 0xA2 { a := 3, b := 1 }).dev.hurdle 0).round := by
  refine ⟨tProceeds ?_, ?_, ?_, ?_, ?_, ?_, tIssues ?_, ?_, tIssues ?_, ?_, tGoes ?_, ?_, ?_⟩ <;> decide +kernel

/-- BaleInstructions: one lane of the bound tensor; a count of 256 blocks fills the buffer in BSTORE and BCOPY. -/
theorem test_bales :
    TP 0 0 0 0 0x61 { a := 1, b := 2, k := 1 } ∧ TP 0 0 0 0 0x62 { a := 1, b := 2, k := 256 } ∧
    TP 0 0 0 0 0x63 { a := 1, b := 2, k := 256 } ∧ TP 0 0 0 0 0x64 { a := 1, b := 2, k := 256 } ∧
    countField { k := 256 } = 256 ∧ 0 + 4096 * 256 = 0x100000 ∧ 256 * (bindingOf tBinding).size ≤ 0x100000 ∧
    (TS 0 0 0 0 0x62 { a := 1, b := 2, k := 256 }).dev.binding 0 2048 = some tBinding ∧
    (TS 0 0 0 0 0x64 { a := 1, b := 2, k := 256 }).dev.baleMemory 0 0 (4096 * 256) = true ∧
    (TS 0 0 0 0 0x64 { a := 1, b := 2, k := 256 }).dev.worldClash 0 0 (4096 * 256) = false := by
  refine ⟨tProceeds ?_, tProceeds ?_, tProceeds ?_, tProceeds ?_, ?_, ?_, ?_, ?_, ?_, ?_⟩ <;> decide +kernel

/-- A transfer of the block. -/
def tTransfer : BaleTransfer :=
  { op := .copyIn, thread := 0, buffer := 0, address := 0, count := 1, tensor := 0, binding := [], bell := none }

/-- BaleInstructions: 16 transfers are outstanding. -/
def tFull : State := (tBusy 0 0 0 0 0x64 { a := 1, b := 2, k := 1 }).on (·.updBlock 0 fun k =>
  { k with bales := List.replicate 16 tTransfer })

theorem test_bales_full :
    tFull.dev.issuesFor 0 = some 0 ∧ (tFull.threadOf tT).mayIssue = true ∧
    tFull.dev.nextWord 0 0 = (0x64, { a := 1, b := 2, k := 1 }) ∧ (tFull.atCclk 0 0).issuesFor 0 = some 0 ∧
    ((tFull.atCclk 0 0).thread 0 0).pc < 8192 ∧ ((tFull.atCclk 0 0).thread 0 0).waits ≠ .yielded ∧
    (tFull.atCclk 0 0).nextWord 0 0 = (0x64, { a := 1, b := 2, k := 1 }) ∧ wordLegal 0x64 { a := 1, b := 2, k := 1 } = true ∧
    16 ≤ ((tFull.atCclk 0 0).block 0).bales.length := by decide +kernel

/-- RemoteInstructions: through the LOCAL context 0, with the longest RPUT at the end of the buffer. -/
theorem test_remote :
    let s := TS 0 0 0xFE000 0 0x84 { b := 1, c := 2, k := 128 * 2 ^ 22 }
    s.dev.contextOf 0 0 = some (ctxAt tImage 400) ∧ (ctxAt tImage 400).secure = s.dev.isSecure 0 ∧
    s.dev.contextHome (ctxAt tImage 400) = some 0 ∧ s.dev.windowFor 0 1 0 (bellAddress 0) 16 = some (winAt tImage 208) ∧
    s.dev.windowFor 0 0 0 (bellAddress 0) 16 = some (winAt tImage 176) ∧ s.dev.routeDown (winAt tImage 208) = false ∧
    TI 0 0 0xFE000 0 0x84 { b := 1, c := 2, k := 128 * 2 ^ 22 } ∧ lenField { k := 128 * 2 ^ 22 } = 128 ∧
    0xFE000 + 64 * 128 = 0x100000 ∧ Readable s tT 0 0xFE000 8192 := by
  refine ⟨?_, ?_, ?_, ?_, ?_, ?_, tIssues ?_, ?_, ?_, tReadable _ _ _ _ _ _ _ _ ?_⟩ <;> decide +kernel

/-- RemoteAccessStarts: a context whose connection is IDLE has no die, and an access under way has not run out. -/
theorem test_remote_starts :
    (tDevice (tThread 0 0 0 0)).contextHome { ctxAt tImage 400 with isLocal := false, conn := 7 } = none ∧
    (match exec (.rload tT {}) (tBusy 0 0 0 0 0x80 {}) with
     | .next u => (u.dev.remoteAccess u.dev.fabric.remote.length.pred).map fun a => a.expired
     | _ => none) = some false := by
  decide +kernel

/-- A thread whose matrix instruction waits for the engine, another that waits at its instruction, and one with an illegal
word. -/
def tStuck : State := (tBusy 0 0 0 0 0x33 {}).on (·.updBlock 0 fun k => { k with matrixNext := 4096 })

/-- InstructionsThatDoNotIssue: a block without a paddock, another word, a thread that may not issue, an engine that is not
free, an illegal word, and a PC past the store. -/
theorem test_not_issued :
    State.reset.dev.issuesFor 0 = none ∧ (State.reset.threadOf tT).mayIssue = false ∧
    (tBusy 0 0 0 0 0x10 {}).dev.nextWord 0 0 ≠ (0x11, {}) ∧ wordLegal 0x10 {} = true ∧
    tStuck.dev.issuesFor 0 = some 0 ∧ (tStuck.atCclk 0 0).issuesFor 0 = some 0 ∧ (tStuck.atCclk 0 0).nextWord 0 0 = (0x33, {}) ∧
    (tStuck.atCclk 0 0).turn 0 0 0 = none ∧ ((tStuck.atCclk 0 0).thread 0 0).waits ≠ .yielded ∧ (slotRes 0x33).isSome = true ∧
    wordLegal 0x00 { a := 1 } = false ∧ ((tBusy 0 0 0 0 0x00 { a := 1 }).atCclk 0 0).turn 0 0 0 = some 0 ∧
    ((tBusy 8192 0 0 0 0 {}).atCclk 0 0).turn 0 0 0 = some 0 ∧ 8192 ≤ ((tBusy 8192 0 0 0 0 {}).threadOf tT).pc := by decide +kernel

/-- LastWordOfStore. -/
theorem test_last_word : TI 8191 0 0 0 0x10 {} := tIssues (by decide +kernel)

/-! ### Witnesses: mailbox commands -/

/-- A command of the BOARD path with a payload. -/
def tCmd (p : List Byte) (set : BitVec 16 := 0xFFFF) : Cmd :=
  { path := .board, sequence := 1, payloadLength := BitVec.ofNat 32 p.length, stageSet := set, payload := p }

/-- Whether a command is accepted. -/
def tAccepts (s : State) (opcode : Nat) (k : Kind) (c : Cmd) : Bool :=
  decide (pathMaster c.path = .fabric → s.dev.security.bound.isSome = true) && decide ((s.dev.paths.box c.path).status = .idle) &&
  s.dev.serves c.path &&
  ((s.dev.takes c opcode).paths.kept (pathMaster c.path)).all (fun x => decide (fieldU32 x.header 4 ≠ c.sequence.toNat)) &&
  decide (((s.dev.takes c opcode).paths.box c.path).cmd = cmdHeader c opcode ++ c.payload) &&
  !isIndirect (cmdHeader c opcode) && ((s.dev.takes c opcode).stateStep k opcode).isNone &&
  ((s.dev.takes c opcode).rightStep k.right c.path (callOf c opcode).payload).isNone &&
  ((s.dev.takes c opcode).headerStep k c.path (cmdHeader c opcode)).isNone &&
  ((s.dev.takes c opcode).deadlineStep (cmdHeader c opcode) (s.dev.takes c opcode).now).isNone &&
  (lengthStep k c.path (cmdHeader c opcode)).isNone

/-- Whether an immediate command runs. -/
def tRuns (s : State) (opcode : Nat) (m : Immediate) (c : Cmd) : Bool :=
  tAccepts s opcode (.immediate m) c && (m.check (s.dev.takes c opcode) (callOf c opcode)).isNone

theorem tAccepted {s : State} {opcode : Nat} {k : Kind} {c : Cmd} (h : tAccepts s opcode k c = true) : Accepted s opcode k c := by
  simp only [tAccepts, Bool.and_eq_true, decide_eq_true_eq, Bool.not_eq_true', Option.isNone_iff_eq_none, List.all_eq_true] at h
  obtain ⟨⟨⟨⟨⟨⟨⟨⟨⟨⟨h1, h2⟩, h3⟩, h4⟩, h5⟩, h6⟩, h7⟩, h8⟩, h9⟩, h10⟩, h11⟩ := h
  exact ⟨h1, h2, h3, h4, h5, h6, h7, h8, h9, h10, h11⟩

theorem tRun {s : State} {opcode : Nat} {m : Immediate} {c : Cmd} (h : tRuns s opcode m c = true) : Runs s opcode m c := by
  simp only [tRuns, Bool.and_eq_true, Option.isNone_iff_eq_none] at h
  exact ⟨tAccepted h.1, h.2⟩

/-- The state of a device. -/
def tOn (f : Device → Device) : State := { dev := f (tDevice (tThread 0 0 0 0)) }

/-- A ring of paddock 0 with 16 entries at address 0. -/
def tRing : Ring :=
  { paddock := 0, kick := false, irq := false, entries := 16, base := 0, cqBase := 4096, cqEntries := 16, cqBell := noBell,
    kickBell := noBell, cls := 3, irqHart := 0, irqId := 0, prodAddr := 0 }

/-- An OPEN connection of paddock 0 to device 9. -/
def tConn : Conn :=
  { peer := 9, peerConn := 1, paddock := 0, home := 0, links := 1, cls := 3, pin := false, mgmt := false, gen := 1 }

/-- A device that BOARD owns, with ring 0, connection 1, fold 1 with its member paddock 0, and stage set 0 CHECKED and
empty. -/
def tOwned : State := tOn fun d =>
  { d with own := { owner := some .board, leaseExpiry := 400000000 },
           staging := { sets := [(0, { state := .checked, owner := .board })], nextId := 1 },
           net := { conns := [(1, tConn)], rings := [(0, tRing)] },
           service := { folds := [(1, { members := [(0, { since := 0 })] })] } }

/-- An address where it is changed. -/
def tMore (s : State) (f : Device → Device) : State := s.on f

/-- ReportingCommands, ReportedPayloads, TrafficReport: one payload for each opcode that reports. -/
def tReports : List (List Byte) :=
  [[], [], [], zeros 8, zeros 8, zeros 8, leBytes 2 1 ++ zeros 6, leBytes 2 1 ++ zeros 6, zeros 8, leBytes 4 1 ++ zeros 4, zeros 8,
   [31] ++ zeros 7, zeros 8, zeros 8, [0, 3, 1] ++ zeros 5, zeros 8, leBytes 4 69568 ++ leBytes 2 64 ++ [0xFF, 0],
   [240, 16] ++ zeros 6, zeros 8 ++ leBytes 2 64 ++ zeros 6, zeros 64 ++ [0xFE] ++ zeros 7, [7] ++ zeros 7, [], [], [], [], [],
   zeros 8 ++ leBytes 2 64 ++ zeros 6]

/-- A device whose BOARD window has more of a long response. -/
def tLong : State := tMore tOwned fun d => d.updBox .board fun b => { b with rest := [1] }

theorem test_reporting : ∀ e ∈ List.zip (reportingRows (tCmd [])) tReports,
    Runs (if e.1.2.2 = 1 then tLong else tOwned) e.1.2.2 e.1.2.1 (tCmd e.2) := fun e h =>
  tRun (List.all_eq_true.1 (by decide +kernel : ((List.zip (reportingRows (tCmd [])) tReports).all fun e =>
    tRuns (if e.1.2.2 = 1 then tLong else tOwned) e.1.2.2 e.1.2.1 (tCmd e.2)) = true) e h)

/-- ReportedPayloads: the ring that QUEUE_STATUS names is live. TrafficReport: the last number of each scope. -/
theorem test_reported : ((tOwned.dev.takes (tCmd (zeros 8)) 0x0502).ring 0).isSome = true ∧
    Runs tOwned 0x0605 immTrafficStatus (tCmd [0, 0, 31, 0, 0, 0, 0, 0]) ∧
    Runs tOwned 0x0605 immTrafficStatus (tCmd [1, 0, 0, 0, 0, 0, 0, 0]) ∧ tOwned.dev.ring 0 = some tRing ∧
    Runs tOwned 0x0605 immTrafficStatus (tCmd [1, 0, 0xFF, 0x3F, 0, 0, 0, 0]) ∧ tOwned.dev.ring 0x3FFF = none ∧
    Runs tOwned 0x0605 immTrafficStatus (tCmd [2, 0, 3, 0, 0, 0, 0, 0]) :=
  ⟨by decide +kernel, tRun (by decide +kernel), tRun (by decide +kernel), by decide +kernel, tRun (by decide +kernel),
   by decide +kernel, tRun (by decide +kernel)⟩

/-- OwnershipCommands: a claim by the owner and with no owner, an offer of the longest time, and its acceptance at its last
tick. -/
theorem test_ownership :
    Runs tOwned 0x0010 immOwnClaim (tCmd []) ∧ ((tOwned.dev.takes (tCmd []) 0x0010).paths.box .board).ownerAt = some .board ∧
    Runs (tOn id) 0x0010 immOwnClaim (tCmd []) ∧ (((tOn id).dev.takes (tCmd []) 0x0010).paths.box .board).ownerAt = none ∧
    Runs tOwned 0x0011 immOwnRenew (tCmd []) ∧ Runs tOwned 0x0012 immOwnRelease (tCmd []) ∧
    Runs tOwned 0x0013 immOwnHandover (tCmd ([1, 0] ++ leBytes 2 10000 ++ zeros 4)) ∧
    Runs (tOn fun d => { d with own := { owner := some .host, leaseExpiry := 1, offerTarget := some .board } }) 0x0014 immOwnAccept
      (tCmd []) :=
  ⟨tRun (by decide +kernel), by decide +kernel, tRun (by decide +kernel), by decide +kernel, tRun (by decide +kernel),
   tRun (by decide +kernel), tRun (by decide +kernel), tRun (by decide +kernel)⟩

/-- OwnershipPasses: the owner changes to another master, and a set is CHECKED. -/
theorem test_passes : tOwned.dev.own.owner = some .board ∧ (some Master.host : Option Master) ≠ some .board ∧
    (Table.find tOwned.dev.staging.sets 0).isSome = true := by decide +kernel

/-- StageSetCommands: the first and the last instant a commit may name. -/
theorem test_stage_sets : Runs tOwned 0x0100 immStageOpen (tCmd []) ∧ Runs tOwned 0x0101 immStageCheck (tCmd (zeros 8)) ∧
    Runs tOwned 0x0102 immStageCommit (tCmd (zeros 8 ++ leBytes 8 40000)) ∧
    Runs tOwned 0x0102 immStageCommit (tCmd (zeros 8 ++ leBytes 8 800000000000)) ∧
    Runs tOwned 0x0103 immStageAbort (tCmd (zeros 8)) :=
  ⟨tRun (by decide +kernel), tRun (by decide +kernel), tRun (by decide +kernel), tRun (by decide +kernel), tRun (by decide +kernel)⟩

/-- CommitWindow: one tick outside it on each side. -/
theorem test_commit_window :
    Accepted tOwned 0x0102 (.immediate immStageCommit) (tCmd (zeros 8 ++ leBytes 8 800000000001)) ∧
    Accepted tOwned 0x0102 (.immediate immStageCommit) (tCmd (zeros 8 ++ leBytes 8 39999)) ∧
    (tOwned.dev.takes (tCmd (zeros 8 ++ leBytes 8 39999)) 0x0102).setNamed (callOf (tCmd (zeros 8 ++ leBytes 8 39999)) 0x0102) = none ∧
    (tOwned.dev.takes (tCmd (zeros 8 ++ leBytes 8 39999)) 0x0102).setState (callOf (tCmd (zeros 8 ++ leBytes 8 39999)) 0x0102) = .checked ∧
    (tOwned.dev.takes (tCmd (zeros 8 ++ leBytes 8 39999)) 0x0102).committed.length < 32 :=
  ⟨tAccepted (by decide +kernel), tAccepted (by decide +kernel), by decide +kernel, by decide +kernel, by decide +kernel⟩

/-- StagedCommands: POWER_LIMIT_SET at the top of each range, after DEVICE_ID_SET with the greatest id. -/
theorem test_staged :
    Accepted tOwned 0x0003 (.staged stagedDeviceIdSet) (tCmd (leBytes 4 0x3FFFF) 0) ∧
    Accepted tOwned 0x0D01 (.staged stagedPowerLimitSet) (tCmd (leBytes 2 2400 ++ leBytes 2 260 ++ [105, 0, 0, 0]) 0) ∧
    stagedPowerLimitSet.form tOwned.dev (leBytes 2 2400 ++ leBytes 2 260 ++ [105, 0, 0, 0]) = none ∧
    stagedDeviceIdSet.form tOwned.dev (leBytes 4 0x3FFFF) = none ∧
    stagedDeviceIdSet.judge { staging := true, world := .nonsecure, before := tOwned.dev, after := tOwned.dev } (leBytes 4 0x3FFFF) = none ∧
    tOwned.dev.setHasRoom { owner := .board } { opcode := 3, header := [], payload := leBytes 4 0x3FFFF, world := .nonsecure } = true :=
  ⟨tAccepted (by decide +kernel), tAccepted (by decide +kernel), by decide +kernel, by decide +kernel, by decide +kernel, by decide +kernel⟩

/-- A COMMITTED set with the highest power limits. -/
def tSet : StageSet :=
  { state := .committed, owner := .board, instant := 40000,
    commands := [{ opcode := 0x0D01, header := zeros 32, payload := leBytes 2 2400 ++ leBytes 2 260 ++ [105, 0, 0, 0],
                   world := .nonsecure }] }

/-- A device with that set. -/
def tCommitted : State := tMore tOwned fun d => { d with staging := { sets := [(0, tSet)] } }

/-- SetApplies: the one committed set is due, and with it the limits change at its instant. -/
theorem test_set_applies : tCommitted.dev.counts = true ∧ (tCommitted.dev.committed.map (·.1)) = [0] ∧
    (match exec .stageApply tCommitted with
     | .next u => decide (u.dev.power.limitW = 2400 ∧ u.dev.now = 40000 ∧ u.dev.committed = [])
     | _ => false) = true := by decide +kernel

/-- Paddock 0 in a state. -/
def tIn (st : PaddockState) : State := tMore tOwned fun d => d.updPaddock 0 fun x => { x with state := st }

/-- PaddockCommands: the bounds of the budget; a preemption of a HELD and of a SAVED paddock; a HELD paddock resumes. -/
theorem test_paddock_commands :
    Runs tOwned 0x0204 immPaddockPreempt (tCmd (zeros 8)) ∧ Runs tOwned 0x0204 immPaddockPreempt (tCmd (zeros 4 ++ leBytes 4 40000)) ∧
    Runs tOwned 0x0204 immPaddockPreempt (tCmd ([0, 1, 0, 0] ++ leBytes 4 800000000)) ∧
    Runs (tIn .held) 0x0204 immPaddockPreempt (tCmd (zeros 8)) ∧ Runs (tIn .saved) 0x0204 immPaddockPreempt (tCmd (zeros 8)) ∧
    Runs (tIn .held) 0x0205 immPaddockResume (tCmd (zeros 8)) ∧
    ((tOwned.dev.takes (tCmd (zeros 8)) 0x0204).paddock 0).map (·.state) = some .running ∧
    (tOwned.dev.takes (tCmd (zeros 8)) 0x0204).maxStep 0 = 1000 :=
  ⟨tRun (by decide +kernel), tRun (by decide +kernel), tRun (by decide +kernel), tRun (by decide +kernel), tRun (by decide +kernel),
   tRun (by decide +kernel), by decide +kernel, by decide +kernel⟩

/-- The chip-scope and the paddock-scope FAULT_CLEAR, and the other commands of FaultPowerFirmwareCommands. -/
theorem test_fault_power_commands :
    Runs tOwned 0x0B03 immFaultInject (tCmd ([0, 1, 0xFF] ++ zeros 13)) ∧
    Runs (tIn .faulted) 0x0B02 immFaultClear (tCmd (zeros 8)) ∧ Runs tOwned 0x0B02 immFaultClear (tCmd ([1] ++ zeros 7)) ∧
    Runs (tMore tOwned fun d => { d with state := .ready, net := {} }) 0x0D00 immPowerStateSet (tCmd ([1] ++ zeros 7 ++ leBytes 8 40000)) ∧
    ((tMore tOwned fun d => { d with state := .ready, net := {} }).dev.takes (tCmd ([1] ++ zeros 7 ++ leBytes 8 40000)) 0x0D00).inStandby = false ∧
    Runs tOwned 0x0D00 immPowerStateSet (tCmd ([3] ++ zeros 15)) ∧ Runs tOwned 0x0D00 immPowerStateSet (tCmd ([5] ++ zeros 15)) ∧
    Runs tOwned 0x0D00 immPowerStateSet (tCmd ([6] ++ zeros 15)) ∧
    Runs tOwned 0x0E01 immFwWrite (tCmd ([1, 0, 0, 0] ++ leBytes 4 0 ++ [7])) ∧
    Runs (tMore tOwned fun d => d.setSlotState 0 3 0 0) 0x0E02 immFwActivate (tCmd ([0, 1] ++ zeros 6)) ∧
    Runs (tMore tOwned fun d => d.setSlotState 0 3 0 0) 0x0E02 immFwActivate (tCmd ([1, 0, 15] ++ zeros 5)) :=
  ⟨tRun (by decide +kernel), tRun (by decide +kernel), tRun (by decide +kernel), tRun (by decide +kernel), by decide +kernel,
   tRun (by decide +kernel), tRun (by decide +kernel), tRun (by decide +kernel), tRun (by decide +kernel), tRun (by decide +kernel),
   tRun (by decide +kernel)⟩

/-- ClaimAgainstLease: BOARD claims at the last tick of HOST's lease, and as the owner itself. -/
theorem test_claim_against_lease :
    Accepted (tOn fun d => { d with own := { owner := some .host } }) 0x0010 (.immediate immOwnClaim) (tCmd []) ∧
    Accepted tOwned 0x0010 (.immediate immOwnClaim) (tCmd []) ∧ tOwned.dev.now ≤ tOwned.dev.own.leaseExpiry :=
  ⟨tAccepted (by decide +kernel), tAccepted (by decide +kernel), by decide +kernel⟩

/-- A configuration of serving with a vocabulary of 16, one pool, and its step area at 2 MiB. -/
def tCfg : ServeConfig :=
  { stepDie := 0, specMax := 0, restoreRun := 0, slots := 1, candidates := 1, stepTokens := 1, vocab := 16, leadBlock := 0,
    startBell := 0, maskBell := 1, draftBell := 0, sampleBell := 1, regions := 1, area := 0x200000, areaBytes := 65536,
    kvFmt := 1, kvSm := 0, headDim := 64, groups := 1, heads := 1, layers := 1, kScale := 0, vScale := 0, scoreScale := 0,
    kvTensor := 2048, kvFlags := 0, biasBase := 0, pools := [{ base := 0x400000, slots := 64, summary := 0 }] }

/-- A device whose paddock 0 has that binding and configuration. -/
def tServing : State := tMore tOwned fun d =>
  { (d.updPaddock 0 fun x => { x with tensors := [(2048, tBinding)] }) with
    service := { serving := [(0, { cfg := some tCfg })] } }

/-- A grammar table of one state that accepts no token and one unused transition (R404). -/
def tGrammar : List Byte :=
  leBytes 4 0x4B53414D ++ leBytes 4 1 ++ leBytes 4 16 ++ leBytes 4 1 ++ leBytes 4 1 ++ leBytes 2 2048 ++ leBytes 2 0 ++ leBytes 4 1 ++
    zeros 4 ++ leBytes 8 128 ++ leBytes 8 160 ++ leBytes 8 168 ++ zeros 72 ++ zeros 32 ++ zeros 16

/-- The image of one block with the word HALT, without its digest (R162). -/
def tBare : List Byte :=
  leBytes 4 0x32454D58 ++ leBytes 2 0x0100 ++ leBytes 2 0 ++ leBytes 2 4 ++ [0, 15] ++ leBytes 2 1000 ++ leBytes 2 1 ++ leBytes 8 5112 ++
    leBytes 4 384 ++ leBytes 2 1 ++ zeros 98 ++
    (leBytes 2 1 ++ zeros 2 ++ leBytes 4 1 ++ leBytes 4 192 ++ leBytes 4 16) ++
    (leBytes 2 2 ++ zeros 2 ++ leBytes 4 1 ++ leBytes 4 256 ++ leBytes 4 34) ++
    (leBytes 2 3 ++ zeros 2 ++ leBytes 4 1 ++ leBytes 4 320 ++ leBytes 4 16) ++
    (leBytes 2 4 ++ zeros 2 ++ leBytes 4 0 ++ leBytes 4 384 ++ leBytes 4 0) ++
    (leBytes 2 0 ++ zeros 2 ++ leBytes 4 1 ++ leBytes 8 0x0100000000000000) ++ zeros 48 ++ zeros 34 ++ zeros 30 ++
    (leBytes 2 0 ++ zeros 2 ++ leBytes 4 1 ++ leBytes 8 0x1000000) ++ zeros 48

/-- The image with its digest, worked out outside Lean. -/
def tGood : List Byte := overwrite tBare 32 (leBytes 64 (0xC90F432BA62CAC406D96F655E400F3C32D0D5A4C89A6911D31A8F39001621136630EAAC4D5CBCB29EC2B2A08FCC1B6D45D353C2CF134095D918732B332D6CFBF))

/-- A device that may register that image, which stands at address 0. -/
def tHolds : State := tMore tServing fun d => { (d.store 0 tGood) with images := [] }

theorem test_image_length : tBare.length = 384 := by decide +kernel

/-- The image passes every check. -/
theorem test_image_check : ((tHolds.dev.paddock 0).map fun x => tHolds.dev.imageCheck 0 x tGood 384) = some none := by decide +kernel

/-- ImageBookGrammarCommands. -/
theorem test_image_register :
    Runs tHolds 0x0300 immImageRegister (tCmd (leBytes 8 0 ++ leBytes 4 384 ++ zeros 4)) ∧
    tHolds.dev.load 0 384 = tGood := ⟨tRun (by decide +kernel), by decide +kernel⟩

/-- A codebook record of one lane whose 256 symbols have eight bits each (R243). -/
def tRecord : List Byte := [1, 1] ++ zeros 6 ++ leBytes 4 (crc32c (List.replicate 128 0x88)) ++ zeros 52 ++ List.replicate 128 0x88

/-- A device with that grammar at 4,096 and grammar 3 loaded. -/
def tMasks : State := tMore tServing fun d =>
  (d.store 4096 tGrammar).updServing 0 fun y => { y with grammars := [(3, 4096, 176)] }

/-- ImageBookGrammarCommands: the other commands. -/
theorem test_books_and_grammars :
    Runs (tMore tHolds fun d => { d with images := [(0, { bytes := [] })] }) 0x0302 immImageRetire (tCmd (zeros 8)) ∧
    Runs tOwned 0x0800 immCodebookLoad (tCmd ([0, 3] ++ zeros 6 ++ tRecord)) ∧
    Runs tOwned 0x0801 immCodebookBuild (tCmd ([0, 3, 4, 63] ++ leBytes 4 16384 ++ zeros 8)) ∧
    Runs tMasks 0x0901 immMaskLoad (tCmd ([0, 4] ++ zeros 6 ++ leBytes 8 4096 ++ leBytes 4 176 ++ zeros 4)) ∧
    (tMasks.dev.grammarCheck 0 4 4096 176).isNone = true ∧ (tMasks.dev.readGrammar 4096 176).2 = none ∧
    Runs tMasks 0x0902 immMaskRetire (tCmd ([0, 3] ++ zeros 6)) :=
  ⟨tRun (by decide +kernel), tRun (by decide +kernel), tRun (by decide +kernel), tRun (by decide +kernel), by decide +kernel,
   by decide +kernel, tRun (by decide +kernel)⟩

/-! ### Witnesses: descriptors -/

/-- A descriptor of ring 0 from its bytes 16 on. -/
def tDesc (bs : List Byte) : Desc := { ring := 0, bytes := padTo 63 (zeros 15 ++ bs) }

/-- A record OWNED at address 65,536 with epoch 1, and an empty page table of capacity 16 at 131,072. -/
def tStored (d : Device) : Device := (d.store 65536 [1]).store 131072 (tableHeader 0 0 16 0 tCfg)

/-- A device with what descriptors name, and a descriptor at the head of ring 0. -/
def tHead (k : DescKind) (x : Desc) : State := tMore tServing fun d =>
  (tStored { d with
    boot := { d.boot with tierBytes := 0x80000000000 },
    images := d.images ++ [(1, { bytes := [] })],
    service := { serving := [(0, { cfg := some tCfg })], droves := [(0, { prefixCfg := some (10, 1, 0, 0x600000, 0x700000) })],
                 folds := [(1, { members := [(0, { since := 0 })],
                                 current := some { version := 1, devices := 1, drainUs := 10, entries := [(9, 0, 3)] } })] },
    net := { d.net with rings := [(0, { tRing with base := 1048576, produced := 1 })] } }).store 1048576 (rowBytes k x)

/-- Whether the descriptor at the head is taken, but for the read of its slot. -/
def tTakes (s : State) (x : Desc) (k : DescKind) (r : Ring) : Bool :=
  decide (s.dev.ring x.ring.val = some r) && decide (s.dev.headOf r = some (rowBytes k x)) && s.dev.mayTake x.ring.val r (rowBytes k x) &&
  ((k.buffer (rowBytes k x)).bind fun e => s.dev.unmapped e.1 e.2).isNone &&
  (((k.conn (rowBytes k x)).bind s.dev.conn).map (·.cached)).getD true &&
  ((s.taken x k r).faultEnding k r.paddock).isNone && (headerEnding (rowBytes k x)).isNone &&
  (k.check (s.taken x k r) (jobOf x k r)).isNone

theorem tTaken {s : State} {x : Desc} {k : DescKind} {r : Ring} (h : tTakes s x k r = true)
    (hs : s.dev.checkedRead (r.base + 64 * (r.taken % max r.entries 1)) 64 (s.dev.src (srcRing x.ring.val)) r.paddock = (s.dev, none)) :
    Taken s x k r := by
  simp only [tTakes, Bool.and_eq_true, decide_eq_true_eq, Option.isNone_iff_eq_none] at h
  obtain ⟨⟨⟨⟨⟨⟨⟨h1, h2⟩, h3⟩, h4⟩, h5⟩, h6⟩, h7⟩, h8⟩ := h
  refine ⟨h1, h2, h3, h4, ?_, hs, h6, h7, h8⟩
  intro c hc
  rw [hc] at h5
  exact h5

/-- Ring 0 as that device has it. -/
def tHeadRing : Ring := { tRing with base := 1048576, produced := 1 }

theorem tAtHead {k : DescKind} {x : Desc} (h : tTakes (tHead k x) x k tHeadRing = true) : Taken (tHead k x) x k tHeadRing :=
  tTaken h rfl

/-- `conn` 1, `key` 0, `local` 0 and `remote` at the start of device 9. -/
def tRemote : List Byte := leBytes 4 1 ++ zeros 4 ++ zeros 8 ++ leBytes 8 (9 * 2 ^ 46)

/-- TransportDescriptors: the longest WRITE, READ and SEND, and a RECV and a WAIT of each kind. -/
theorem test_transport_descriptors :
    (∃ x, Taken (tHead kindNop x) x kindNop tHeadRing) ∧
    (∃ x, Taken (tHead kindWrite x) x kindWrite tHeadRing ∧ fieldU32 (rowBytes kindWrite x) 40 = 16777216) ∧
    (∃ x, Taken (tHead kindRead x) x kindRead tHeadRing ∧ fieldU32 (rowBytes kindRead x) 40 = 16777216) ∧
    (∃ x, Taken (tHead kindAtomic x) x kindAtomic tHeadRing ∧ fieldU8 (rowBytes kindAtomic x) 50 = 6) ∧
    (∃ x, Taken (tHead kindSend x) x kindSend tHeadRing ∧ fieldU32 (rowBytes kindSend x) 40 = 8192) ∧
    (∃ x, Taken (tHead kindRecv x) x kindRecv tHeadRing ∧ fieldU32 (rowBytes kindRecv x) 40 = 64) ∧
    (∃ x, Taken (tHead kindWait x) x kindWait tHeadRing ∧ fieldU8 (rowBytes kindWait x) 16 = 0) ∧
    (∃ x, Taken (tHead kindWait x) x kindWait tHeadRing ∧ fieldU8 (rowBytes kindWait x) 16 = 1) :=
  ⟨⟨tDesc [], tAtHead (by decide +kernel)⟩,
   ⟨tDesc (tRemote ++ leBytes 4 16777216 ++ leBytes 4 noBell), tAtHead (by decide +kernel), by decide +kernel⟩,
   ⟨tDesc (tRemote ++ leBytes 4 16777216), tAtHead (by decide +kernel), by decide +kernel⟩,
   ⟨tDesc (tRemote ++ zeros 10 ++ [6]), tAtHead (by decide +kernel), by decide +kernel⟩,
   ⟨tDesc (leBytes 4 1 ++ zeros 20 ++ leBytes 4 8192), tAtHead (by decide +kernel), by decide +kernel⟩,
   ⟨tDesc (zeros 24 ++ leBytes 4 64), tAtHead (by decide +kernel), by decide +kernel⟩,
   ⟨tDesc [], tAtHead (by decide +kernel), by decide +kernel⟩,
   ⟨tDesc ([1, 0, 0, 0] ++ leBytes 4 63 ++ leBytes 4 1), tAtHead (by decide +kernel), by decide +kernel⟩⟩

/-- A page selection of one page in one layer over entry 0 of a table of one page. -/
def tSelect : Desc := tDesc (leBytes 8 196608 ++ zeros 8 ++ leBytes 8 262144 ++ leBytes 4 0 ++ leBytes 4 1 ++ leBytes 2 4096 ++ leBytes 2 0 ++
  leBytes 2 0 ++ leBytes 2 0 ++ leBytes 2 1 ++ [1, 2, 0])

/-- The slot entry of a slot that prefills one token, of the record at 65,536. -/
def tEntry : List Byte := leBytes 2 0 ++ [1, 0] ++ leBytes 2 1 ++ zeros 2 ++ leBytes 8 65536 ++ leBytes 8 524288 ++ leBytes 4 0x3F800000 ++
  leBytes 4 0x3F800000 ++ leBytes 4 0x7FFFFFFF

/-- ServiceDescriptors. -/
theorem test_service_descriptors :
    (∃ x, Taken (tMore (tHead kindImageLoad x) fun d => (d.updThread 0 0 fun t => { t with state := .idle })) x kindImageLoad
      tHeadRing) ∧
    Taken (tMore (tHead kindSelect tSelect) fun d => d.store 196608 (tableHeader 1 0 16 0 tCfg)) tSelect kindSelect tHeadRing ∧
    (∃ x, Taken (tMore (tHead kindStep x) fun d => d.store 262144 tEntry) x kindStep tHeadRing) :=
  ⟨⟨tDesc (leBytes 4 1), tTaken (by decide +kernel) rfl⟩, tTaken (by decide +kernel) rfl,
   ⟨tDesc (leBytes 8 262144 ++ leBytes 8 327680 ++ leBytes 2 1), tTaken (by decide +kernel) rfl⟩⟩

/-- DroveDescriptors. -/
theorem test_drove_descriptors :
    (∃ x, Taken (tHead kindCreate x) x kindCreate tHeadRing ∧ fieldU64 (rowBytes kindCreate x) 40 = 0) ∧
    (∃ x, Taken (tHead kindCreate x) x kindCreate tHeadRing ∧ fieldU64 (rowBytes kindCreate x) 40 ≠ 0) ∧
    (∃ x, Taken (tHead kindOffer x) x kindOffer tHeadRing ∧ fieldU8 (rowBytes kindOffer x) 36 = 8) ∧
    (∃ x, Taken (tHead kindRelease x) x kindRelease tHeadRing) :=
  ⟨⟨tDesc (leBytes 8 327680), tAtHead (by decide +kernel), by decide +kernel⟩,
   ⟨tDesc (leBytes 8 327680 ++ zeros 16 ++ leBytes 8 262144), tAtHead (by decide +kernel), by decide +kernel⟩,
   ⟨tDesc (leBytes 8 65536 ++ leBytes 8 262144 ++ leBytes 4 800000000 ++ [8]), tAtHead (by decide +kernel), by decide +kernel⟩,
   ⟨tDesc (leBytes 8 65536), tAtHead (by decide +kernel)⟩⟩

/-- A plan of one RECORD entry for paddock 0 of device 9. -/
def tPlan : List Byte := leBytes 4 9 ++ zeros 12

/-- An offer of the record at 65,536 to it, for the longest time, and a release of that record. -/
def tOffered : Desc := tDesc (leBytes 8 65536 ++ leBytes 8 262144 ++ leBytes 4 800000000 ++ [1])
def tReleased : Desc := tDesc (leBytes 8 65536)

/-- DroveDescriptors: the offer and the release begin. -/
theorem test_drove_begins :
    (let s := tMore (tHead kindOffer tOffered) fun d => d.store 262144 tPlan
     let d := s.taken tOffered kindOffer tHeadRing
     tTakes s tOffered kindOffer tHeadRing = true ∧ d.mustWait 0 65536 = false ∧ d.recState 65536 = 1 ∧
     d.recEpoch 65536 ≠ 0xFFFFFFFF ∧ d.handingCount < 8192 ∧ d.planCheck 0 65536 262144 1 = none) ∧
    (let d := (tHead kindRelease tReleased).taken tReleased kindRelease tHeadRing
     d.mustWait 0 65536 = false ∧ d.recState 65536 = 1 ∧ Table.find d.service.releases 65536 = none ∧
     remotesOf (d.recContent 65536) = []) := by decide +kernel

/-- A COPY pull of 16 entries from device 9. -/
def tPull : Desc :=
  tDesc (leBytes 8 (9 * 2 ^ 46) ++ zeros 8 ++ leBytes 8 131072 ++ zeros 5 ++ [2] ++ zeros 2 ++ leBytes 4 0 ++ leBytes 4 16)

/-- A device whose paddock is in no fold, with that pull at the head of its ring. -/
def tPulls : State := tMore (tHead kindPull tPull) fun d => { d with service := { d.service with folds := [] } }

theorem tPulls_conns : (tPulls.taken tPull kindPull tHeadRing).net.conns = [(1, tConn)] := by decide +kernel

/-- DroveDescriptors, DROVE_PULL: for the free values (log entry 97) under which connection 1 leads to the paddock that holds
the record. -/
theorem test_drove_pull (h : holderPaddock (9 * 2 ^ 46) = tConn.peerPaddock) :
    Taken tPulls tPull kindPull tHeadRing ∧ fieldU32 (rowBytes kindPull tPull) 52 = 16 ∧
    fieldU64 (rowBytes kindPull tPull) 16 = 9 * 2 ^ 46 ∧
    (tPulls.taken tPull kindPull tHeadRing).holderConn 0 (9 * 2 ^ 46) = some 1 := by
  refine ⟨tTaken (by decide +kernel) rfl, by decide +kernel, by decide +kernel, ?_⟩
  have f : (tPulls.taken tPull kindPull tHeadRing).foldNumber 0 = 0 := by decide +kernel
  simp only [Device.holderConn, Device.droveConns, Device.pairInMap, Device.pairInCurrent, f, tPulls_conns, h]
  simp [tConn, refDevice]

/-- PrefixDescriptors: a tree that holds one pinned node; TIER_MOVE of one raw block out of the tier. -/
theorem test_prefix_descriptors :
    (∃ x, Taken (tHead kindLookup x) x kindLookup tHeadRing) ∧ (∃ x, Taken (tHead kindInsert x) x kindInsert tHeadRing) ∧
    (∃ x, Taken (tMore (tHead kindUnpin x) fun d => d.store (0x600000 + 64 * 1023 + 24) [1]) x kindUnpin tHeadRing ∧
      fieldU32 (rowBytes kindUnpin x) 16 = 1023) ∧
    (∃ x, Taken (tHead kindEvict x) x kindEvict tHeadRing) ∧
    (∃ x, Taken (tHead kindTierMove x) x kindTierMove tHeadRing ∧
      fieldU64 (rowBytes kindTierMove x) 16 = 0x80000000000 ∧ fieldU64 (rowBytes kindTierMove x) 24 = 0 ∧
      ((tHead kindTierMove x).taken x kindTierMove tHeadRing).windowFor 0 0 (tierEdge 0x80000000000) 0 16 = some (winAt tImage 304) ∧
      ((tHead kindTierMove x).taken x kindTierMove tHeadRing).routeDown (winAt tImage 304) = false) :=
  ⟨⟨tDesc (zeros 8 ++ leBytes 4 16 ++ zeros 4 ++ leBytes 8 131072), tAtHead (by decide +kernel)⟩,
   ⟨tDesc (zeros 8 ++ leBytes 4 16 ++ zeros 4 ++ leBytes 8 131072), tAtHead (by decide +kernel)⟩,
   ⟨tDesc (leBytes 4 1023), tTaken (by decide +kernel) rfl, by decide +kernel⟩,
   ⟨tDesc (leBytes 4 1), tAtHead (by decide +kernel)⟩,
   ⟨tDesc (leBytes 8 0x80000000000 ++ leBytes 8 0 ++ leBytes 4 1 ++ zeros 4 ++ [1]), tAtHead (by decide +kernel), by decide +kernel, by decide +kernel, by decide +kernel,
     by decide +kernel⟩⟩

/-- DescriptorPosted: a LIVE ring that stands empty. -/
theorem test_posted : (tOwned.dev.ring 0).map (·.state) = some .live ∧ tOwned.dev.headOf tRing = none := by decide +kernel

/-! ### Witnesses: frames -/

/-- A device whose link 0 is UP, with an exposure of paddock 0, a posted RECV, connection 1 and the bound manager's
connection 2. -/
def tNet : State := tMore tOwned fun d =>
  { d with
    net := { d.net with
      ports := d.net.ports.setIfInBounds 0 { link0 := { state := .up } },
      conns := [(1, { tConn with recvRing := 0 }), (2, { tConn with mgmt := true, paddock := 0xFF })],
      rings := [(0, { tRing with recvs := [(0, 524288, 64)] })],
      exposures := [(0, { key := 0, paddock := 0, rights := 7, onDemand := false, base := 0, length := 2 ^ 45, present := 0,
                          missBell := 0xFFFF, world := .nonsecure })] },
    security := { d.security with bound := some (9, 2, 1) } }

/-- A frame of device 9 with an extension and a payload. -/
def tFrame (conn : BitVec 32) (ext payload : List Byte) : Frame :=
  { dst := 5, src := 9, conn := conn, gen := 1, psn := 255, ext := ext, payload := payload,
    payloadLength := BitVec.ofNat 16 payload.length }

/-- Whether a frame arrives. -/
def tArrives (s : State) (opcode : Nat) (f : Frame) : Bool :=
  decide ((s.dev.link 0).state = .up) && frameFits opcode f && (s.received 0 opcode f).addressed opcode f s.dev.now

theorem tArrived {s : State} {opcode : Nat} {f : Frame} (h : tArrives s opcode f = true) : Arrives s 0 opcode f := by
  simp only [tArrives, Bool.and_eq_true, decide_eq_true_eq] at h
  exact ⟨h.1.1, h.1.2, h.2⟩

/-- Whether a frame comes on its connection. -/
def tComes (s : State) (opcode : Nat) (f : Frame) : Bool := tArrives s opcode f &&
  match (s.received 0 opcode f).conn f.conn.toNat with
  | some c => c.cached && decide (c.state = .open ∨ c.state = .closing) && decide (c.gen = f.gen.toNat) &&
      (!(decide (opcode = 0x21) || c.pageAccess opcode) || (s.received 0 opcode f).fromManager f)
  | none => false

theorem tCame {s : State} {opcode : Nat} {f : Frame} (h : tComes s opcode f = true) : ∃ c, Comes s 0 opcode f c := by
  unfold tComes at h
  rw [Bool.and_eq_true] at h
  revert h
  cases hc : (s.received 0 opcode f).conn f.conn.toNat with
  | none => intro h; exact absurd h.2 (by simp)
  | some c =>
    intro h
    simp only [Bool.and_eq_true, decide_eq_true_eq, Bool.or_eq_true, Bool.not_eq_true', Bool.or_eq_false_iff] at h
    refine ⟨c, ⟨tArrived h.1, hc, h.2.1.1.1, h.2.1.1.2, h.2.1.2, fun hm => ?_⟩⟩
    rcases h.2.2 with hn | hy
    · rcases hm with hm | hm
      · exact absurd hm (by simpa using hn.1)
      · rw [hn.2] at hm; exact absurd hm (by simp)
    · exact hy

/-- The connection once it has taken a frame's header. -/
def tAfter (s : State) (opcode : Nat) (f : Frame) : Conn := ((s.headed 0 opcode f).conn f.conn.toNat).getD tConn

/-- Whether a frame is new and meets no refusal. -/
def tNew (s : State) (opcode : Nat) (f : Frame) : Bool :=
  let c := tAfter s opcode f
  tComes s opcode f && ((s.headed 0 opcode f).conn f.conn.toNat).isSome &&
    decide (c.rxNext ≤ wirePsn c.rxNext f.psn.toNat ∧ c.rxSeen.contains (wirePsn c.rxNext f.psn.toNat) = false) &&
    decide (wirePsn c.rxNext f.psn.toNat < c.rxNext + 256) && decide ((s.headed 0 opcode f).refusal c (s.arrived 0 opcode f) = 0)

theorem tFresh {s : State} {opcode : Nat} {f : Frame} (h : tNew s opcode f = true) :
    Fresh s 0 opcode f (tAfter s opcode f) := by
  simp only [tNew, Bool.and_eq_true, decide_eq_true_eq] at h
  obtain ⟨⟨⟨⟨h1, h2⟩, h3⟩, h4⟩, h5⟩ := h
  refine ⟨tCame h1, ?_, h3, h4, h5⟩
  unfold tAfter
  revert h2
  cases (s.headed 0 opcode f).conn f.conn.toNat with
  | none => intro h; exact absurd h (by simp)
  | some c => intro _; rfl

/-- A frame of the longest WRITE into block 0. -/
def tWriteFrame : Frame := tFrame 1 (accessExt bufferBase 0 noBell 0 0 0 8192) (zeros 8192)

/-- RequestFrames: 256 ahead of the stream's place at most, with the longest payloads and reads. -/
theorem test_request_frames :
    Fresh tNet 0 0x01 tWriteFrame (tAfter tNet 0x01 tWriteFrame) ∧ (tAfter tNet 0x01 tWriteFrame).mgmt = false ∧
    (∃ f c, Fresh tNet 0 0x01 f c ∧ c.mgmt = true) ∧ (∃ f c, Fresh tNet 0 0x02 f c ∧ f.payload.length = 64) ∧
    (∃ f c, Fresh tNet 0 0x03 f c ∧ c.mgmt = false ∧ (accessOf f.ext).length = 0x100000) ∧
    (∃ f c, Fresh tNet 0 0x03 f c ∧ c.mgmt = true) ∧ (∃ f c, Fresh tNet 0 0x05 f c ∧ (accessOf f.ext).aop = 6) ∧
    (∃ f c, Fresh tNet 0 0x07 f c ∧ ((tNet.seen 0 0x07 f c).ring c.recvRing).bind (·.recvs.head?) = some (0, 524288, 64) ∧
      f.payload.length = 64) ∧
    (∃ f c, Fresh tNet 0 0x21 f c) :=
  ⟨tFresh (by decide +kernel), by decide +kernel,
   ⟨tFrame 2 (accessExt 0xFFF8 0 noBell 0 0 0 8) (zeros 8), _, tFresh (by decide +kernel), by decide +kernel⟩,
   ⟨tFrame 1 (accessExt bufferBase 0 noBell 0 0 0 64) (zeros 64), _, tFresh (by decide +kernel), by decide +kernel⟩,
   ⟨tFrame 1 (accessExt bufferBase 0 noBell 0 0 0 0x100000) [], _, tFresh (by decide +kernel), by decide +kernel, by decide +kernel⟩,
   ⟨tFrame 2 (accessExt 0 0 noBell 0 0 0 8) [], _, tFresh (by decide +kernel), by decide +kernel⟩,
   ⟨tFrame 1 (accessExt 8 0 noBell 0 6 0 8) (zeros 16), _, tFresh (by decide +kernel), by decide +kernel⟩,
   ⟨tFrame 1 [] (zeros 64), _, tFresh (by decide +kernel), by decide +kernel, by decide +kernel⟩,
   ⟨tFrame 2 [] (zeros 32), _, tFresh (by decide +kernel)⟩⟩

/-- DroveFrames: a message of each type; a RECORD carries the record's 192 bytes. -/
theorem test_drove_frames : ∀ k ∈ List.range' 1 12,
    ∃ f c, Fresh tNet 0 0x23 (typed k f) c ∧ (typed k f).payload.length = if k = 4 then 240 else 48 := fun k hk =>
  ⟨tFrame 1 [] (zeros (if k = 4 then 240 else 48)), _,
   tFresh (List.all_eq_true.1 (by decide +kernel : ((List.range' 1 12).all fun k =>
     tNew tNet 0x23 (typed k (tFrame 1 [] (zeros (if k = 4 then 240 else 48))))) = true) k hk),
   of_decide_eq_true (List.all_eq_true.1 (by decide +kernel : ((List.range' 1 12).all fun k => decide
     ((typed k (tFrame 1 [] (zeros (if k = 4 then 240 else 48)))).payload.length = if k = 4 then 240 else 48)) = true) k hk)⟩

/-- A frame without a connection. -/
def tLone : Frame := tFrame 0xFFFFFFFF [] (zeros 64)

/-- AnswerFrames: a note of the connection's peer, new and seen before, and of a stranger. -/
theorem test_answer_frames :
    (∃ f c, Comes tNet 0 0x04 f c) ∧ (∃ f c, Comes tNet 0 0x06 f c) ∧ (∃ f c, Comes tNet 0 0x10 f c) ∧
    (∃ f c, Comes tNet 0 0x11 f c) ∧ Arrives tNet 0 0x20 (typed 1 tLone) ∧ Arrives tNet 0 0x20 (typed 2 tLone) ∧
    Arrives tNet 0 0x24 tLone ∧
    ((tNet.received 0 0x24 tLone).net.conns.any fun e => decide (e.2.peer = tLone.src.toNat)) = true ∧
    (tNet.received 0 0x24 tLone).faults.notesSeen.contains (9, 0, 0, 0) = false ∧
    Arrives (tMore tNet fun d => d.mapFaults fun y => { y with notesSeen := [(9, 0, 0, 0)] }) 0 0x24 tLone ∧
    Arrives tNet 0 0x24 { tLone with src := 10 } ∧
    ((tNet.received 0 0x24 { tLone with src := 10 }).inSomeFold 10 || (tNet.received 0 0x24 { tLone with src := 10 }).net.conns.any
      fun e => decide (e.2.peer = 10)) = false :=
  ⟨⟨tFrame 1 (responseExt 0 0 0) (zeros 8), tCame (by decide +kernel)⟩,
   ⟨tFrame 1 (responseExt 0 0 0) (zeros 8), tCame (by decide +kernel)⟩,
   ⟨tFrame 1 (zeros 48) [], tCame (by decide +kernel)⟩, ⟨tFrame 1 (zeros 16) [], tCame (by decide +kernel)⟩,
   tArrived (by decide +kernel), tArrived (by decide +kernel), tArrived (by decide +kernel), by decide +kernel, by decide +kernel,
   tArrived (by decide +kernel), tArrived (by decide +kernel), by decide +kernel⟩

/-- FramesTurnedAway: a link that is not UP; a reserved byte that is not zero; another device's frame. -/
theorem test_frames_turned_away :
    (tNet.dev.link 2).state ≠ .up ∧ (tNet.dev.link 0).state = .up ∧ frameFits 0x01 { tWriteFrame with reserved := 1 } = false ∧
    frameFits 0x01 { tWriteFrame with dst := 6 } = true ∧
    (tNet.received 0 0x01 { tWriteFrame with dst := 6 }).addressed 0x01 { tWriteFrame with dst := 6 } tNet.dev.now = false := by
  decide +kernel

/-- FramesRefused: a PSN seen before, one 256 ahead, a SEND with no RECV posted (9), and one longer than the RECV (4). -/
theorem test_frames_refused :
    (let s := tMore tNet fun d => d.updConn 1 fun c => { c with rxSeen := [255] }
     (∃ c0, Comes s 0 0x01 tWriteFrame c0) ∧ (tAfter s 0x01 tWriteFrame).rxSeen.contains 255 = true) ∧
    (∃ c0, Comes tNet 0 0x01 { tWriteFrame with psn := 256 } c0) ∧
    (tAfter tNet 0x01 { tWriteFrame with psn := 256 }).rxNext + 256 = wirePsn 0 256 ∧
    (let s := tMore tNet fun d => d.updRing 0 fun r => { r with recvs := [] }
     let f := tFrame 1 [] (zeros 64)
     (∃ c0, Comes s 0 0x07 f c0) ∧ (s.headed 0 0x07 f).refusal (tAfter s 0x07 f) (s.arrived 0 0x07 f) = 9) ∧
    (let f := tFrame 1 [] (zeros 65)
     (∃ c0, Comes tNet 0 0x07 f c0) ∧ (tNet.headed 0 0x07 f).refusal (tAfter tNet 0x07 f) (tNet.arrived 0 0x07 f) = 4) :=
  ⟨⟨tCame (by decide +kernel), by decide +kernel⟩, tCame (by decide +kernel), by decide +kernel,
   ⟨tCame (by decide +kernel), by decide +kernel⟩, ⟨tCame (by decide +kernel), by decide +kernel⟩⟩

/-! ### Witnesses: droves on the wire -/

/-- A drove message of a type on connection 1, at epoch 1, about a record and a table of its holder. -/
def tMsg (k record table : Nat) (rest : List Byte := []) : Frame :=
  typed k (tFrame 1 [] ([0, 0, 0, 0] ++ leBytes 4 1 ++ leBytes 8 record ++ leBytes 8 table ++ zeros 24 ++ rest))

/-- An offer of the record at 65,536 to the paddock at the far end of connection 1: pages and record; the pages are held, and the
record is on its way. -/
def tOffer : Offer :=
  { ring := 0, index := 0, paddock := 0, epoch := 1, deadline := 0, recordSent := true,
    plan := [{ device := 9, paddock := tConn.peerPaddock, record := false, first := 0, count := 1, held := 1 },
             { device := 9, paddock := tConn.peerPaddock, record := true, first := 0, count := 0 }] }

/-- A device outside every fold with droves under way. -/
def tDroves (v : Service) : State := tMore tNet fun d => { (tStored d) with service := { v with folds := [] } }

/-- A device that offers that record, with its D at this tick. -/
def tSource (o : Offer) : State := tDroves { offers := [(65536, o)] }

theorem tTraced_service (d : Device) (a b c e p q : Nat) : (d.traced a b c e p q).service = d.service := by
  unfold Device.traced
  simp only
  simp only [apply_ite Device.service, Device.mapTrace_service, ite_self]
theorem tHeader_service (d : Device) (id k : Nat) (f : Frame) (h : f.flags.getLsbD 5 = false) :
    (d.takeHeader id k f).service = d.service := by
  unfold Device.takeHeader
  cases d.conn id with
  | none => rfl
  | some c =>
    simp only [h]
    rw [if_neg (by simp)]
    split
    · rfl
    · rfl
theorem tSeen_service (s : State) (k : Nat) (f : Frame) (c : Conn) (h : f.flags.getLsbD 5 = false) :
    (s.seen 0 k f c).service = s.dev.service := by
  have hr : (s.received 0 k f).service = s.dev.service := tTraced_service _ _ _ _ _ _ _
  have hh : (s.headed 0 k f).service = s.dev.service := by
    rw [← hr]
    exact tHeader_service _ _ _ _ h
  have hk : ∀ (d : Device) id psn x r, (d.keepBell id psn x r).service = d.service := by
    intro d id psn x r
    unfold Device.keepBell
    simp only
    split
    · split
      · rfl
      · split <;> rfl
    · rfl
  rw [← hh]
  exact hk _ _ _ _ _

/-- What such a frame finds: the droves under way, and no map that would turn its sender away. -/
theorem tDroves_ready (v : Service) (f : Frame) (c : Conn) (h : f.flags.getLsbD 5 = false) :
    ((tDroves v).seen 0 0x23 f c).service = { v with folds := [] } ∧
    ∀ p x y, ((tDroves v).seen 0 0x23 f c).pairInMap (((tDroves v).seen 0 0x23 f c).foldNumber p) x y = true := by
  have g := tSeen_service (tDroves v) 0x23 f c h
  refine ⟨g, fun p x y => ?_⟩
  have n : ((tDroves v).seen 0 0x23 f c).foldNumber p = 0 := by
    unfold Device.foldNumber Device.foldOf
    rw [g]; rfl
  rw [n]
  unfold Device.pairInMap Device.pairInCurrent
  rw [if_pos rfl, Bool.true_or]

/-- The entries of that offer for its receiver. -/
theorem tOffer_entries (q : Conn) (hp : q.peer = 9) (hq : q.peerPaddock = tConn.peerPaddock) :
    (tOffer.entryFor q false).isSome = true ∧ (tOffer.entryFor q true).isSome = true ∧ tOffer.allHeld = true ∧
    tOffer.recordEntry = tOffer.entryFor q true := by
  simp [tOffer, Offer.entryFor, Offer.allHeld, Offer.recordEntry, hp, hq]

/-- The connection as the device of a message has it. -/
def tOn1 (s : State) (f : Frame) (c : Conn) : Conn := ((s.seen 0 0x23 f c).conn 1).getD tConn

/-- Whether a message is new on its connection, and at epoch 1. -/
def tAtDrove (s : State) (f : Frame) : Bool :=
  let c := tAfter s 0x23 f
  let q := tOn1 s f c
  tNew s 0x23 f && decide ((s.seen 0 0x23 f c).conn 1 = some q) && decide (q.peer = 9) && decide (q.peerConn = 1) &&
    decide (q.gen = 1) && decide ((droveMsgOf f.payload).epoch = 1) && !f.flags.getLsbD 5

/-- The hypotheses that every clause of DroveFrames has, for a frame at a device with droves under way. -/
theorem tDrove_common {v : Service} {f : Frame} (h : tAtDrove (tDroves v) f = true) :
    let s := tDroves v
    let c := tAfter s 0x23 f
    let q := tOn1 s f c
    Fresh s 0 0x23 f c ∧ (s.seen 0 0x23 f c).conn 1 = some q ∧ q.peer = 9 ∧ q.peerPaddock = tConn.peerPaddock ∧
    (droveMsgOf f.payload).epoch = 1 ∧ (s.seen 0 0x23 f c).service = { v with folds := [] } ∧
    (s.seen 0 0x23 f c).pairInMap ((s.seen 0 0x23 f c).foldNumber q.paddock) q.peer q.peerPaddock = true := by
  intro s c q
  simp only [tAtDrove, Bool.and_eq_true, decide_eq_true_eq, Bool.not_eq_true'] at h
  obtain ⟨⟨⟨⟨⟨⟨h1, h2⟩, h3⟩, h4⟩, h5⟩, h6⟩, h7⟩ := h
  have r := tDroves_ready v f c h7
  refine ⟨tFresh h1, h2, h3, ?_, h6, r.1, r.2 _ _ _⟩
  unfold Conn.peerPaddock
  rw [h3, h4, h5]; rfl

/-- DroveFrames, at the source: PULL_PAGES, PAGES_HELD, PULL_RECORD and CONFIRM of the receiver at the last tick of the offer. -/
theorem test_drove_source : ∀ k ∈ [1, 2, 3, 5],
    tAtDrove (tSource tOffer) (tMsg k (65536 + 5 * 2 ^ 46) 131072) = true ∧
    (droveMsgOf (tMsg k (65536 + 5 * 2 ^ 46) 131072).payload).record % 2 ^ 46 = 65536 ∧
    tOffer.retags = none ∧ (tSource tOffer).dev.now ≤ tOffer.deadline := fun k hk =>
  have h : ∀ k ∈ [1, 2, 3, 5], tAtDrove (tSource tOffer) (tMsg k (65536 + 5 * 2 ^ 46) 131072) = true ∧
      (droveMsgOf (tMsg k (65536 + 5 * 2 ^ 46) 131072).payload).record % 2 ^ 46 = 65536 := by decide +kernel
  ⟨(h k hk).1, (h k hk).2, rfl, Nat.le_refl 0⟩

/-- DroveFrames: the last RETAG_DONE and RELEASE_DONE of the holder at device 9. -/
theorem test_drove_done :
    let table := 131072 + 9 * 2 ^ 46
    let v : Service := { offers := [(65536, { tOffer with retags := some [(table, 1)] })],
                         releases := [(65536, { ring := some (0, 0), paddock := 0, waiting := [(table, 1)] })] }
    tAtDrove (tDroves v) (tMsg 10 (65536 + 5 * 2 ^ 46) table) = true ∧
    tAtDrove (tDroves v) (tMsg 12 (65536 + 5 * 2 ^ 46) table) = true ∧
    withoutHolder [(table, 1)] { tConn with peer := 9 } table = [] := by decide +kernel

/-- A pull of a record at device 9, under way or done. -/
def tPulling (mode : Nat) (done : Bool) : Pull :=
  { ring := 0, index := 0, paddock := 0, mode := mode, source := 65536 + 9 * 2 ^ 46, record := if mode = 0 then 65536 else 0,
    table := 131072, shadow := 0, epoch := 1, left := 0, done := done, conn := 1 }

/-- The record's content that RECORD carries, with its CRC. -/
def tContent : List Byte := zeros 184 ++ leBytes 4 (crc32c (zeros 184)) ++ zeros 4

/-- DroveFrames, at a receiver: RECORD, RELEASED to a page receiver, ABORT and REFUSE, for the free values (log entry 97) under
which connection 1 leads to the paddock that holds the record. -/
theorem test_drove_receiver (h : tConn.peerPaddock = holderPaddock (65536 + 9 * 2 ^ 46)) :
    ∀ e ∈ [(4, 0, false, tContent), (6, 1, true, []), (7, 0, true, []), (8, 0, false, [])],
      let v : Service := { pulls := [tPulling e.2.1 e.2.2.1] }
      let f := tMsg e.1 (65536 + 9 * 2 ^ 46) 131072 e.2.2.2
      tAtDrove (tDroves v) f = true ∧
      (((tDroves v).seen 0 0x23 f (tAfter (tDroves v) 0x23 f)).pullsFor 1 (droveMsgOf f.payload)) = [tPulling e.2.1 e.2.2.1] := by
  intro e he v f
  have g : ∀ e ∈ [(4, 0, false, tContent), (6, 1, true, []), (7, 0, true, []), (8, 0, false, [])],
      tAtDrove (tDroves { pulls := [tPulling e.2.1 e.2.2.1] }) (tMsg e.1 (65536 + 9 * 2 ^ 46) 131072 e.2.2.2) = true ∧
      (tOn1 (tDroves { pulls := [tPulling e.2.1 e.2.2.1] }) (tMsg e.1 (65536 + 9 * 2 ^ 46) 131072 e.2.2.2)
        (tAfter (tDroves { pulls := [tPulling e.2.1 e.2.2.1] }) 0x23 (tMsg e.1 (65536 + 9 * 2 ^ 46) 131072 e.2.2.2))).paddock = 0 ∧
      (droveMsgOf (tMsg e.1 (65536 + 9 * 2 ^ 46) 131072 e.2.2.2).payload).record = 65536 + 9 * 2 ^ 46 := by decide +kernel
  obtain ⟨g1, g2, g3⟩ := g e he
  obtain ⟨-, c2, c3, c4, c5, c6, -⟩ := tDrove_common g1
  refine ⟨g1, ?_⟩
  unfold Device.pullsFor
  rw [c2, c6]
  simp only [f, List.filter_cons, List.filter_nil, tPulling] at g2 g3 c3 c4 c5 ⊢
  simp only [g2, g3, c3, c4, c5, h]
  simp [refDevice]

/-- DroveFrames, at a holder: RETAG and RELEASE_PAGES of a table at epoch 1, and of none, that were not answered before. -/
theorem test_drove_holder : ∀ e ∈ [(9, 131072), (11, 131072), (11, 0x7F000000)],
    let s := tMore (tDroves {}) fun d => d.setTableEpoch 131072 1
    let f := tMsg e.1 (65536 + 9 * 2 ^ 46) (e.2 + 5 * 2 ^ 46)
    let c := tAfter s 0x23 f
    let q := tOn1 s f c
    tAtDrove s f = true ∧ (s.seen 0 0x23 f c).answeredBefore q (droveMsgOf f.payload) = none ∧
    ((s.seen 0 0x23 f c).tableCovered q.paddock ((droveMsgOf f.payload).table % 2 ^ 46) = decide (e.2 = 131072)) ∧
    (e.2 = 131072 → (s.seen 0 0x23 f c).tableEpoch ((droveMsgOf f.payload).table % 2 ^ 46) = 1) := by decide +kernel

/-! ### Witnesses: the windows of frames, and the requests that answers end -/

/-- RequestFrames: the windows that the longest WRITE and a SEND join have their route up; a MGMT_CMD has its queue entry. -/
theorem test_request_windows :
    (let d := ((tNet.seen 0 0x01 tWriteFrame (tAfter tNet 0x01 tWriteFrame)).accessBegun tWriteFrame).rxWaits 1 255
     d.windowFor 0 0 0 bufferBase tWriteFrame.cls.toNat = some (winAt tImage 176) ∧ d.routeDown (winAt tImage 176) = false) ∧
    (let f := tFrame 1 [] (zeros 64)
     let d := ((tNet.seen 0 0x07 f (tAfter tNet 0x07 f)).updRing 0 fun r => { r with recvs := r.recvs.drop 1 }).rxWaits 1 255
     d.windowFor 0 0 0 524288 f.cls.toNat = some (winAt tImage 336) ∧ d.routeDown (winAt tImage 336) = false) ∧
    (let f := tFrame 2 [] (zeros 32)
     (tNet.seen 0 0x21 f (tAfter tNet 0x21 f)).mgmtEntry (fieldU16 f.payload 0) = some 0 ∧
     (tNet.seen 0 0x21 f (tAfter tNet 0x21 f)).serves (pathOf .fabric 0) = true) := by decide +kernel

/-- A request of connection 1 that waits for its answer. -/
def tAsked (opcode : Nat) : TxPacket :=
  { psn := 0, opcode := opcode, ext := accessExt 0 0 noBell 0 0 0 8, payload := [], msgFlags := 3, cls := 3, ring := some 0,
    origin := .descriptor 0 0, released := true, sentAt := some 0, wantsAnswer := true }

/-- A device whose connection 1 has sent that request. -/
def tAsking (opcode : Nat) : State := tMore tNet fun d => d.updConn 1 fun c => { c with nextPsn := 1, tx := [tAsked opcode] }

/-- AnswerFrames: the last bytes of a READ, an ATOMIC's old value, and a NAK of each kind (the code in byte 4). -/
theorem test_answers :
    (∀ e ∈ [(0x04, 3), (0x06, 5)], let f := tFrame 1 (responseExt 0 0 0) (zeros 8)
      let s := tAsking e.2
      tComes s e.1 f = true ∧ ((s.headed 0 e.1 f).conn 1).bind (fun q => q.tx.find? fun t =>
        decide (t.psn = wirePsn q.ackedTo (fieldBe f.ext 0 4) ∧ t.opcode = e.2) && t.wantsAnswer) = some (tAsked e.2) ∧
      fieldBe (tAsked e.2).ext 24 4 ≤ 0 + f.payload.length) ∧
    (∀ code ∈ [1, 7, 9], let f := tFrame 1 (beBytes 4 0 ++ beBytes 1 code ++ zeros 11) []
      tComes (tAsking 3) 0x11 f = true ∧ ((tAsking 3).headed 0 0x11 f).conn 1 ≠ none ∧ fieldBe f.ext 4 1 = code) := by decide +kernel

/-- AnswerFrames: a sync request of a fold member at a LOCKED device, and a response of the open burst. -/
theorem test_sync_frames :
    (let s := tMore tNet fun d => { d.mapTally fun t => { t with state := .locked } with
       service := { folds := [(1, { current := some { version := 1, devices := 1, drainUs := 10, entries := [(9, 0, 3)] } })] } }
     tArrives s 0x20 (typed 1 tLone) = true ∧ (s.received 0 0x20 (typed 1 tLone)).tally.state = .locked ∧
     (s.received 0 0x20 (typed 1 tLone)).inSomeFold 9 = true) ∧
    (let g := typed 2 { tLone with payload := [2, 2, 0] ++ zeros 61 }
     let s := tMore tNet fun d => d.mapTally fun t => { t with burstSent := [(0, 0)] }
     tArrives s 0x20 g = true ∧ fieldU8 g.payload 1 ≠ 0 ∧ fieldU8 g.payload 1 ≠ 1 ∧ fieldU8 g.payload 2 < 4 ∧
     (s.received 0 0x20 g).tally.isSource = false ∧ fieldU32 g.payload 40 = (s.received 0 0x20 g).tally.cfg.rootId ∧
     (s.received 0 0x20 g).tally.burstSent.find? (fun e => decide (e.1 = fieldU32 g.payload 4)) = some (0, 0)) := by decide +kernel

/-! ### Witnesses: steps, pages and events -/

/-- Whether the Tally counts with no committed set due at or before an instant. -/
def tClear (s : State) (t : Nat) : Bool := s.dev.counts && s.dev.committed.all fun e => decide (t < e.2.instant)

theorem tClears {s : State} {t : Nat} (h : tClear s t = true) : Clear s.dev t := by
  simp only [tClear, Bool.and_eq_true, List.all_eq_true, decide_eq_true_eq] at h
  exact ⟨h.1, h.2⟩

/-- Whether a deadline can be decided. -/
def tMayDecide (s : State) (t : Nat) : Bool := tClear s t && !s.dev.unseen t

theorem tDecides {s : State} {t : Nat} (h : tMayDecide s t = true) : Decided s.dev t := by
  simp only [tMayDecide, Bool.and_eq_true, Bool.not_eq_true'] at h
  exact ⟨tClears h.1, h.2⟩

/-- StepRunsFront, IdleStepTicks: a command waits; none waits and the Tally counts. -/
theorem test_step : ({ tOwned with pending := [.leaseExpiry] } : State).pending = [.leaseExpiry] ∧ Clear tOwned.dev 1 :=
  ⟨rfl, tClears (by decide +kernel)⟩

/-- MailboxAnswered: a path with a mailbox of its own. -/
theorem test_mailbox_path : pathMaster .board ≠ .fabric ∧ pathMaster (.host 7) ≠ .fabric := by decide

/-- PageRows: a HOST core may use pair 7, which holds IDENTIFY; a set of HOST; a bell that a window reaches; ring 0. -/
theorem test_page_rows :
    tOwned.dev.pageServed .host = true ∧ (tOwned.dev.pageBits (.host 47)).getLsbD 7 = true ∧
    (tOwned.dev.paths.box (.host 7)).status = .idle ∧ tOwned.dev.serves (.host 7) = true ∧
    (kindOf (fieldU16 (padTo 32 (tOwned.dev.paths.box (.host 7)).cmd) 0)).isSome = true ∧
    (((tOwned.dev.updBox (.host 7) fun b => { b with status := .done }).paths).box (.host 7)).status ≠ .idle ∧
    (bitOf 0x07FF2F01 0 = true ∧ bitsOf 0x07FF2F01 13 8 ≤ 47 ∧ bitsOf 0x07FF2F01 26 16 ≠ 0) ∧
    ((tMore tOwned fun d => { d with staging := { sets := [(0, { owner := .host })] } }).dev.openSet 0 .host).isSome = true ∧
    tOwned.dev.openSet 0 .host = none ∧
    ((tOwned.dev.paddock (bitsOf (2 ^ 32) 22 17)).map fun x => x.names 0 && x.holds && decide (x.world = .nonsecure)) = some true ∧
    (tOwned.dev.windowFor 0 0 6 (bellAddress 0) 16).isSome = true ∧ tOwned.dev.ring 0 = some tRing ∧
    tOwned.dev.isSecure 0 = false ∧ tOwned.dev.registerAt (.host 0) 0x7FF8 = none := by decide +kernel

/-- OwnershipTimers: BOARD and HOST claim, and HOST has the higher priority. -/
theorem test_ownership_timers :
    tOwned.dev.own.owner = some .board ∧ Decided tOwned.dev tOwned.dev.own.leaseExpiry ∧
    (let s := tMore tOwned fun d => { d with own := { claimEnd := some 8000000, claims := [(.board, 0, 0), (.host, 0, 1)] } }
     Decided s.dev 8000000 ∧ s.dev.claimWinner = some .host) ∧
    (let s := tMore tOwned fun d => d.mapOwn fun o => { o with offerTarget := some .host, offerEnd := 800000000 }
     Decided s.dev s.dev.own.offerEnd) :=
  ⟨by decide +kernel, tDecides (by decide +kernel), ⟨tDecides (by decide +kernel), by decide +kernel⟩, tDecides (by decide +kernel)⟩

/-- A state whose thread 0 of block 0 waits. -/
def tWaits (w : WaitFor) : State := tMore tOwned fun d => d.updThread 0 0 fun t => { t with state := .waiting, waits := w }

/-- BlockEvents, a hurdle arrival: counted, of another participant count, and one too many; of two of one stamp, the one of the
lower source comes first. -/
theorem test_hurdle_arrival :
    let a : Arrival := { hurdle := 0, n := 2, block := 0, thread := 0, dest := 3, pass := false, due := 8 }
    let s := tMore tOwned fun d => d.mapFabric fun y => { y with arrivals := [{ a with thread := 1 }, a] }
    s.dev.nextArrival = some a ∧ tClear s a.due = true ∧
    (tOwned.dev.hurdleOwner 0).map (·.1) = some 0 ∧
    (match (({} : Hurdle).arrive 2 (waiterKey 0 0)).2 with | .counted _ => true | _ => false) = true ∧
    ((({} : Hurdle).arrive 2 (waiterKey 0 0)).1.arrive 3 (waiterKey 0 1)).2 = .mismatch ∧ a.n = 2 := by decide +kernel

/-- BlockEvents: the last slot of the frame, a bell and an access that waits, and the first frame to start and the next. -/
theorem test_block_events :
    (let s := tWaits (.slot 4095 0)
     (s.threadOf tT).waits = .slot 4095 0 ∧ (s.threadOf tT).state = .waiting ∧
     (s.dev.slotInstant 0 4095 0).map (fun t => tClear s (max s.dev.now t)) = some true) ∧
    (let s := tWaits (.bell 3 63 1 800)
     (s.threadOf tT).waits = .bell 3 63 1 800 ∧ (s.threadOf tT).state = .waiting ∧ (s.dev.occupant 0).isSome = true ∧
     Decided s.dev 800) ∧
    ((tOwned.dev.resident 0).isSome = true ∧ Clear tOwned.dev 4096) ∧
    (let a : RemoteAccess := { id := 0, op := .load, block := 0, thread := 0, paddock := 0, ctx := 0, address := 0, len := 8, bound := 4000 }
     let s := tMore tOwned fun d => d.mapFabric fun f => { f with remote := [a] }
     leastBy (fun b : RemoteAccess => b.bound) (s.dev.fabric.remote.filter fun b => !b.expired && !b.inTime &&
       decide (b.op = .load ∨ b.op = .atomic ∨ b.op = .get)) = some a ∧ Decided s.dev a.bound) :=
  ⟨by decide +kernel, ⟨by decide +kernel, by decide +kernel, by decide +kernel, tDecides (by decide +kernel)⟩,
   ⟨by decide +kernel, tClears (by decide +kernel)⟩, ⟨by decide +kernel, tDecides (by decide +kernel)⟩⟩

/-- BlockEvents: a BCOPY of one block ends, with a bell and without. -/
theorem test_transfer_done : ∀ k : Option Nat, ∃ x : BaleTransfer, x.bell = k ∧
    (tOwned.dev.runBale 0 0 x).2 = none := fun k =>
  ⟨{ op := .copyIn, thread := 0, buffer := 0, address := 0, count := 1, tensor := 0, bell := k }, rfl, by
    cases k <;> rfl⟩

/-- WindowsAndHostAccesses: a window of block 0 whose paddock holds it; the last word of HBM region 0's first MiB. -/
theorem test_windows_and_host :
    tOwned.dev.awake = true ∧
    (((tOwned.dev.paddock 0).bind fun x => ((tOwned.dev.windowsOf 0).find? fun y => decide (y.window = 0)).map fun w =>
      tOwned.dev.windowServes x w) = some true) ∧
    tOwned.dev.rangeOk 0xFFFF8 8 = true ∧ tOwned.dev.touchesSecure 0xFFFF8 8 = false ∧
    ((tOwned.dev.hostWindow 0 0xFFFF8 8).map fun e => tOwned.dev.routeDown e.2) = some false ∧
    tOwned.dev.hostWindow 1 0xFFFF8 8 = none ∧ tOwned.dev.stileIsDown 39 = false ∧ tOwned.dev.faults.injection = none := by
  decide +kernel

/-- WindowsAndHostAccesses: the first opening of a window that nothing waits for; and a thread whose run for window 3, in slot 0
of its block, comes before the window's next opening. -/
theorem test_window_opens :
    (let win := winAt tImage 176
     (tOwned.dev.windowsOf 0).find? (fun y => decide (y.window = 0)) = some win ∧
     ((tOwned.dev.paddock 0).map fun x => tOwned.dev.windowWaits 0 0 x) = some [] ∧
     Clear tOwned.dev (slotTick (tOwned.dev.openingSlot 0 win))) ∧
    (let s := tMore (tWaits (.window 3)) fun d => d.mapNet fun y => { y with windows := [(3, { next := 4 })] }
     ((s.dev.paddock 0).map fun x => s.dev.windowWaits 0 3 x) = some [(0, 0, 0)] ∧
     0 < slotTick (s.dev.openingSlot 0 (winAt tImage 272)) ∧ Clear s.dev 0) :=
  ⟨⟨by decide +kernel, by decide +kernel, tClears (by decide +kernel)⟩, ⟨by decide +kernel, by decide +kernel, tClears (by decide +kernel)⟩⟩

/-- A packet of connection 1. -/
def tPacket : TxPacket :=
  { psn := 0, opcode := 0x07, ext := [], payload := [1], msgFlags := 3, cls := 3, ring := some 0, origin := .plain }

/-- A state whose connection 1 is changed. -/
def tConnAs (f : Conn → Conn) : State := tMore tOwned fun d => d.updConn 1 f

/-- NetworkTimers: connections. -/
theorem test_connection_timers :
    (let s := tConnAs fun c => { c with tx := [{ tPacket with released := true, sentAt := some 0 }] }
     (s.dev.conn 1).map (fun c => (c.oldest.bind (·.sentAt), c.rto)) = some (some 0, 8000) ∧ Decided s.dev (0 + 8000) ∧
     (s.dev.conn 1).map (fun c => decide (c.tx ≠ [])) = some true ∧ Clear s.dev (0 + 800 * 10000)) ∧
    (let s := tConnAs fun c => { c with unackedSince := some 0 }
     (s.dev.conn 1).bind (·.unackedSince) = some 0 ∧ Clear s.dev (0 + 800)) ∧
    (let s := tConnAs fun c => { c with tx := [{ tPacket with resendAt := some 40000 }] }
     (s.dev.conn 1).bind (·.nextResend) = some (40000, 0) ∧ Clear s.dev 40000) ∧
    (let s := tConnAs fun c => { c with tx := [tPacket] }
     (s.dev.conn 1).bind (·.nextOut) = some tPacket ∧ Clear s.dev (max s.dev.now (0 + 0))) :=
  ⟨⟨by decide +kernel, tDecides (by decide +kernel), by decide +kernel, tClears (by decide +kernel)⟩,
   ⟨by decide +kernel, tClears (by decide +kernel)⟩, ⟨by decide +kernel, tClears (by decide +kernel)⟩,
   ⟨by decide +kernel, tClears (by decide +kernel)⟩⟩

/-- NetworkTimers: an exposure being revoked, a fold that drains, an eligible frame, a gate list, a context being fetched. -/
theorem test_network_timers :
    (let e : Exposure := { key := 0, paddock := 0, rights := 7, onDemand := false, base := 0, length := 64, present := 0,
                           missBell := 0xFFFF, world := .nonsecure, state := .revoking, grace := 80000 }
     let s := tMore tOwned fun d => d.mapNet fun n => { n with exposures := [(0xFFFFF, e)] }
     ((s.dev.exposure 0xFFFFF).map fun e => (e.state, e.revokeAt + e.grace)) = some (.revoking, 80000) ∧ Decided s.dev 80000) ∧
    (let m : FoldMap := { version := 1, devices := 1, drainUs := 1, entries := [] }
     let s := tMore tOwned fun d => { d with service := { folds := [(65535, { drainEnd := 800, previous := some m })] } }
     (s.dev.fold 65535).bind (fun f => leastBy id f.drains) = some 800 ∧ Decided s.dev 800) ∧
    (let q : QueuedFrame := { out := { opcode := 0x10, frame := {} }, len := 84 }
     let u : Port := { link0 := { state := .up, queues := (Vector.replicate 16 []).set 15 [q] } }
     let s := tMore tOwned fun d => d.mapNet fun n => { n with ports := n.ports.setIfInBounds 0 u }
     (s.dev.link 0).sending = none ∧ Clear s.dev s.dev.now ∧
     ((List.range 16).any fun k => ((s.dev.runCredits 0).link 0).eligible ((s.dev.runCredits 0).port 0) s.dev.now k) = true) ∧
    (let u : Port := { gates := some { cycle := 256, phase := 0, entries := [(0xFFFE, 100), (0, 156)] } }
     let s := tMore tOwned fun d => d.mapNet fun n => { n with ports := n.ports.setIfInBounds 31 u }
     ((s.dev.port 31).gates.map fun g => ((g.ahead s.dev.now).head?).map (·.2)) = some (some 100) ∧ Clear s.dev (s.dev.now + 100)) ∧
    (let s := tMore (tConnAs fun c => { c with cached := false }) fun d => d.mapNet fun n => { n with fetching := [1] }
     s.dev.net.fetching.find? (fun k => !s.dev.serviceDown (((s.dev.conn k).map (·.home)).getD 0) (s.dev.contextEdge k)) = some 1 ∧
     (s.dev.conn 1).isSome = true) :=
  ⟨⟨by decide +kernel, tDecides (by decide +kernel)⟩, ⟨by decide +kernel, tDecides (by decide +kernel)⟩,
   ⟨by decide +kernel, tClears (by decide +kernel), by decide +kernel⟩, ⟨by decide +kernel, tClears (by decide +kernel)⟩,
   ⟨by decide +kernel, by decide +kernel⟩⟩

/-- A state with a changed Tally. -/
def tTally (f : Tally → Tally) : State := tMore tOwned fun d => d.mapTally f

/-- TallyEvents: a device with a parent; the holdover limit of both roles; errors of 0.125 ticks, one more and more than 100
ticks before the second; the third missed edge; the PPS output. -/
theorem test_tally_events :
    (let s := tTally fun t => { t with cfg := { t.cfg with primaryLink := 0 } }
     s.dev.tally.isSource = false ∧ s.dev.tally.link ≠ 0xFF ∧ Clear s.dev s.dev.tally.burstDue) ∧
    (∀ r : TallyRole, let s := tTally fun t => { t with state := .holdover, cfg := { t.cfg with role := r } }
     Decided s.dev s.dev.tally.holdoverEnd) ∧
    (tTally fun t => { t with state := .locked }).dev.tally.isSource = false ∧
    (let err := fun (now frac : Nat) => (65536 * ((now + second / 2) / second * second) : Int) - (65536 * now + frac)
     err second 8192 = -8192 ∧ err second 8193 = -8193 ∧ err (second + 100) 0 = -6553600 ∧ err (second / 2) 0 = 65536 * 400000000) ∧
    Clear tOwned.dev ((0 + second - 1) / second * second) ∧
    Clear (tTally fun t => { t with ppsOut := true }).dev (0 / second * second + second / 10) :=
  ⟨⟨by decide +kernel, by decide +kernel, tClears (by decide +kernel)⟩, fun r => tDecides (by cases r <;> decide +kernel), by decide +kernel, by decide +kernel,
   tClears (by decide +kernel), tClears (by decide +kernel)⟩

/-- PowerAndLinkEvents: a third reading of 115 C; a limit passed; all eased; between the two; blocks and links in each state. -/
theorem test_power_and_links :
    Clear tOwned.dev ((tOwned.dev.now / 80000 + 1) * 80000) ∧
    (({ tOwned.dev.power with tripCount := 2 } : Power).take { tj := List.replicate 32 460 }).tripCount = 3 :=
  ⟨tClears (by decide +kernel), by decide +kernel⟩

/-- PowerAndLinkEvents: readings one milliwatt over the limit, at 95% of it and just above that; a RUN block; links. -/
theorem test_power_readings :
    (let w := tOwned.dev.power
     (w.take { powerMw := 1000 * w.limitW + 1 }).overCause = 1 ∧ (w.take { powerMw := 950 * w.limitW }).overCause = 0 ∧
     (w.take { powerMw := 950 * w.limitW }).eased = true ∧ (w.take { powerMw := 950 * w.limitW + 1 }).eased = false ∧
     (w.take {}).tripCount < 3) ∧
    tOwned.dev.blockPower 0 = .run ∧ tOwned.dev.blockPower 1023 = .deep ∧ tOwned.dev.named 0 = true ∧
    (let s := tMore tOwned fun d => (d.updThread 0 0 fun t => { t with state := .idle }).mapPower fun w =>
       { w with regions := w.regions.setIfInBounds 0 { sleepUs := 1 } }
     ((s.dev.power.regions[0]?).map (·.sleepUs)).getD 0 ≠ 0 ∧ s.dev.blockIdle 0 = true) ∧
    tOwned.dev.power.avsFailed.getLsbD 7 = false ∧ (tOwned.dev.link 63).state = .absent ∧ (tOwned.dev.link 62).state = .down ∧
    (tMore tOwned fun d => d.mapPower fun w => { w with netrefStable := 0xF }).dev.power.netrefStable.getLsbD 3 = true := by
  decide +kernel

/-- PowerAndLinkEvents: a SLEEP block that starts to wake, a DEEP one that a paddock names, and a region on its way to its target. -/
theorem test_power_waking :
    (let s := tMore tOwned fun d => (d.setBlockPower 0 .sleep).mapPower fun w => { w with waking := [(0, 800)] }
     s.dev.blockPower 0 = .sleep ∧ Table.find s.dev.power.waking 0 = some 800 ∧ Clear s.dev 800) ∧
    (let s := tMore tOwned fun d => d.setBlockPower 0 .deep
     s.dev.blockPower 0 = .deep ∧ s.dev.named 0 = true ∧ Clear s.dev s.dev.now) ∧
    tOwned.dev.power.avsFailed.getLsbD 0 = false :=
  ⟨⟨by decide +kernel, by decide +kernel, tClears (by decide +kernel)⟩,
   ⟨by decide +kernel, by decide +kernel, tClears (by decide +kernel)⟩, by decide +kernel⟩

/-- A state in another device state and boot step. -/
def tBoot (x : DevState) (b : Boot → Boot) : State := tMore tOwned fun d => { d.mapBoot b with state := x }

/-- ResetEvents. -/
theorem test_reset_events :
    (let s := tMore (tBoot .booting fun b => { b with step := .cold }) fun d => d.mapPower fun w => { w with refStable := true }
     s.dev.state = .booting ∧ s.dev.boot.step = .cold ∧ s.dev.boot.resetN = true ∧ s.dev.power.refStable = true) ∧
    (let s := tBoot .run fun b => { b with resetAt := some (800, false) }
     s.dev.resettable = true ∧ s.dev.boot.resetAt = some (800, false) ∧ Clear s.dev 800) ∧
    (let s := tBoot .run fun b => { b with resetAt := some (800, true) }
     s.dev.awake = true ∧ s.dev.boot.resetAt = some (800, true) ∧ Clear s.dev 800) ∧
    (let s := tBoot .standby fun b => { b with wakeAt := 800 }
     s.dev.state = .standby ∧ s.dev.boot.wakeAt ≠ 0 ∧ Clear s.dev 800) :=
  ⟨by decide +kernel, ⟨by decide +kernel, by decide +kernel, tClears (by decide +kernel)⟩,
   ⟨by decide +kernel, by decide +kernel, tClears (by decide +kernel)⟩,
   ⟨by decide +kernel, by decide +kernel, tClears (by decide +kernel)⟩⟩

/-- A state whose paddock 0 is changed. -/
def tWith (f : Paddock → Paddock) : State := tMore tOwned fun d => d.updPaddock 0 f

/-- A preemption. -/
def tPre (m : PreemptMode) : Preemption := { mode := m, escalateAt := some 800, startedAt := 0 }

/-- SwitchingEvents: work and an equal that waits; a BOUNDARY preemption at a boundary and one at none; a save, a restore and a
load whose clocks carry its image. -/
theorem test_switching_events :
    (tWith fun x => { x with state := .saved }).dev.hasWork 0 = true ∧
    (let s := tMore tOwned fun d => { d with paddocks := d.paddocks ++ [(1, { tPaddock with state := .waiting, holds := false })] }
     (s.dev.ranking.any fun w => decide (w.2.priority = tPaddock.priority ∧ w.2.blocks &&& tPaddock.blocks ≠ 0)) = true ∧
     Clear s.dev (tPaddock.tookAt + tPaddock.slice)) ∧
    (let s := tMore (tWith fun x => { x with state := .stopping, preempt := some (tPre .boundary) }) fun d =>
       d.updRing 0 fun r => { r with inFlight := [{ index := 0, bytes := [0x40] }] }
     s.dev.atBoundary 0 = false ∧ Decided s.dev 800) ∧
    (let s := tWith fun x => { x with state := .stopping, preempt := some (tPre .boundary) }
     s.dev.atBoundary 0 = true ∧ ((s.dev.paddock 0).map fun x => s.dev.blocksQuiet 0 x) = some true) ∧
    (let s := tWith fun x => { x with state := .restoring, restored := true }
     Clear s.dev (ceilDiv s.dev.now 4096 * 4096) ∧ ((s.dev.resident 0).map fun e => imageSpan e.2.bytes) = some 4096) ∧
    (let l : Loading := { ring := 0, index := 0, handle := 0, start := 0 }
     let s := tMore tOwned fun d => d.mapService fun x => { x with loading := [(0, l)] }
     s.dev.service.loading.find? (fun e => decide (e.1 = 0)) = some (0, l) ∧
     ((s.dev.paddock 0).map fun x => x.holds && !x.stoppingNow) = some true ∧ Clear s.dev (ceilDiv (max s.dev.now 0) 4096 * 4096)) :=
  ⟨by decide +kernel, ⟨by decide +kernel, tClears (by decide +kernel)⟩, ⟨by decide +kernel, tDecides (by decide +kernel)⟩,
   ⟨by decide +kernel, by decide +kernel⟩, ⟨tClears (by decide +kernel), by decide +kernel⟩,
   ⟨by decide +kernel, by decide +kernel, tClears (by decide +kernel)⟩⟩

/-- A step of one lane in a phase. -/
def tStep (ph : StepPhase) : ServeStep :=
  { ring := 0, index := 0, phase := ph, takenAt := 0, entries := 262144, completions := 327680, deadline := 800, cfg := tCfg,
    lanes := [{ entry := tEntry }] }

/-- A state in which it runs, with the network bells 0 and 1 rung. -/
def tServes (ph : StepPhase) : State := tMore tServing fun d =>
  ((tStored d).updServing 0 fun y => { y with steps := [tStep ph] }) |>.setBell 0 65536 { value := 1 } |>.setBell 0 65537 { value := 1 }

/-- ServiceEvents: the phases of a step with one lane, its deadline, a page selection, a build and an offer. -/
theorem test_service_events :
    (let s := tServes .queued
     (s.dev.serving 0).steps = [tStep .queued] ∧ (s.dev.lateStep 0) = some (tStep .queued) ∧ Decided s.dev 800) ∧
    ((tServes .draft).dev.takeBell 0 ((tServes .draft).dev.stepBell 0 tCfg tCfg.draftBell)).isSome = true ∧
    ((tServes .main).dev.takeBell 0 ((tServes .main).dev.stepBell 0 tCfg tCfg.sampleBell)).isSome = true ∧
    (let x : Selecting := { ring := 0, index := 0, bytes := rowBytes kindSelect tSelect }
     let s := tMore tServing fun d => d.mapService fun y => { y with selecting := y.selecting.setIfInBounds 15 [x] }
     s.dev.service.selecting[15]? = some [x] ∧
     (s.dev.checkedRead (fieldU64 x.bytes 24) (selQueryBytes x.bytes tCfg) (s.dev.src (srcRegion 15 4)) 0).2 = none) ∧
    (let o : Offer := { ring := 0, index := 0, paddock := 0, epoch := 1, deadline := 800, plan := [] }
     let s := tMore tOwned fun d => d.mapService fun y => { y with offers := [(65536, o)] }
     Table.find s.dev.service.offers 65536 = some o ∧ o.retags = none ∧ Decided s.dev o.deadline) :=
  ⟨⟨by decide +kernel, by decide +kernel, tDecides (by decide +kernel)⟩, by decide +kernel, by decide +kernel,
   ⟨by decide +kernel, rfl⟩, ⟨by decide +kernel, by decide +kernel, tDecides (by decide +kernel)⟩⟩

/-- ServiceEvents: START of one lane meets no error. -/
theorem test_step_start :
    (Device.eachLane 0 (tStep .queued) (fun l _ => recordRange tPaddock l)
      (fun d i l => d.startLane 0 tPaddock (tStep .queued) i l) 0 (tStep .queued).lanes (tServes .queued).dev).2.2 = none := by
  decide +kernel

/-- FaultEvents: the Shepherd runs with no injection armed; a note's first copy is due. -/
theorem test_fault_events :
    tOwned.dev.shepherdOn = true ∧ tOwned.dev.faults.injection = none ∧
    (let x : NoteDue := { at0 := 0, copy := 1, conns := [1], payload := zeros 64 }
     let s := tMore tOwned fun d => d.mapFaults fun f => { f with notesDue := [x] }
     leastBy (fun e : NoteDue × Nat => e.1.dueAt) s.dev.faults.notesDue.zipIdx = some (x, 0) ∧ Clear s.dev x.dueAt) :=
  ⟨by decide +kernel, by decide +kernel, ⟨by decide +kernel, tClears (by decide +kernel)⟩⟩

/-- StepKeepsSound, StepGoesOnward: the reset state. -/
theorem test_invariants : Sparse.wf State.reset.dev.mem = true ∧ State.reset.dev.faults.ring.length ≤ 4096 := by decide +kernel

/-- ServiceEvents: MASK of one running lane meets no error. -/
theorem test_step_mask :
    let y : ServeStep := { tStep .draft with lanes := [{ entry := tEntry, run := true, rows := 1 }] }
    let d := (tServes .draft).dev
    (Device.eachLane 0 y (d.maskReads 0 y) (fun d i l => d.maskLane 0 y i l) 0 y.lanes d).2.2 = none := by decide +kernel

/-- ServiceEvents: SAMPLE of one running lane meets no error. -/
theorem test_step_sample :
    let y : ServeStep := { tStep .main with lanes := [{ entry := tEntry, run := true, rows := 1 }] }
    let d := (tServes .main).dev
    (Device.eachLane 0 y (d.sampleReads 0 y) (fun d _ l => (d, l)) 0 y.lanes d).2.2 = none := by decide +kernel

/-! ### Worked examples of the spec -/

/-- The MMAC word of 06_block_sequencer.md's example. -/
theorem test_example_mmac_word :
    let w : IWord := { a := 0, b := 1, c := 2, k := 7 * 2 ^ 38 + 2 * 2 ^ 36 + 7 * 2 ^ 33 + 2 * 2 ^ 31 + 8 * 2 ^ 18 }
    splitWord 0x310045EF00200000 = (0x31, w) ∧ joinWord 0x31 w = 0x310045EF00200000 := by decide +kernel

/-- The quantised group of 05_cells_and_formats.md's example: scale 0x81 and codes 7, 4, 8, 1, D. -/
theorem test_example_quantise :
    let r := quantise 7 (fun _ => .rne) ([0x41A80000, 0x41200000, 0xBE99999A, 0x3FA66666, 0xC1500000].map fp ++
      List.replicate 27 (fp 0))
    r.1 = 0x81 ∧ (r.2.take 5).map (·.1) = [7, 4, 8, 1, 0xD] := by decide +kernel

/-- Its product with a group of weights 2, −1, 4, 0.5 and 1 with scale 0x7E: 14.5, exact. -/
theorem test_example_group_product :
    cellRound true 0 (groupNums 7 2 ([0x47, 0x18, 0x0D] ++ zeros 13) 0x81) (groupNums 7 2 ([0xA4, 0x16, 0x02] ++ zeros 13) 0x7E) =
      (0x41680000, 0) := by decide +kernel

/-- The two rounds of hurdle 37 in 08_bells_and_hurdles.md, and A's third arrival before round 0 is over. -/
theorem test_example_hurdle :
    let a := waiterKey 130 0
    let b := waiterKey 131 0
    let c := waiterKey 200 2
    let h1 := (({} : Hurdle).arrive 3 a).1
    let h2 := (h1.arrive 3 b).1
    let h3 := (h2.arrive 3 a).1
    let h4 := ((h3.arrive 3 c).1).advance 54 2
    (({} : Hurdle).arrive 3 a).2 = .counted 0 ∧ (h2.arrive 3 a).2 = .counted 1 ∧ (h3.arrive 3 a).2 = .overrun ∧
    h4.round = 1 ∧ h4.current = [a] ∧ h4.nextSet = [] := by decide +kernel

/-- The exchange of 03_tally_and_ordering.md: a round trip of 1,060.750 ticks, so 530.375 one way, and −0.250 tick. -/
theorem test_example_exchange :
    let x : SyncExchange := { roundTrip := (1070125 - 9375) * 65536 / 1000, twiceOffset := (-530625 + 530125) * 65536 / 1000 }
    let d := (tTally fun t => { t with state := .locked, burstOpen := true, burstDone := [x] }).dev.closeBurst
    d.tally.offset = -16384 ∧ d.tally.delay = 530375 * 256 / 1000 := by decide +kernel

/-- The throttle steps of 19_clocks_power_and_reset.md: 3,300 to 3,200; then 3,100 above a floor of 3,000, and a skip of 1 at one
of 3,200. -/
theorem test_example_throttle :
    let r : RegionClock := { targetMhz := 3300 }
    (r.stepDown 3000).targetMhz = 3200 ∧ (r.stepDown 3200).targetMhz = 3200 ∧ (r.stepDown 3200).skip = r.skip ∧
    ((r.stepDown 3000).stepDown 3000).targetMhz = 3100 ∧ ((r.stepDown 3200).stepDown 3200).targetMhz = 3200 ∧
    ((r.stepDown 3200).stepDown 3200).skip = r.skip + 1 := by decide +kernel

/-- The choices of 16_serving_steps_and_sampling.md: four candidates in the nucleus of 0.9, the first above 0.380859375 and the
third above 0.76171875. -/
theorem test_example_sampling :
    let p : List Word32 := [0x3F000000, 0x3E800000, 0x3E000000, 0x3D800000]
    nucleus 0x3F666666 0 p = 4 ∧ pickIndex 0x3EC30000 0 p = 0 ∧ pickIndex 0x3F430000 0 p = 2 := by decide +kernel

/-- The trial boots of 18_security_and_firmware_trust.md: two boots of B, then A. -/
theorem test_example_trial_boots :
    let d0 := tOwned.dev.writeBootRecord 1 1 2
    let b1 := d0.bootOrder
    let b2 := b1.1.bootOrder
    let b3 := b2.1.bootOrder
    b1.2 = ([1, 0], true) ∧ b1.1.bootRecord.1.left = 1 ∧ b2.2 = ([1, 0], true) ∧ b2.1.bootRecord.1.left = 0 ∧
    b3.2 = ([0, 1], false) ∧ b3.1.bootRecord.1.trial = 0 ∧ b3.1.bootRecord.1.preferred = 0 := by decide +kernel

/-- The tier of 2 TiB of 01_architecture.md, and the buckets of 09_attention_and_pages.md. -/
theorem test_example_tier_and_buckets :
    (let d := (tMore tOwned fun d => d.mapBoot fun b => { b with tierBytes := 0x20000000000 }).dev
     d.rangeOk 0x09FFFFFFFFFF 1 = true ∧ d.rangeOk 0x0A0000000000 1 = false) ∧
    bucket 255 = 255 ∧ bucket 512 = 288 ∧ bucket 1023 = 319 ∧ bucket 4096 = 384 := by decide +kernel

/-- The window of 07_compiled_schedules.md: G(w) is 1,024 ticks; deliveries of 8,192 and 4,096 bytes need 17 and 9 slots. -/
theorem test_example_window :
    ((imageWindows tImage).head?.map fun w => Win.gapTicks { w with stride := 2112, openings := 4 }) = some 1024 ∧
    deliverySlots 8192 = 17 ∧ deliverySlots 4096 = 9 := by decide +kernel

end Sys2Proof.Tests
end

section
/-! PROOF. An OWN_CLAIM against a live lease (R89): what the ownership timers leave of a live lease, what the acceptance of a
command does to it, and the claim's answer. -/

namespace Sys2Proof.Machine

/-! ### A live lease and the ownership timers -/

/-- A master owns the device under a lease that has not run out, and no claim window has run out unclosed (R88, R90). -/
structure Device.LiveLease (d : Device) (m : Master) : Prop where
  /-- The master is the owner. -/
  owner : d.own.owner = some m
  /-- The lease has not run out. -/
  lease : d.now ≤ d.own.leaseExpiry
  /-- An open claim window has not run out. -/
  window : ∀ e, d.own.claimEnd = some e → d.now ≤ e

theorem Device.LiveLease.updBox {d : Device} {m : Master} (h : d.LiveLease m) (p : Path) (f : Mailbox → Mailbox) :
    (d.updBox p f).LiveLease m := ⟨h.owner, h.lease, h.window⟩

/-- Under a live lease the only ownership timer that can have run out is that of an offer (R92). -/
theorem Device.LiveLease.settleOwnership {d : Device} {m : Master} (h : d.LiveLease m) :
    ∃ target stop, d.settleOwnership = d.mapOwn fun o => { o with offerTarget := target, offerEnd := stop } := by
  have hlease : ¬ d.own.leaseExpiry < d.now := Nat.not_lt.2 h.lease
  have hoffer : ∃ target stop, (if d.own.offerTarget.isSome ∧ d.own.offerEnd < d.now then
      d.mapOwn fun o => { o with offerTarget := none, offerEnd := 0 } else d) =
        d.mapOwn fun o => { o with offerTarget := target, offerEnd := stop } := by
    split
    · exact ⟨none, 0, rfl⟩
    · exact ⟨d.own.offerTarget, d.own.offerEnd, rfl⟩
  cases hend : d.own.claimEnd with
  | none => simpa only [Device.settleOwnership, h.owner, if_neg hlease, hend] using hoffer
  | some e =>
    have hwindow : ¬ e < d.now := Nat.not_lt.2 (h.window e hend)
    simpa only [Device.settleOwnership, h.owner, if_neg hlease, hend, if_neg hwindow] using hoffer

/-! ### The acceptance of a command -/

/-- The owner that judges a command's right is the one its acceptance leaves once the timers are settled (R91). -/
theorem Device.acceptBox_ownerAt (d : Device) (p : Path) (opcode : Nat) :
    ((d.acceptBox p opcode).paths.box p).ownerAt = d.settleOwnership.own.owner := by
  by_cases howner : d.settleOwnership.own.owner = some (pathMaster p) <;>
    simp [Device.acceptBox, Device.renew, howner]

/-- Beyond settling the timers, an acceptance renews the lease of its own master alone (R90). -/
theorem Device.acceptBox_own (d : Device) (p : Path) (opcode : Nat) :
    (d.acceptBox p opcode).own =
      if d.settleOwnership.own.owner = some (pathMaster p) then
        { d.settleOwnership.own with leaseExpiry := d.settleOwnership.now + 400000000 }
      else d.settleOwnership.own := by
  split
  next howner => simp only [Device.acceptBox, if_pos howner]; rfl
  next howner => simp only [Device.acceptBox, if_neg howner]; rfl

section
variable {d : Device} {m : Master} {c : Cmd} (opcode : Nat)

theorem Device.LiveLease.takes_ownerAt (h : d.LiveLease m) :
    ((d.takes c opcode).paths.box c.path).ownerAt = some m := by
  obtain ⟨target, stop, hsettle⟩ :=
    (h.updBox c.path fun b => { b with cmd := cmdHeader c opcode ++ c.payload }).settleOwnership
  unfold Device.takes
  rw [Device.acceptBox_ownerAt, hsettle]
  exact h.owner

/-- The owner's own command renews the lease, which then ends 500 ms from now; another master's leaves it. Owner and claims
stay either way. -/
theorem Device.LiveLease.takes_own (h : d.LiveLease m) :
    ∃ target stop, (d.takes c opcode).own =
      { d.own with leaseExpiry := if m = pathMaster c.path then d.now + 400000000 else d.own.leaseExpiry,
                   offerTarget := target, offerEnd := stop } := by
  obtain ⟨target, stop, hsettle⟩ :=
    (h.updBox c.path fun b => { b with cmd := cmdHeader c opcode ++ c.payload }).settleOwnership
  refine ⟨target, stop, ?_⟩
  unfold Device.takes
  rw [Device.acceptBox_own, hsettle]
  by_cases hm : m = pathMaster c.path
  · rw [if_pos hm]
    exact if_pos (h.owner.trans (congrArg some hm))
  · rw [if_neg hm]
    exact if_neg fun hown => hm (Option.some.inj (h.owner.symm.trans hown))

end

/-! ### The claim's answer -/

/-- An accepted command that fails a check of its own is answered with that check's result. -/
theorem Device.runRow_refused {s : State} {op : Nat} {i : Immediate} {c : Cmd} {r : Reply}
    (h : Accepted s op (.immediate i) c) (hcheck : i.check (s.dev.takes c op) (callOf c op) = some r) :
    s.dev.runRow (.immediate i) op c = (s.dev.takes c op).respond c.path r := by
  rw [Device.runRow_accepted h]
  unfold Device.finishCall
  simp only [hcheck]
  rfl

/-- A claim judged against an owner other than its master is refused with CONFLICT. -/
theorem immOwnClaim_check_of_ne {d : Device} {call : Call} {m : Master} (h : (d.paths.box call.path).ownerAt = some m)
    (hm : m ≠ pathMaster call.path) :
    immOwnClaim.check d call = some { result := resConflict, detail := masterCode (some m) } := by
  simp [immOwnClaim, plainCommand, require, h, hm]

/-- A claim judged against its own master as the owner passes its check. -/
theorem immOwnClaim_check_of_eq {d : Device} {call : Call} {m : Master} (h : (d.paths.box call.path).ownerAt = some m)
    (hm : m = pathMaster call.path) : immOwnClaim.check d call = none := by
  simp [immOwnClaim, plainCommand, require, h, hm]

/-- Where an owner holds, the effect of a claim that passes is its answer alone. -/
theorem immOwnClaim_run_of_owned {d : Device} {call : Call} {m : Master}
    (h : (d.paths.box call.path).ownerAt = some m) : immOwnClaim.run d call = d.respond call.path {} := by
  simp only [immOwnClaim, plainCommand, h]
  rfl

theorem exec_ownClaim_of_runRow {s : State} {c : Cmd} {d : Device}
    (h : s.dev.runRow (.immediate immOwnClaim) 0x0010 c = d) : exec (.ownClaim c) s = .next (s.on fun _ => d) := by
  subst h
  rfl

/-- Another master's claim against a live lease is answered CONFLICT with the owner. -/
theorem exec_ownClaim_of_other {s : State} {c : Cmd} {m : Master} (ha : Accepted s 0x0010 (.immediate immOwnClaim) c)
    (h : s.dev.LiveLease m) (hm : m ≠ pathMaster c.path) :
    exec (.ownClaim c) s = .next (s.on fun _ => (s.dev.takes c 0x0010).respond c.path
      { result := resConflict, detail := masterCode (some m) }) := by
  have howner : ((s.dev.takes c 0x0010).paths.box (callOf c 0x0010).path).ownerAt = some m := h.takes_ownerAt 0x0010
  exact exec_ownClaim_of_runRow (Device.runRow_refused ha (immOwnClaim_check_of_ne howner hm))

/-- The owner's own claim is answered OK. -/
theorem exec_ownClaim_of_owner {s : State} {c : Cmd} {m : Master} (ha : Accepted s 0x0010 (.immediate immOwnClaim) c)
    (h : s.dev.LiveLease m) (hm : m = pathMaster c.path) :
    exec (.ownClaim c) s = .next (s.on fun _ => (s.dev.takes c 0x0010).respond c.path {}) := by
  have howner : ((s.dev.takes c 0x0010).paths.box (callOf c 0x0010).path).ownerAt = some m := h.takes_ownerAt 0x0010
  exact exec_ownClaim_of_runRow
    ((Device.runRow_runs ⟨ha, immOwnClaim_check_of_eq howner hm⟩).trans (immOwnClaim_run_of_owned howner))

/-- Settles O44: no ownership timer that a claim's acceptance settles touches a live lease, so the claim's check finds its
owner (R89). -/
theorem claimAgainstLease : Obligations.ClaimAgainstLease := by
  unfold Obligations.ClaimAgainstLease
  intro s c m ha howner hlease hwindow
  have h : s.dev.LiveLease m := ⟨howner, hlease, hwindow⟩
  obtain ⟨target, stop, hown⟩ := h.takes_own (c := c) 0x0010
  rw [hown]
  refine ⟨fun hm => ?_, fun hm => ?_⟩
  · exact ⟨exec_ownClaim_of_other ha h hm, rfl, rfl, howner, if_neg hm⟩
  · exact ⟨exec_ownClaim_of_owner ha h hm, howner, if_pos hm⟩

end Sys2Proof.Machine
end

section
/-! PROOF. The three-operand scalar instructions (R138): what a row writes in its turn, and the words' operations as
arithmetic on the numbers that the words stand for. -/

namespace Sys2Proof.Machine

/-! ### A row in its turn -/

/-- A row whose meaning is an operation on s[b] and s[c] writes the operation's value, however that value is written. -/
theorem exec_scalar3 {i : Instr} {s0 s : State} {t : ThreadId} {op : Nat} {w : IWord} {p c : Nat} {f : Word → Word → Word}
    {v : Word} (hrow : exec i s0 = .next (s0.on (·.issue t op w (scalar3 f)))) (hv : f (s.reg t w.b) (s.reg t w.c) = v)
    (h : Proceeds s0 t op w p c s) : exec i s0 = .next (s.writes t w.a v) := by
  subst hv
  rw [hrow, State.issue_completes h (f := (·.setS w.a.toNat (f (s.reg t w.b) (s.reg t w.c)))) rfl]
  rfl

/-! ### Values -/

section
variable {n : Nat} (x y : BitVec n) (k : Nat)

theorem bitVec_sub_eq_ofInt : x - y = BitVec.ofInt n (x.toInt - y.toInt) := by
  rw [Int.sub_eq_add_neg, BitVec.ofInt_add, BitVec.ofInt_neg, BitVec.ofInt_toInt, BitVec.ofInt_toInt, BitVec.sub_eq_add_neg]

theorem bitVec_shiftLeft_eq_ofNat : x <<< k = BitVec.ofNat n (x.toNat * 2 ^ k) := by
  rw [← Nat.shiftLeft_eq]
  rfl

theorem bitVec_ushiftRight_eq_ofNat : x >>> k = BitVec.ofNat n (x.toNat / 2 ^ k) := by
  rw [← Nat.shiftRight_eq_div_pow, ← BitVec.toNat_ushiftRight, BitVec.ofNat_toNat, BitVec.setWidth_eq]

/-- The quotient rounds towards minus infinity, as the copies of the sign bit do. -/
theorem bitVec_sshiftRight_eq_ofInt : x.sshiftRight k = BitVec.ofInt n (x.toInt / 2 ^ k) := by
  rw [BitVec.sshiftRight, Int.shiftRight_eq_div_pow, Int.natCast_pow]
  rfl

/-- A choice by `<` is the choice by `≤` where equal numbers, which are equal words, choose between equals. -/
theorem bitVec_ite_slt {a b : BitVec n} (h : x = y → a = b) :
    (if x.slt y then a else b) = if x.toInt ≤ y.toInt then a else b := by
  rcases Int.lt_trichotomy x.toInt y.toInt with hlt | heq | hgt
  · rw [if_pos (BitVec.slt_iff_toInt_lt.2 hlt), if_pos (Int.le_of_lt hlt)]
  · rw [h (BitVec.toInt_inj.1 heq), ite_self, ite_self]
  · rw [if_neg (mt BitVec.slt_iff_toInt_lt.1 (Int.not_lt.2 (Int.le_of_lt hgt))), if_neg (Int.not_le.2 hgt)]

theorem boolWord_slt : boolWord (x.slt y) = if x.toInt < y.toInt then 1 else 0 := by
  simp only [boolWord, BitVec.slt_iff_toInt_lt]

theorem boolWord_ult : boolWord (x.ult y) = if x.toNat < y.toNat then 1 else 0 := by
  simp only [boolWord, BitVec.ult_eq_decide, decide_eq_true_eq]

end

/-- Settles O3: each row's operation, in its turn, is the arithmetic of R138. -/
theorem scalarResults : Obligations.ScalarResults := by
  unfold Obligations.ScalarResults
  intro s0 s t w p c
  refine ⟨?add, ?sub, ?and, ?or, ?xor, ?sll, ?srl, ?sra, ?mul, ?mulhu, ?min, ?max, ?slt, ?sltu⟩
  case add => exact exec_scalar3 rfl (BitVec.add_def ..)
  case sub => exact exec_scalar3 rfl (bitVec_sub_eq_ofInt _ _)
  case and => exact exec_scalar3 (f := (· &&& ·)) rfl rfl
  case or => exact exec_scalar3 (f := (· ||| ·)) rfl rfl
  case xor => exact exec_scalar3 (f := (· ^^^ ·)) rfl rfl
  case sll => exact exec_scalar3 rfl (bitVec_shiftLeft_eq_ofNat _ _)
  case srl => exact exec_scalar3 rfl (bitVec_ushiftRight_eq_ofNat _ _)
  case sra => exact exec_scalar3 rfl (bitVec_sshiftRight_eq_ofInt _ _)
  case mul => exact exec_scalar3 rfl (BitVec.mul_def ..)
  case mulhu => exact exec_scalar3 rfl rfl
  case min => exact exec_scalar3 rfl (bitVec_ite_slt _ _ id)
  case max => exact exec_scalar3 rfl (bitVec_ite_slt _ _ Eq.symm)
  case slt => exact exec_scalar3 rfl (boolWord_slt _ _)
  case sltu => exact exec_scalar3 rfl (boolWord_ult _ _)

end Sys2Proof.Machine
end

section
/-! PROOF. The step as a whole: what runs in it, what it keeps of the invariants, what never goes back, and what reset
leaves. -/

namespace Sys2Proof.Machine

/-! ### The invariants -/

/-- A list with a first element is that element and the rest. -/
theorem eq_cons_tail_of_head? {α : Type} {l : List α} {a : α} (h : l.head? = some a) : l = a :: l.tail := by
  cases l with
  | nil => cases h
  | cons b l =>
    cases h
    rfl

theorem Keeps.sound {s u : State} (hk : Keeps s.dev u.dev) (h : Sound s) : Sound u := ⟨hk.mem h.mem, hk.ring h.ring⟩

theorem Keeps.onward {a b : Device} (h : Keeps a b) : Onward a b := ⟨h.now, h.next, h.fuse, h.revoked, h.id⟩

/-- Without power the device holds neither memory nor fault records (R481). -/
theorem sound_powerOff (d : Device) (q : List Instr) : Sound { dev := d.powerOff, pending := q } :=
  ⟨rfl, Nat.zero_le 4096⟩

/-- A step with PWR_GOOD_FALL at the front of the queue leaves the device without power. -/
theorem step_pwrGoodFall {s : State} {rest : List Instr} (h : s.pending = .pwrGoodFall :: rest) :
    step s = .next { dev := s.dev.powerOff, pending := rest } := by
  rw [step, h]
  rfl

/-- Every other step answers a next state that keeps, and leaves the rest of the queue. -/
theorem step_keeps (s : State) (h : s.pending.head? ≠ some .pwrGoodFall) :
    ∃ d, step s = .next { dev := d, pending := s.pending.tail } ∧ Keeps s.dev d := by
  obtain ⟨d, q⟩ := s
  cases q with
  | nil => exact ⟨d.tick, rfl, Device.tick_keeps d (Keeps.refl d)⟩
  | cons c rest =>
    have hc : c ≠ .pwrGoodFall := fun hc => h (by rw [hc]; rfl)
    exact exec_keeps c ⟨d, rest⟩ hc

/-- Settles O59: a step either keeps, or takes the power and with it memory and records. -/
theorem stepKeepsSound : Obligations.StepKeepsSound := by
  unfold Obligations.StepKeepsSound
  intro s h
  by_cases hfall : s.pending.head? = some .pwrGoodFall
  · exact ⟨_, step_pwrGoodFall (eq_cons_tail_of_head? hfall), sound_powerOff _ _, rfl⟩
  · obtain ⟨d, hstep, hk⟩ := step_keeps s hfall
    exact ⟨_, hstep, Keeps.sound (u := ⟨d, s.pending.tail⟩) hk h, rfl⟩

/-- Settles O60: a step that keeps goes onward, and what the power's fall leaves has its fuses (R452, R481). -/
theorem stepGoesOnward : Obligations.StepGoesOnward := by
  unfold Obligations.StepGoesOnward
  intro s u hu
  by_cases hfall : s.pending.head? = some .pwrGoodFall
  · have hoff := step_pwrGoodFall (eq_cons_tail_of_head? hfall)
    rw [hu] at hoff
    cases hoff
    exact ⟨fun h => absurd hfall h, Nat.le_refl _, fun i h => h⟩
  · obtain ⟨d, hstep, hk⟩ := step_keeps s hfall
    rw [hu] at hstep
    cases hstep
    exact ⟨fun _ => hk.onward, hk.fuse, hk.revoked⟩

/-- Settles O58. -/
theorem resetSound : Obligations.ResetSound := ⟨rfl, Nat.zero_le 4096⟩

/-! ### One step -/

/-- Settles O1. -/
theorem stepRunsFront : Obligations.StepRunsFront := by
  unfold Obligations.StepRunsFront
  intro c rest s h
  rw [step, h]

/-- Passing to the next tick moves the Tally, its slew and the meters by one. -/
theorem Device.passTo_succ (d : Device) : d.passTo (d.now + 1) =
    { d with tally := { d.tally with now := d.tally.now + 1, frac := Config.tallyFrac (d.tally.now + 1),
                                     toSlew := d.tally.slewLeft 1 },
             service := { d.service with folds := Table.mapAll d.service.folds fun _ f => d.meterFold 1 f } } := by
  have hlater : ¬ d.now + 1 ≤ d.now := Nat.not_succ_le_self _
  unfold Device.passTo
  rw [if_neg hlater, Nat.add_sub_cancel_left]
  rfl

/-- Settles O2: an idle step is a tick, which passes to the next instant where no set is due. -/
theorem idleStepTicks : Obligations.IdleStepTicks := by
  unfold Obligations.IdleStepTicks
  intro s hq hc hs
  have htick : s.dev.tick = s.dev.passTo (s.dev.now + 1) := Device.advanceTo_clear ⟨hc, hs⟩
  rw [step, hq]
  unfold State.on
  rw [htick, Device.passTo_succ]

/-! ### Reset -/

theorem reset_box (p : Path) : State.reset.dev.paths.box p = {} := by
  cases p with
  | host i => exact Vector.getElem_replicate i.isLt
  | fabric i => exact Vector.getElem_replicate i.isLt
  | board => rfl

/-- Settles O57. -/
theorem resetValues : Obligations.ResetValues := by
  unfold Obligations.ResetValues
  have hidle : ∀ p, (State.reset.dev.paths.box p).status = .idle := fun p => by rw [reset_box]
  exact ⟨rfl, rfl, rfl, rfl, rfl, rfl, rfl, rfl, rfl, rfl, rfl, hidle, rfl, rfl⟩

end Sys2Proof.Machine
end

section
/-! PROOF. Scalar instructions with an immediate, branches, jumps and calls (R137, R138). -/

namespace Sys2Proof.Machine

/-! ### A row in its turn -/

section
variable {i : Instr} {s0 s : State} {t : ThreadId} {op : Nat} {w : IWord} {p c : Nat} {run : Issue → Device → Device}

/-- A row whose instruction issues answers what its meaning makes of the state of its turn. -/
theorem exec_issues {d : Device} (hrow : exec i s0 = .next (s0.on (·.issue t op w run))) (h : Issues s0 t op w p c s)
    (hrun : run (issueOf t p c op w) s.dev = d) : exec i s0 = .next (s.on fun _ => d) := by
  rw [hrow, State.issue_is h hrun]

/-- A row whose meaning leads to a state with the same queue. -/
theorem exec_issues_to {u : State} (hrow : exec i s0 = .next (s0.on (·.issue t op w run))) (h : Issues s0 t op w p c s)
    (hrun : run (issueOf t p c op w) s.dev = u.dev) (hqueue : u.pending = s.pending) : exec i s0 = .next u := by
  rw [exec_issues hrow h hrun]
  unfold State.on
  rw [← hqueue]

/-- A row whose meaning only completes its instruction. -/
theorem exec_completes {f : Thread → Thread} (hrow : exec i s0 = .next (s0.on (·.issue t op w run)))
    (h : Proceeds s0 t op w p c s) (hrun : run (issueOf t p c op w) s.dev = s.dev.complete (issueOf t p c op w) f) :
    exec i s0 = .next (s.completes t f) := by
  rw [hrow, State.issue_completes h hrun]

/-- A row whose meaning completes its instruction from a state in which its thread's PC is as in its turn. -/
theorem exec_completes_from {u : State} {f : Thread → Thread} (hrow : exec i s0 = .next (s0.on (·.issue t op w run)))
    (h : Proceeds s0 t op w p c s) (hrun : run (issueOf t p c op w) s.dev = u.dev.complete (issueOf t p c op w) f)
    (hqueue : u.pending = s.pending) (hpc : (u.threadOf t).pc = (s.threadOf t).pc) :
    exec i s0 = .next (u.completes t f) := by
  have hnext : (u.threadOf t).pc < 8191 := hpc ▸ h.next
  rw [exec_issues hrow h.issues hrun, Device.complete_of u.dev (issueOf t p c op w) f t.thread.isLt hnext]
  unfold State.completes State.on
  rw [hqueue]
  rfl

end

/-! ### Immediates (R138) -/

/-- A row whose meaning writes a word to s[a] writes that word, however it is written. -/
theorem exec_completeS {i : Instr} {s0 s : State} {t : ThreadId} {op : Nat} {w : IWord} {p c : Nat}
    {run : Issue → Device → Device} {x v : Word} (hrow : exec i s0 = .next (s0.on (·.issue t op w run)))
    (hrun : run (issueOf t p c op w) s.dev = s.dev.completeS (issueOf t p c op w) x) (hv : x = v)
    (h : Proceeds s0 t op w p c s) : exec i s0 = .next (s.writes t w.a v) := by
  subst hv
  exact exec_completes hrow h hrun

theorem bitVec_add_ofInt (x : Word) (n : Int) : x + BitVec.ofInt 64 n = BitVec.ofInt 64 (x.toInt + n) := by
  rw [BitVec.ofInt_add, BitVec.ofInt_toInt]

/-- The shift count of an instruction is the low six bits of its word. -/
theorem classBits_shift (w : IWord) : classBits w 5 0 = w.k.toNat % 64 := by
  simp [classBits, bitsOf]

/-- A row whose meaning shifts s[b] by its immediate writes the shift's value, however that value is written. -/
theorem exec_scalarShift {i : Instr} {s0 s : State} {t : ThreadId} {op : Nat} {w : IWord} {p c : Nat}
    {f : Word → Nat → Word} {v : Word} (hrow : exec i s0 = .next (s0.on (·.issue t op w (scalarShift f))))
    (hv : f (s.reg t w.b) (w.k.toNat % 64) = v) (h : Proceeds s0 t op w p c s) :
    exec i s0 = .next (s.writes t w.a v) := by
  rw [← classBits_shift] at hv
  exact exec_completeS hrow rfl hv h

theorem immUnsigned_eq (w : IWord) : immUnsigned w = w.k.toNat % 2 ^ 32 := by
  simp [immUnsigned, classBits, bitsOf]

/-- The halves that LIH joins do not overlap: their union is their sum. -/
theorem lih_eq_ofNat (n : Nat) (x : Word) :
    BitVec.ofNat 64 (n * 2 ^ 32) ||| (x &&& 0xFFFFFFFF) = BitVec.ofNat 64 (n * 2 ^ 32 + x.toNat % 2 ^ 32) := by
  have hlow : x &&& 0xFFFFFFFF = BitVec.ofNat 64 (x.toNat % 2 ^ 32) := by
    apply BitVec.eq_of_toNat_eq
    have hmask : (0xFFFFFFFF : Word).toNat = 2 ^ 32 - 1 := rfl
    rw [BitVec.toNat_and, hmask, Nat.and_two_pow_sub_one_eq_mod, BitVec.toNat_ofNat]
    omega
  have hdisjoint : n * 2 ^ 32 + x.toNat % 2 ^ 32 = n * 2 ^ 32 ||| x.toNat % 2 ^ 32 := by
    rw [Nat.mul_comm]
    exact Nat.two_pow_add_eq_or_of_lt (Nat.mod_lt _ (by decide)) n
  rw [hlow, hdisjoint, BitVec.ofNat_or]

/-- Settles O4: each row's operation on s[b] and its immediate, in its turn, is the arithmetic of R138. -/
theorem immediateResults : Obligations.ImmediateResults := by
  unfold Obligations.ImmediateResults
  intro s0 s t w p c
  refine ⟨?addi, ?andi, ?ori, ?xori, ?slli, ?srli, ?srai, ?lih⟩
  case addi => exact exec_completeS rfl rfl (bitVec_add_ofInt _ _)
  case andi => exact exec_completeS rfl rfl rfl
  case ori => exact exec_completeS rfl rfl rfl
  case xori => exact exec_completeS rfl rfl rfl
  case slli => exact exec_scalarShift rfl (bitVec_shiftLeft_eq_ofNat _ _)
  case srli => exact exec_scalarShift rfl (bitVec_ushiftRight_eq_ofNat _ _)
  case srai => exact exec_scalarShift rfl (bitVec_sshiftRight_eq_ofInt _ _)
  case lih => exact exec_completeS rfl rfl (by rw [← immUnsigned_eq]; exact lih_eq_ofNat _ _)

/-! ### Transfers of control (R137) -/

theorem Device.transfer_inside {target : Int} (d : Device) (i : Issue) (f : Thread → Thread) (h : 0 ≤ target ∧ target < 8192) :
    d.transfer i target f =
      d.updThread i.block i.thread fun t => { f t with pc := target.toNat, state := .ready, waits := .nothing } := if_pos h

theorem Device.transfer_outside {target : Int} (d : Device) (i : Issue) (f : Thread → Thread)
    (h : ¬ (0 ≤ target ∧ target < 8192)) : d.transfer i target f = d.raise i exAddress := if_neg h

section
variable {i : Instr} {s0 s : State} {t : ThreadId} {op : Nat} {w : IWord} {p c : Nat}

/-- A row that transfers control to a PC of the store stands there. -/
theorem exec_jumps {run : Issue → Device → Device} {target : Int} {f : Thread → Thread}
    (hrow : exec i s0 = .next (s0.on (·.issue t op w run)))
    (hrun : run (issueOf t p c op w) s.dev = s.dev.transfer (issueOf t p c op w) target f) (h : Issues s0 t op w p c s)
    (hfrom : 0 ≤ target) (hto : target < 8192) : exec i s0 = .next (s.jumps t target.toNat f) :=
  exec_issues hrow h (hrun.trans (Device.transfer_inside _ _ _ ⟨hfrom, hto⟩))

/-- A row that transfers control out of the store raises ADDRESS. -/
theorem exec_jumps_out {run : Issue → Device → Device} {target : Int} {f : Thread → Thread}
    (hrow : exec i s0 = .next (s0.on (·.issue t op w run)))
    (hrun : run (issueOf t p c op w) s.dev = s.dev.transfer (issueOf t p c op w) target f)
    (hout : ¬ (0 ≤ target ∧ target < 8192)) (h : Issues s0 t op w p c s) :
    exec i s0 = .next (s.on (·.raise (issueOf t p c op w) exAddress)) :=
  exec_issues hrow h (hrun.trans (Device.transfer_outside _ _ _ hout))

variable {test : Word → Word → Bool}

theorem branchIf_taken (h : test (s.reg t w.b) (s.reg t w.c) = true) :
    branchIf test (issueOf t p c op w) s.dev =
      s.dev.transfer (issueOf t p c op w) ((s.threadOf t).pc + immSigned w) id := if_pos h

theorem branchIf_passed (h : ¬ test (s.reg t w.b) (s.reg t w.c) = true) :
    branchIf test (issueOf t p c op w) s.dev = s.dev.complete (issueOf t p c op w) id := if_neg h

/-- A branch, its condition put as the rules put it: taken into the store, not taken, and taken out of the store. -/
structure BranchRow (i : Instr) (op : Nat) (t : ThreadId) (w : IWord) (s0 s : State) (p c : Nat) (cond : Prop) : Prop where
  taken : Issues s0 t op w p c s → cond → 0 ≤ ((s.threadOf t).pc + immSigned w) →
    ((s.threadOf t).pc + immSigned w) < 8192 →
      exec i s0 = .next (s.jumps t ((s.threadOf t).pc + immSigned w).toNat id)
  passed : Proceeds s0 t op w p c s → ¬ cond → exec i s0 = .next (s.completes t id)
  out : ¬ (0 ≤ ((s.threadOf t).pc + immSigned w) ∧ ((s.threadOf t).pc + immSigned w) < 8192) →
    Issues s0 t op w p c s → cond → exec i s0 = .next (s.on (·.raise (issueOf t p c op w) exAddress))

theorem branchRow {cond : Prop} (hrow : exec i s0 = .next (s0.on (·.issue t op w (branchIf test))))
    (hcond : test (s.reg t w.b) (s.reg t w.c) = true ↔ cond) : BranchRow i op t w s0 s p c cond where
  taken h hc := exec_jumps hrow (branchIf_taken (hcond.2 hc)) h
  passed h hc := exec_completes hrow h (branchIf_passed (mt hcond.1 hc))
  out hout h hc := exec_jumps_out hrow (branchIf_taken (hcond.2 hc)) hout h

end

section
variable (s0 s : State) (t : ThreadId) (w : IWord) (p c : Nat)

theorem beqRow : BranchRow (.beq t w) 0x03 t w s0 s p c (s.reg t w.b = s.reg t w.c) := branchRow rfl decide_eq_true_iff
theorem bneRow : BranchRow (.bne t w) 0x04 t w s0 s p c (s.reg t w.b ≠ s.reg t w.c) := branchRow rfl decide_eq_true_iff
theorem bltRow : BranchRow (.blt t w) 0x05 t w s0 s p c ((s.reg t w.b).toInt < (s.reg t w.c).toInt) :=
  branchRow rfl BitVec.slt_iff_toInt_lt
theorem bgeRow : BranchRow (.bge t w) 0x06 t w s0 s p c ((s.reg t w.c).toInt ≤ (s.reg t w.b).toInt) :=
  branchRow rfl (by rw [Bool.not_eq_true', ← Bool.not_eq_true, BitVec.slt_iff_toInt_lt, Int.not_lt])
theorem bltuRow : BranchRow (.bltu t w) 0x07 t w s0 s p c ((s.reg t w.b).toNat < (s.reg t w.c).toNat) :=
  branchRow rfl (by rw [BitVec.ult_eq_decide, decide_eq_true_iff])
theorem bgeuRow : BranchRow (.bgeu t w) 0x08 t w s0 s p c ((s.reg t w.c).toNat ≤ (s.reg t w.b).toNat) :=
  branchRow rfl (by rw [Bool.not_eq_true', ← Bool.not_eq_true, BitVec.ult_eq_decide, decide_eq_true_iff, Nat.not_lt])

end

/-- Settles O5: each branch by its condition, and the jumps by their targets. -/
theorem branchesAndJumps : Obligations.BranchesAndJumps := by
  unfold Obligations.BranchesAndJumps
  intro s0 s t w p c
  have beq := beqRow s0 s t w p c
  have bne := bneRow s0 s t w p c
  have blt := bltRow s0 s t w p c
  have bge := bgeRow s0 s t w p c
  have bltu := bltuRow s0 s t w p c
  have bgeu := bgeuRow s0 s t w p c
  refine ⟨beq.taken, beq.passed, bne.taken, bne.passed, blt.taken, blt.passed, bge.taken, bge.passed, bltu.taken,
    bltu.passed, bgeu.taken, bgeu.passed, exec_jumps rfl rfl, exec_jumps rfl rfl, ?jumpr⟩
  case jumpr =>
    intro h hto
    have hin : ((s.reg t w.b).toNat : Int) < 8192 := by omega
    have hjumps := exec_jumps (i := .jumpr t w) rfl rfl h (Int.natCast_nonneg _) hin
    rwa [Int.toNat_natCast] at hjumps

/-- Settles O6: the same rows, where the target is no PC of the store. -/
theorem controlOutsideStore : Obligations.ControlOutsideStore := by
  unfold Obligations.ControlOutsideStore
  intro s0 s t w p c
  refine ⟨fun hout => ⟨exec_jumps_out rfl rfl hout, exec_jumps_out rfl rfl hout, (beqRow s0 s t w p c).out hout,
    (bneRow s0 s t w p c).out hout, (bltRow s0 s t w p c).out hout, (bgeRow s0 s t w p c).out hout,
    (bltuRow s0 s t w p c).out hout, (bgeuRow s0 s t w p c).out hout⟩, ?jumpr⟩
  case jumpr =>
    intro h hto
    have hout : ¬ (0 ≤ ((s.reg t w.b).toNat : Int) ∧ ((s.reg t w.b).toNat : Int) < 8192) := by omega
    exact exec_jumps_out rfl rfl hout h

end Sys2Proof.Machine
end

section
/-! PROOF. Thread control and the status instructions (R137, R153, R154, R160). -/

namespace Sys2Proof.Machine

/-! ### Conditions and fields -/

theorem Device.guarded_one {d : Device} {i : Issue} {b : Bool} {code : Nat} {run : Device → Device} (h : b = false) :
    d.guarded i [(b, code)] run = run d :=
  Device.guarded_none (List.forall_mem_singleton.2 h)

theorem Device.guarded_two {d : Device} {i : Issue} {b1 b2 : Bool} {code1 code2 : Nat} {run : Device → Device}
    (h1 : b1 = false) (h2 : b2 = false) : d.guarded i [(b1, code1), (b2, code2)] run = run d :=
  Device.guarded_none (List.forall_mem_cons.2 ⟨h1, List.forall_mem_singleton.2 h2⟩)

theorem classBits_low (w : IWord) (hi : Nat) : classBits w hi 0 = w.k.toNat % 2 ^ (hi + 1) := by
  simp [classBits, bitsOf]

theorem bitVec_ofNat_classBits (w : IWord) (hi : Nat) :
    BitVec.ofNat (hi + 1) (classBits w hi 0) = BitVec.ofNat (hi + 1) w.k.toNat := by
  rw [classBits_low]
  apply BitVec.eq_of_toNat_eq
  simp

theorem Device.src_srcThread (d : Device) (b t : Nat) : d.src (srcThread b t) = d.deviceId.getD 0 * 2 ^ 22 + 16 * b + t := by
  unfold Device.src srcThread
  omega

theorem Device.thread_updBlock (d : Device) {b e u : Nat} {f : Block → Block} (hf : ∀ k, (f k).threads = k.threads) :
    (d.updBlock b f).thread e u = d.thread e u := by
  unfold Device.thread Block.thread
  by_cases he : e = b
  · rw [he, Device.block_updBlock, hf]
  · rw [Device.block_updBlock_ne _ _ he]

/-! ### The rows -/

section
variable {s0 s : State} {t : ThreadId} {w : IWord} {p c : Nat}

/-- SLOTWAIT for a slot of the frame waits for it in this frame or the next (R137). -/
theorem exec_slotwait (h : Issues s0 t 0x0C w p c s) (hv : immUnsigned w < s.dev.frameOf p) :
    exec (.slotwait t w) s0 = .next (s.waits t (.slot (immUnsigned w)
      (if immUnsigned w ≤ s.dev.slotCounter p t.block.val c then s.dev.frameBase p + s.dev.spanOf p
       else s.dev.frameBase p))) :=
  exec_issues rfl h (by unfold seqSlotwait; exact Device.guarded_one (decide_eq_false (Nat.not_le.2 hv)))

/-- TSTART of another thread that is IDLE starts it, and its own thread goes on (R137). -/
theorem exec_tstart (h : Proceeds s0 t 0x0D w p c s) (hfrom : 0 ≤ immSigned w) (hto : immSigned w < 8192)
    (hself : (s.reg t w.b).toNat % 16 ≠ t.thread.val)
    (hidle : (s.dev.thread t.block.val ((s.reg t w.b).toNat % 16)).state = .idle) :
    exec (.tstart t w) s0 = .next ((s.on (·.updThread t.block.val ((s.reg t w.b).toNat % 16) fun y =>
      { y with s := [], v := [], fstat := 0, pc := (immSigned w).toNat, state := .ready, waits := .nothing })).completes t id) := by
  have hpc : ¬ (immSigned w < 0 ∨ 8192 ≤ immSigned w) := by omega
  refine exec_completes_from rfl h
    (by unfold seqTstart; exact Device.guarded_two (decide_eq_false hpc) (decide_eq_false fun hbusy => hbusy hidle)) rfl ?_
  have hother : (t.block.val, t.thread.val) ≠ (t.block.val, (s.reg t w.b).toNat % 16) :=
    fun e => hself (Prod.ext_iff.1 e).2.symm
  exact congrArg Thread.pc (Device.thread_updThread_ne s.dev _ hother)

/-- VSEED seeds its block and changes no thread. -/
theorem exec_vseed (h : Proceeds s0 t 0xC2 w p c s) : exec (.vseed t w) s0 =
    .next ((s.on (·.updBlock t.block.val fun k => { k with generators := seeded ((s.reg t w.b).setWidth 32) })).completes t id) := by
  refine exec_completes_from rfl h rfl rfl (congrArg Thread.pc ?_)
  exact Device.thread_updBlock s.dev fun _ => rfl

end

/-- Settles O7: each row's effect in its turn. -/
theorem threadControl : Obligations.ThreadControl := by
  unfold Obligations.ThreadControl
  intro s0 s t w p c
  refine ⟨?nop, ?halt, ?yield, exec_slotwait, ?wwait, exec_tstart, ?bsetx, ?rdstat, ?clrstat, exec_vseed, ?rdtally, ?rdid,
    ?rdslot, ?wleft⟩
  case nop => exact fun h => exec_completes rfl h rfl
  case halt => exact fun h => exec_issues rfl h rfl
  case yield => exact fun h => exec_issues rfl h rfl
  case wwait => exact fun h => exec_issues rfl h rfl
  case bsetx =>
    rw [← classBits_low w 11]
    exact fun h => exec_completes rfl h rfl
  case rdstat => exact exec_completeS rfl rfl rfl
  case clrstat =>
    rw [← bitVec_ofNat_classBits w 4]
    exact fun h => exec_completes rfl h rfl
  case rdtally => exact exec_completeS rfl rfl rfl
  case rdid => exact exec_completeS rfl rfl (congrArg _ (Device.src_srcThread ..))
  case rdslot => exact exec_completeS rfl rfl rfl
  case wleft => exact exec_completeS rfl rfl rfl

end Sys2Proof.Machine
end

section
/-! PROOF. Loads and stores of the block buffer, and the vector and conversion instructions and attention helpers, which
read it and complete (R139, R144, R147 to R149). -/

namespace Sys2Proof.Machine

/-! ### Bytes of a loaded range -/

theorem bytesAt_load (d : Device) (a n off k : Nat) (h : off + k ≤ n) :
    bytesAt (d.load a n) off k = d.load (a + off) k := by
  apply List.ext_getElem
  · simp only [bytesAt, Device.load, Sparse.getMany, List.length_take, List.length_drop, List.length_map, List.length_range]
    omega
  · intro i h1 h2
    simp [bytesAt, Device.load, Sparse.getMany, Nat.add_assoc]

/-- The lanes that stand in a range of 256 bytes are its little-endian words. -/
theorem lanes_buffer (s : State) (t : ThreadId) (off : Nat) :
    ((List.range 64).map fun l => BitVec.ofNat 32 (fieldU32 (s.buffer t off 256) (4 * l))) =
      (List.range 64).map fun l => BitVec.ofNat 32 (leValue (s.buffer t (off + 4 * l) 4)) := by
  apply List.map_congr_left
  intro l hl
  have hin : 4 * l + 4 ≤ 256 := by have := List.mem_range.1 hl; omega
  unfold fieldU32 State.buffer
  rw [bytesAt_load _ _ _ _ _ hin]
  unfold bufferAddr
  rw [Nat.add_assoc]

theorem storesOnly_completes {s : State} (t : ThreadId) (a : Nat) (bs : List Byte) (h : Sound s) :
    StoresOnly s ((s.on (·.store a bs)).completes t id) a bs :=
  ⟨Device.load_store s.dev a bs h.mem, fun x => Device.load_store_outside s.dev a x bs⟩

@[simp] theorem Device.thread_store (d : Device) (a : Nat) (bs : List Byte) (e u : Nat) :
    (d.store a bs).thread e u = d.thread e u := rfl

/-! ### LD, ST, VLD and VST -/

section
variable {s0 s : State} {t : ThreadId} {w : IWord} {p c : Nat}

theorem wordOffset_eq_true {off : Word} (h8 : off.toNat % 8 = 0) (hin : off.toNat < 0x100000) : (!wordOffset off) = false := by
  simp [wordOffset, h8, hin]

theorem inBuffer1_eq_true {off : Word} {n : Nat} (h : off.toNat + n ≤ 0x100000) : inBuffer1 off n = true := decide_eq_true h

theorem laneOffset_eq_true {off : Word} (h4 : off.toNat % 4 = 0) (hin : off.toNat + 256 ≤ 0x100000) :
    (!laneOffset off) = false := by
  simp [laneOffset, h4, inBuffer1_eq_true hin]

/-- A row that stores to its block's buffer and completes. -/
theorem exec_stores {i : Instr} {op : Nat} {run : Issue → Device → Device} {a : Nat} {bs : List Byte}
    (hrow : exec i s0 = .next (s0.on (·.issue t op w run))) (h : Proceeds s0 t op w p c s)
    (hrun : run (issueOf t p c op w) s.dev = (s.dev.store a bs).complete (issueOf t p c op w) id) :
    exec i s0 = .next ((s.on (·.store a bs)).completes t id) ∧
      (Sound s → StoresOnly s ((s.on (·.store a bs)).completes t id) a bs) :=
  ⟨exec_completes_from hrow h hrun rfl rfl, storesOnly_completes t a bs⟩

end

/-- Settles O8: where its offset fits, each row reads or stores the buffer's bytes there and completes. -/
theorem bufferAccess : Obligations.BufferAccess := by
  unfold Obligations.BufferAccess
  intro s0 s t w p c off hoff
  subst hoff
  refine ⟨?ld, ?vld, ?st, ?vst⟩
  case ld =>
    intro h h8 hin hr
    refine exec_completes rfl h ?_
    unfold seqLd
    exact (Device.guarded_one (wordOffset_eq_true h8 hin)).trans (Device.withBuffer_readable hr _)
  case vld =>
    intro h h4 hin hr
    refine exec_completes rfl h ?_
    rw [← lanes_buffer]
    unfold seqVld
    exact (Device.guarded_one (laneOffset_eq_true h4 hin)).trans (Device.withBuffer_readable hr _)
  case st =>
    intro h h8 hin
    refine exec_stores rfl h ?_
    unfold seqSt
    exact Device.guarded_one (wordOffset_eq_true h8 hin)
  case vst =>
    intro h h4 hin
    refine exec_stores rfl h ?_
    unfold seqVst
    exact Device.guarded_one (laneOffset_eq_true h4 hin)

/-! ### Lane operations -/

/-- A row whose meaning completes with results in the lanes of v[a]. -/
theorem exec_completeV {i : Instr} {s0 s : State} {t : ThreadId} {op : Nat} {w : IWord} {p c : Nat}
    {run : Issue → Device → Device} {r : List (Word32 × BitVec 5)} (hrow : exec i s0 = .next (s0.on (·.issue t op w run)))
    (hrun : run (issueOf t p c op w) s.dev = s.dev.completeV (issueOf t p c op w) r) (h : Proceeds s0 t op w p c s) :
    exec i s0 = .next (s.writesV t w.a (r.map (·.1)) (flagsOf r)) :=
  exec_completes hrow h hrun

/-- Settles O9: each row completes with its lane operation's results. -/
theorem vectorArithmetic : Obligations.VectorArithmetic := by
  unfold Obligations.VectorArithmetic
  intro s0 s t w p c
  exact ⟨exec_completeV rfl rfl, exec_completeV rfl rfl, exec_completeV rfl rfl, exec_completeV rfl rfl,
    exec_completeV rfl rfl, exec_completeV rfl rfl, exec_completeV rfl rfl, exec_completeV rfl rfl,
    exec_completeV rfl rfl, exec_completeV rfl rfl⟩

theorem immUnsigned_mod_lanes (w : IWord) : immUnsigned w % 64 = w.k.toNat % 64 := by
  rw [immUnsigned_eq]
  omega

/-- Settles O10. -/
theorem vectorScalars : Obligations.VectorScalars := by
  unfold Obligations.VectorScalars
  intro s0 s t w p c
  refine ⟨fun h => exec_completes rfl h rfl, exec_completeS rfl rfl rfl, fun h => exec_completes rfl h rfl, ?vmovs⟩
  case vmovs =>
    rw [← immUnsigned_mod_lanes]
    exact exec_completeS rfl rfl rfl

/-- Settles O13: each helper completes with its lanes' results, ABIAS on the table that it reads. -/
theorem attentionHelpers : Obligations.AttentionHelpers := by
  unfold Obligations.AttentionHelpers
  intro s0 s t w p c
  refine ⟨fun h => exec_completes rfl h rfl, exec_completeV rfl rfl, exec_completeV rfl rfl, fun h => exec_completes rfl h rfl, ?abias⟩
  case abias =>
    intro h h2 hin hr
    have hfits : ¬ (immUnsigned w % 2 = 1 ∨ 0x100000 < immUnsigned w + biasBytes) := by
      unfold biasBytes
      omega
    refine exec_completeV rfl ?_ h
    unfold seqAbias
    exact (Device.guarded_one (decide_eq_false hfits)).trans (Device.withBuffer_readable hr _)

/-! ### Conversions -/

/-- Settles O11: with a format that its row allows and ranges in the buffer, each conversion has its effect. -/
theorem conversions : Obligations.Conversions := by
  unfold Obligations.Conversions
  intro s0 s t w p c
  refine ⟨?vcvt, ?vqmx, ?vunpk⟩
  case vcvt =>
    intro h hfmt hsm hout
    have hformat : (!(formatAllowed (fmtField w) (smField w) && decide (smField w ≤ 1))) = false := by simp [hfmt, hsm]
    have hrange : (!inBuffer1 (s.reg t w.a) (8 * elemBits (fmtField w))) = false := by rw [inBuffer1_eq_true hout]; rfl
    refine exec_completes_from rfl h ?_ rfl (congrArg Thread.pc ?_)
    · unfold seqVcvt
      exact Device.guarded_two hformat hrange
    · exact (Device.thread_store _ _ _ _ _).trans (Device.thread_updBlock s.dev fun _ => rfl)
  case vqmx =>
    intro h hfmt hsm hout hscales
    have hformat : (!(formatAllowed (fmtField w) (smField w) && decide (smField w = 2))) = false := by
      rw [hfmt, hsm]; rfl
    have hrange : (!inBuffer1 (s.reg t w.a) (8 * elemBits (fmtField w)) || !inBuffer1 (s.reg t w.c) 2) = false := by
      rw [inBuffer1_eq_true hout, inBuffer1_eq_true hscales]; rfl
    refine exec_completes_from rfl h ?_ rfl (congrArg Thread.pc ?_)
    · unfold seqVqmx
      exact Device.guarded_two hformat hrange
    · exact (Device.thread_store _ _ _ _ _).trans
        ((Device.thread_store _ _ _ _ _).trans (Device.thread_updBlock s.dev fun _ => rfl))
  case vunpk =>
    intro h hfmt hsrc hscales hr hrs
    have hformat : (!formatAllowed (fmtField w) (smField w)) = false := by rw [hfmt]; rfl
    have hrange : (!inBuffer1 (s.reg t w.b) (8 * elemBits (fmtField w)) ||
        (decide (smField w = 2) && !inBuffer1 (s.reg t w.c) 2)) = false := by
      rw [inBuffer1_eq_true hsrc]
      by_cases hsm : smField w = 2
      · rw [inBuffer1_eq_true (hscales hsm)]; simp
      · simp [hsm]
    refine exec_completeV rfl ?_ h
    unfold seqVunpk
    exact (Device.guarded_two hformat hrange).trans
      ((Device.withBuffer_readable hr _).trans (Device.withBuffer_readable hrs _))

end Sys2Proof.Machine
end

section
/-! PROOF. The bell, bale and remote-access instructions (R145, R150, R190 to R195, R338 to R344). -/

namespace Sys2Proof.Machine

/-! ### What leaves the threads as they are -/

theorem Device.thread_of_blocks {d d' : Device} (h : d'.fabric.blocks = d.fabric.blocks) (b t : Nat) :
    d'.thread b t = d.thread b t := by
  unfold Device.thread Device.block
  rw [h]

theorem Device.setBell_blocks (d : Device) (p bell : Nat) (v : Bell) :
    (d.setBell p bell v).fabric.blocks = d.fabric.blocks := by
  unfold Device.setBell Device.setBlockBell
  split
  · split
    · rfl
    · dsimp only
      split <;> rfl
  · rfl

theorem Device.traced_fabric (d : Device) (kind object value aux paddock source : Nat) :
    (d.traced kind object value aux paddock source).fabric = d.fabric := by
  unfold Device.traced
  dsimp only
  repeat' split
  all_goals rfl

/-- A delivery takes the window that serves its address, where its route is up (R362). -/
theorem Device.sendThrough_open {d : Device} {p dir edge cls : Nat} {x : WinDelivery} {win : Win} (refuse : Device → Device)
    (hwin : d.windowFor p dir edge x.address cls = some win) (hroute : d.routeDown win = false) :
    d.sendThrough p dir edge cls x refuse = d.joinWindow p win x := by
  simp [Device.sendThrough, hwin, hroute]

/-! ### Bells -/

section
variable {s0 s : State} {t : ThreadId} {w : IWord} {p c : Nat}

theorem badThreshold_eq_false {v : Word} (hpos : 1 ≤ v.toNat) (hlt : v.toNat < 2 ^ 31) : badThreshold v = false :=
  decide_eq_false (by omega)

theorem ownBell_eq_true {i : Issue} {ref : Word} (h : ref.toNat / 64 = i.block) : ownBell i ref = true := decide_eq_true h

/-- The device of a state in which an instruction with a next one has completed. -/
theorem Proceeds.completes_dev {op : Nat} (h : Proceeds s0 t op w p c s) (f : Thread → Thread) :
    s.dev.complete (issueOf t p c op w) f = (s.completes t f).dev :=
  Device.complete_of s.dev (issueOf t p c op w) f t.thread.isLt h.next

theorem exec_bring_block (h : Proceeds s0 t 0x90 w p c s) (hpos : 1 ≤ immUnsigned w) (hmax : immUnsigned w ≤ 65535)
    (hbell : s.dev.bellOfPaddock p (s.reg t w.b) = true) (hlow : (s.reg t w.b).toNat < 65536) :
    exec (.bring t w) s0 = .next ((s.completes t id).on
      (·.perform [.ring p (s.reg t w.b).toNat (immUnsigned w) (s.dev.src (srcThread t.block.val t.thread.val))])) := by
  have hinc : ¬ (immUnsigned w = 0 ∨ 65535 < immUnsigned w) := by omega
  refine exec_issues_to rfl h.issues ?_ rfl
  unfold seqBring
  refine (Device.guarded_two (decide_eq_false hinc) ?_).trans ((if_pos hlow).trans ?_)
  · show (!s.dev.bellOfPaddock p (s.reg t w.b) || !(decide ((s.reg t w.b).toNat < 65536) || _)) = false
    simp [hbell, hlow]
  · rw [h.completes_dev]
    rfl

theorem exec_bring_net {win : Win} (h : Proceeds s0 t 0x90 w p c s) (hpos : 1 ≤ immUnsigned w) (hmax : immUnsigned w ≤ 65535)
    (hbell : s.dev.bellOfPaddock p (s.reg t w.b) = true) (hhigh : 65536 ≤ (s.reg t w.b).toNat)
    (hwin : s.dev.windowFor p 1 (((s.reg t w.b).toNat - 65536) / 1024) (bellAddress (64 * t.block.val)) 16 = some win)
    (hroute : s.dev.routeDown win = false) :
    exec (.bring t w) s0 = .next ((s.completes t id).on (·.joinWindow p win
      { size := 0, cls := 1, link := none, address := bellAddress (64 * t.block.val), data := [],
        kind := .ring (s.reg t w.b).toNat (immUnsigned w) (s.dev.src (srcThread t.block.val t.thread.val)) s.dev.now })) := by
  have hinc : ¬ (immUnsigned w = 0 ∨ 65535 < immUnsigned w) := by omega
  have hnet : ¬ (s.reg t w.b).toNat < 65536 := Nat.not_lt.2 hhigh
  refine exec_issues_to rfl h.issues ?_ rfl
  unfold seqBring
  refine (Device.guarded_two (decide_eq_false hinc) ?_).trans ((if_neg hnet).trans ?_)
  · show (!s.dev.bellOfPaddock p (s.reg t w.b) || !(_ ||
      (s.dev.windowFor p 1 (((s.reg t w.b).toNat - 65536) / 1024) (bellAddress (64 * t.block.val)) 16).isSome)) = false
    simp [hbell, hwin]
  · rw [h.completes_dev]
    exact Device.sendThrough_open _ hwin hroute

/-- BWAIT and BTRY go on with a threshold in range and a bell of their own block. -/
theorem bell_conditions {op : Nat} (hpos : 1 ≤ (s.reg t w.c).toNat) (hlt : (s.reg t w.c).toNat < 2 ^ 31)
    (hbell : s.dev.bellOfPaddock p (s.reg t w.b) = true) (hown : (s.reg t w.b).toNat / 64 = t.block.val)
    (run : Device → Device) :
    s.dev.guarded (issueOf t p c op w) [(badThreshold (s.reg t w.c), exBound),
      (!s.dev.bellOfPaddock p (s.reg t w.b) || !ownBell (issueOf t p c op w) (s.reg t w.b), exAddress)] run = run s.dev :=
  Device.guarded_two (badThreshold_eq_false hpos hlt) (by rw [hbell, ownBell_eq_true hown]; rfl)

theorem exec_btry_met (h : Proceeds s0 t 0x92 w p c s) (hpos : 1 ≤ (s.reg t w.c).toNat) (hlt : (s.reg t w.c).toNat < 2 ^ 31)
    (hbell : s.dev.bellOfPaddock p (s.reg t w.b) = true) (hown : (s.reg t w.b).toNat / 64 = t.block.val)
    (hmet : (s.reg t w.c).toNat ≤ (s.dev.bell p (s.reg t w.b).toNat).value) :
    exec (.btry t w) s0 = .next ((s.on fun d =>
      let b := d.bell p (s.reg t w.b).toNat
      (d.setBell p (s.reg t w.b).toNat { b with value := b.value - (s.reg t w.c).toNat, unseen := [] }).traced 2
        (s.reg t w.b).toNat (s.reg t w.c).toNat (b.value - (s.reg t w.c).toNat) p
        (d.src (srcThread t.block.val t.thread.val))).writes t w.a 0) := by
  refine exec_completes_from rfl h ?_ rfl (congrArg Thread.pc ?_)
  · unfold seqBtry
    exact (bell_conditions hpos hlt hbell hown _).trans (if_pos hmet)
  · refine Device.thread_of_blocks ?_ _ _
    exact (congrArg Fabric.blocks (Device.traced_fabric ..)).trans (Device.setBell_blocks ..)

theorem exec_btry_unmet (h : Proceeds s0 t 0x92 w p c s) (hpos : 1 ≤ (s.reg t w.c).toNat) (hlt : (s.reg t w.c).toNat < 2 ^ 31)
    (hbell : s.dev.bellOfPaddock p (s.reg t w.b) = true) (hown : (s.reg t w.b).toNat / 64 = t.block.val)
    (hunmet : (s.dev.bell p (s.reg t w.b).toNat).value < (s.reg t w.c).toNat) :
    exec (.btry t w) s0 = .next (s.writes t w.a 1) := by
  refine exec_completes rfl h ?_
  unfold seqBtry
  exact (bell_conditions hpos hlt hbell hown _).trans (if_neg (Nat.not_le.2 hunmet))

/-- BREAD writes the value of a bell of the paddock, from the device that it leaves. -/
theorem exec_bread {u : State} (h : Proceeds s0 t 0x93 w p c s) (hbell : s.dev.bellOfPaddock p (s.reg t w.b) = true)
    (hu : (if (s.dev.bell p (s.reg t w.b).toNat).value = 0 ∨ (s.dev.bell p (s.reg t w.b).toNat).unseen.isEmpty then s.dev
      else s.dev.setBell p (s.reg t w.b).toNat { s.dev.bell p (s.reg t w.b).toNat with unseen := [] }) = u.dev)
    (hqueue : u.pending = s.pending)
    (hblocks : u.dev.fabric.blocks = s.dev.fabric.blocks) :
    exec (.bread t w) s0 = .next (u.writes t w.a (BitVec.ofNat 64 (s.dev.bell p (s.reg t w.b).toNat).value)) := by
  refine exec_completes_from rfl h ?_ hqueue (congrArg Thread.pc (Device.thread_of_blocks hblocks _ _))
  rw [← hu]
  unfold seqBread
  exact Device.guarded_one (show (!s.dev.bellOfPaddock p (s.reg t w.b)) = false by rw [hbell]; rfl)

end

/-- Settles O14: with a bell of the paddock each row does what R190 to R195 say. -/
theorem bellInstructions : Obligations.BellInstructions := by
  unfold Obligations.BellInstructions
  intro s0 s t w p c
  refine ⟨?bring, ?bwait, ?btry, ?bread⟩
  case bring =>
    intro h hpos hmax hbell
    exact ⟨exec_bring_block h hpos hmax hbell, fun win => exec_bring_net h hpos hmax hbell⟩
  case bwait =>
    intro h hpos hlt hbell hown
    refine exec_issues rfl h ?_
    unfold seqBwait
    exact bell_conditions hpos hlt hbell hown _
  case btry =>
    intro h hpos hlt hbell hown
    exact ⟨exec_btry_met h hpos hlt hbell hown, exec_btry_unmet h hpos hlt hbell hown⟩
  case bread =>
    intro h hbell
    refine ⟨fun hseen => ?_, fun hvalue hunseen => ?_⟩
    · refine exec_bread h hbell (if_pos ?_) rfl rfl
      simpa using hseen
    · refine exec_bread h hbell (if_neg ?_) rfl (Device.setBell_blocks ..)
      simp [hvalue, hunseen]

end Sys2Proof.Machine
end

section
/-! PROOF. Sequencer rows whose instruction does not issue, and what completing at the last PC does (R131 to R133, R137,
R155). -/

namespace Sys2Proof.Machine

/-! ### Rows of the sequencer -/

/-- A row of the sequencer with its opcode: it tries to issue an instruction, whatever its meaning. -/
def IsSequencerRow (t : ThreadId) (w : IWord) (e : Instr × Nat) : Prop :=
  ∃ run, ∀ s, exec e.1 s = .next (s.on (·.issue t e.2 w run))

theorem sequencerRows_issue (t : ThreadId) (w : IWord) : ∀ e ∈ sequencerRows t w, IsSequencerRow t w e := by
  unfold sequencerRows
  repeat' refine List.forall_mem_cons.2 ⟨⟨_, fun _ => rfl⟩, ?_⟩
  exact List.forall_mem_nil _

/-- A row of the sequencer that completes its instruction by changing its thread alone. -/
def IsRegisterRow (t : ThreadId) (w : IWord) (e : Instr × Nat) : Prop :=
  ∃ run : Issue → Device → Device, (∀ s, exec e.1 s = .next (s.on (·.issue t e.2 w run))) ∧
    ∀ i d, ∃ f : Thread → Thread, run i d = d.complete i f

theorem registerRows_complete (t : ThreadId) (w : IWord) : ∀ e ∈ registerRows t w, IsRegisterRow t w e := by
  unfold registerRows
  repeat' refine List.forall_mem_cons.2 ⟨⟨_, fun _ => rfl, fun _ _ => ⟨_, rfl⟩⟩, ?_⟩
  exact List.forall_mem_nil _

/-! ### An instruction that does not issue -/

section
variable {d : Device} {t : ThreadId} {op : Nat} {w : IWord} {p : Nat} (run : Issue → Device → Device)

theorem Device.issue_of_unissuing (h : d.issuesFor t.block.val = none) : d.issue t op w run = d := by
  unfold Device.issue
  simp only [h]

theorem Device.issue_of_not_next
    (h : ((d.thread t.block.val t.thread.val).mayIssue && d.isNext t.block.val t.thread.val op w) = false) :
    d.issue t op w run = d := by
  unfold Device.issue
  simp only [h]
  split <;> rfl

theorem Device.isNext_of_word (h : d.nextWord t.block.val t.thread.val = (op, w)) :
    d.isNext t.block.val t.thread.val op w = true := by
  simp [Device.isNext, h]

variable (hp : d.issuesFor t.block.val = some p) (hmay : (d.thread t.block.val t.thread.val).mayIssue = true)
  (hword : d.nextWord t.block.val t.thread.val = (op, w))
include hp hmay hword

/-- A thread whose block no longer issues for the paddock when its next CCLK comes. -/
theorem Device.issue_left (hleft : (d.toNextCclk p t.block.val).issuesFor t.block.val ≠ some p) :
    d.issue t op w run = d.toNextCclk p t.block.val := by
  unfold Device.issue
  simp [hp, hmay, Device.isNext_of_word hword, hleft]

variable (hstays : (d.toNextCclk p t.block.val).issuesFor t.block.val = some p)
include hstays

theorem Device.issue_no_turn (hturn : (d.toNextCclk p t.block.val).turn p t.block.val t.thread.val = none) :
    d.issue t op w run = (d.toNextCclk p t.block.val).passedBy p t.block.val t.thread.val := by
  unfold Device.issue
  simp [hp, hmay, Device.isNext_of_word hword, hstays, hturn]

theorem Device.issue_turn {c : Nat} (hturn : (d.toNextCclk p t.block.val).turn p t.block.val t.thread.val = some c) :
    d.issue t op w run = (d.toNextCclk p t.block.val).issueIn p t.block.val t.thread.val c run := by
  unfold Device.issue
  simp [hp, hmay, Device.isNext_of_word hword, hstays, hturn]

end

section
variable {d : Device} {p b n op : Nat} {w : IWord}

/-- A thread whose instruction needs a slotted resource, or that something outstanding holds, is HELD (R131, R133). -/
theorem Device.passedBy_held (hwaits : (d.thread b n).waits ≠ .yielded) (hword : d.nextWord b n = (op, w))
    (h : (slotRes op).isSome = true ∨ d.awaits p b n op w = true) :
    d.passedBy p b n = d.updThread b n fun q => { q with state := .held, waits := .nothing } := by
  unfold Device.passedBy
  have hheld : ((slotRes op).isSome || d.awaits p b n op w) = true := by simpa using h
  simp only [hword, hwaits, if_false, hheld, if_true]

theorem Device.passedBy_stays (hwaits : (d.thread b n).waits ≠ .yielded) (hword : d.nextWord b n = (op, w))
    (hslot : slotRes op = none) (hfree : d.awaits p b n op w = false) : d.passedBy p b n = d := by
  unfold Device.passedBy
  simp [hword, hwaits, hslot, hfree]

/-- Past the last word of the store a thread raises ADDRESS in its turn. -/
theorem Device.issueIn_past (c : Nat) (run : Issue → Device → Device) (hword : d.nextWord b n = (op, w))
    (hpc : 8192 ≤ (d.thread b n).pc) : d.issueIn p b n c run = (d.takeTurn p b n c op w).exception
      { block := b, thread := n, paddock := p, op := op, w := w, cclk := c } 8191
      (((d.block b).istore.get 8191).toNat / 2 ^ 56) exAddress := by
  unfold Device.issueIn
  simp only [hword, hpc, if_true]

/-- An illegal word raises ILLEGAL in its turn. -/
theorem Device.issueIn_illegal (c : Nat) (run : Issue → Device → Device) (hword : d.nextWord b n = (op, w))
    (hpc : (d.thread b n).pc < 8192) (hlegal : wordLegal op w = false) : d.issueIn p b n c run =
      (d.takeTurn p b n c op w).raise { block := b, thread := n, paddock := p, op := op, w := w, cclk := c } exIllegal := by
  unfold Device.issueIn
  simp [hword, Nat.not_le.2 hpc, hlegal]

end

theorem IsSequencerRow.exec_is {t : ThreadId} {w : IWord} {e : Instr × Nat} (h : IsSequencerRow t w e) {s : State} {d : Device}
    (hd : ∀ run, s.dev.issue t e.2 w run = d) : exec e.1 s = .next (s.on fun _ => d) := by
  obtain ⟨run, hrow⟩ := h
  rw [hrow, ← hd run]
  rfl

/-- Settles O19: each case is one of the branches of `Device.issue`, the same for every row. -/
theorem instructionsThatDoNotIssue : Obligations.InstructionsThatDoNotIssue := by
  unfold Obligations.InstructionsThatDoNotIssue
  intro t w e he s p
  have hrow := sequencerRows_issue t w e he
  refine ⟨fun hnone => hrow.exec_is fun run => Device.issue_of_unissuing run hnone, fun hmay => hrow.exec_is fun run => ?_,
    fun hpc hlegal hother => hrow.exec_is fun run => ?_, fun hp hmay hword => ?_⟩
  · exact Device.issue_of_not_next run (by rw [show (s.dev.thread t.block.val t.thread.val).mayIssue = false from hmay]; rfl)
  · have hinside : ¬ 8192 ≤ (s.dev.thread t.block.val t.thread.val).pc := Nat.not_le.2 hpc
    exact Device.issue_of_not_next run (by simp [Device.isNext, hinside, hlegal, hother])
  · refine ⟨fun hleft => hrow.exec_is fun run => Device.issue_left run hp hmay hword hleft, fun hstays hword' =>
      ⟨fun hturn hwaits => ⟨fun hheld => hrow.exec_is fun run => ?_, fun hslot hfree => hrow.exec_is fun run => ?_⟩,
        fun c hturn => ⟨fun hpc => hrow.exec_is fun run => ?_, fun hpc hlegal => hrow.exec_is fun run => ?_⟩⟩⟩
    · exact (Device.issue_no_turn run hp hmay hword hstays hturn).trans (Device.passedBy_held hwaits hword' hheld)
    · exact (Device.issue_no_turn run hp hmay hword hstays hturn).trans (Device.passedBy_stays hwaits hword' hslot hfree)
    · exact (Device.issue_turn run hp hmay hword hstays hturn).trans (Device.issueIn_past c run hword' hpc)
    · exact (Device.issue_turn run hp hmay hword hstays hturn).trans (Device.issueIn_illegal c run hword' hpc hlegal)

/-- Settles O20: each of these rows completes by changing its thread, which at PC 8,191 stands past the last word. -/
theorem lastWordOfStore : Obligations.LastWordOfStore := by
  unfold Obligations.LastWordOfStore
  intro t w e he s0 s p c h hpc
  obtain ⟨run, hrow, hrun⟩ := registerRows_complete t w e he
  obtain ⟨f, hf⟩ := hrun (issueOf t p c e.2 w) s.dev
  exact ⟨f, exec_issues_to (hrow s0) h (hf.trans (Device.complete_last s.dev _ f t.thread.isLt hpc)) rfl⟩

end Sys2Proof.Machine
end

section
/-! PROOF. The bale instructions and the remote-access instructions (R145, R146, R150, R338 to R344). -/

namespace Sys2Proof.Machine

/-! ### Bale transfers that start -/

section
variable {d : Device} {i : Issue} {b : List Byte}

theorem badCount_eq_false (hpos : 1 ≤ countField i.w) (hmax : countField i.w ≤ 1024) : badCount i = false :=
  decide_eq_false (by omega)

variable (hcount : badCount i = false)
include hcount

theorem seqBload_starts (hb : d.binding i.paddock (d.self i).bale = some b)
    (hfits : inBuffer1 (d.sA i) (countField i.w * (bindingOf b).size + rawBlock * (bindingOf b).annex) = true)
    (hmem : d.baleMemory i.paddock (d.sB i).toNat (countField i.w * (bindingOf b).size) = true)
    (hworld : d.worldClash i.paddock (d.sB i).toNat (countField i.w * (bindingOf b).size) = false) :
    seqBload i d = d.startBale i .load b := by
  simp [seqBload, Device.guarded, hb, hcount, hfits, hmem, hworld]

theorem seqBstore_starts (hb : d.binding i.paddock (d.self i).bale = some b)
    (hfits : inBuffer1 (d.sA i) (rawBlock * countField i.w) = true)
    (hmem : d.baleMemory i.paddock (d.sB i).toNat (countField i.w * (bindingOf b).size) = true)
    (hworld : d.worldClash i.paddock (d.sB i).toNat (countField i.w * (bindingOf b).size) = false) :
    seqBstore i d = d.startBale i .store b := by
  simp [seqBstore, Device.guarded, hb, hcount, hfits, hmem, hworld]

theorem seqBexpand_starts (hb : d.binding i.paddock (d.self i).bale = some b)
    (hfits : inBuffer1 (d.sA i) (rawBlock * countField i.w) = true)
    (hsource : inBuffer1 (d.sB i) (countField i.w * (bindingOf b).size) = true) :
    seqBexpand i d = d.startBale i .expand b := by
  simp [seqBexpand, Device.guarded, hb, hcount, hfits, hsource]

theorem seqBcopy_starts (hfits : inBuffer1 (d.sA i) (rawBlock * countField i.w) = true)
    (hmem : d.baleMemory i.paddock (d.sB i).toNat (rawBlock * countField i.w) = true)
    (hworld : d.worldClash i.paddock (d.sB i).toNat (rawBlock * countField i.w) = false) :
    seqBcopy i d = d.startBale i (if classBit i.w 31 then .copyOut else .copyIn) [] := by
  simp [seqBcopy, Device.guarded, hcount, hfits, hmem, hworld]

end

/-- A row that starts a bale transfer goes on at once. -/
theorem exec_startBale {i : Instr} {s0 s : State} {t : ThreadId} {op : Nat} {w : IWord} {p c : Nat}
    {run : Issue → Device → Device} {bop : BaleOp} {b : List Byte} (hrow : exec i s0 = .next (s0.on (·.issue t op w run)))
    (h : Proceeds s0 t op w p c s) (hrun : run (issueOf t p c op w) s.dev = s.dev.startBale (issueOf t p c op w) bop b) :
    exec i s0 = .next ((s.on (·.updBlock t.block.val fun k => { k with bales := k.bales ++
      [{ op := bop, thread := t.thread.val, buffer := (s.reg t w.a).toNat, address := (s.reg t w.b).toNat,
         count := countField w, tensor := (s.threadOf t).bale, binding := b, bell := baleBell w }] })).completes t id) :=
  exec_completes_from hrow h hrun rfl (congrArg Thread.pc (Device.thread_updBlock s.dev fun _ => rfl))

/-! ### A block with its transfers outstanding -/

section
variable {d : Device} {p b n : Nat}

/-- A thread whose turn comes is granted its resource or needs none and is held by nothing. -/
theorem Device.ready_of_chosen {c : Nat} (h : d.chosen p b c = some n) :
    d.readyFree p b n = true ∨ ∃ runs res, d.readyGranted runs p b res c n = true := by
  unfold Device.chosen at h
  dsimp only at h
  split at h
  next u hmatrix =>
    cases h
    exact .inr ⟨_, _, List.find?_some hmatrix⟩
  next =>
    split at h
    next u hport =>
      cases h
      exact .inr ⟨_, _, List.find?_some hport⟩
    next => exact .inl (List.find?_some h)

/-- A thread with a legal instruction that something outstanding holds is not chosen (R132). -/
theorem Device.chosen_ne_of_awaits {op : Nat} {w : IWord} (hword : d.nextWord b n = (op, w)) (hpc : (d.thread b n).pc < 8192)
    (hlegal : wordLegal op w = true) (hawaits : d.awaits p b n op w = true) (c : Nat) : d.chosen p b c ≠ some n := by
  intro h
  have hinside : ¬ 8192 ≤ (d.thread b n).pc := Nat.not_le.2 hpc
  rcases Device.ready_of_chosen h with hfree | ⟨runs, res, hgranted⟩
  · simp [Device.readyFree, hword, hinside, hlegal, hawaits] at hfree
  · simp [Device.readyGranted, hword, hawaits] at hgranted

theorem Device.turnFrom_none (h : ∀ c, d.chosen p b c ≠ some n) : ∀ k c, d.turnFrom p b n k c = none
  | 0, _ => rfl
  | k + 1, c => by
    unfold Device.turnFrom
    split
    next u hu => exact if_neg fun e => h c (hu.trans (congrArg some e))
    next => exact Device.turnFrom_none h k (c + 1)

theorem Device.turn_none (h : ∀ c, d.chosen p b c ≠ some n) : d.turn p b n = none := Device.turnFrom_none h _ _

/-- With 16 transfers outstanding a bale instruction waits (R146). -/
theorem Device.awaits_of_full {op : Nat} {w : IWord} (hop : 0x61 ≤ op ∧ op ≤ 0x64) (hfull : 16 ≤ (d.block b).bales.length) :
    d.awaits p b n op w = true := by
  simp [Device.awaits, Device.limitHolds, maxBales, hop, hfull]

end

theorem baleRows_issue (t : ThreadId) (w : IWord) :
    ∀ e ∈ [(Instr.bload t w, 0x61), (.bstore t w, 0x62), (.bexpand t w, 0x63), (.bcopy t w, 0x64)],
      IsSequencerRow t w e ∧ 0x61 ≤ e.2 ∧ e.2 ≤ 0x64 := by
  repeat' refine List.forall_mem_cons.2 ⟨⟨⟨_, fun _ => rfl⟩, Nat.le_of_ble_eq_true rfl, Nat.le_of_ble_eq_true rfl⟩, ?_⟩
  exact List.forall_mem_nil _

/-- Settles O16: each row starts its transfer, and a block with 16 outstanding holds its thread. -/
theorem baleInstructions : Obligations.BaleInstructions := by
  unfold Obligations.BaleInstructions
  intro s0 s t w p c b
  refine ⟨?bload, ?bstore, ?bexpand, ?bcopy, ?full⟩
  case bload =>
    intro h hb hpos hmax hfits hmem hworld
    exact exec_startBale rfl h
      (seqBload_starts (badCount_eq_false hpos hmax) hb (inBuffer1_eq_true hfits) hmem hworld)
  case bstore =>
    intro h hb hpos hmax hfits hmem hworld
    exact exec_startBale rfl h
      (seqBstore_starts (badCount_eq_false hpos hmax) hb (inBuffer1_eq_true hfits) hmem hworld)
  case bexpand =>
    intro h hb hpos hmax hfits hsource
    exact exec_startBale rfl h
      (seqBexpand_starts (badCount_eq_false hpos hmax) hb (inBuffer1_eq_true hfits) (inBuffer1_eq_true hsource))
  case bcopy =>
    intro h hpos hmax hfits hmem hworld
    exact exec_startBale rfl h
      (seqBcopy_starts (badCount_eq_false hpos hmax) (inBuffer1_eq_true hfits) hmem hworld)
  case full =>
    intro e he d hp hmay hword hstays hpc hwaits hword' hlegal hfull
    obtain ⟨hrow, hop⟩ := baleRows_issue t w e he
    have hawaits := Device.awaits_of_full (n := t.thread.val) (p := p) (w := w) hop hfull
    have hturn := Device.turn_none (Device.chosen_ne_of_awaits hword' hpc hlegal hawaits)
    exact hrow.exec_is fun run =>
      (Device.issue_no_turn run hp hmay hword hstays hturn).trans (Device.passedBy_held hwaits hword' (.inr hawaits))

/-! ### Remote accesses -/

section
variable {d : Device} {i : Issue} {k : Ctx} {r : Request} {home : Nat} {out back : Win}

/-- What an access of an instruction is, its context's die being known (R338, R339). -/
def Device.accessOf (d : Device) (i : Issue) (k : Ctx) (r : Request) (home : Nat) (data : List Byte) : RemoteAccess :=
  { id := d.fabric.nextRemote, op := r.op, block := i.block, thread := i.thread, paddock := i.paddock, ctx := k.ctx,
    address := (d.sB i).toNat, len := r.len, dest := r.dest, buffer := ((r.buffer.map (·.toNat)).getD 0), bell := r.bell,
    bound := if r.op = .load ∨ r.op = .atomic ∨ r.op = .get then d.now + k.bound else 0,
    conn := if k.isLocal then 0x100000 + home else k.conn % 0x100000, asked := r.asked k home data }

/-- The device in which an access has joined the outstanding ones and its thread waits past its instruction (R150). -/
def Device.accessJoined (d : Device) (i : Issue) (a : RemoteAccess) : Device :=
  (d.mapFabric fun f => { f with remote := f.remote ++ [a], nextRemote := f.nextRemote + 1 }).updThread i.block i.thread
    fun q => { q with pc := q.pc + 1, state := .waiting, waits := .remote d.fabric.nextRemote }

theorem Device.startRemote_leaves (data : List Byte) (hhome : d.contextHome k = some home)
    (hout : d.windowFor i.paddock 1 home (bellAddress (64 * i.block)) 16 = some out) (hroute : d.routeDown out = false) :
    d.startRemote i k r data = (d.accessJoined i (d.accessOf i k r home data)).joinWindow i.paddock out
      { size := (d.accessOf i k r home data).payload, cls := (if k.cls = 0xFF then 1 else k.cls), link := none,
        address := bellAddress (64 * i.block), data := [], kind := .remote d.fabric.nextRemote } := by
  have hconn : (if k.isLocal then 0x100000 + k.home else k.conn % 0x100000) =
      if k.isLocal then 0x100000 + home else k.conn % 0x100000 := by
    split
    next hlocal =>
      unfold Device.contextHome at hhome
      rw [if_pos hlocal] at hhome
      rw [Option.some.inj hhome]
    next => rfl
  unfold Device.startRemote
  simp only [hhome, hconn, decide_eq_true_eq, Option.getD_some]
  exact Device.sendThrough_open _ hout hroute

/-- On a connection that is IDLE an access is refused as it issues (R344). -/
theorem Device.startRemote_idle (data : List Byte) (hhome : d.contextHome k = none) :
    d.startRemote i k r data =
      (d.accessJoined i { d.accessOf i k r 0 data with conn := if k.isLocal then 0x100000 + k.home else k.conn % 0x100000 }).endRemote
        d.fabric.nextRemote (.refused 0x0A) := by
  unfold Device.startRemote
  simp only [hhome, decide_eq_true_eq, Option.getD_none]
  rfl

variable (hctx : d.contextOf i.paddock (ctxField i.w) = some k) (hworld : k.secure = d.isSecure i.paddock)
  (hwindows : d.remoteWindows i k = true) (halign : (d.sB i).toNat % r.align = 0)
include hctx hworld hwindows halign

/-- A remote-access instruction that reads no buffer and passes its checks starts its access. -/
theorem remoteIssue_starts (hop : r.op ≠ .put) (hlen : r.op = .get → 1 ≤ lenField i.w ∧ lenField i.w ≤ 128)
    (hfits : ∀ off, r.buffer = some off → inBuffer1 off r.len = true) : remoteIssue r i d = d.startRemote i k r [] := by
  unfold remoteIssue
  refine (Device.guarded_none ?_).trans ?_
  · simp only [List.forall_mem_cons, hctx, hworld, hwindows, halign]
    simp only [hop, false_or, Option.isNone_some, bne_self_eq_false, Bool.not_true, ne_eq, not_true_eq_false, decide_false,
      true_and, Bool.and_eq_false_iff, decide_eq_false_iff_not]
    refine ⟨?_, ?_⟩
    · by_cases hget : r.op = .get
      · have := hlen hget
        exact .inr (by omega)
      · exact .inl hget
    · split
      next => exact ⟨rfl, nofun⟩
      next off hoff => exact ⟨by rw [hfits off hoff]; rfl, nofun⟩
  · simp only [hctx]
    split
    next hput _ => exact absurd hput hop
    next => rfl

/-- RPUT reads its data first. -/
theorem remoteIssue_put {off : Word} (hop : r.op = .put) (hbuffer : r.buffer = some off) (hpos : 1 ≤ lenField i.w)
    (hmax : lenField i.w ≤ 128) (hfits : inBuffer1 off r.len = true) :
    remoteIssue r i d = d.withBuffer i off.toNat r.len fun data d => d.startRemote i k r data := by
  unfold remoteIssue
  refine (Device.guarded_none ?_).trans ?_
  · simp [hctx, hworld, hwindows, halign, hop, hbuffer, hfits]
    omega
  · simp only [hctx, hop, hbuffer]

end

/-- Settles O17: each row's request passes its checks and starts its access. -/
theorem remoteInstructions : Obligations.RemoteInstructions := by
  unfold Obligations.RemoteInstructions
  intro s0 s t w p c home k out back hctx hworld hhome hout hback hroute started
  have hwindows : ∀ op, s.dev.remoteWindows (issueOf t p c op w) k = true := fun op => by
    have hboth : ((s.dev.windowFor p 1 home (bellAddress (64 * t.block.val)) 16).isSome &&
        (s.dev.windowFor p 0 home (bellAddress (64 * t.block.val)) 16).isSome) = true := by rw [hout, hback]; rfl
    unfold Device.remoteWindows
    simp only [hhome]
    exact hboth
  have hleaves : ∀ op r data, s.dev.startRemote (issueOf t p c op w) k r data = (started r data).dev :=
    fun op r data => Device.startRemote_leaves data hhome hout hroute
  have hstarts : ∀ op r, (s.reg t w.b).toNat % r.align = 0 → r.op ≠ .put →
      (r.op = .get → 1 ≤ lenField w ∧ lenField w ≤ 128) → (∀ off, r.buffer = some off → inBuffer1 off r.len = true) →
      remoteIssue r (issueOf t p c op w) s.dev = (started r []).dev := fun op r halign hop hlen hfits =>
    (remoteIssue_starts hctx hworld (hwindows op) halign hop hlen hfits).trans (hleaves op r [])
  have hputs : ∀ op r (off : Word), (s.reg t w.b).toNat % r.align = 0 → r.op = .put → r.buffer = some off →
      1 ≤ lenField w → lenField w ≤ 128 → inBuffer1 off r.len = true → Readable s t p off.toNat r.len →
      remoteIssue r (issueOf t p c op w) s.dev = (started r (s.buffer t off.toNat r.len)).dev :=
    fun op r off halign hop hbuffer hpos hmax hfits hread =>
      (remoteIssue_put hctx hworld (hwindows op) halign hop hbuffer hpos hmax hfits).trans
        ((Device.withBuffer_readable hread _).trans (hleaves op r _))
  refine ⟨?rload, ?rstore, ?rflag, ?ratom, ?rput, ?rget⟩
  case rload => exact fun h h8 => exec_issues_to rfl h (hstarts _ _ h8 nofun nofun nofun) rfl
  case rstore => exact fun h h8 => exec_issues_to rfl h (hstarts _ _ h8 nofun nofun nofun) rfl
  case rflag => exact fun h h8 => exec_issues_to rfl h (hstarts _ _ h8 nofun nofun nofun) rfl
  case ratom => exact fun h h8 => exec_issues_to rfl h (hstarts _ _ h8 nofun nofun nofun) rfl
  case rput =>
    intro h h64 hpos hmax hfits hread
    exact exec_issues_to rfl h (hputs _ _ _ h64 rfl rfl hpos hmax (inBuffer1_eq_true hfits) hread) rfl
  case rget =>
    intro h h64 hpos hmax hfits
    exact exec_issues_to rfl h (hstarts _ _ h64 nofun (fun _ => ⟨hpos, hmax⟩) fun off hoff =>
      Option.some.inj hoff ▸ inBuffer1_eq_true hfits) rfl

/-- Settles O18: an access on an IDLE connection, and one that its window admits. -/
theorem remoteAccessStarts : Obligations.RemoteAccessStarts := by
  unfold Obligations.RemoteAccessStarts
  refine ⟨?idle, ?admitted⟩
  case idle =>
    intro d i k r data hhome
    exact ⟨_, rfl, rfl, rfl, rfl, rfl, rfl, Device.startRemote_idle data hhome⟩
  case admitted =>
    intro d id a hid hexpired
    unfold Device.remoteLeaves
    simp only [hid, hexpired, Bool.false_eq_true, if_false]

end Sys2Proof.Machine
end

section
/-! PROOF. The mailbox commands that report: what each answers, and that it answers at all. -/

namespace Sys2Proof.Machine

/-! ### Checks in a row -/

@[simp] theorem require_eq_none {ok : Bool} {r n : Nat} : require ok r n = none ↔ ok = true := by
  cases ok <;> simp [require]

@[simp] theorem firstFail_nil_eq_none : firstFail [] = none := rfl

@[simp] theorem firstFail_cons_eq_none {x : Check} {cs : List Check} :
    firstFail (x :: cs) = none ↔ x = none ∧ firstFail cs = none := by
  cases x <;> simp [firstFail]

theorem firstFail_append_eq_none {xs ys : List Check} : firstFail (xs ++ ys) = none ↔ firstFail xs = none ∧ firstFail ys = none := by
  induction xs with
  | nil => simp
  | cons x xs ih => simp [ih, and_assoc]

/-! ### An immediate command that runs -/

/-- A row acts on the device as another function does. -/
theorem exec_acts {i : Instr} {s : State} {f g : Device → Device} (hrow : exec i s = .next (s.on f)) (h : f s.dev = g s.dev) :
    exec i s = .next (s.on g) := by
  rw [hrow]
  simp only [State.on, h]

/-- A row that acts on the device answers what its action leaves of it. -/
theorem exec_on {i : Instr} {s : State} {f : Device → Device} {d : Device} (hrow : exec i s = .next (s.on f)) (hd : f s.dev = d) :
    exec i s = .next (s.on fun _ => d) := exec_acts hrow hd

/-- A row of the command index that runs answers what its effect leaves of the device that took it. -/
theorem exec_runs {i : Instr} {s : State} {op : Nat} {m : Immediate} {c : Cmd} {d : Device} (h : Runs s op m c)
    (hrow : exec i s = .next (s.on (·.runRow (.immediate m) op c)))
    (hd : m.run (s.dev.takes c op) (callOf c op) = d) : exec i s = .next (s.on fun _ => d) :=
  exec_on hrow ((Device.runRow_runs h).trans hd)

/-- A command only reports: where it passes its checks, its effect is an answer OK with some payload. -/
def Immediate.Reports (m : Immediate) : Prop :=
  ∀ d c, m.check d c = none → ∃ payload, m.run d c = d.answerOk c payload

/-- A row of the command index whose command only reports. -/
structure IsReport (e : Instr × Immediate × Nat) (c : Cmd) : Prop where
  /-- The instruction is the row of its command. -/
  row : ∀ s : State, exec e.1 s = .next (s.on (·.runRow (.immediate e.2.1) e.2.2 c))
  /-- Its command only reports. -/
  reports : e.2.1.Reports

theorem immStageStatus_reports : immStageStatus.Reports := by
  intro d c h
  obtain ⟨hset, -⟩ := firstFail_cons_eq_none.1 h
  obtain ⟨x, hx⟩ := Option.isSome_iff_exists.1 (require_eq_none.1 hset)
  simp only [immStageStatus, hx]
  exact ⟨_, rfl⟩

theorem Device.paddock_of_named {d : Device} {c : Call} {off : Nat} {cs : List Check}
    (h : firstFail (d.paddockNamed c off ++ cs) = none) : ∃ x, d.paddock (fieldU8 c.payload off) = some x := by
  obtain ⟨hnamed, -⟩ := firstFail_append_eq_none.1 h
  obtain ⟨-, hrest⟩ := firstFail_cons_eq_none.1 hnamed
  obtain ⟨hx, -⟩ := firstFail_cons_eq_none.1 hrest
  exact Option.isSome_iff_exists.1 (require_eq_none.1 hx)

theorem immPaddockStatus_reports : immPaddockStatus.Reports := by
  intro d c h
  obtain ⟨x, hx⟩ := Device.paddock_of_named h
  simp only [immPaddockStatus, paddockCommand, hx]
  exact ⟨_, rfl⟩

theorem immImageInfo_reports : immImageInfo.Reports := by
  intro d c h
  obtain ⟨hnamed, -⟩ := firstFail_cons_eq_none.1 h
  obtain ⟨x, hx⟩ := Option.isSome_iff_exists.1 (require_eq_none.1 hnamed)
  simp only [immImageInfo, hx]
  exact ⟨_, rfl⟩

theorem immFoldStatus_reports : immFoldStatus.Reports := by
  intro d c h
  obtain ⟨hnamed, -⟩ := firstFail_cons_eq_none.1 h
  obtain ⟨f, hf⟩ := Option.isSome_iff_exists.1 (require_eq_none.1 hnamed)
  simp only [immFoldStatus, hf]
  exact ⟨_, rfl⟩

/-- The fold exists, and where a paddock is named so do its figures (R304). -/
theorem immFoldMeter_reports : immFoldMeter.Reports := by
  intro d c h
  obtain ⟨hnamed, hrest⟩ := firstFail_cons_eq_none.1 h
  obtain ⟨hmeter, -⟩ := firstFail_cons_eq_none.1 hrest
  obtain ⟨f, hf⟩ := Option.isSome_iff_exists.1 (require_eq_none.1 hnamed)
  by_cases hp : fieldU8 c.payload 2 = 0xFF
  · simp only [immFoldMeter, hf, if_pos hp]
    exact ⟨_, rfl⟩
  · rw [require_eq_none, hf, decide_eq_false hp, Bool.false_or, Bool.and_eq_true] at hmeter
    obtain ⟨m, hm⟩ := Option.isSome_iff_exists.1 hmeter.2
    have hm : f.meterOf (fieldU8 c.payload 2) = some m := hm
    simp only [immFoldMeter, hf, if_neg hp, hm]
    exact ⟨_, rfl⟩

theorem immQueueStatus_reports : immQueueStatus.Reports := by
  intro d c _
  simp only [immQueueStatus]
  cases d.ring (fieldU16 c.payload 0) <;> exact ⟨_, rfl⟩

theorem immConnStatus_reports : immConnStatus.Reports := by
  intro d c _
  simp only [immConnStatus]
  cases d.conn (fieldU32 c.payload 0) <;> exact ⟨_, rfl⟩

theorem immExposeStatus_reports : immExposeStatus.Reports := by
  intro d c _
  simp only [immExposeStatus]
  cases d.exposureOf (fieldU32 c.payload 0) <;> exact ⟨_, rfl⟩

theorem immPrefixStatus_reports : immPrefixStatus.Reports := by
  intro d c _
  simp only [immPrefixStatus, paddockCommand]
  cases (d.droveState (fieldU8 c.payload 0)).prefixCfg <;> exact ⟨_, rfl⟩

theorem reportingRows_report (c : Cmd) : ∀ e ∈ reportingRows c, IsReport e c := by
  unfold reportingRows
  simp only [List.forall_mem_cons]
  exact ⟨
    ⟨fun _ => rfl, fun _ _ _ => ⟨_, rfl⟩⟩, ⟨fun _ => rfl, fun _ _ _ => ⟨_, rfl⟩⟩,
    ⟨fun _ => rfl, fun _ _ _ => ⟨_, rfl⟩⟩, ⟨fun _ => rfl, immStageStatus_reports⟩,
    ⟨fun _ => rfl, immPaddockStatus_reports⟩, ⟨fun _ => rfl, immImageInfo_reports⟩,
    ⟨fun _ => rfl, immFoldStatus_reports⟩, ⟨fun _ => rfl, immFoldMeter_reports⟩,
    ⟨fun _ => rfl, immQueueStatus_reports⟩, ⟨fun _ => rfl, immConnStatus_reports⟩,
    ⟨fun _ => rfl, immExposeStatus_reports⟩, ⟨fun _ => rfl, fun _ _ _ => ⟨_, rfl⟩⟩,
    ⟨fun _ => rfl, fun _ _ _ => ⟨_, rfl⟩⟩, ⟨fun _ => rfl, immPrefixStatus_reports⟩,
    ⟨fun _ => rfl, fun _ _ _ => ⟨_, rfl⟩⟩, ⟨fun _ => rfl, fun _ _ _ => ⟨_, rfl⟩⟩,
    ⟨fun _ => rfl, fun _ _ _ => ⟨_, rfl⟩⟩, ⟨fun _ => rfl, fun _ _ _ => ⟨_, rfl⟩⟩,
    ⟨fun _ => rfl, fun _ _ _ => ⟨_, rfl⟩⟩, ⟨fun _ => rfl, fun _ _ _ => ⟨_, rfl⟩⟩,
    ⟨fun _ => rfl, fun _ _ _ => ⟨_, rfl⟩⟩, ⟨fun _ => rfl, fun _ _ _ => ⟨_, rfl⟩⟩,
    ⟨fun _ => rfl, fun _ _ _ => ⟨_, rfl⟩⟩, ⟨fun _ => rfl, fun _ _ _ => ⟨_, rfl⟩⟩,
    ⟨fun _ => rfl, fun _ _ _ => ⟨_, rfl⟩⟩, ⟨fun _ => rfl, fun _ _ _ => ⟨_, rfl⟩⟩,
    ⟨fun _ => rfl, fun _ _ _ => ⟨_, rfl⟩⟩, List.forall_mem_nil _⟩

/-- Settles O22. -/
theorem reportingCommands : Obligations.ReportingCommands := by
  unfold Obligations.ReportingCommands
  intro c e he s h
  obtain ⟨hrow, hreports⟩ := reportingRows_report c e he
  obtain ⟨payload, hp⟩ := hreports _ _ h.checks
  exact ⟨payload, exec_runs h (hrow s) hp⟩

/-! ### What they report -/

/-- Settles O23. -/
theorem reportedPayloads : Obligations.ReportedPayloads := by
  unfold Obligations.ReportedPayloads
  intro s c
  refine ⟨fun h => exec_runs h rfl rfl, fun h => exec_runs h rfl rfl, fun h => exec_runs h rfl rfl, fun h => exec_runs h rfl ?_,
    fun h => exec_runs h rfl rfl, fun h => exec_runs h rfl rfl, fun r h hring => exec_runs h rfl ?_⟩
  · simp only [immWorldStatus, plainCommand, Device.worldBytes]
    rfl
  · simp only [immQueueStatus, hring]
    rfl

/-- Settles O24. -/
theorem trafficReport : Obligations.TrafficReport := by
  unfold Obligations.TrafficReport
  intro s c h d n scope
  refine ⟨fun hscope => exec_runs h rfl ?_, fun r hscope hring => exec_runs h rfl ?_, fun hscope hring => exec_runs h rfl ?_,
    fun hscope => exec_runs h rfl ?_⟩
  all_goals simp only [scope] at hscope
  · simp only [immTrafficStatus, hscope]
    rfl
  · simp only [immTrafficStatus, hscope, show (s.dev.takes c 0x0605).ring (fieldU16 (callOf c 0x0605).payload 2) = some r from hring]
    rfl
  · simp only [immTrafficStatus, hscope, show (s.dev.takes c 0x0605).ring (fieldU16 (callOf c 0x0605).payload 2) = none from hring]
    rfl
  · simp only [immTrafficStatus, hscope]
    rfl

end Sys2Proof.Machine
end

section
/-! PROOF. Ownership and stage sets: the commands, what the passing of ownership does, and how a committed set applies. -/

namespace Sys2Proof.Machine

/-! ### Ownership -/

theorem Device.acceptBox_now (d : Device) (p : Path) (opcode : Nat) : (d.acceptBox p opcode).now = d.settleOwnership.now := by
  by_cases howner : d.settleOwnership.own.owner = some (pathMaster p) <;> simp only [Device.acceptBox, howner] <;> rfl

/-- A command that only the owner may issue is accepted from the owner, whose lease it renews (R90, R91). -/
theorem Accepted.renews {s : State} {op : Nat} {m : Immediate} {c : Cmd} (h : Accepted s op (.immediate m) c)
    (hwho : m.who = .owner) : (s.dev.takes c op).own.leaseExpiry = (s.dev.takes c op).now + 400000000 := by
  have hright := h.right
  have howner : ((s.dev.takes c op).paths.box c.path).ownerAt = some (pathMaster c.path) := by
    simpa [Device.rightStep, Kind.right, hwho] using hright
  unfold Device.takes at howner ⊢
  rw [Device.acceptBox_ownerAt] at howner
  rw [Device.acceptBox_own, if_pos howner, Device.acceptBox_now]

/-- Settles O25. -/
theorem ownershipCommands : Obligations.OwnershipCommands := by
  unfold Obligations.OwnershipCommands
  intro s c
  refine ⟨fun h hown => exec_runs h rfl (immOwnClaim_run_of_owned hown), fun h hown => exec_runs h rfl ?_,
    fun h => ⟨exec_runs h rfl rfl, h.accepted.renews rfl⟩, fun h => exec_runs h rfl rfl, fun h => exec_runs h rfl rfl,
    fun h => exec_runs h rfl rfl⟩
  have hown : ((s.dev.takes c 0x0010).paths.box (callOf c 0x0010).path).ownerAt = none := hown
  simp only [immOwnClaim, plainCommand, hown]
  rfl

/-- A record reaches the fault ring and its mirror in memory, and nothing else (R428, R430). -/
theorem Device.record_is (d : Device) (r : Report) (stamp : Option Nat) : ∃ mem poisoned outbox, d.record r stamp =
    { d with mem := mem, outbox := outbox,
             faults := { d.faults with ring := (r.bytes (stamp.getD d.now) :: d.faults.ring).take 4096, next := d.faults.next + 1,
                                       lost := if 4096 ≤ d.faults.next then d.faults.lost + 1 else d.faults.lost,
                                       poisoned := poisoned } } := by
  unfold Device.record Device.recordBytes Device.mirrorRecord
  dsimp only
  repeat' split
  all_goals exact ⟨_, _, _, rfl⟩

section
variable (d : Device) (r : Report) (stamp : Option Nat)

@[simp] theorem Device.record_own : (d.record r stamp).own = d.own := by
  obtain ⟨_, _, _, h⟩ := d.record_is r stamp
  rw [h]

@[simp] theorem Device.record_staging : (d.record r stamp).staging = d.staging := by
  obtain ⟨_, _, _, h⟩ := d.record_is r stamp
  rw [h]

@[simp] theorem Device.record_tally : (d.record r stamp).tally = d.tally := by
  obtain ⟨_, _, _, h⟩ := d.record_is r stamp
  rw [h]

@[simp] theorem Device.record_faults_next : (d.record r stamp).faults.next = d.faults.next + 1 := by
  obtain ⟨_, _, _, h⟩ := d.record_is r stamp
  rw [h]

@[simp] theorem Device.record_ring_head : (d.record r stamp).faults.ring.head? = some (r.bytes (stamp.getD d.now)) := by
  obtain ⟨_, _, _, h⟩ := d.record_is r stamp
  rw [h]
  rfl

end

/-- The OPEN and CHECKED sets of the master are ABORTED, and no other set changes (R93). -/
theorem Device.find_abortSets {d : Device} {m : Master} {id : Nat} {x : StageSet} (h : Table.find d.staging.sets id = some x) :
    Table.find (d.abortSets m).staging.sets id = some
      (if x.owner = m ∧ (x.state = .open ∨ x.state = .checked) then { x with state := .aborted } else x) := by
  simp [Device.abortSets, h]

/-- Settles O26. -/
theorem ownershipPasses : Obligations.OwnershipPasses := by
  unfold Obligations.OwnershipPasses
  intro d old new stamp tag hold hnew
  simp only [Device.setOwner, hold, if_neg hnew, if_neg (Ne.symm hnew), Device.record_own, Device.record_staging,
    Device.record_tally, Device.record_faults_next, Device.record_ring_head]
  refine ⟨rfl, rfl, fun m hm => by rw [hm]; rfl, fun id x hx => ?_, rfl, rfl, rfl⟩
  exact Device.find_abortSets hx

/-! ### Stage sets -/

/-- Settles O27. -/
theorem stageSetCommands : Obligations.StageSetCommands := by
  unfold Obligations.StageSetCommands
  exact fun s c => ⟨fun h => exec_runs h rfl rfl, fun h => exec_runs h rfl rfl, fun h => exec_runs h rfl rfl,
    fun h => exec_runs h rfl rfl⟩

/-- A row of the command index that fails a check of its own is answered with the check's result. -/
theorem exec_refused {i : Instr} {s : State} {op : Nat} {m : Immediate} {c : Cmd} {r : Reply}
    (h : Accepted s op (.immediate m) c) (hrow : exec i s = .next (s.on (·.runRow (.immediate m) op c)))
    (hcheck : m.check (s.dev.takes c op) (callOf c op) = some r) :
    exec i s = .next (s.on fun _ => (s.dev.takes c op).respond c.path r) := exec_on hrow (Device.runRow_refused h hcheck)

section
variable {d : Device} {c : Call} (hnamed : d.setNamed c = none) (hreserved : reserved c.payload 2 6 = none)
  (hstate : d.setState c = .checked)
include hnamed hreserved hstate

/-- The checks of STAGE_COMMIT that a CHECKED set leaves. -/
theorem immStageCommit_check : immStageCommit.check d c =
    firstFail [require (decide (fieldU64 c.payload 8 ≤ d.begunAt c + 800000000000)) resBadArgument 8,
      require (decide (d.committed.length < 32)) resNoResource,
      require (decide (d.begunAt c + 40000 ≤ fieldU64 c.payload 8)) resLate (d.begunAt c), d.commitCheck c] := by
  have hin : (d.setIn c fun s => decide (s = .checked)) = none := require_eq_none.2 (by rw [hstate]; rfl)
  simp only [immStageCommit, hnamed, hreserved, hin, firstFail]

theorem immStageCommit_check_far (h : d.begunAt c + 800000000000 < fieldU64 c.payload 8) :
    immStageCommit.check d c = some { result := resBadArgument, detail := 8 } := by
  rw [immStageCommit_check hnamed hreserved hstate, decide_eq_false (Nat.not_le.2 h)]
  rfl

theorem immStageCommit_check_late (h : fieldU64 c.payload 8 < d.begunAt c + 40000) (hroom : d.committed.length < 32) :
    immStageCommit.check d c = some { result := resLate, detail := d.begunAt c } := by
  have hnear : fieldU64 c.payload 8 ≤ d.begunAt c + 800000000000 := by omega
  rw [immStageCommit_check hnamed hreserved hstate, decide_eq_true hnear, decide_eq_true hroom, decide_eq_false (Nat.not_le.2 h)]
  rfl

end

/-- Settles O28. -/
theorem commitWindow : Obligations.CommitWindow := by
  unfold Obligations.CommitWindow
  intro s c h d p hnamed hreserved hstate
  exact ⟨fun hfar => exec_refused h rfl (immStageCommit_check_far hnamed hreserved hstate hfar),
    fun hlate hroom => exec_refused h rfl (immStageCommit_check_late hnamed hreserved hstate hlate hroom)⟩

/-- A row of the command index whose command is staged. -/
def IsStagedRow (c : Cmd) (e : Instr × Staged × Nat) : Prop :=
  ∀ s : State, exec e.1 s = .next (s.on (·.runRow (.staged e.2.1) e.2.2 c))

theorem stagedRows_staged (c : Cmd) : ∀ e ∈ stagedRows c, IsStagedRow c e := by
  unfold stagedRows
  repeat' refine List.forall_mem_cons.2 ⟨fun _ => rfl, ?_⟩
  exact List.forall_mem_nil _

theorem header_stageSet (c : Cmd) (op : Nat) : fieldU16 (cmdHeader c op) 12 = c.stageSet.toNat := by
  have h : bytesAt (cmdHeader c op) 12 2 = leBytes 2 c.stageSet.toNat := rfl
  unfold fieldU16
  rw [h, leValue_leBytes]
  exact Nat.mod_eq_of_lt c.stageSet.isLt

/-- A staged command that passes joins the set its header names (R100). -/
theorem Device.stage_joins {d : Device} {m : Staged} {op id : Nat} {c : Call} {x : StageSet} (hid : fieldU16 c.header 12 = id)
    (hset : Table.find d.staging.sets id = some x) (hform : m.form d c.payload = none)
    (hjudge : m.judge { staging := true, world := d.callWorld c, before := d.applyCommands x.commands,
                        after := d.applyCommands x.commands } c.payload = none)
    (hroom : d.setHasRoom x { opcode := op, header := c.header, payload := c.payload, world := d.callWorld c } = true) :
    d.stage m op c = (d.joinSet id { opcode := op, header := c.header, payload := c.payload, world := d.callWorld c }).respond
      c.path { result := resAccepted, detail := 65536 * id + x.commands.length } := by
  subst hid
  simp only [Device.stage, hset, hform, hjudge, hroom, require, if_true, firstFail]

/-- Settles O29. -/
theorem stagedCommands : Obligations.StagedCommands := by
  unfold Obligations.StagedCommands
  intro c e he s x h d id held before hset hform hjudge hroom
  exact exec_on (stagedRows_staged c e he s) ((Device.runRow_accepted h).trans
    (Device.stage_joins (header_stageSet c e.2.2) hset hform hjudge hroom))

/-! ### A committed set -/

/-- A set is committed only where a set stands. -/
theorem Device.committed_of_no_sets {d : Device} (h : d.staging.sets.length = 0) : d.committed = [] := by
  unfold Device.committed
  rw [List.eq_nil_of_length_eq_zero h]
  rfl

/-- Settles O30: with one set due, the Tally comes to its instant, the set applies, and no other follows. -/
theorem setApplies : Obligations.SetApplies := by
  unfold Obligations.SetApplies
  intro s id x rest hcounts hcommitted d0 d1 d2 d3 hquiet
  have happlied : d3 = (s.dev.passTo x.instant).applySet id x := rfl
  have hdue : Device.applyDue s.dev.staging.sets.length x.instant s.dev = d3 := by
    cases hn : s.dev.staging.sets.length with
    | zero => rw [Device.committed_of_no_sets hn] at hcommitted; cases hcommitted
    | succ n =>
      unfold Device.applyDue
      simp only [hcommitted, Nat.le_refl, if_true]
      exact applyDue_of_quiet hquiet n
  have hstep : s.dev.stageApply = d3.passTo x.instant := by
    simp only [Device.stageApply, hcommitted, List.head?_cons, Device.advanceTo, hcounts, if_true, hdue]
  exact exec_on rfl hstep

end Sys2Proof.Machine
end

section
/-! PROOF. The immediate commands on paddocks, images, codebooks, grammars, faults, power and firmware, and how a response
reaches its mailbox. -/

namespace Sys2Proof.Machine

/-! ### Paddocks -/

/-- Settles O31. -/
theorem paddockCommands : Obligations.PaddockCommands := by
  unfold Obligations.PaddockCommands
  intro s c
  refine ⟨?_, ?_, ?_, ?_, ?_⟩
  · intro x h d p hx hrunning hmode hstep
    have hx : (s.dev.takes c 0x0204).paddock (fieldU8 (callOf c 0x0204).payload 0) = some x := hx
    refine exec_runs h rfl ?_
    simp only [immPaddockPreempt, hx, if_pos hrunning]
    exact if_pos ⟨hmode, hstep⟩
  · intro x h d p hx hrunning hmode
    have hx : (s.dev.takes c 0x0204).paddock (fieldU8 (callOf c 0x0204).payload 0) = some x := hx
    have hno : ¬ (fieldU8 p 1 = 0 ∧ d.maxStep (fieldU8 p 0) ≠ 0) := by
      rintro ⟨h0, hstep⟩
      exact hmode.elim (fun h1 => by omega) hstep
    refine exec_runs h rfl ?_
    simp only [immPaddockPreempt, hx, if_pos hrunning]
    exact if_neg hno
  · intro x h d p hx hheld
    have hx : (s.dev.takes c 0x0204).paddock (fieldU8 (callOf c 0x0204).payload 0) = some x := hx
    refine exec_runs h rfl ?_
    simp only [immPaddockPreempt, hx, hheld]
    rfl
  · intro x h d p hx hrunning hheld
    have hx : (s.dev.takes c 0x0204).paddock (fieldU8 (callOf c 0x0204).payload 0) = some x := hx
    refine exec_runs h rfl ?_
    simp only [immPaddockPreempt, hx, if_neg hrunning, if_neg hheld]
    rfl
  · intro x h d n hx
    have hx : (s.dev.takes c 0x0205).paddock (fieldU8 (callOf c 0x0205).payload 0) = some x := hx
    refine exec_runs h rfl ?_
    simp only [immPaddockResume, paddockCommand, Device.resumePaddock, hx]
    rfl

/-! ### Images, codebooks and grammars -/

theorem fieldU8_drop (bs : List Byte) (m n : Nat) : fieldU8 (bs.drop m) n = fieldU8 bs (m + n) := by
  simp only [fieldU8, bytesAt, List.drop_drop]

/-- Settles O32. -/
theorem imageBookGrammarCommands : Obligations.ImageBookGrammarCommands := by
  unfold Obligations.ImageBookGrammarCommands
  intro s c
  refine ⟨?_, fun h => exec_runs h rfl rfl, fun h => exec_runs h rfl ?_, fun h => exec_runs h rfl rfl, ?_,
    fun h => exec_runs h rfl rfl⟩
  · intro x h d p im hx hread hcheck
    have himm : ∀ (e : Device) (call : Call), e.paddock (fieldU8 call.payload 12) = some x →
        e.checkedRead (fieldU64 call.payload 0) (fieldU32 call.payload 8) (e.src srcFirmware) 0xFF = (e, none) →
        e.imageCheck (fieldU8 call.payload 12) x (e.load (fieldU64 call.payload 0) (fieldU32 call.payload 8))
          (fieldU32 call.payload 8) = none →
        immImageRegister.run e call = e.registerImage call (fieldU8 call.payload 12) x
          (e.load (fieldU64 call.payload 0) (fieldU32 call.payload 8)) := by
      intro e call hx hread hcheck
      simp only [immImageRegister, registerPaddock, hx, hread, hcheck, inBuffer]
    exact exec_runs h rfl (himm _ _ hx hread hcheck)
  · simp only [immCodebookLoad, fieldU8_drop]
    rfl
  · intro h d p hread hcheck
    have himm : ∀ (e : Device) (call : Call), e.readGrammar (fieldU64 call.payload 8) (fieldU32 call.payload 16) = (e, none) →
        e.grammarCheck (fieldU8 call.payload 0) (fieldU8 call.payload 1) (fieldU64 call.payload 8) (fieldU32 call.payload 16) =
          none →
        immMaskLoad.run e call = (e.updServing (fieldU8 call.payload 0) fun y =>
          { y with grammars := y.grammars ++
            [(fieldU8 call.payload 1, fieldU64 call.payload 8, fieldU32 call.payload 16)] }).answerOk call [] := by
      intro e call hread hcheck
      simp only [immMaskLoad, hread, hcheck, inBuffer]
    exact exec_runs h rfl (himm _ _ hread hcheck)

/-! ### Faults, power and firmware -/

theorem header_tag (c : Cmd) (op : Nat) : (callOf c op).tag = c.tag.toNat := by
  have h : bytesAt (cmdHeader c op) 24 8 = leBytes 8 c.tag.toNat := rfl
  unfold Call.tag callOf fieldU64
  rw [h, leValue_leBytes]
  exact Nat.mod_eq_of_lt c.tag.isLt

/-- A slot that is put to the test goes on trial when it is valid, and else is answered with the reason (R455). -/
theorem immFwActivate_tries (d : Device) (c : Call) (h : fieldU8 c.payload 1 = 0) : immFwActivate.run d c =
    if d.checkSlot (fieldU8 c.payload 0) = 0 then
      ((d.setSlotState (fieldU8 c.payload 0) 1 0 d.now).writeBootRecord (fieldU8 c.payload 0) 1
        (if fieldU8 c.payload 2 = 0 then 3 else fieldU8 c.payload 2)).respond c.path {}
    else (d.setSlotState (fieldU8 c.payload 0) 2 (d.checkSlot (fieldU8 c.payload 0)) d.now).respond c.path
      { result := if d.checkSlot (fieldU8 c.payload 0) = 3 ∨ d.checkSlot (fieldU8 c.payload 0) = 4 ∨
          d.checkSlot (fieldU8 c.payload 0) = 8 then resAuthFailed else resVersion,
        detail := d.checkSlot (fieldU8 c.payload 0) } := by
  have hne : ¬ fieldU8 c.payload 1 = 1 := by omega
  simp only [immFwActivate, Device.trySlot, if_neg hne]
  by_cases hvalid : d.checkSlot (fieldU8 c.payload 0) = 0
  · simp only [hvalid, if_true]
    rfl
  · simp only [if_neg hvalid]

/-- Settles O33. -/
theorem faultPowerFirmwareCommands : Obligations.FaultPowerFirmwareCommands := by
  unfold Obligations.FaultPowerFirmwareCommands
  intro s c
  refine ⟨fun h => exec_runs h rfl rfl, fun h h0 => exec_runs h rfl ?_, fun h h1 => exec_runs h rfl ?_,
    fun h h1 hstandby => exec_runs h rfl ?_, fun h h3 => exec_runs h rfl ?_, fun h h56 => exec_runs h rfl ?_,
    fun h => exec_runs h rfl rfl, fun h h1 => exec_runs h rfl ?_, fun h h0 => exec_runs h rfl ?_⟩
  · simp only [immFaultClear, h0, if_true, header_tag]
    rfl
  · simp only [immFaultClear, h1, header_tag]
    rfl
  · simp only [immPowerStateSet, h1, hstandby, if_true, Bool.false_eq_true, if_false]
    rfl
  · simp only [immPowerStateSet, h3]
    rfl
  · have hne : fieldU8 (callOf c 0x0D00).payload 0 ≠ 1 ∧ fieldU8 (callOf c 0x0D00).payload 0 ≠ 3 := by omega
    simp only [immPowerStateSet, if_neg hne.1, if_neg hne.2]
    rfl
  · simp only [immFwActivate, h1, if_true]
    rfl
  · exact immFwActivate_tries _ _ h0

/-! ### The response -/

section
variable (d : Device)

/-- An unsequenced frame joins a queue of the network, and nothing else changes (R350, R363). -/
theorem Device.sendOn_is (id opcode cls psn : Nat) (ext payload : List Byte) (flags : BitVec 16) :
    ∃ net, d.sendOn id opcode cls psn ext payload flags = { d with net := net } := by
  unfold Device.sendOn
  dsimp only
  repeat' split
  all_goals exact ⟨_, rfl⟩

/-- The delivery of a response leaves the control pages, ownership, the stage sets and memory (R75). -/
theorem Device.deliver_leaves (p : Path) (resp rest : List Byte) : (∀ m, (d.deliver p resp rest).paths.page m = d.paths.page m) ∧
    (d.deliver p resp rest).own = d.own ∧ (d.deliver p resp rest).staging = d.staging ∧ (d.deliver p resp rest).mem = d.mem := by
  unfold Device.deliver
  cases p with
  | fabric e =>
    dsimp only
    split
    · exact ⟨fun m => by simp, rfl, rfl, rfl⟩
    · obtain ⟨net, hsent⟩ := Device.sendOn_is _ _ _ _ _ _ _ _
      rw [hsent]
      exact ⟨fun m => by simp, rfl, rfl, rfl⟩
  | _ =>
    simp only [Device.signalDone_paths, Device.signalDone_own, Device.signalDone_staging, Device.signalDone_mem]
    exact ⟨fun m => by simp, rfl, rfl, rfl⟩

/-- On the HOST and BOARD paths the mailbox takes the response, and no other path changes (R75, R79). -/
theorem Device.deliver_paths {p : Path} (h : pathMaster p ≠ .fabric) (resp rest : List Byte) : (d.deliver p resp rest).paths =
    (d.updBox p fun b => { b with
      status := .done, begun := false, fetch := none, cmd := answeredHalf p b.cmd resp, resp := resp,
      rest := if refusedNext resp then b.rest else rest,
      restOf := if refusedNext resp then b.restOf else fieldU16 resp 0 }).paths := by
  cases p with
  | fabric e => exact absurd rfl h
  | _ => exact Device.signalDone_paths _ _

end

/-- The device whose path keeps one more answered command delivers the response. -/
theorem Device.kept_deliver (d : Device) {p : Path} (h : pathMaster p ≠ .fabric) (l : List KeptCommand) (resp rest : List Byte) :
    (((d.mapPaths fun c => c.setKept (pathMaster p) l).deliver p resp rest).paths.box p) =
      { d.paths.box p with
        status := .done, begun := false, fetch := none, cmd := answeredHalf p (d.paths.box p).cmd resp, resp := resp,
        rest := if refusedNext resp then (d.paths.box p).rest else rest,
        restOf := if refusedNext resp then (d.paths.box p).restOf else fieldU16 resp 0 } ∧
    ((d.mapPaths fun c => c.setKept (pathMaster p) l).deliver p resp rest).paths.kept (pathMaster p) = l ∧
    (∀ m, m ≠ pathMaster p →
      ((d.mapPaths fun c => c.setKept (pathMaster p) l).deliver p resp rest).paths.kept m = d.paths.kept m) ∧
    ∀ q, q ≠ p → ((d.mapPaths fun c => c.setKept (pathMaster p) l).deliver p resp rest).paths.box q = d.paths.box q := by
  rw [Device.deliver_paths _ h]
  refine ⟨by simp, by simp, fun m hm => ?_, fun q hq => ?_⟩
  · simp [ControlPaths.kept_setKept_ne _ _ hm]
  · simp [Device.box_updBox_ne _ _ hq]

/-- The list a path keeps once a command of it has been answered: the last sixteen headers and responses (R77). -/
def Device.keptAfter (d : Device) (p : Path) (resp rest : List Byte) : List KeptCommand :=
  ({ header := padTo 32 ((d.paths.box p).cmd.take 32), response := resp, rest := rest } :: d.paths.kept (pathMaster p)).take 16

/-- Settles O45. -/
theorem mailboxAnswered : Obligations.MailboxAnswered := by
  unfold Obligations.MailboxAnswered
  intro d p r part rest resp u
  have hu : u = (d.mapPaths fun c => c.setKept (pathMaster p) (d.keptAfter p resp rest)).deliver p resp rest := rfl
  obtain ⟨hpage, hown, hstaging, hmem⟩ :=
    Device.deliver_leaves (d.mapPaths fun c => c.setKept (pathMaster p) (d.keptAfter p resp rest)) p resp rest
  rw [hu]
  refine ⟨fun h => ?_, fun h => ?_, fun m => (hpage m).trans (ControlPaths.page_setKept ..), hown, hstaging, hmem⟩
  all_goals obtain ⟨hbox, hkept, hothers, hboxes⟩ := d.kept_deliver h (d.keptAfter p resp rest) resp rest
  · rw [hbox]
    refine ⟨rfl, rfl, rfl, ?_, hkept, hothers⟩
    simp only [refusedNext, decide_eq_true_eq]
  · exact hboxes

end Sys2Proof.Machine
end

section
/-! PROOF. The control pages: which register a store writes, and what each write does. -/

namespace Sys2Proof.Machine

/-! ### A store to a page -/

theorem leValue_word (v : Word) : leValue (leBytes 8 v.toNat) = v.toNat :=
  (leValue_leBytes 8 v.toNat).trans (Nat.mod_eq_of_lt v.isLt)

section
variable {d : Device} {core : Fin 48}

/-- A host core's store of an aligned word below the mailbox halves is a write of that register (R515). -/
theorem Device.pageWrite_host {off : Nat} (hserved : d.pageServed .host = true) (h8 : off % 8 = 0) (hlow : off < 0x8000)
    (v : Word) : d.pageWrite (.host core) off (leBytes 8 v.toNat) = d.writeRegister (.host core) off v.toNat := by
  simp only [Device.pageWrite, agentMaster, hserved, Device.hostPageStore, leBytes_length, hlow, h8, leValue_word]
  rfl

/-! ### The doorbell and its completion -/

theorem bitOf_two_pow (p q : Nat) : bitOf (2 ^ p) q = decide (p = q) := Nat.testBit_two_pow

/-- Of the eight pairs one has a given number. -/
theorem filter_range_eq : ∀ p : Fin 8, ((List.range 8).filter fun q => decide (q = p.val)) = [p.val] := by decide

/-- A doorbell value with one bit rings that pair alone. -/
theorem Device.writeDoorbell_one {p : Fin 8} (hbit : (d.pageBits (.host core)).getLsbD p.val = true) :
    d.writeDoorbell (.host core) (2 ^ p.val) = d.ringPair .host p.val := by
  have hpairs : (List.range 8).filter (fun q => (d.pageBits (.host core)).getLsbD q && bitOf (2 ^ p.val) q) = [p.val] := by
    have hone : ∀ q, ((d.pageBits (.host core)).getLsbD q && bitOf (2 ^ p.val) q) = decide (q = p.val) := by
      intro q
      rw [bitOf_two_pow]
      by_cases hq : q = p.val
      · simp [hq, hbit]
      · simp [hq, Ne.symm hq]
    simp only [hone]
    exact filter_range_eq p
  unfold Device.writeDoorbell
  rw [show agentBoxes (.host core) = 8 from rfl, hpairs]
  rfl

/-- A mailbox that is DONE is IDLE again. -/
def freeDone (b : Mailbox) : Mailbox := if b.status = .done then { b with status := .idle } else b

theorem freeDone_freeDone (b : Mailbox) : freeDone (freeDone b) = freeDone b := by
  by_cases h : b.status = .done <;> simp [freeDone, h]

/-- The pairs of a list freed. -/
def freePairs (l : List Nat) (v : Vector Mailbox 8) : Vector Mailbox 8 :=
  Vector.ofFn fun p : Fin 8 => if p.val ∈ l then freeDone (v.get p) else v.get p

theorem vector_get_eq {α : Type} {n : Nat} (v : Vector α n) (i : Fin n) : v.get i = v[i.val] := rfl

theorem freePairs_nil (v : Vector Mailbox 8) : freePairs [] v = v := by
  ext i hi
  simp [freePairs, Vector.get]

theorem freePairs_set (q : Fin 8) (l : List Nat) (v : Vector Mailbox 8) :
    freePairs l (v.set q (freeDone (v.get q))) = freePairs (q.val :: l) v := by
  ext i hi
  simp only [freePairs, Vector.getElem_ofFn, vector_get_eq, List.mem_cons]
  by_cases hiq : i = q.val
  · subst hiq
    simp [freeDone_freeDone]
  · simp [hiq, Ne.symm hiq]

/-- Pairs freed one after another. -/
theorem Device.foldl_freeDone (l : List Nat) (hl : ∀ p ∈ l, p < 8) (d : Device) :
    l.foldl (fun d p => d.updBox (pathOf .host p) freeDone) d =
      d.mapPaths fun c => { c with hostPairs := freePairs l c.hostPairs } := by
  induction l generalizing d with
  | nil =>
    simp only [freePairs_nil]
    rfl
  | cons q l ih =>
    have hq : (Fin.ofNat 8 q).val = q := Nat.mod_eq_of_lt (hl q (List.mem_cons_self ..))
    have hset (v : Vector Mailbox 8) : freePairs l (v.set (Fin.ofNat 8 q) (freeDone (v.get (Fin.ofNat 8 q)))) =
        freePairs (q :: l) v := (freePairs_set (Fin.ofNat 8 q) l v).trans (by rw [hq])
    rw [List.foldl_cons, ih fun p hp => hl p (List.mem_cons_of_mem _ hp)]
    simp only [Device.mapPaths, Device.updBox, pathOf, ControlPaths.setBox, ControlPaths.box, hset]

/-- A write of `MBX_DONE` by a host core frees each DONE pair whose bit is 1 and that the core may use (R520). -/
theorem Device.writeDone_host (v : Word) : d.writeDone (.host core) v.toNat =
    d.mapPaths fun c => { c with hostPairs := Vector.ofFn fun p : Fin 8 =>
      if (d.pageBits (.host core)).getLsbD p.val = true ∧ v.getLsbD p.val = true ∧ (c.hostPairs.get p).status = .done then
        { c.hostPairs.get p with status := .idle } else c.hostPairs.get p } := by
  have hpairs : ∀ w : Vector Mailbox 8, freePairs ((List.range 8).filter fun p => (d.pageBits (.host core)).getLsbD p &&
      bitOf v.toNat p) w = Vector.ofFn fun p : Fin 8 =>
        if (d.pageBits (.host core)).getLsbD p.val = true ∧ v.getLsbD p.val = true ∧ (w.get p).status = .done then
          { w.get p with status := .idle } else w.get p := by
    intro w
    ext i hi
    simp only [freePairs, Vector.getElem_ofFn, List.mem_filter, List.mem_range, hi, true_and, Bool.and_eq_true, bitOf,
      BitVec.testBit_toNat, freeDone]
    by_cases hbits : (d.pageBits (.host core)).getLsbD i = true ∧ v.getLsbD i = true
    · simp only [hbits, and_self, if_true, true_and]
    · rw [if_neg hbits, if_neg fun h => hbits ⟨h.1, h.2.1⟩]
  simp only [← hpairs]
  exact Device.foldl_freeDone _ (fun p hp => List.mem_range.1 (List.mem_filter.1 hp).1) d

/-- What a doorbell does to an IDLE pair of a served path whose command R106 lists: it accepts (R75). -/
theorem Device.ringPair_accepts {p : Fin 8} (hidle : (d.paths.box (.host p)).status = .idle) (hserved : d.serves (.host p) = true)
    (hkind : (kindOf (fieldU16 (padTo 32 (d.paths.box (.host p)).cmd) 0)).isSome = true) : d.ringPair .host p.val =
      d.acceptBox (.host p) (fieldU16 (padTo 32 (d.paths.box (.host p)).cmd) 0) := by
  have hpath : pathOf .host p.val = .host p := congrArg Path.host (Fin.ext (Nat.mod_eq_of_lt p.isLt))
  have hsome : (kindOf (fieldU16 (padTo 32 (d.paths.box (.host p)).cmd) 0)).isNone = false := by
    rw [← Option.not_isSome, hkind]
    rfl
  simp only [Device.ringPair, hpath, hidle, hserved, hsome, if_true, Bool.false_eq_true, if_false]

/-- For a pair that is not IDLE the doorbell is ignored and its error bit set (R75). -/
theorem Device.ringPair_busy {p : Fin 8} (hbusy : (d.paths.box (.host p)).status ≠ .idle) : d.ringPair .host p.val =
    d.updPage .host fun g => { g with mbxError := g.mbxError ||| BitVec.ofNat 8 (2 ^ p.val) } := by
  have hpath : pathOf .host p.val = .host p := congrArg Path.host (Fin.ext (Nat.mod_eq_of_lt p.isLt))
  simp only [Device.ringPair, hpath]

/-! ### The other registers -/

theorem Device.writeIrq_host {v : Nat} (henable : bitOf v 0 = true) (hhart : bitsOf v 13 8 ≤ 47) (hirq : bitsOf v 26 16 ≠ 0) :
    d.writeIrq (.host core) v = d.updPage .host fun g => { g with
      irqEnable := true, irqHart := BitVec.ofNat 6 (bitsOf v 13 8), irqId := BitVec.ofNat 11 (bitsOf v 26 16) } := by
  have hok : ¬ (47 < bitsOf v 13 8 ∨ bitsOf v 26 16 = 0) := by omega
  simp [Device.writeIrq, agentMaster, henable, hok]

section
variable (off v : Nat)

/-- A write to an STG field that its open set has room for joins it (R104). -/
theorem Device.writeStaged_joins {x : StageSet} (hset : d.openSet (d.paths.page .host).stageSel.toNat .host = some x)
    (hroom : d.setHasRoom x (registerCommand .nonsecure off (v % 2 ^ 16)) = true) : d.writeStaged (.host core) off v =
      d.joinSet (d.paths.page .host).stageSel.toNat (registerCommand .nonsecure off (v % 2 ^ 16)) := by
  simp only [Device.writeStaged, agentMaster, hset, hroom, if_true]

theorem Device.writeStaged_ignored (hset : d.openSet (d.paths.page .host).stageSel.toNat .host = none) :
    d.writeStaged (.host core) off v = d.updPage .host fun g => { g with stgIgnored := true } := by
  simp only [Device.writeStaged, agentMaster, hset]

end

/-- A ring of a block bell of a paddock that holds its blocks goes through the window of the host die (R190, R191). -/
theorem Device.writeBellRing_rings {x : Paddock} {v : Nat} (hx : d.paddock (bitsOf v 22 17) = some x)
    (hlow : bitsOf v 31 23 = 0) (hhigh : bitsOf v 63 48 = 0) (hinc : bitsOf v 47 32 ≠ 0) (hbell : v % 2 ^ 17 < 65536)
    (hnames : x.names (v % 2 ^ 17 / 64) = true) (hworld : d.coreSecure core.val = true ∨ x.world = .nonsecure)
    (hholds : x.holds = true) (hwindow : (d.windowFor (bitsOf v 22 17) 0 6 (bellAddress (v % 2 ^ 17)) 16).isSome = true) :
    d.writeBellRing core.val v =
      d.ringThrough (bitsOf v 22 17) 6 (v % 2 ^ 17) (bitsOf v 47 32) (d.src (srcCore core.val)) := by
  have hmay : (d.coreSecure core.val || x.world == .nonsecure) = true := by
    rcases hworld with h | h <;> simp [h]
  have hreserved : ¬ (bitsOf v 31 23 ≠ 0 ∨ bitsOf v 63 48 ≠ 0) := by omega
  have hring : bitsOf v 47 32 ≠ 0 ∧ v % 2 ^ 17 < 65536 := ⟨hinc, hbell⟩
  simp only [Device.writeBellRing, hx, decide_eq_false hreserved, decide_eq_true hring, hnames, hmay, hwindow, Device.ringBlock,
    Option.map_some, Option.getD_some, hholds]
  rfl

/-- A word for a doorbell slot that the core may write is posted (R327). -/
theorem Device.storeDoorbell_posts {q : Nat} {r : Ring} (hr : d.ring q = some r)
    (hworld : d.isSecure r.paddock = false ∨ d.coreSecure core.val = true) (v : Word) :
    d.storeDoorbell core.val q v = (d.postDoorbell q v.toNat (d.src (srcCore core.val))).dropUnknown 65536 q := by
  have hmay : (d.isSecure r.paddock && !d.coreSecure core.val) = false := by
    rcases hworld with h | h <;> simp [h]
  simp only [Device.storeDoorbell, hr, hmay, Bool.false_eq_true, if_false]

end

/-- Settles O46. -/
theorem pageRows : Obligations.PageRows := by
  unfold Obligations.PageRows
  intro s core v hserved a d
  have hstore (off : Nat) (h8 : off % 8 = 0) (hlow : off < 0x8000) :
      d.pageWrite a off (leBytes 8 v.toNat) = d.writeRegister a off v.toNat := Device.pageWrite_host hserved h8 hlow v
  refine ⟨⟨exec_acts rfl (hstore 0x0080 rfl (by decide)), exec_acts rfl (hstore 0x0090 rfl (by decide)),
    exec_acts rfl (hstore 0x00A0 rfl (by decide)), exec_acts rfl (hstore 0x0200 rfl (by decide)),
    fun off h8 hlow => ⟨exec_acts rfl (hstore _ h8 hlow), exec_acts rfl (hstore _ h8 hlow)⟩⟩, ?_, ?_, ?_, ?_, ?_, ?_, ?_⟩
  · intro p hv hbit box opcode
    have hring : d.writeRegister a 0x0080 v.toNat = d.ringPair .host p.val := by
      rw [hv]
      exact Device.writeDoorbell_one hbit
    rw [hring]
    exact ⟨Device.ringPair_accepts, Device.ringPair_busy⟩
  · exact Device.writeDone_host v
  · exact Device.writeIrq_host
  · rintro off (rfl | rfl) <;>
      exact ⟨fun x hset hroom => Device.writeStaged_joins _ _ hset hroom, fun hset => Device.writeStaged_ignored _ _ hset⟩
  · intro x hx hlow hhigh hinc hbell hnames hworld hholds hwindow
    exact Device.writeBellRing_rings hx hlow hhigh hinc hbell hnames hworld hholds hwindow
  · intro q r hr hworld
    refine exec_on rfl ?_
    exact (if_pos hserved).trans (Device.storeDoorbell_posts hr hworld v)
  · intro off hoff
    simp only [Device.writeRegister, hoff]
    rfl

end Sys2Proof.Machine
end

section
/-! PROOF. The timers of ownership: the lease's end, the claim window's end, and the offer's lapse. -/

namespace Sys2Proof.Machine

/-- A row whose deadline is decided: what it does at the instant, and the Tally past it. -/
theorem exec_decided {i : Instr} {s : State} {f g : Device → Device} {t : Nat} (hrow : exec i s = .next (s.on f))
    (h : f s.dev = (g (s.dev.passTo t)).advanceTo (t + 1)) : exec i s = .next (s.decided t g) := by
  rw [hrow]
  simp only [State.on, State.decided, h]

section
variable {d : Device} {m : Master}

/-- A claim window that ends with a winner passes ownership to it and answers every claim (R88). -/
theorem Device.closeClaims_won {e : Nat} {x : Master × Nat × Nat} (hend : d.own.claimEnd = some e) (hwin : d.claimWinner = some m)
    (hx : d.own.claims.find? (fun c => decide (some c.1 = some m)) = some x) : d.closeClaims =
      d.own.claims.foldl (fun d c => d.respond (pathOf c.1 c.2.1)
        (if c.1 = m then {} else { result := resConflict, detail := masterCode (some m) }))
        ((d.mapOwn fun o => { o with claimEnd := none, claims := [] }).setOwner (some m) e
          (fieldU64 (d.paths.box (pathOf x.1 x.2.1)).cmd 24)) := by
  have hcomm (c : Master × Nat × Nat) : (m = c.1) = (c.1 = m) := propext eq_comm
  simp only [Device.closeClaims, hend, hwin, hx, Option.map_some, Device.waiterTag, Option.getD_some]
  simp only [Option.some.injEq, hcomm]

/-- The winner of a claim window has claimed in it. -/
theorem Device.claimWinner_claims (hwin : d.claimWinner = some m) : ∃ x ∈ d.own.claims, x.1 = m := by
  unfold Device.claimWinner at hwin
  obtain ⟨x, hx, hm⟩ := List.any_eq_true.1 (List.find?_some (p := fun m => d.own.claims.any fun c => decide (c.1 = m)) hwin)
  exact ⟨x, hx, of_decide_eq_true hm⟩

theorem ownPriority_nodup : ∀ b : BitVec 2, (ownPriority b).Nodup := by decide

/-- No claimant comes before the winner in the order of priority (R87). -/
theorem Device.claimWinner_first (hwin : d.claimWinner = some m) {x : Master × Nat × Nat} (hx : x ∈ d.own.claims)
    {before after : List Master} (hsplit : ownPriority d.boot.ownPrio = before ++ m :: after) : x.1 ∉ before := by
  intro hbefore
  have hclaims : d.own.claims.any (fun c => decide (c.1 = x.1)) = true := List.any_eq_true.2 ⟨x, hx, decide_eq_true rfl⟩
  obtain ⟨y, hy⟩ := Option.isSome_iff_exists.1
    (List.find?_isSome.2 ⟨x.1, hbefore, hclaims⟩ : (before.find? fun m => d.own.claims.any fun c => decide (c.1 = m)).isSome = true)
  have hym : y = m := by
    unfold Device.claimWinner at hwin
    rw [hsplit, List.find?_append, hy] at hwin
    exact Option.some.inj hwin
  have hnodup := ownPriority_nodup d.boot.ownPrio
  rw [hsplit] at hnodup
  obtain ⟨_, _, hapart⟩ := List.nodup_append.1 hnodup
  exact hapart y (List.mem_of_find?_eq_some hy) m (List.mem_cons_self ..) hym

theorem Device.leaseExpiry_decided (hown : d.own.owner = some m) (hd : Decided d d.own.leaseExpiry) : d.leaseExpiry =
    ((d.passTo d.own.leaseExpiry).setOwner none d.own.leaseExpiry).advanceTo (d.own.leaseExpiry + 1) := by
  simp only [Device.leaseExpiry, hown, Device.atDeadline_clear _ hd, Device.passTo_own]

theorem Device.offerLapse_decided (hoffer : d.own.offerTarget = some m) (hd : Decided d d.own.offerEnd) : d.offerLapse =
    ((d.passTo d.own.offerEnd).mapOwn fun o => { o with offerTarget := none, offerEnd := 0 }).advanceTo (d.own.offerEnd + 1) := by
  simp only [Device.offerLapse, hoffer, Device.atDeadline_clear _ hd]

theorem Device.claimWindowEnd_decided {e : Nat} {x : Master × Nat × Nat} (hend : d.own.claimEnd = some e) (hd : Decided d e)
    (hwin : d.claimWinner = some m) (hx : d.own.claims.find? (fun c => decide (some c.1 = some m)) = some x) : d.claimWindowEnd =
      (d.own.claims.foldl (fun d c => d.respond (pathOf c.1 c.2.1)
        (if c.1 = m then {} else { result := resConflict, detail := masterCode (some m) }))
        (((d.passTo e).mapOwn fun o => { o with claimEnd := none, claims := [] }).setOwner (some m) e
          (fieldU64 (d.paths.box (pathOf x.1 x.2.1)).cmd 24))).advanceTo (e + 1) := by
  have hpass : (d.passTo e).claimWinner = some m := by rw [← hwin]; simp [Device.claimWinner]
  have hclosed := Device.closeClaims_won (d := d.passTo e) (by simpa using hend) hpass (by simpa using hx)
  simp only [Device.claimWindowEnd, hend, Device.atDeadline_clear _ hd, hclosed, Device.passTo_own, Device.passTo_paths]

end

/-- Settles O47. -/
theorem ownershipTimers : Obligations.OwnershipTimers := by
  unfold Obligations.OwnershipTimers
  intro s m
  exact ⟨fun hown hd => exec_decided rfl (Device.leaseExpiry_decided hown hd),
    fun e x hend hd hwin hx => exec_decided rfl (Device.claimWindowEnd_decided hend hd hwin hx),
    fun hwin => ⟨Device.claimWinner_claims hwin, fun x hx _ before after hsplit => Device.claimWinner_first hwin hx hsplit⟩,
    fun hoffer hd => exec_decided rfl (Device.offerLapse_decided hoffer hd)⟩

end Sys2Proof.Machine
end

section
/-! PROOF. What happens in blocks at instants: hurdle arrivals, slot matches, bell timeouts, frames, bale transfers and the
bounds of remote accesses. -/

namespace Sys2Proof.Machine

/-- A row that is due at an instant: what it does there. -/
theorem exec_due {i : Instr} {s : State} {f g : Device → Device} {t : Nat} (hrow : exec i s = .next (s.on f))
    (h : f s.dev = g (s.dev.passTo t)) : exec i s = .next (s.due t g) := by
  rw [hrow]
  simp only [State.on, State.due, h]

/-- A row that is due at an instant and does nothing there. -/
theorem exec_due_still {i : Instr} {s : State} {f : Device → Device} {t : Nat} (hrow : exec i s = .next (s.on f))
    (h : f s.dev = s.dev.passTo t) : exec i s = .next (s.due t id) := exec_due hrow h

section
variable {d : Device}

/-! ### Arrivals at hurdles -/

section
variable {a : Arrival} {p : Nat} {x : Paddock} (howner : d.hurdleOwner a.hurdle = some (p, x))
include howner

theorem Device.arriveAt_mismatch
    (h : ((d.hurdle a.hurdle).arrive a.n (waiterKey a.block a.thread)).2 = .mismatch) : d.arriveAt a =
      (d.updHurdle a.hurdle fun h => { h with mismatch := true }).strike p
        (hurdleReport (d.src (srcThread a.block a.thread)) p 0x33 a.hurdle a.n) := by
  simp only [Device.arriveAt, howner, h]

theorem Device.arriveAt_overrun
    (h : ((d.hurdle a.hurdle).arrive a.n (waiterKey a.block a.thread)).2 = .overrun) : d.arriveAt a =
      (d.updHurdle a.hurdle fun h => { h with overrun := true }).strike p
        (hurdleReport (d.src (srcThread a.block a.thread)) p 0x32 a.hurdle (d.hurdle a.hurdle).round) := by
  simp only [Device.arriveAt, howner, h]

theorem Device.arriveAt_counted {round : Nat}
    (h : ((d.hurdle a.hurdle).arrive a.n (waiterKey a.block a.thread)).2 = .counted round) : d.arriveAt a =
      let source := d.src (srcThread a.block a.thread)
      let old := d.hurdle a.hurdle
      let new := ({ (old.arrive a.n (waiterKey a.block a.thread)).1 with
        lastStamp := d.now, lastSource := source } : Hurdle).advance d.now 2
      let d2 := (d.updHurdle a.hurdle fun _ => new).traced 3 a.hurdle (round % 2 ^ 32) a.n p source
      let d3 := d2.traceRounds a.hurdle p source old.round (new.round - old.round)
      let d4 := if x.holds && x.names a.block then d3.resumeThread a.block a.thread (Thread.answered a round new.round) else d3
      (d4.mapThreadsOf p (Thread.roundOver a.hurdle new.round)).rouseReady x.blockList := by
  simp only [Device.arriveAt, howner, h]

end

/-- The next arrival takes its place at its hurdle, and leaves the list of those under way. -/
theorem Device.applyArrival_at {a : Arrival} {e : Device} (ha : d.nextArrival = some a) (hclear : Clear d a.due)
    (he : ((d.passTo a.due).mapFabric fun f => { f with arrivals := f.arrivals.erase a }).arriveAt a = e) : d.applyArrival =
      ((List.range 64).map (64 * regionOf a.block + ·)).foldl Device.unhold e := by
  simp only [Device.applyArrival, ha, Device.atInstant_clear _ hclear, he]

@[simp] theorem Device.passTo_src (t code : Nat) : (d.passTo t).src code = d.src code := by simp [Device.src]
@[simp] theorem Device.passTo_hurdle (t h : Nat) : (d.passTo t).hurdle h = d.hurdle h := by simp [Device.hurdle]
@[simp] theorem Device.passTo_hurdleOwner (t h : Nat) : (d.passTo t).hurdleOwner h = d.hurdleOwner h := by
  simp [Device.hurdleOwner]

@[simp] theorem Device.passTo_resident (t p : Nat) : (d.passTo t).resident p = d.resident p := by
  simp [Device.resident, Device.imagesOf]
@[simp] theorem Device.passTo_spanOf (t p : Nat) : (d.passTo t).spanOf p = d.spanOf p := by simp [Device.spanOf]

end

/-- The arrival of the least stamp and source is applied at its stamp (R65, R199). -/
theorem exec_hurdleArrival {s : State} {a : Arrival} {g : Device → Device} (ha : s.dev.nextArrival = some a)
    (hclear : Clear s.dev a.due)
    (hg : ((s.dev.passTo a.due).mapFabric fun f => { f with arrivals := f.arrivals.erase a }).arriveAt a =
      g (s.dev.passTo a.due)) :
    exec .hurdleArrival s = .next (s.due a.due fun d =>
      ((List.range 64).map (64 * regionOf a.block + ·)).foldl Device.unhold (g d)) :=
  exec_due rfl (Device.applyArrival_at ha hclear hg)

/-- The slot counter reaches the value that a thread awaits (R160). -/
theorem Device.slotMatches_at {d : Device} {t : ThreadId} {v frame at' : Nat}
    (hwaits : (d.thread t.block.val t.thread.val).waits = .slot v frame)
    (hstate : (d.thread t.block.val t.thread.val).state = .waiting) (hat : d.slotInstant t.block.val v frame = some at')
    (hclear : Clear d (max d.now at')) : d.slotMatches t = (d.passTo (max d.now at')).updThread t.block.val t.thread.val fun x =>
      { x with state := .ready, waits := .nothing, pc := x.pc + 1 } := by
  simp only [Device.slotMatches, hwaits, hat, hstate, if_true, Device.atInstant_clear _ hclear]

/-- A bell wait that its deadline ends leaves the bell's list with 1 in its register (R193). -/
theorem Device.bellTimeout_at {d : Device} {b n p dest bell need deadline : Nat} {x : Paddock}
    (hwaits : (d.thread b n).waits = .bell dest bell need deadline) (hstate : (d.thread b n).state = .waiting)
    (hdeadline : deadline ≠ 0) (hocc : d.occupant b = some (p, x)) (hd : Decided d deadline) :
    d.bellTimeout b n = (((((d.passTo deadline).setBell p bell { (d.passTo deadline).bell p bell with
      waiters := ((d.passTo deadline).bell p bell).waiters.filter fun w => decide (w.1 ≠ waiterKey b n) }).updThread b n
        (·.resume dest 1)).rouse b)).advanceTo (deadline + 1) := by
  obtain ⟨k, rfl⟩ := Nat.exists_eq_succ_of_ne_zero hdeadline
  unfold Device.bellTimeout
  simp only [hwaits, hstate, Device.atDeadline_clear _ hd, Device.passTo_occupant, hocc, Device.passTo_thread]
  rfl

/-- A value chosen by a condition is one of the two. -/
theorem eq_or_eq_of_eq_ite {c : Prop} [Decidable c] {x a b : Nat} (h : x = if c then a else b) : x = a ∨ x = b := by
  by_cases hc : c
  · exact .inl (h.trans (if_pos hc))
  · exact .inr (h.trans (if_neg hc))

/-- A frame that starts at a multiple of the span, or one span after it, is the frame that holds its start. -/
theorem frame_starts (n span t : Nat) (ht : t = n / span * span ∨ t = n / span * span + span) : max n t / span * span = t := by
  rcases ht with ht | ht
  · rw [ht, Nat.max_eq_left (Nat.div_mul_le_self n span)]
  · rcases Nat.eq_zero_or_pos span with hzero | hpos
    · simp [ht, hzero]
    · have hmul : t = (n / span + 1) * span := by rw [ht, Nat.succ_mul]
      have hlt : n < t := by rw [hmul]; exact (Nat.div_lt_iff_lt_mul hpos).1 (Nat.lt_succ_self _)
      rw [Nat.max_eq_right (Nat.le_of_lt hlt), hmul, Nat.mul_div_cancel _ hpos]

/-- A block's frame starts at a multiple of its span (R160). -/
theorem Device.startFrame_at {d : Device} {b p t : Nat} {x : Paddock} (hocc : d.occupant b = some (p, x))
    (ht : t = if d.now = d.frameBase p ∧ (d.block b).frameStart ≠ d.frameBase p then d.frameBase p
      else d.frameBase p + d.spanOf p) (hclear : Clear d t) :
    d.startFrame b = (d.passTo t).updBlock b fun k => { k with frameStart := t } := by
  have hframe : (d.passTo t).frameBase p = t := by
    simp only [Device.frameBase, Device.passTo_now, Device.passTo_spanOf] at ht ⊢
    exact frame_starts d.now (d.spanOf p) t (eq_or_eq_of_eq_ite ht)
  simp only [Device.startFrame, hocc, ← ht, Device.atInstant_clear _ hclear, hframe]

/-! ### Bale transfers -/

/-- A transfer of a block ends: it has left the block's list, threads held for room go on, and its bytes are moved. -/
def Device.baleEnds (d : Device) (b i p : Nat) (x : BaleTransfer) : Device × Option Report :=
  ((d.updBlock b fun k => { k with bales := k.bales.eraseIdx i, busyAt := d.now }).unhold b).runBale p b x

section
variable {d : Device} {b i p : Nat} {y : Paddock} {x : BaleTransfer} (hocc : d.occupant b = some (p, y))
  (hx : (d.block b).bales[i]? = some x)
include hocc hx

theorem Device.finishBale_struck {e : Report} (he : (d.baleEnds b i p x).2 = some e) :
    d.finishBale b i = (d.baleEnds b i p x).1.strike p e := by
  unfold Device.baleEnds at he ⊢
  simp only [Device.finishBale, hocc, hx, he]

theorem Device.finishBale_silent (he : (d.baleEnds b i p x).2 = none) (hk : x.bell = none) :
    d.finishBale b i = (d.baleEnds b i p x).1 := by
  unfold Device.baleEnds at he ⊢
  simp only [Device.finishBale, hocc, hx, he, hk]

theorem Device.finishBale_rings {k : Nat} (he : (d.baleEnds b i p x).2 = none) (hk : x.bell = some k) :
    d.finishBale b i = ((d.baleEnds b i p x).1.signalsRange p b k x).perform
      [.ring p (64 * b + k) 1 ((d.baleEnds b i p x).1.src (srcThread b x.thread))] := by
  unfold Device.baleEnds at he ⊢
  simp only [Device.finishBale, hocc, hx, he, hk]

end

/-- Every access whose bound has passed ends as timed out (R344). -/
theorem Device.boundPasses_at {d : Device} {a : RemoteAccess}
    (ha : leastBy (fun b : RemoteAccess => b.bound) (d.fabric.remote.filter fun b =>
        !b.expired && !b.inTime && decide (b.op = .load ∨ b.op = .atomic ∨ b.op = .get)) = some a) (hd : Decided d a.bound) :
    d.boundPasses = ((((d.fabric.remote.filter fun b =>
        !b.expired && !b.inTime && decide (b.op = .load ∨ b.op = .atomic ∨ b.op = .get)).filter fun b =>
          decide (b.bound ≤ a.bound)).foldl (fun d b => d.endRemote b.id .timedOut) (d.passTo a.bound))).advanceTo (a.bound + 1) := by
  simp only [Device.boundPasses, ha, Device.atDeadline_clear _ hd, Device.passTo_fabric]

/-- Settles O48. -/
theorem blockEvents : Obligations.BlockEvents := by
  unfold Obligations.BlockEvents
  intro s
  refine ⟨?_, ?_, ?_, ?_, ?_, ?_⟩
  · intro a p x ha howner hclear old source r came freed
    have hpass : (came (s.dev.passTo a.due)).hurdleOwner a.hurdle = some (p, x) := (Device.passTo_hurdleOwner _ _).trans howner
    have hold : (came (s.dev.passTo a.due)).hurdle a.hurdle = old := Device.passTo_hurdle _ _
    have hsrc : (came (s.dev.passTo a.due)).src (srcThread a.block a.thread) = source := Device.passTo_src _ _
    have hnow : (came (s.dev.passTo a.due)).now = max s.dev.now a.due := Device.passTo_now _ _
    refine ⟨fun h => exec_hurdleArrival ha hclear ?_, fun h => exec_hurdleArrival ha hclear ?_,
      fun round h => exec_hurdleArrival ha hclear ?_⟩
    · exact (Device.arriveAt_mismatch hpass (by rw [hold]; exact h)).trans (by rw [hsrc])
    · exact (Device.arriveAt_overrun hpass (by rw [hold]; exact h)).trans (by rw [hsrc, hold])
    · refine (Device.arriveAt_counted hpass (by rw [hold]; exact h)).trans ?_
      rw [hsrc, hold, hnow]
  · exact fun t v frame at' hwaits hstate hat hclear => exec_due rfl (Device.slotMatches_at hwaits hstate hat hclear)
  · exact fun t p x dest bell need deadline hwaits hstate hdeadline hocc hd =>
      exec_decided rfl (Device.bellTimeout_at hwaits hstate hdeadline hocc hd)
  · intro b p x e hocc hres span base t hclear
    have hspan : s.dev.spanOf p = span := by simp [Device.spanOf, hres, span]
    have hbase : s.dev.frameBase p = base := by simp only [Device.frameBase, hspan, base]
    exact exec_due rfl (Device.startFrame_at hocc (by rw [hbase, hspan]) hclear)
  · intro b i p y x hocc hx r
    exact ⟨fun e he => exec_on rfl (Device.finishBale_struck hocc hx he),
      fun he hk => exec_on rfl (Device.finishBale_silent hocc hx he hk),
      fun k he hk => exec_on rfl (Device.finishBale_rings hocc hx he hk)⟩
  · exact fun a ha hd => exec_decided rfl (Device.boundPasses_at ha hd)

end Sys2Proof.Machine
end

section
/-! PROOF. Openings of edge windows, host accesses, and replayed flits. -/

namespace Sys2Proof.Machine

@[simp] theorem Device.passTo_hopDown (d : Device) (t : Nat) : (d.passTo t).hopDown = d.hopDown := by
  funext h
  simp [Device.hopDown]

@[simp] theorem Device.passTo_routeDown (d : Device) (t : Nat) (w : Win) : (d.passTo t).routeDown w = d.routeDown w := by
  simp [Device.routeDown]

@[simp] theorem Device.passTo_windowServes (d : Device) (t : Nat) (x : Paddock) (w : Win) :
    (d.passTo t).windowServes x w = d.windowServes x w := by simp [Device.windowServes]

/-! ### Openings -/

section
variable {d : Device} {p w : Nat} {x : Paddock} {win : Win} (hawake : d.awake = true) (hx : d.paddock p = some x)
  (hwin : (d.windowsOf p).find? (fun y => decide (y.window = w)) = some win)
include hawake hx hwin

/-- With no thread that waits for the window, it opens at its next slot, and admits from its queue where it serves (R153). -/
theorem Device.openWindow_opens (hwaits : d.windowWaits p w x = []) (hclear : Clear d (slotTick (d.openingSlot p win))) :
    d.openWindow p w = if d.windowServes x win then
      Device.admitHead p win win.len (d.openingSlot p win) (win.leftAt (d.openingSlot p win))
        (d.passTo (slotTick (d.openingSlot p win)))
      else d.passTo (slotTick (d.openingSlot p win)) := by
  simp only [Device.openWindow, hawake, hx, hwin, hwaits, List.foldl_nil, List.filter_nil, Device.atInstant_clear _ hclear,
    Device.admitFrom, Device.passTo_paddock, Device.passTo_windowServes, Nat.le_refl, if_true]
  rfl

/-- Threads whose run for the window begins before its next slot go on, and nothing is admitted. -/
theorem Device.openWindow_runs {t : Nat}
    (ht : (d.windowWaits p w x).foldl (fun t e => Nat.min t e.2.2) (slotTick (d.openingSlot p win)) = t)
    (hbefore : t < slotTick (d.openingSlot p win)) (hclear : Clear d t) :
    d.openWindow p w = ((d.windowWaits p w x).filter fun e => decide (e.2.2 ≤ t)).foldl
      (fun d e => d.updThread e.1 e.2.1 Thread.windowOpens) (d.passTo t) := by
  simp only [Device.openWindow, hawake, hx, hwin, ht, Device.atInstant_clear _ hclear, if_neg (Nat.not_le.2 hbefore)]
  rfl

end

/-! ### Host accesses -/

/-- A host core may reach the bytes of an access: they are in the address map, and SECURE bytes only for a SECURE core. -/
def Device.hostMay (d : Device) (core a n : Nat) : Prop :=
  d.rangeOk a n = true ∧ (d.touchesSecure a n = true → d.security.harts.getLsbD core = true)

theorem Device.hostMay_iff (d : Device) (core a n : Nat) :
    d.hostMay core a n ↔ (!d.rangeOk a n || (d.touchesSecure a n && !d.security.harts.getLsbD core)) = false := by
  unfold Device.hostMay
  cases d.rangeOk a n <;> cases d.touchesSecure a n <;> cases d.security.harts.getLsbD core <;> decide

section
variable {d : Device} {core : Nat} {x : HostAccess} (hawake : d.awake = true)
include hawake

theorem Device.hostAccess_hit {e : Device} (hmay : d.hostMay core x.address.toNat (if x.store then x.data.length else x.size))
    (hhit : (if x.cached && !x.store then d.cacheHit core x.address.toNat (if x.store then x.data.length else x.size) else none) =
      some e) : d.hostAccess core x = e := by
  have hmay := (d.hostMay_iff _ _ _).1 hmay
  simp only [Device.hostAccess, hawake, hmay, hhit]
  rfl

theorem Device.hostAccess_joins {p : Nat} {w : Win}
    (hmay : d.hostMay core x.address.toNat (if x.store then x.data.length else x.size))
    (hhit : (if x.cached && !x.store then d.cacheHit core x.address.toNat (if x.store then x.data.length else x.size) else none) =
      none)
    (hwin : d.hostWindow (if x.store then 0 else 1) x.address.toNat (if x.store then x.data.length else x.size) = some (p, w))
    (hroute : d.routeDown w = false) : d.hostAccess core x = d.joinWindow p w
      { size := if x.store then x.data.length else x.size, cls := 3, link := none, address := x.address.toNat, data := x.data,
        kind := if x.store then .hostStore core
          else .hostLoad core (if x.store then x.data.length else x.size) x.cached } := by
  have hmay := (d.hostMay_iff _ _ _).1 hmay
  simp only [Device.hostAccess, hawake, hmay, hhit, hwin, hroute]
  rfl

theorem Device.hostAccess_refused
    (h : ¬ d.hostMay core x.address.toNat (if x.store then x.data.length else x.size) ∨
      (if x.cached && !x.store then d.cacheHit core x.address.toNat (if x.store then x.data.length else x.size) else none) = none ∧
      d.hostWindow (if x.store then 0 else 1) x.address.toNat (if x.store then x.data.length else x.size) = none) :
    d.hostAccess core x = d.emit (.accessFault core) := by
  by_cases hmay : d.hostMay core x.address.toNat (if x.store then x.data.length else x.size)
  · obtain ⟨hhit, hwin⟩ := h.resolve_left (not_not_intro hmay)
    have hmay := (d.hostMay_iff _ _ _).1 hmay
    simp only [Device.hostAccess, hawake, hmay, hhit, hwin]
    rfl
  · have hno := mt (d.hostMay_iff _ _ _).2 hmay
    simp only [Bool.not_eq_false] at hno
    simp only [Device.hostAccess, hawake, hno]
    rfl

end

/-! ### Replayed flits -/

/-- With no injection armed, the row's own word says whether a replay passes (R426). -/
theorem Device.flitReplay_uninjected {d : Device} {n : Nat} (hup : d.stileIsDown n = false)
    (hstate : d.awake = true ∨ d.inStandby = true ∨ d.state = .safe) (hnone : d.faults.injection = none) (passes : Bool) :
    d.flitReplay n passes = d.stileReplay n passes false := by
  have hserves : (d.awake || d.inStandby || decide (d.state = .safe)) = true := by
    rcases hstate with h | h | h <;> simp [h]
  simp only [Device.flitReplay, hup, hserves, Device.flitInjection, hnone]
  rfl

/-- Settles O49. -/
theorem windowsAndHostAccesses : Obligations.WindowsAndHostAccesses := by
  unfold Obligations.WindowsAndHostAccesses
  intro s
  refine ⟨?_, ?_, ?_⟩
  · intro p w x win hawake hx hwin slot waits
    refine ⟨fun hwaits hclear => ⟨fun hserves => exec_due rfl ?_, fun hserves => exec_due_still rfl ?_⟩,
      fun t ht hbefore hclear => exec_due rfl (Device.openWindow_runs hawake hx hwin ht hbefore hclear)⟩
    · exact (Device.openWindow_opens hawake hx hwin hwaits hclear).trans (if_pos hserves)
    · exact (Device.openWindow_opens hawake hx hwin hwaits hclear).trans (if_neg (by rw [hserves]; decide))
  · intro core x hawake n a sound hit
    exact ⟨fun d hmay hhit => exec_on rfl (Device.hostAccess_hit hawake hmay hhit),
      fun p w hmay hhit hwin hroute => exec_acts rfl (Device.hostAccess_joins hawake hmay hhit hwin hroute),
      fun h => exec_acts rfl (Device.hostAccess_refused hawake h)⟩
  · intro n hstate hup hnone d
    exact ⟨exec_on rfl (Device.flitReplay_uninjected hup hstate hnone true),
      exec_on rfl (Device.flitReplay_uninjected hup hstate hnone false)⟩

end Sys2Proof.Machine
end

section
/-! PROOF. The timers of the network: connections, exposures, folds, links, gates and context fetches. -/

namespace Sys2Proof.Machine

section
variable {d : Device}

/-! ### Connections -/

section
variable {id : Nat} {c : Conn} (hc : d.conn id = some c)
include hc

theorem Device.timeOut_at {x : TxPacket} {at' : Nat} (hx : c.oldest = some x) (hsent : x.sentAt = some at')
    (hd : Decided d (at' + c.rto)) : d.timeOut id =
      ((((d.passTo (at' + c.rto)).countConn id 3).updConn id fun c => { c with backoff := c.backoff + 1, cwnd := 8192 }).repair
        id x.psn).advanceTo (at' + c.rto + 1) := by
  simp only [Device.timeOut, hc, hx, hsent, Option.getD_some, Device.atDeadline_clear _ hd]

theorem Device.ackDue_at {at' : Nat} (hsince : c.unackedSince = some at') (hclear : Clear d (at' + 800)) :
    d.ackDue id = (d.passTo (at' + 800)).sendAck id c.cls c.oldestEcho c.oldestOwd := by
  simp only [Device.ackDue, hc, hsince, Device.atInstant_clear _ hclear]

theorem Device.resendDue_at {at' psn : Nat} (hnext : c.nextResend = some (at', psn)) (hclear : Clear d at') : d.resendDue id =
    ((d.passTo at').updConn id fun c =>
      { c with tx := c.tx.map fun x => if x.psn = psn then { x with resendAt := none } else x }).repair id psn := by
  simp only [Device.resendDue, hc, Option.bind_some, hnext, Device.atInstant_clear _ hclear]

theorem Device.giveUp_at (htx : c.tx ≠ []) (hclear : Clear d (c.progressAt + 800 * c.giveUpUs)) :
    d.giveUp id = (d.passTo (c.progressAt + 800 * c.giveUpUs)).connError id := by
  have hsome : ¬ c.tx.isEmpty = true := mt List.isEmpty_iff.1 htx
  simp only [Device.giveUp, hc, if_neg hsome, Device.atInstant_clear _ hclear]

theorem Device.pacingDue_at {x : TxPacket} (hx : c.nextOut = some x)
    (hclear : Clear d (max d.now (c.lastSend + c.gap x.payload.length))) :
    d.pacingDue id = (d.passTo (max d.now (c.lastSend + c.gap x.payload.length))).pump id := by
  simp only [Device.pacingDue, hc, hx, Device.atInstant_clear _ hclear]

end

/-! ### Exposures and folds -/

theorem Device.graceEnds_at {i : Nat} {e : Exposure} (he : d.exposure i = some e) (hstate : e.state = .revoking)
    (hd : Decided d (e.revokeAt + e.grace)) : d.graceEnds i =
      (((d.passTo (e.revokeAt + e.grace)).updExposure i fun e => { e with state := .draining }).freeIfDrained i).advanceTo
        (e.revokeAt + e.grace + 1) := by
  simp only [Device.graceEnds, he, hstate, if_true, Device.atDeadline_clear _ hd]

theorem Device.foldDrains_at {n t : Nat} {f : Fold} (hf : d.fold n = some f) (ht : leastBy id f.drains = some t)
    (hd : Decided d t) : d.foldDrains n =
      ((((d.passTo t).fold n).map fun f => (d.passTo t).putFold n (f.dropDrained (max d.now t))).getD (d.passTo t)).advanceTo
        (t + 1) := by
  simp only [Device.foldDrains, hf, ht, Device.atDeadline_clear _ hd, Device.passTo_now]
  cases (d.passTo t).fold n <;> rfl

/-! ### Links and gates -/

/-- An idle link with an eligible class selects its frame at once (R360). -/
theorem Device.linkSelects_at {l : Nat} (hidle : (d.link l).sending = none) (hclear : Clear d d.now)
    (hk : ∃ k ∈ List.range 16, ((d.runCredits l).link l).eligible ((d.runCredits l).port (l / 2)) d.now k = true) :
    d.linkSelects l = (d.runCredits l).selectLink l := by
  have hany : (List.range 16).any (fun k =>
      ((d.runCredits l).link l).eligible ((d.runCredits l).port (l / 2)) (d.runCredits l).now k) = true :=
    List.any_eq_true.2 hk
  simp only [Device.linkSelects, hidle, Device.atInstant_clear _ hclear, Device.passTo_of_le (Nat.le_refl _), hany, if_true]

theorem Device.gatesMove_at {p : Nat} {g : GateList} {e : Nat × Nat} {more : List (Nat × Nat)} (hg : (d.port p).gates = some g)
    (hahead : (g.ahead d.now).map (fun x => (0, x.2)) = e :: more) (hclear : Clear d (d.now + e.2)) : d.gatesMove p =
      (((d.passTo (d.now + e.2)).runCredits (2 * p)).runCredits (2 * p + 1)).updPort p fun q =>
        { q with gatesNow := q.gatesAt (d.now + e.2) } := by
  obtain ⟨y, ys, hy, rfl, -⟩ := List.map_eq_cons_iff.1 hahead
  have hnow : (d.passTo (d.now + y.2)).now = d.now + y.2 :=
    (Device.passTo_now d _).trans (Nat.max_eq_right (Nat.le_add_right _ _))
  simp only [Device.gatesMove, hg, hy, Device.atInstant_clear _ hclear, hnow]

/-! ### Contexts -/

theorem Device.contextCame_at {id : Nat} {c : Conn} (hid : d.net.fetching.find? (fun k =>
      !d.serviceDown (((d.conn k).map (·.home)).getD 0) (d.contextEdge k)) = some id) (hc : d.conn id = some c) : d.contextCame =
    let d1 := d.mapNet fun n => { n with fetching := n.fetching.filter fun k => decide (k ≠ id) }
    let d2 := (d1.evictFor c.home).updConn id fun c => { c with cached := true, lastUse := d.now }
    let d3 := (d2.drainMisses id).pump id
    d3.net.rings.foldl (fun d e => d.retakeHead id e.1) d3 := by
  have hc1 : (d.mapNet fun n => { n with fetching := n.fetching.filter fun k => decide (k ≠ id) }).conn id = some c := hc
  simp only [Device.contextCame, hid, hc1]

end

/-- Settles O50. -/
theorem networkTimers : Obligations.NetworkTimers := by
  unfold Obligations.NetworkTimers
  intro s
  refine ⟨fun id c hc => ⟨?_, ?_, ?_, ?_, ?_⟩, ?_, ?_, ?_, ?_, ?_⟩
  · exact fun x at' hx hsent hd => exec_decided rfl (Device.timeOut_at hc hx hsent hd)
  · exact fun at' hsince hclear => exec_due rfl (Device.ackDue_at hc hsince hclear)
  · exact fun at' psn hnext hclear => exec_due rfl (Device.resendDue_at hc hnext hclear)
  · exact fun htx hclear => exec_due rfl (Device.giveUp_at hc htx hclear)
  · exact fun x hx hclear => exec_due rfl (Device.pacingDue_at hc hx hclear)
  · exact fun i e he hstate hd => exec_decided rfl (Device.graceEnds_at he hstate hd)
  · exact fun n f t hf ht hd => exec_decided rfl (Device.foldDrains_at hf ht hd)
  · exact fun l hidle hclear hk => exec_acts rfl (Device.linkSelects_at hidle hclear hk)
  · exact fun p g e more hg hahead hclear => exec_due rfl (Device.gatesMove_at hg hahead hclear)
  · exact fun id c hid hc => exec_acts rfl (Device.contextCame_at hid hc)

end Sys2Proof.Machine
end

section
/-! PROOF. The Tally's own events: sync bursts, the holdover limit, lane loss and the PPS pins. -/

namespace Sys2Proof.Machine

section
variable {d : Device}

/-! ### Bursts -/

theorem Device.syncBurst_at (hsource : d.tally.isSource = false) (hlink : d.tally.link ≠ 0xFF) (hclear : Clear d d.tally.burstDue) :
    d.syncBurst = ((d.passTo d.tally.burstDue).closeBurst).sendBurst := by
  simp only [Device.syncBurst, hsource, decide_eq_false hlink, Device.atInstant_clear _ hclear]
  rfl

/-! ### Holdover -/

@[simp] theorem Device.passTo_holdoverEnd (t : Nat) : (d.passTo t).tally.holdoverEnd = d.tally.holdoverEnd := by
  unfold Device.passTo
  split <;> rfl

section
variable (hstate : d.tally.state = .holdover) (hd : Decided d d.tally.holdoverEnd)
include hstate hd

/-- The limit of HOLDOVER makes a BACKUP_ROOT the time source (R55). -/
theorem Device.holdoverLimit_backup (hrole : d.tally.cfg.role = .backupRoot) : d.holdoverLimit =
    (((d.passTo d.tally.holdoverEnd).mapTally fun t => { t with actingRoot := true }).setTallyState .locked
      (some d.tally.holdoverEnd)).advanceTo (d.tally.holdoverEnd + 1) := by
  simp only [Device.holdoverLimit, hstate, if_true, Device.atDeadline_clear _ hd, Device.endHoldover, Device.passTo_tally_state,
    Device.passTo_tally_cfg, hrole, Device.passTo_holdoverEnd]
  rfl

/-- The limit of HOLDOVER takes every other device to FREE (R55). -/
theorem Device.holdoverLimit_free (hrole : d.tally.cfg.role ≠ .backupRoot) : d.holdoverLimit =
    (((d.passTo d.tally.holdoverEnd).mapTally fun t => { t with useBackup := false }).setTallyState .free
      (some d.tally.holdoverEnd)).advanceTo (d.tally.holdoverEnd + 1) := by
  simp only [Device.holdoverLimit, hstate, if_true, Device.atDeadline_clear _ hd, Device.endHoldover, Device.passTo_tally_state,
    Device.passTo_tally_cfg, if_neg hrole, Device.passTo_holdoverEnd]
  rfl

end

/-! ### The PPS pins -/

/-- How far the Tally stands from the second nearest to it, in fractions of a tick (R59). -/
def Device.edgeError (d : Device) : Int := (65536 * ((d.now + second / 2) / second * second) : Nat) - (d.fineNow : Int)

/-- The phase error of an edge is to be slewed, and so many good edges have come in a row. -/
def Device.edgeSlewed (d : Device) (n : Nat) : Device :=
  d.mapTally fun t => { t with toSlew := d.edgeError, offset := -d.edgeError, missedInRow := 0, goodBursts := n }

section
variable (hdisc : d.tally.disciplined = true)
include hdisc

theorem Device.edgeIn_missed (hstate : d.tally.state = .locked) (hfar : ¬ (-6553600 ≤ d.edgeError ∧ d.edgeError ≤ 6553600)) :
    d.edgeIn = d.edgeMissed := by
  have hout : d.edgeError < -6553600 ∨ 6553600 < d.edgeError := by omega
  unfold Device.edgeError at hout
  simp only [Device.edgeIn, hdisc, if_true, if_pos (And.intro hstate hout)]

/-- An edge in bounds is slewed to; from FREE or HOLDOVER it starts ACQUIRE, and an acquiring device counts it when it is good. -/
theorem Device.edgeIn_slews (hnear : d.tally.state ≠ .locked ∨ (-6553600 ≤ d.edgeError ∧ d.edgeError ≤ 6553600)) : d.edgeIn =
    let count := if d.tally.state = .acquire ∧ decide (-8192 ≤ d.edgeError ∧ d.edgeError ≤ 8192) then
      d.tally.goodBursts + 1 else 0
    if d.tally.state = .free ∨ d.tally.state = .holdover then (d.edgeSlewed count).setTallyState .acquire
    else if d.tally.state = .acquire ∧ 4 ≤ count then (d.edgeSlewed count).setTallyState .locked
    else d.edgeSlewed count := by
  have hin : ¬ (d.tally.state = .locked ∧ (d.edgeError < -6553600 ∨ 6553600 < d.edgeError)) := by
    rintro ⟨hlocked, hout⟩
    have := hnear.resolve_left (not_not_intro hlocked)
    omega
  unfold Device.edgeSlewed
  unfold Device.edgeError at hin ⊢
  unfold Device.edgeIn
  rw [if_pos hdisc]
  exact if_neg hin

theorem Device.edgeIn_acquires (hstate : d.tally.state = .free ∨ d.tally.state = .holdover) :
    d.edgeIn = (d.edgeSlewed 0).setTallyState .acquire := by
  have hother : d.tally.state ≠ .locked ∧ d.tally.state ≠ .acquire := by rcases hstate with h | h <;> simp [h]
  rw [Device.edgeIn_slews hdisc (.inl hother.1)]
  simp only [if_pos hstate, if_neg fun h : d.tally.state = .acquire ∧ _ => hother.2 h.1]

theorem Device.edgeIn_good (hstate : d.tally.state = .acquire) (hgood : -8192 ≤ d.edgeError ∧ d.edgeError ≤ 8192) :
    d.edgeIn = if 4 ≤ d.tally.goodBursts + 1 then (d.edgeSlewed (d.tally.goodBursts + 1)).setTallyState .locked
      else d.edgeSlewed (d.tally.goodBursts + 1) := by
  rw [Device.edgeIn_slews hdisc (.inl (by rw [hstate]; decide))]
  simp [hstate, hgood]

theorem Device.edgeIn_bad (hstate : d.tally.state = .acquire) (hbad : ¬ (-8192 ≤ d.edgeError ∧ d.edgeError ≤ 8192)) :
    d.edgeIn = d.edgeSlewed 0 := by
  rw [Device.edgeIn_slews hdisc (.inl (by rw [hstate]; decide))]
  simp [hstate, decide_eq_false hbad]

theorem Device.edgeIn_locked (hstate : d.tally.state = .locked) (hnear : -6553600 ≤ d.edgeError ∧ d.edgeError ≤ 6553600) :
    d.edgeIn = d.edgeSlewed 0 := by
  rw [Device.edgeIn_slews hdisc (.inr hnear)]
  simp [hstate]

theorem Device.edgeMissed_is : d.edgeMissed =
    if d.tally.state = .locked ∧ 3 ≤ d.tally.missedInRow + 1 then
      (d.mapTally fun t => { t with missedInRow := t.missedInRow + 1, goodBursts := 0 }).enterHoldover
    else d.mapTally fun t => { t with missedInRow := t.missedInRow + 1, goodBursts := 0 } := by
  simp only [Device.edgeMissed, hdisc, if_true]

end

@[simp] theorem Device.passTo_pulses (t : Nat) : (d.passTo t).tally.pulses = d.tally.pulses := by simp [Tally.pulses]

/-- TALLY_PPS_OUT rises at a second where the device pulses (R58). -/
theorem Device.ppsRise_pulses (hclear : Clear d ((d.now + second - 1) / second * second))
    (h : d.tally.state = .locked ∨ d.tally.state = .holdover ∨ d.tally.cfg.role = .root) :
    d.ppsRise = (d.passTo ((d.now + second - 1) / second * second)).mapTally fun t => { t with ppsOut := true } := by
  have hpulses : d.tally.pulses = true := decide_eq_true h
  simp only [Device.ppsRise, Device.advanceTo_clear hclear, Device.passTo_pulses, hpulses, if_true]

theorem Device.ppsRise_still (hclear : Clear d ((d.now + second - 1) / second * second))
    (h : ¬ (d.tally.state = .locked ∨ d.tally.state = .holdover ∨ d.tally.cfg.role = .root)) :
    d.ppsRise = d.passTo ((d.now + second - 1) / second * second) := by
  have hpulses : d.tally.pulses = false := decide_eq_false h
  simp only [Device.ppsRise, Device.advanceTo_clear hclear, Device.passTo_pulses, hpulses, Bool.false_eq_true, if_false]

theorem Device.ppsFall_at (hout : d.tally.ppsOut = true) (hclear : Clear d (d.now / second * second + second / 10)) :
    d.ppsFall = (d.passTo (d.now / second * second + second / 10)).mapTally fun t => { t with ppsOut := false } := by
  simp only [Device.ppsFall, hout, if_true, Device.advanceTo_clear hclear]

end

/-- Settles O51. -/
theorem tallyEvents : Obligations.TallyEvents := by
  unfold Obligations.TallyEvents
  intro s t
  refine ⟨?_, ?_, ?_, ⟨?_, ?_⟩, ?_, ?_, ?_⟩
  · exact fun hsource hlink hclear => exec_due rfl (Device.syncBurst_at hsource hlink hclear)
  · intro b hb
    simp only [Tally.burstDue, hb]
  · exact fun hstate hd => ⟨fun hrole => exec_decided rfl (Device.holdoverLimit_backup hstate hd hrole),
      fun hrole => exec_decided rfl (Device.holdoverLimit_free hstate hd hrole)⟩
  · exact fun hlocked hsource => exec_on rfl (if_pos ⟨hlocked, hsource⟩)
  · intro h
    refine exec_on rfl (if_neg fun hboth => ?_)
    rcases h with hne | hsource
    · exact hne hboth.1
    · exact Bool.noConfusion (hboth.2.symm.trans hsource)
  · intro hrole hpps nearest err slew
    have hdisc : s.dev.tally.disciplined = true := by
      rw [Tally.disciplined, decide_eq_true hrole]
      exact hpps
    refine ⟨fun h => exec_on rfl (Device.edgeIn_acquires hdisc h), fun h hgood => ⟨fun hfew => exec_on rfl ?_,
      fun hmany => exec_on rfl ?_⟩, fun h hbad => exec_on rfl (Device.edgeIn_bad hdisc h hbad),
      fun h hnear => exec_on rfl (Device.edgeIn_locked hdisc h hnear), fun h hfar => ?_, fun h hmany => exec_on rfl ?_,
      fun h => exec_on rfl ?_⟩
    · exact (Device.edgeIn_good hdisc h hgood).trans (if_neg (Nat.not_le.2 hfew))
    · exact (Device.edgeIn_good hdisc h hgood).trans (if_pos hmany)
    · exact exec_acts rfl (Device.edgeIn_missed hdisc h hfar)
    · exact (Device.edgeMissed_is hdisc).trans (if_pos ⟨h, hmany⟩)
    · refine (Device.edgeMissed_is hdisc).trans (if_neg fun hboth => ?_)
      exact h.elim (fun hne => hne hboth.1) fun hfew => Nat.not_le.2 hfew hboth.2
  · exact fun hclear => ⟨fun h => exec_due rfl (Device.ppsRise_pulses hclear h),
      fun h => exec_due_still rfl (Device.ppsRise_still hclear h)⟩
  · exact fun hout hclear => exec_due rfl (Device.ppsFall_at hout hclear)

end Sys2Proof.Machine
end

section
/-! PROOF. Power, clock and link events of a device that is awake. -/

namespace Sys2Proof.Machine

section
variable {d : Device} (hawake : d.awake = true)

/-! ### The measurement -/

/-- The readings of a measurement are taken, the clocks standing where they have come to. -/
def Device.measured (d : Device) (r : PowerReading) : Device :=
  ((List.range 16).foldl (fun d n => d.updClock n id) d).mapPower fun w => w.take r

/-- A measurement closes: targets within their bounds, THROTTLE_N settled, the flags and the state kept. -/
def Device.measureCloses (d : Device) : Device :=
  d.clampTargets.settleThrottle.mapPower fun w =>
    { w with flagsAtMeasure := BitVec.ofNat 8 w.flags, stateAtMeasure := d.clampTargets.settleThrottle.stateCode }

section
variable {r : PowerReading} (hclear : Clear d ((d.now / 80000 + 1) * 80000))
include hawake hclear

theorem Device.powerMeasurement_trips (htrip : 3 ≤ ((d.passTo ((d.now / 80000 + 1) * 80000)).measured r).power.tripCount) :
    d.powerMeasurement r = ((d.passTo ((d.now / 80000 + 1) * 80000)).measured r).trip := by
  unfold Device.measured at htrip
  simp only [Device.powerMeasurement, hawake, Bool.true_or, Bool.not_true, Bool.false_eq_true, if_false,
    Device.atInstant_clear _ hclear, if_pos htrip, Device.measured]

/-- Below the trip a measurement makes a throttle step, undoes one, or does neither, and closes (R475 to R477). -/
theorem Device.powerMeasurement_closes
    (hcool : ((d.passTo ((d.now / 80000 + 1) * 80000)).measured r).power.tripCount < 3) : d.powerMeasurement r =
      let m := (d.passTo ((d.now / 80000 + 1) * 80000)).measured r
      (if m.power.overCause ≠ 0 then m.throttleDown m.power.throttleGroup
        else if m.power.eased then m.throttleUp else m).measureCloses := by
  have hserves : (!(d.awake || d.inStandby)) = false := by simp [hawake]
  unfold Device.powerMeasurement
  rw [hserves, if_neg Bool.false_ne_true, Device.atInstant_clear _ hclear]
  exact if_neg (Nat.not_le.2 hcool)

end

/-! ### Blocks and regions -/

include hawake in
theorem Device.aoclkTrim_is (e : Int) : d.aoclkTrim e =
    d.mapPower fun w => { w with aoError := e, aoOnTally := decide (d.tally.state = .locked) } := by
  simp only [Device.aoclkTrim, hawake, Bool.true_or, Bool.not_true, Bool.false_eq_true, if_false]

section
include hawake
variable {b : Nat}

theorem Device.blockSleep_at (hrun : d.blockPower b = .run) (hus : (d.clock (regionOf b)).sleepUs ≠ 0)
    (hidle : d.blockIdle b = true) (hclear : Clear d ((d.block b).busyAt + 800 * (d.clock (regionOf b)).sleepUs)) :
    d.blockSleep b = (d.passTo ((d.block b).busyAt + 800 * (d.clock (regionOf b)).sleepUs)).setBlockPower b .sleep := by
  simp only [Device.blockSleep, hawake, decide_eq_true (And.intro hrun hus), hidle, Bool.and_self, if_true,
    Device.atInstant_clear _ hclear]

theorem Device.blockWake_asleep {t : Nat} (hsleep : d.blockPower b = .sleep) (hdue : Table.find d.power.waking b = some t)
    (hclear : Clear d t) : d.blockWake b = (d.passTo t).setBlockPower b .run := by
  simp only [Device.blockWake, hawake, hsleep, hdue, Bool.not_true, Bool.false_eq_true, if_false, Device.atInstant_clear _ hclear]

theorem Device.blockWake_deep (hdeep : d.blockPower b = .deep) (hnamed : d.named b = true)
    (hclear : Clear d ((Table.find d.power.waking b).getD d.now)) : d.blockWake b =
      (((d.passTo ((Table.find d.power.waking b).getD d.now)).setBlockPower b .run).updClock (regionOf b) fun r =>
        { r with deep := false, runningMhz := if r.deep then r.targetMhz else r.runningMhz }).settleThrottle := by
  simp only [Device.blockWake, hawake, hdeep, hnamed, Bool.not_true, Bool.false_eq_true, if_false, if_true,
    Device.atInstant_clear _ hclear]

end

theorem Device.slewDone_at {n : Nat} (havs : d.power.avsFailed.getLsbD (n / 2) = false) (hclear : Clear d (d.slewEnd n)) :
    d.slewDone n = ((d.passTo (d.slewEnd n)).updClock n id).settleThrottle := by
  simp only [Device.slewDone, havs, Bool.false_eq_true, if_false, Device.atInstant_clear _ hclear]

/-! ### Links -/

theorem Device.netrefLoss_is (die : Nat) : d.netrefLoss die =
    ((List.range 16).map (16 * die + ·)).foldl
      (fun d l => if (d.link l).state = .training then d.setLink l .down 1 else d.linkDown l)
      (d.mapPower fun w => { w with netrefStable := w.netrefStable &&& ~~~(BitVec.ofNat 4 (2 ^ die)) }) := by
  rw [List.foldl_map]
  rfl

include hawake in
theorem Device.netrefBack_is (die : Nat) : d.netrefBack die =
    ((List.range 16).map (16 * die + ·)).foldl (fun d l => if (d.link l).state = .down then d.setLink l .training 2 else d)
      (d.mapPower fun w => { w with netrefStable := w.netrefStable ||| BitVec.ofNat 4 (2 ^ die) }) := by
  rw [List.foldl_map]
  simp only [Device.netrefBack, hawake, Bool.not_true, Bool.false_eq_true, if_false]

include hawake in
theorem Device.linkUp_is {l : Nat} (hstate : (d.link l).state = .down ∨ (d.link l).state = .training)
    (hnetref : d.power.netrefStable.getLsbD (l / 16) = true) : d.linkUp l =
      (((if (d.setLink l .up 3).isLaneLink l then (d.setLink l .up 3).mapTally fun t => { t with laneLostAt := none }
        else d.setLink l .up 3).unstrand.sendStarted).pumpAll) := by
  simp only [Device.linkUp, hawake, hnetref, decide_eq_true hstate, Bool.true_or, Bool.and_self, Bool.not_true,
    Bool.false_eq_true, if_false]

theorem Device.linkDown_is {l : Nat} (hup : (d.link l).state = .up) : d.linkDown l =
    if ((d.setLink l .down 1).moveQueues l).isLaneLink l then ((d.setLink l .down 1).moveQueues l).loseLane
    else (d.setLink l .down 1).moveQueues l := by
  simp only [Device.linkDown, Device.linkGoesDown, hup, ne_eq, not_true, if_false, if_true]

end

/-- Settles O52. -/
theorem powerAndLinkEvents : Obligations.PowerAndLinkEvents := by
  unfold Obligations.PowerAndLinkEvents
  intro s hawake
  refine ⟨?_, ?_, ?_, ?_, ?_, ?_⟩
  · intro r t d closing hclear
    have hcloses (h : d.power.tripCount < 3) := Device.powerMeasurement_closes (r := r) hawake hclear h
    refine ⟨fun htrip => exec_on rfl (Device.powerMeasurement_trips hawake hclear htrip),
      fun hcool hover => exec_on rfl ((hcloses hcool).trans ?_), fun hcool hover heased => exec_on rfl ((hcloses hcool).trans ?_),
      fun hcool hover heased => exec_on rfl ((hcloses hcool).trans ?_)⟩
    · exact congrArg Device.measureCloses (if_pos hover)
    · exact congrArg Device.measureCloses ((if_neg (not_not_intro hover)).trans (if_pos heased))
    · exact congrArg Device.measureCloses ((if_neg (not_not_intro hover)).trans (if_neg (Bool.eq_false_iff.1 heased)))
  · exact fun e => exec_acts rfl (Device.aoclkTrim_is hawake e)
  · exact fun b => ⟨fun hrun hus hidle hclear => exec_due rfl (Device.blockSleep_at hawake hrun hus hidle hclear),
      fun t hsleep hdue hclear => exec_due rfl (Device.blockWake_asleep hawake hsleep hdue hclear),
      fun hdeep hnamed hclear => exec_due rfl (Device.blockWake_deep hawake hdeep hnamed hclear)⟩
  · exact fun n havs hclear => exec_due rfl (Device.slewDone_at havs hclear)
  · exact fun die => ⟨exec_acts rfl (Device.netrefLoss_is die), exec_acts rfl (Device.netrefBack_is hawake die)⟩
  · exact fun l => ⟨fun hstate hnetref => exec_acts rfl (Device.linkUp_is hawake hstate hnetref),
      fun hup => exec_acts rfl (Device.linkDown_is hup)⟩

end Sys2Proof.Machine
end

section
/-! PROOF. Power good, boots, resets, REF25 and STANDBY. -/

namespace Sys2Proof.Machine

section
variable {d : Device}

theorem Device.pwrGoodRise_off (hoff : d.state = .off) : d.pwrGoodRise =
    { (d.mapBoot fun b => { b with step := .coldRef }) with state := .booting, stateSince := d.now } := by
  have hchanges : (d.mapBoot fun b => { b with step := .coldRef }).state ≠ .booting := by
    rw [Device.mapBoot_state, hoff]
    decide
  simp only [Device.pwrGoodRise, hoff, if_true, Device.setDevState, if_neg hchanges]
  rfl

theorem Device.resetNLow_waits (h : d.state = .off ∨ d.state = .tripped ∨
    (d.state = .booting ∧ (d.boot.step = .coldRef ∨ d.boot.step = .cold))) :
    d.resetNLow = d.mapBoot fun b => { b with resetN := false } := by
  simp only [Device.resetNLow, decide_eq_true h, if_true]

/-- RESET_N low holds the safe states (R481). -/
theorem Device.resetNLow_holds (h : d.state = .ready ∨ d.state = .run ∨ d.state = .safe ∨ d.state = .standby) : d.resetNLow =
    (((d.mapBoot fun b => { b with resetN := false }).safeStates.mapBoot fun b => { b with xspiResetN := false }).setDevState
      .resetHeld) := by
  have hno : ¬ (d.state = .off ∨ d.state = .tripped ∨ (d.state = .booting ∧ (d.boot.step = .coldRef ∨ d.boot.step = .cold))) := by
    rcases h with h | h | h | h <;> simp [h]
  simp only [Device.resetNLow, decide_eq_false hno, Bool.false_eq_true, if_false]

theorem Device.warmReset_armed {t : Nat} (i : BootInputs) (hreset : d.resettable = true) (hstate : d.state ≠ .booting)
    (hat : d.boot.resetAt = some (t, false)) (hclear : Clear d t) :
    d.warmReset i = (d.passTo t).warmStart.bootUp i false := by
  simp only [Device.warmReset, if_neg fun h : d.state = .booting ∧ _ => hstate h.1, hreset, hat, if_true,
    Device.atInstant_clear _ hclear]

theorem Device.restartReset_armed {t : Nat} (hawake : d.awake = true) (hat : d.boot.resetAt = some (t, true))
    (hclear : Clear d t) : d.restartReset = (d.passTo t).restart := by
  simp only [Device.restartReset, hawake, Bool.true_or, if_true, hat, Device.atInstant_clear _ hclear]

theorem Device.restartReset_now (hawake : d.awake = true) (hat : d.boot.resetAt = none) : d.restartReset = d.restart := by
  simp only [Device.restartReset, hawake, Bool.true_or, if_true, hat]

theorem Device.ref25Loss_is (href : d.power.refStable = true) (hstate : d.state = .ready ∨ d.state = .run) : d.ref25Loss =
    ((((d.mapPower fun w => { w with refStable := false, refLosses := w.refLosses + 1 }).mapTally fun t =>
      { t with onAoclk := true, toSlew := 0, useBackup := false }).setTallyState .free).safeStates).setDevState .refLost := by
  have hstops : ¬ (d.state = .off ∨ d.state = .tripped) ∧ d.state ≠ .resetHeld := by rcases hstate with h | h <;> simp [h]
  simp only [Device.ref25Loss, href, decide_eq_false hstops.1, Bool.not_true, Bool.or_self, Bool.false_eq_true, if_false,
    if_neg hstops.2]

section
variable (href : d.power.refStable = false)
include href

theorem Device.ref25Stable_lost (hlost : d.state = .refLost) : d.ref25Stable =
    ((d.mapPower fun w => { w with refStable := true, refSince := d.now }).mapTally fun t =>
      { t with onAoclk := false }).warmStart := by
  have hon : (d.power.refStable || decide (d.state = .off)) = false := by simp [href, hlost]
  unfold Device.ref25Stable
  rw [hon, if_neg Bool.false_ne_true]
  exact if_pos hlost

/-- In a cold boot the Tally starts with REF25 (R486 step 3). -/
theorem Device.ref25Stable_booting (hstate : d.state = .booting) (hstep : d.boot.step = .coldRef) : d.ref25Stable =
    ((d.mapPower fun w => { w with refStable := true, refSince := d.now }).mapTally fun t =>
      { t with onAoclk := false }).mapBoot fun b => { b with step := .cold } := by
  have hon : (d.power.refStable || decide (d.state = .off)) = false := by simp [href, hstate]
  unfold Device.ref25Stable
  rw [hon, if_neg Bool.false_ne_true]
  exact (if_neg (by rw [hstate]; decide)).trans (if_pos ⟨hstate, hstep⟩)

end

theorem Device.standbyWake_at (hstate : d.state = .standby) (hwake : d.boot.wakeAt ≠ 0) (hclear : Clear d d.boot.wakeAt) :
    d.standbyWake = ((d.passTo d.boot.wakeAt).mapBoot fun b => { b with wakeAt := 0 }).setDevState .leaving := by
  unfold Device.standbyWake
  rw [if_pos ⟨hstate, hwake⟩, Device.atInstant_clear _ hclear]
  exact if_pos ((Device.passTo_state ..).trans hstate)

end

/-- Settles O53. -/
theorem resetEvents : Obligations.ResetEvents := by
  unfold Obligations.ResetEvents
  intro s i d
  refine ⟨fun hoff => exec_on rfl (Device.pwrGoodRise_off hoff), ?_, ?_, ⟨fun h => exec_on rfl (Device.resetNLow_waits h),
    fun h => exec_on rfl (Device.resetNLow_holds h)⟩, ?_, ?_, ?_, ?_, ?_, ⟨rfl, rfl, rfl, rfl⟩, ?_, ?_, ?_, ?_⟩
  · exact fun hstate hstep hreset href => exec_acts rfl (if_pos ⟨hstate, hstep, hreset, href⟩)
  · exact ⟨_, rfl, rfl, rfl, rfl, rfl, rfl, rfl, rfl, rfl, rfl, rfl⟩
  · intro high
    refine ⟨fun hheld href => exec_on rfl ?_, fun hheld href => exec_on rfl ?_, fun hstate => exec_on rfl (if_neg hstate)⟩
    · exact (if_pos hheld).trans (if_pos href)
    · exact (if_pos hheld).trans (if_neg (Bool.eq_false_iff.1 href))
  · exact fun hstate hstep => exec_acts rfl (if_pos ⟨hstate, hstep⟩)
  · exact fun t hreset hstate hat hclear => exec_due rfl (Device.warmReset_armed i hreset hstate hat hclear)
  · exact fun t hawake hat hclear => exec_due rfl (Device.restartReset_armed hawake hat hclear)
  · exact fun hawake hat => exec_acts rfl (Device.restartReset_now hawake hat)
  · exact fun href hstate => exec_acts rfl (Device.ref25Loss_is href hstate)
  · intro href back
    refine ⟨fun hlost => exec_on rfl (Device.ref25Stable_lost href hlost),
      fun hstate hstep => exec_on rfl (Device.ref25Stable_booting href hstate hstep)⟩
  · exact fun hstate hwake hclear => exec_due rfl (Device.standbyWake_at hstate hwake hclear)
  · exact fun hstate => exec_acts rfl (if_pos hstate)

end Sys2Proof.Machine
end

section
/-! PROOF. Descriptor rows: what a ring posts, and the transport and service descriptors that it takes. -/

namespace Sys2Proof.Machine

/-- A descriptor type of R328 that its first byte can hold. -/
structure DescKind.Listed (k : DescKind) : Prop where
  byte : k.type < 256
  known : knownType k.type = true

/-- The row of a descriptor that is taken goes on as its type does. -/
theorem exec_taken {i : Instr} {s : State} {x : Desc} {k : DescKind} {r : Ring} {d : Device} (hlisted : k.Listed)
    (hrow : exec i s = .next (s.on (·.runDescriptor k x))) (h : Taken s x k r)
    (hrun : k.run (s.taken x k r) (jobOf x k r) = d) : exec i s = .next (s.goesOn x d) := by
  rw [hrow, State.descriptor_is h hlisted.byte hlisted.known, hrun]

/-- Settles O38: every descriptor row is `runDescriptor` of its type, and that posts on an empty ring. -/
theorem descriptorPosted : Obligations.DescriptorPosted := by
  unfold Obligations.DescriptorPosted
  intro s x r e he hring hlive hhead
  have hrow : exec e.1 s = .next (s.on (·.runDescriptor e.2 x)) := by
    simp only [List.mem_cons, List.not_mem_nil, or_false] at he
    rcases he with rfl | rfl | rfl | rfl | rfl | rfl | rfl | rfl | rfl | rfl | rfl | rfl | rfl | rfl | rfl | rfl | rfl |
      rfl | rfl <;> rfl
  rw [hrow, State.descriptor_posted e.2 hring hlive hhead]

section
variable {d : Device} {j : Job}

/-- A WRITE whose data reads without error sends its packets. -/
theorem kindWrite_run (hread : d.checkedRead (fieldU64 j.bytes 24) (fieldU32 j.bytes 40) (d.src (srcRing j.ring)) j.paddock =
    (d, none)) : kindWrite.run d j =
      let packets := writePackets (fieldU64 j.bytes 32 % 2 ^ 46) (fieldU32 j.bytes 20) (fieldU32 j.bytes 44) (fieldU16 j.bytes 48)
        (d.load (fieldU64 j.bytes 24) (fieldU32 j.bytes 40)) (bitOf (fieldU8 j.bytes 51) 0) (d.descOutgoing j 1)
      (d.expect j packets.length).sendPackets j packets := by
  simp only [kindWrite, hread]

/-- A SEND whose data reads without error sends its one packet. -/
theorem kindSend_run (hread : d.checkedRead (fieldU64 j.bytes 24) (fieldU32 j.bytes 40) (d.src (srcRing j.ring)) j.paddock =
    (d, none)) : kindSend.run d j = (d.expect j 1).sendPackets j
      [{ d.descOutgoing j 7 with payload := d.load (fieldU64 j.bytes 24) (fieldU32 j.bytes 40) }] := by
  simp only [kindSend, hread]

theorem kindWait_ring {q : Ring} (htarget : fieldU8 j.bytes 16 = 0) (hq : d.ring (fieldU32 j.bytes 20) = some q) :
    kindWait.run d j = if 0 ≤ signed 32 (q.completed + 2 ^ 32 - fieldU32 j.bytes 24) then d.finish j resOk else d := by
  simp only [kindWait, htarget, if_true, hq]

theorem kindWait_bell (htarget : fieldU8 j.bytes 16 = 1) : kindWait.run d j =
    let bell := 65536 + 1024 * ringDie j.ring + fieldU32 j.bytes 20
    let b := d.bell j.paddock bell
    let r := (d.setBell j.paddock bell { b with waiters := b.waiters ++ [(2 ^ 20 + j.ring, fieldU32 j.bytes 24, 0)] }).examine
      j.paddock bell (d.src (srcRing j.ring))
    r.1.perform r.2 := by
  have hbell : ¬ fieldU8 j.bytes 16 = 0 := by omega
  simp only [kindWait, if_neg hbell]

end

/-- Settles O34. -/
theorem transportDescriptors : Obligations.TransportDescriptors := by
  unfold Obligations.TransportDescriptors
  intro s x r
  refine ⟨fun h => exec_taken ⟨by decide, by decide⟩ rfl h rfl,
    fun h hread => exec_taken ⟨by decide, by decide⟩ rfl h (kindWrite_run hread),
    fun h => exec_taken ⟨by decide, by decide⟩ rfl h rfl, fun h => exec_taken ⟨by decide, by decide⟩ rfl h rfl,
    fun h hread => exec_taken ⟨by decide, by decide⟩ rfl h (kindSend_run hread),
    fun h => exec_taken ⟨by decide, by decide⟩ rfl h rfl,
    fun q h htarget hq => exec_taken ⟨by decide, by decide⟩ rfl h (kindWait_ring htarget hq),
    fun h htarget => exec_taken ⟨by decide, by decide⟩ rfl h (kindWait_bell htarget)⟩

/-- A STEP whose entries read without error joins its paddock's steps. -/
theorem kindStep_run {d : Device} {j : Job} {c : ServeConfig} (hcfg : (d.serving j.paddock).cfg = some c)
    (hread : d.checkedRead (fieldU64 j.bytes 16) (64 * fieldU16 j.bytes 32) (d.src (srcRing j.ring)) j.paddock = (d, none)) :
    kindStep.run d j =
      let step : ServeStep :=
        { ring := j.ring, index := j.index, phase := .queued, takenAt := d.now, entries := fieldU64 j.bytes 16,
          completions := fieldU64 j.bytes 24, deadline := fieldU64 j.bytes 40, cfg := c,
          lanes := (d.stepEntries j.bytes).map fun e => { entry := e } }
      d.updServing j.paddock fun s => { s with steps := s.steps ++ [step] } := by
  simp only [kindStep, hcfg, hread]

/-- IMAGE_LOAD books its writes and joins the paddock's loads. -/
theorem kindImageLoad_run (d : Device) (j : Job) : kindImageLoad.run d j =
    let w := d.writeImage (((Table.find d.images (fieldU32 j.bytes 16)).map (·.bytes)).getD [])
    let load : Loading :=
      { ring := j.ring, index := j.index, handle := fieldU32 j.bytes 16, start := fieldU64 j.bytes 24, written := w.2 }
    (w.1.updImage (fieldU32 j.bytes 16) fun y => { y with state := .loading }).mapService fun y =>
      { y with loading := y.loading ++ [(j.paddock, load)] } := by
  simp only [kindImageLoad]

/-- Settles O35. -/
theorem serviceDescriptors : Obligations.ServiceDescriptors := by
  unfold Obligations.ServiceDescriptors
  intro s x r
  refine ⟨fun h => exec_taken ⟨by decide, by decide⟩ rfl h (kindImageLoad_run ..),
    fun h => exec_taken ⟨by decide, by decide⟩ rfl h rfl,
    fun c h hcfg hread => exec_taken ⟨by decide, by decide⟩ rfl h (kindStep_run hcfg hread)⟩

end Sys2Proof.Machine
end

section
/-! PROOF. Descriptors of droves, of the tree of prefixes, and TIER_MOVE, once their rings have taken them. -/

namespace Sys2Proof.Machine

section
variable {d : Device} {j : Job}

/-! ### Droves -/

/-- The content of a record that DROVE_CREATE makes, from what it starts with. -/
def createContent (b start : List Byte) : List Byte :=
  overwrite (overwrite start 0 (leBytes 8 (fieldU64 b 24))) 8 (leBytes 8 (fieldU64 b 32))

theorem kindCreate_blank (hinit : fieldU64 j.bytes 40 = 0) : kindCreate.run d j =
    (d.newRecord j.paddock (fieldU64 j.bytes 16) 1 0 false (createContent j.bytes (zeros 184))).finish j resOk := by
  simp only [kindCreate, hinit, if_true, createContent]

theorem kindCreate_filled (hinit : fieldU64 j.bytes 40 ≠ 0)
    (hread : d.checkedRead (fieldU64 j.bytes 40) 184 (d.src (droveSource j.ring)) j.paddock = (d, none)) : kindCreate.run d j =
    (d.newRecord j.paddock (fieldU64 j.bytes 16) 1 0 false (createContent j.bytes (d.load (fieldU64 j.bytes 40) 184))).finish j
      resOk := by
  simp only [kindCreate, if_neg hinit, hread, createContent]

/-- An offer of a record that is OWNED and free, with a sound plan and room, is HANDING until its deadline (R274). -/
theorem Device.startOffer_sound {r a n : Nat} (hr : fieldU64 j.bytes 16 = r) (ha : fieldU64 j.bytes 24 = a)
    (hn : fieldU8 j.bytes 36 = n) (hfree : d.mustWait j.paddock r = false)
    (hread : d.checkedRead a (16 * n) (d.src (droveSource j.ring)) j.paddock = (d, none)) (howned : d.recState r = 1)
    (hepoch : d.recEpoch r ≠ 0xFFFFFFFF) (hroom : d.handingCount < 8192) (hplan : d.planCheck j.paddock r a n = none) :
    d.startOffer j =
      let ends := d.takenAt j + (if fieldU32 j.bytes 32 = 0 then (d.droveState j.paddock).deadline else fieldU32 j.bytes 32)
      let offer : Offer := { ring := j.ring, index := j.index, paddock := j.paddock, epoch := d.recEpoch r,
                             deadline := ends, plan := d.readPlan a n }
      ((d.setRecState r 2 false).setHanding r ends a).mapService fun s =>
        { s with offers := Table.put s.offers r offer, ended := Table.del s.ended r } := by
  subst hr ha hn
  have hstate : ¬ (d.recState (fieldU64 j.bytes 16) ≠ 1 ∨ d.recEpoch (fieldU64 j.bytes 16) = 0xFFFFFFFF) := by
    rintro (h | h)
    · exact h howned
    · exact hepoch h
  have hlimit : ¬ handingLimit ≤ d.handingCount := Nat.not_le.2 hroom
  simp only [Device.startOffer, hfree, Bool.false_eq_true, if_false, hread, if_neg hstate, if_neg hlimit, hplan]

/-- A pull with its source reachable and sets enough takes them (R276). -/
theorem kindPull_reached {c : ServeConfig} {conn : Nat} {sets shades : List Nat × Device}
    (hcfg : (d.serving j.paddock).cfg = some c) (hconn : d.holderConn j.paddock (fieldU64 j.bytes 16) = some conn)
    (hsets : d.popSets j.paddock (fieldU8 j.bytes 44) j.pullRange.2 = some sets)
    (hshades : sets.2.popSets j.paddock (fieldU8 j.bytes 47) j.shadowRange.2 = some shades)
    (hleft : c.arrivals j.pullRange.2 + j.shadowRange.2 * c.setPages ≠ 0) : kindPull.run d j =
      let b := j.bytes
      let source := fieldU64 b 16
      let shadow := if bitOf (fieldU8 b 46) 0 then fieldU64 b 56 else 0
      let recordAt := if fieldU8 b 45 = 0 then d.globalOf (fieldU64 b 24) else source
      let d1 := shades.2.writeTable j.paddock (fieldU64 b 32) c sets.1 (fieldU32 b 40) recordAt source j.pullRange.1 false
      let d2 := if shadow = 0 then d1
        else d1.writeTable j.paddock shadow c shades.1 (fieldU32 b 40) recordAt source j.shadowRange.1 true
      let pull : Pull :=
        { ring := j.ring, index := j.index, paddock := j.paddock, mode := fieldU8 b 45, source := source,
          record := fieldU64 b 24, table := fieldU64 b 32, shadow := shadow, epoch := fieldU32 b 40,
          left := c.arrivals j.pullRange.2 + j.shadowRange.2 * c.setPages, conn := conn }
      let d3 := d2.mapService fun s => { s with pulls := s.pulls ++ [pull] }
      d3.sendSource pull (d3.ringClass j.ring)
        { type := 1, flags := b2n (decide (shadow ≠ 0)), epoch := fieldU32 b 40, record := source,
          table := d3.globalOf (fieldU64 b 32), first := if fieldU8 b 45 = 2 then fieldU32 b 48 else 0,
          count := if fieldU8 b 45 = 2 then fieldU32 b 52 else 0 } := by
  simp only [kindPull, hcfg, Device.startPull, hconn, hsets, hshades, if_neg hleft]

/-- The pages of an OWNED record that no other descriptor holds are released, its remote holders being in the map (R286). -/
theorem Device.startRelease_owned {r : Nat} (hr : fieldU64 j.bytes 16 = r) (hfree : d.mustWait j.paddock r = false)
    (howned : d.recState r = 1) (hnone : Table.find d.service.releases r = none)
    (hmap : ∀ e ∈ remotesOf (d.recContent r),
      d.pairInMap (d.foldNumber j.paddock) (e.1 / 2 ^ 46) (holderPaddock e.1) = true) :
    d.startRelease j = d.releaseRecord j.paddock r (droveSource j.ring) (d.ringClass j.ring) (some (j.ring, j.index)) := by
  subst hr
  have hstate : ¬ (d.recState (fieldU64 j.bytes 16) ≠ 1 ∨
      (Table.find d.service.releases (fieldU64 j.bytes 16)).isSome = true) := by
    rw [hnone]
    simpa using howned
  have hlisted : ¬ ((remotesOf (d.recContent (fieldU64 j.bytes 16))).any fun e =>
      !d.pairInMap (d.foldNumber j.paddock) (refDevice e.1) (holderPaddock e.1)) = true := by
    simpa [refDevice] using hmap
  unfold Device.startRelease
  simp only [hfree, Bool.false_eq_true, if_false, if_neg hstate, if_neg hlisted]

/-- A release begun with no holder to wait for and none lost ends at once. -/
theorem Device.endRelease_begun {r : Nat} {x : Release} {e : Nat × Nat} (hwaiting : x.waiting = []) (hring : x.ring = some e)
    (hlost : x.lost = false) :
    (d.mapService fun s => { s with releases := Table.put s.releases r x }).endRelease r =
      (((d.mapService fun s => { s with releases := Table.put s.releases r x }).mapService fun s =>
        { s with releases := Table.del s.releases r }).setRecState r 4 false).perform [.done e.1 e.2 resOk 0 0] := by
  have hfind : Table.find (d.mapService fun s => { s with releases := Table.put s.releases r x }).service.releases r = some x :=
    Table.find_put_self ..
  unfold Device.endRelease
  rw [hfind]
  simp only [hwaiting, List.isEmpty_nil, if_true, hring, hlost, Bool.false_eq_true, if_false]

/-- A record without remote tables is RELEASED at once. -/
theorem Device.releaseRecord_local {p r source cls : Nat} {e : Nat × Nat} (hlocal : remotesOf (d.recContent r) = []) :
    d.releaseRecord p r source cls (some e) =
      (((((d.freeTable p (d.recTable r) source).freeTable p (d.recShadow r) source).mapService fun s =>
        { s with releases := Table.put s.releases r { ring := some e, paddock := p, waiting := [], lost := false } }).mapService
          fun s => { s with releases := Table.del s.releases r }).setRecState r 4 false).perform [.done e.1 e.2 resOk 0 0] := by
  unfold Device.releaseRecord
  simp only [hlocal, List.filterMap_nil, List.length_nil, List.range_zero, List.foldl_nil, ne_eq, not_true_eq_false, decide_false]
  exact Device.endRelease_begun rfl rfl rfl

/-! ### The tree of prefixes and TIER_MOVE -/

theorem kindLookup_run {t : PrefixTree} {c : ServeConfig} (htree : d.prefixTree j.paddock = some t)
    (hcfg : (d.serving j.paddock).cfg = some c) (hread : d.readTokens j = (d, none)) : kindLookup.run d j = d.lookup j t c := by
  simp only [kindLookup, hread, htree, hcfg]

theorem kindInsert_run {t : PrefixTree} (htree : d.prefixTree j.paddock = some t) (hread : d.readTokens j = (d, none)) :
    kindInsert.run d j =
      let w := Device.insertWalk j.paddock t (fieldU64 j.bytes 32) 0 none (d.chunkKeys (fieldU64 j.bytes 16) (chunksOf j.bytes) 0) d
      w.2.2.endWalk j t w.1 w.2.1 := by
  simp only [kindInsert, hread, htree]

/-- What the checks of a PREFIX_UNPIN say of its node: it has a pin. -/
theorem kindUnpin_refs {t : PrefixTree} (htree : d.prefixTree j.paddock = some t) (hcheck : kindUnpin.check d j = none) :
    d.nodeRefs t (fieldU32 j.bytes 16) ≠ 0 := by
  intro hzero
  simp [kindUnpin, endIn, firstFail, htree, require, hzero] at hcheck

theorem Device.unpinNode_pinned {t : PrefixTree} {p i : Nat} (htree : d.prefixTree p = some t) (hrefs : d.nodeRefs t i ≠ 0) :
    d.unpinNode p i = d.storeLe (t.node i + 24) 4 (d.nodeRefs t i - 1) := by
  obtain ⟨cfg, hcfg, rfl⟩ := Option.map_eq_some_iff.1 htree
  unfold Device.unpinNode
  rw [hcfg]
  exact if_neg hrefs

theorem kindEvict_run {t : PrefixTree} (htree : d.prefixTree j.paddock = some t) : kindEvict.run d j =
    let q := Device.evictNodes j.paddock t (walkerSource j.ring) (fieldU32 j.bytes 16) d
    q.2.finish j resOk 0 q.1 := by
  simp only [kindEvict, htree]

/-- The first block of a move joins the queue of the window from or to its tier die (R301). -/
theorem Device.queueMove_first {src dst : Nat} {win : Win} (hsrc : fieldU64 j.bytes 16 = src) (hdst : fieldU64 j.bytes 24 = dst)
    (hwin : d.windowFor j.paddock (if decide (dst < hbmEnd) then 0 else 1) (tierEdge (if decide (dst < hbmEnd) then src else dst))
      (if decide (dst < hbmEnd) then dst else src) 16 = some win) (hroute : d.routeDown win = false) :
    d.queueMove j 0 = d.joinWindow j.paddock win
      { size := (d.moveStride j).getD 0, cls := d.ringClass j.ring, link := none,
        address := if decide (dst < hbmEnd) then dst else src, data := [], kind := .moved j.ring j.index 0 } := by
  unfold Device.queueMove
  simp only [hsrc, hdst, Nat.zero_mul, Nat.add_zero, ← apply_ite tierEdge]
  exact Device.sendThrough_open _ hwin hroute

end

/-- Settles O36. -/
theorem droveDescriptors : Obligations.DroveDescriptors := by
  unfold Obligations.DroveDescriptors
  intro s x r
  refine ⟨fun h hinit => exec_taken ⟨by decide, by decide⟩ rfl h (kindCreate_blank hinit),
    fun h hinit hread => exec_taken ⟨by decide, by decide⟩ rfl h (kindCreate_filled hinit hread), ?_, ?_, ?_⟩
  · exact fun h hfree hread howned hepoch hroom hplan =>
      exec_taken ⟨by decide, by decide⟩ rfl h (Device.startOffer_sound rfl rfl rfl hfree hread howned hepoch hroom hplan)
  · exact fun c conn sets shades h hcfg hconn hsets hshades hleft =>
      exec_taken ⟨by decide, by decide⟩ rfl h (kindPull_reached hcfg hconn hsets hshades hleft)
  · intro h d j rec content remotes source freed reach release begun hfree howned hnone hmap
    have hstart := Device.startRelease_owned rfl hfree howned hnone hmap
    refine ⟨fun hlocal => exec_taken ⟨by decide, by decide⟩ rfl h (hstart.trans ?_),
      fun _ => exec_taken ⟨by decide, by decide⟩ rfl h hstart⟩
    have hreach : release = { ring := some (j.ring, j.index), paddock := j.paddock, waiting := [], lost := false } := by
      simp only [release, reach, hlocal, List.filterMap_nil, List.length_nil, ne_eq, not_true_eq_false, decide_false]
    exact (Device.releaseRecord_local hlocal).trans (by rw [← hreach])

/-- Settles O37. -/
theorem prefixDescriptors : Obligations.PrefixDescriptors := by
  unfold Obligations.PrefixDescriptors
  intro s x r
  refine ⟨fun t c h htree hcfg hread => exec_taken ⟨by decide, by decide⟩ rfl h (kindLookup_run htree hcfg hread),
    fun t h htree hread => exec_taken ⟨by decide, by decide⟩ rfl h (kindInsert_run htree hread),
    fun t h htree => exec_taken ⟨by decide, by decide⟩ rfl h (congrArg (Device.finish · _ _ 0 0)
      (Device.unpinNode_pinned htree (kindUnpin_refs htree h.checks))),
    fun t h htree => exec_taken ⟨by decide, by decide⟩ rfl h (kindEvict_run htree), fun win h hwin hroute =>
      exec_taken ⟨by decide, by decide⟩ rfl h (Device.queueMove_first rfl rfl hwin hroute)⟩

end Sys2Proof.Machine
end

section
/-! PROOF. Frames that a link drops, packets that meet a refusal, and requests that are accepted. -/

namespace Sys2Proof.Machine

/-! ### Frames turned away -/

/-- Every frame row is the receipt of its frame with its opcode. -/
theorem exec_frameRow {link : Fin 64} {f : Frame} {e : Instr × Nat × Frame} (he : e ∈ frameRows link f) (s : State) :
    exec e.1 s = .next (s.on (·.receive link e.2.1 e.2.2)) := by
  simp only [frameRows, List.mem_cons, List.not_mem_nil, or_false] at he
  rcases he with rfl | rfl | rfl | rfl | rfl | rfl | rfl | rfl | rfl | rfl | rfl | rfl | rfl | rfl | rfl | rfl | rfl | rfl | rfl |
    rfl | rfl | rfl | rfl | rfl | rfl <;> rfl

/-- Settles O42. -/
theorem framesTurnedAway : Obligations.FramesTurnedAway := by
  unfold Obligations.FramesTurnedAway
  intro link f e he s
  have hrow := exec_frameRow he s
  exact ⟨fun hdown => exec_on hrow (Device.receive_down hdown),
    fun hup => ⟨fun hbad => exec_on hrow (Device.receive_bad hup hbad),
      fun hfits hastray => exec_on hrow (Device.receive_astray hup hfits hastray)⟩⟩

/-! ### Refusals -/

section
variable {d : Device} {id : Nat} {c : Conn} {x : Arrived} {psn : Nat}

section
variable (hconn : d.conn id = some c) (hpsn : wirePsn c.rxNext x.frame.psn.toNat = psn)
include hconn hpsn

theorem Device.takeSequenced_duplicate (hseen : psn < c.rxNext ∨ c.rxSeen.contains psn = true) :
    d.takeSequenced id x = d.duplicate id c x psn := by
  simp only [Device.takeSequenced, hconn, hpsn, if_pos hseen]

theorem Device.takeSequenced_far (hfar : c.rxNext + 256 ≤ psn) (hnew : c.rxSeen.contains psn = false) :
    d.takeSequenced id x = d.countLink x.link 7 := by
  have hseen : ¬ (psn < c.rxNext ∨ c.rxSeen.contains psn = true) := by
    simp only [hnew, Bool.false_eq_true, or_false]
    omega
  simp only [Device.takeSequenced, hconn, hpsn, if_neg hseen, if_pos hfar]

theorem Device.takeSequenced_refused (hnext : c.rxNext ≤ psn) (hnear : psn < c.rxNext + 256)
    (hnew : c.rxSeen.contains psn = false) (hcode : d.refusal c x ≠ 0) :
    d.takeSequenced id x = d.refusePacket id c x psn (d.refusal c x) := by
  have hseen : ¬ (psn < c.rxNext ∨ c.rxSeen.contains psn = true) := by
    simp only [hnew, Bool.false_eq_true, or_false]
    omega
  simp only [Device.takeSequenced, hconn, hpsn, if_neg hseen, if_neg (Nat.not_le.2 hnear), if_pos hcode]

end

/-- A final refusal consumes the PSN of its packet (R319). -/
theorem Device.refusePacket_final {code : Nat} (hfull : code ≠ 9) (hpage : code ≠ 7) : d.refusePacket id c x psn code =
    ((((d.sendNak id x.frame.cls.toNat psn code).seePsn id psn).keepBell id psn x true).noteArrival id x
      (c.gapBelow psn)).streamPlaced id := by
  simp only [Device.refusePacket, if_neg hpage, if_neg hfull]

end

/-- A sequenced frame that comes on a connection is taken in its stream. -/
theorem exec_sequenced {i : Instr} {s : State} {link : Fin 64} {op : Nat} {f : Frame} {c0 : Conn} {d : Device}
    (hrow : exec i s = .next (s.on (·.receive link op f))) (h : Comes s link op f c0) (hseq : sequenced op = true)
    (h20 : op ≠ 0x20) (h24 : op ≠ 0x24)
    (hd : (s.headed link op f).takeSequenced f.conn.toNat (s.arrived link op f) = d) : exec i s = .next (s.on fun _ => d) :=
  exec_on hrow (((Device.receive_comes h h20 h24).trans (if_pos hseq)).trans hd)

/-- Settles O43. -/
theorem framesRefused : Obligations.FramesRefused := by
  unfold Obligations.FramesRefused
  intro s link f c0 c e he h hconn d x id psn
  have hrow : exec e.1 s = .next (s.on (·.receive link e.2 f)) ∧ sequenced e.2 = true ∧ e.2 ≠ 0x20 ∧ e.2 ≠ 0x24 := by
    simp only [List.mem_cons, List.not_mem_nil, or_false] at he
    rcases he with rfl | rfl | rfl | rfl | rfl | rfl <;> exact ⟨rfl, rfl, by dsimp only; decide, by dsimp only; decide⟩
  obtain ⟨hexec, hseq, h20, h24⟩ := hrow
  refine ⟨fun hseen => exec_sequenced hexec h hseq h20 h24 (Device.takeSequenced_duplicate hconn rfl hseen),
    fun hfar hnew => exec_sequenced hexec h hseq h20 h24 (Device.takeSequenced_far hconn rfl hfar hnew),
    fun hnext hnear hnew hcode => ?_⟩
  have hrefused : d.takeSequenced id x = d.refusePacket id c x psn (d.refusal c x) :=
    Device.takeSequenced_refused hconn rfl hnext hnear hnew hcode
  refine ⟨fun hfull => exec_sequenced hexec h hseq h20 h24 (hrefused.trans ?_),
    fun hfull hpage => exec_sequenced hexec h hseq h20 h24 (hrefused.trans (Device.refusePacket_final hfull hpage))⟩
  rw [hfull]
  rfl

/-! ### Requests accepted -/

/-- An accepted packet is placed, and its stream goes on. -/
theorem exec_fresh {i : Instr} {s : State} {link : Fin 64} {op : Nat} {f : Frame} {c : Conn} {d : Device}
    (hrow : exec i s = .next (s.on (·.receive link op f))) (h : Fresh s link op f c) (hseq : sequenced op = true)
    (h20 : op ≠ 0x20) (h24 : op ≠ 0x24)
    (hd : (s.seen link op f c).acceptPacket f.conn.toNat c (s.arrived link op f) (wirePsn c.rxNext f.psn.toNat) = d) :
    exec i s = .next (s.streamed link op f c d) := by
  rw [hrow, State.frame_is h hseq h20 h24, hd]

section
variable {d : Device} {id psn : Nat} {c : Conn} {x : Arrived}

theorem Device.queueWrite_open {link : Nat} {f : Frame} {w : Win}
    (hwin : (d.rxWaits id psn).windowFor c.paddock 0 c.home (Machine.accessOf f.ext).address f.cls.toNat = some w)
    (hroute : (d.rxWaits id psn).routeDown w = false) : d.queueWrite id c psn link f =
      (d.rxWaits id psn).joinWindow c.paddock w
        { size := f.payload.length, cls := f.cls.toNat, link := some link, address := (Machine.accessOf f.ext).address,
          data := f.payload, kind := .packet id psn (Machine.accessOf f.ext).index (Machine.accessOf f.ext).bell } := by
  unfold Device.queueWrite
  exact Device.sendThrough_open _ hwin hroute

/-- A WRITE to an exposure joins its window (R340). -/
theorem Device.acceptPacket_write (hop : x.opcode = 0x01) (hmgmt : c.mgmt = false) :
    d.acceptPacket id c x psn = (d.accessBegun x.frame).queueWrite id c psn x.link x.frame := by
  unfold Device.acceptPacket
  simp only [hop, hmgmt, Conn.pageAccess, Bool.false_and, Bool.not_false, Bool.and_true, Bool.false_eq_true, if_false]
  rfl

/-- A WRITE to the FABRIC page is done (R514). -/
theorem Device.acceptPacket_page (hop : x.opcode = 0x01) (hmgmt : c.mgmt = true) :
    d.acceptPacket id c x psn = d.pageWrite .fabric (Machine.accessOf x.frame.ext).address x.frame.payload := by
  unfold Device.acceptPacket
  simp only [hop, hmgmt, Conn.pageAccess, true_or, decide_true, Bool.and_true, Bool.not_true, Bool.and_false, if_true,
    Bool.false_eq_true, if_false]

/-- A request is held for its turn in the stream. -/
def Device.holds (d : Device) (id psn : Nat) (x : Arrived) : Device :=
  d.updConn id fun c => { c with held := c.held ++ [{ psn := psn, opcode := x.opcode, frame := x.frame, link := x.link }] }

/-- An access to an exposure that is not done at once is counted and held (R321). -/
theorem Device.acceptPacket_held (hop : x.opcode = 0x02 ∨ x.opcode = 0x03 ∨ x.opcode = 0x05)
    (hpage : c.pageAccess x.opcode = false) : d.acceptPacket id c x psn = (d.accessBegun x.frame).holds id psn x := by
  unfold Device.acceptPacket Device.holds
  rcases hop with hop | hop | hop <;> simp only [hop] at hpage ⊢ <;>
    simp only [hpage, Bool.not_false, Bool.and_true, accessOpcode] <;> rfl

/-- A READ_REQ of the FABRIC page is held, no exposure being accessed. -/
theorem Device.acceptPacket_pageRead (hop : x.opcode = 0x03) (hmgmt : c.mgmt = true) :
    d.acceptPacket id c x psn = d.holds id psn x := by
  unfold Device.acceptPacket Device.holds
  simp only [hop, hmgmt, Conn.pageAccess, or_true, decide_true, Bool.and_true, Bool.not_true, Bool.and_false,
    Bool.false_eq_true, if_false]

/-- A SEND takes the oldest posted RECV, and its data joins the window to that buffer (R329). -/
theorem Device.acceptPacket_send {e : Nat × Nat × Nat} {w : Win} (hop : x.opcode = 0x07)
    (hrecv : ((d.ring c.recvRing).bind fun r => r.recvs.head?) = some e)
    (hwin : ((d.updRing c.recvRing fun r => { r with recvs := r.recvs.drop 1 }).rxWaits id psn).windowFor c.paddock 0 c.home e.2.1
      x.frame.cls.toNat = some w)
    (hroute : ((d.updRing c.recvRing fun r => { r with recvs := r.recvs.drop 1 }).rxWaits id psn).routeDown w = false) :
    d.acceptPacket id c x psn =
      ((d.updRing c.recvRing fun r => { r with recvs := r.recvs.drop 1 }).rxWaits id psn).joinWindow c.paddock w
        { size := x.frame.payload.length, cls := x.frame.cls.toNat, link := some x.link, address := e.2.1, data := x.frame.payload,
          kind := .recv id psn c.recvRing e.1 e.2.1 e.2.2 } := by
  have hquiet : accessOpcode 0x07 = false := by decide
  unfold Device.acceptPacket
  simp only [hop, hquiet, Bool.false_and, Bool.false_eq_true, if_false, Device.takeSend, hrecv]
  exact Device.sendThrough_open _ hwin hroute

/-- A command of the bound manager takes a queue entry, is accepted and, where its path is served, executed (R77). -/
theorem Device.acceptPacket_command {e : Nat} (hop : x.opcode = 0x21) (hentry : d.mgmtEntry (fieldU16 x.frame.payload 0) = some e) :
    d.acceptPacket id c x psn =
      let path := pathOf .fabric e
      let d1 := (d.updBox path fun b => { b with cmd := x.frame.payload, psn := psn }).acceptBox path (fieldU16 x.frame.payload 0)
      if d1.serves path then d1.executeStored path else d1 := by
  have hquiet : accessOpcode 0x21 = false := by decide
  unfold Device.acceptPacket
  simp only [hop, hquiet, Bool.false_and, Bool.false_eq_true, if_false, Device.mgmtCommand, hentry]

end

/-- Settles O39. -/
theorem requestFrames : Obligations.RequestFrames := by
  unfold Obligations.RequestFrames
  intro s link f c id a
  refine ⟨?_, ?_, ?_, ?_, ?_, ?_, ?_, ?_⟩
  · exact fun w h hmgmt hwin hroute => exec_fresh rfl h rfl (by decide) (by decide)
      ((Device.acceptPacket_write rfl hmgmt).trans (Device.queueWrite_open hwin hroute))
  · exact fun h hmgmt => exec_fresh rfl h rfl (by decide) (by decide) (Device.acceptPacket_page rfl hmgmt)
  · exact fun h => exec_fresh rfl h rfl (by decide) (by decide)
      (Device.acceptPacket_held (.inl rfl) (Bool.and_eq_false_iff.2 (.inr rfl)))
  · exact fun h hmgmt => exec_fresh rfl h rfl (by decide) (by decide)
      (Device.acceptPacket_held (.inr (.inl rfl)) (Bool.and_eq_false_iff.2 (.inl hmgmt)))
  · exact fun h hmgmt => exec_fresh rfl h rfl (by decide) (by decide) (Device.acceptPacket_pageRead rfl hmgmt)
  · exact fun h => exec_fresh rfl h rfl (by decide) (by decide)
      (Device.acceptPacket_held (.inr (.inr rfl)) (Bool.and_eq_false_iff.2 (.inr rfl)))
  · exact fun e w h hrecv hwin hroute => exec_fresh rfl h rfl (by decide) (by decide)
      (Device.acceptPacket_send rfl hrecv hwin hroute)
  · intro e h hentry path d
    have haccept := Device.acceptPacket_command (id := id) (c := c) (x := s.arrived link 0x21 f)
      (psn := wirePsn c.rxNext f.psn.toNat) rfl hentry
    exact ⟨fun hserved => exec_fresh rfl h rfl (by decide) (by decide) (haccept.trans (if_pos hserved)),
      fun hclosed => exec_fresh rfl h rfl (by decide) (by decide) (haccept.trans (if_neg (Bool.eq_false_iff.1 hclosed)))⟩

end Sys2Proof.Machine
end

section
/-! PROOF. Faults that the environment brings. -/

namespace Sys2Proof.Machine

section
variable {d : Device} {e : ErrorReport}

/-! ### Detected errors -/

section
variable (hon : d.shepherdOn = true)
include hon

theorem Device.detectedError_one {b : Bool} (hbits : correctedBits e = 1) :
    d.detectedError e b = d.mapFaults fun f => { f with corrected1 := f.corrected1 + 1 } := by
  simp only [Device.detectedError, hon, Bool.not_true, Bool.false_eq_true, if_false, hbits, if_true]

theorem Device.detectedError_two {b : Bool} (hbits : correctedBits e = 2) : d.detectedError e b =
    (d.mapFaults fun f => { f with corrected2 := f.corrected2 + 1 }).record
      { errorReport e 1 with level := 1, code := 1, sub := 2 } (some (d.detectedAt e)) := by
  simp only [Device.detectedError, hon, Bool.not_true, Bool.false_eq_true, if_false, hbits, if_true]
  rfl

/-- An error that no decoder corrects takes its one retry, and POISONED none (R421, R422). -/
theorem Device.detectedError_retried {b : Bool} (hbits : correctedBits e = 0) (hcode : retriedCode e.code.toNat = true)
    (hclean : ¬ (e.code = 2 ∧ d16Corrects e.flips.toNat = some 0)) : d.detectedError e b =
    if (b && decide (e.code ≠ 3)) = true then d.record (errorReport e 1) (some (d.detectedAt e)) else d.lastingError e := by
  have hone : ¬ correctedBits e = 1 := by omega
  have htwo : ¬ correctedBits e = 2 := by omega
  simp only [Device.detectedError, hon, Bool.not_true, Bool.false_eq_true, if_false, if_neg hone, if_neg htwo, hcode,
    decide_eq_false hclean, Bool.or_self]

end

theorem correctedBits_other (h : e.code ≠ 2) : correctedBits e = 0 := if_neg h

theorem correctedBits_none (h : d16Corrects e.flips.toNat = none) : correctedBits e = 0 := by
  simp [correctedBits, h]

/-! ### Lockstep -/

theorem Device.lockstepMismatch_free {pair : Nat} (hon : d.shepherdOn = true) (hnone : d.faults.injection = none) :
    d.lockstepMismatch pair = if d.draw.1.getLsbD 0 then d.draw.2.record (d.lockstepReport pair false false)
      else d.draw.2.lockstepLasting pair false := by
  simp only [Device.lockstepMismatch, hon, Bool.not_true, Bool.false_eq_true, if_false, hnone]

/-- In a device that is awake the Shepherd's firmware restarts after a lasting lockstep fault (R423). -/
theorem Device.lockstepLasting_awake {pair : Nat} {injected : Bool} (hawake : d.awake = true) :
    d.lockstepLasting pair injected =
      ((d.record (d.lockstepReport pair true injected)).mapFaults fun f => { f with lockstep := true }).restart := by
  simp only [Device.lockstepLasting, hawake, Bool.true_or, if_true]

/-! ### Copies of peer notes -/

theorem Device.noteCopy_at {x : NoteDue} {i : Nat}
    (hleast : leastBy (fun e : NoteDue × Nat => e.1.dueAt) d.faults.notesDue.zipIdx = some (x, i)) (hclear : Clear d x.dueAt) :
    d.noteCopy =
      let rest := d.faults.notesDue.eraseIdx i
      ((d.passTo x.dueAt).sendNotes x.conns x.copy x.payload).mapFaults fun f =>
        { f with notesDue := if x.copy = 1 then rest ++ [{ x with copy := 2 }] else rest } := by
  simp only [Device.noteCopy, hleast, Device.atInstant_clear _ hclear, Device.passTo_faults]

end

/-- Settles O56. -/
theorem faultEvents : Obligations.FaultEvents := by
  unfold Obligations.FaultEvents
  intro s hon
  refine ⟨fun e => ⟨fun b hbits => exec_acts rfl (Device.detectedError_one hon hbits),
    fun b hbits => exec_acts rfl (Device.detectedError_two hon hbits), fun hcode => ?_, fun b hpoison => ?_⟩,
    fun pair hnone => ⟨fun hpass => ?_, fun hfail hawake => ?_⟩,
    fun x i hleast hclear => exec_due rfl (Device.noteCopy_at hleast hclear)⟩
  · have hbits : correctedBits e = 0 := by
      rcases hcode with hcode | ⟨-, hnone⟩
      · exact correctedBits_other (by rintro h; simp [h] at hcode)
      · exact correctedBits_none hnone
    have hretried : retriedCode e.code.toNat = true := by
      rcases hcode with hcode | ⟨h, -⟩
      · simp only [List.mem_cons, List.not_mem_nil, or_false] at hcode
        simp only [retriedCode, decide_eq_true_eq]
        omega
      · rw [h]
        rfl
    have hclean : ¬ (e.code = 2 ∧ d16Corrects e.flips.toNat = some 0) := by
      rcases hcode with hcode | ⟨-, hnone⟩
      · rintro ⟨h, -⟩
        simp [h] at hcode
      · simp [hnone]
    have hpoison : e.code ≠ 3 := by
      rcases hcode with hcode | ⟨h, -⟩
      · rintro h
        simp [h] at hcode
      · rw [h]
        decide
    exact ⟨exec_acts rfl ((Device.detectedError_retried hon hbits hretried hclean).trans (if_pos (decide_eq_true hpoison))),
      exec_acts rfl ((Device.detectedError_retried hon hbits hretried hclean).trans (if_neg Bool.false_ne_true))⟩
  · have hother : e.code ≠ 2 := by
      rw [hpoison]
      decide
    refine exec_acts rfl ((Device.detectedError_retried hon (correctedBits_other hother) ?_ fun h => hother h.1).trans
      (if_neg ?_))
    · rw [hpoison]
      rfl
    · simp [hpoison]
  · exact exec_on rfl ((Device.lockstepMismatch_free hon hnone).trans (if_pos hpass))
  · exact exec_on rfl (((Device.lockstepMismatch_free hon hnone).trans (if_neg (Bool.eq_false_iff.1 hfail))).trans
      (Device.lockstepLasting_awake hawake))

end Sys2Proof.Machine
end

section
/-! PROOF. Paddocks share blocks: work, slices, escalation, stopping, saving, restoring, running, and image switches. -/

namespace Sys2Proof.Machine

section
variable {d : Device} {p : Nat} {x : Paddock}

@[simp] theorem Device.passTo_atBoundary (t : Nat) : (d.passTo t).atBoundary p = d.atBoundary p := by
  unfold Device.passTo
  split <;> rfl

@[simp] theorem Device.passTo_clocksCarry (t : Nat) (im : List Byte) : (d.passTo t).clocksCarry im = d.clocksCarry im := by
  unfold Device.passTo
  split <;> rfl

section
variable (hx : d.paddock p = some x)
include hx

theorem Device.paddockWork_some (hwork : d.hasWork p = true) : d.paddockWork p =
    let d1 := d.updPaddock p fun x => { x with demand := if x.demand = 0 then d.now else x.demand }
    (if x.state = .vacant then d1.setPaddockState p .waiting else d1).schedule := by
  simp only [Device.paddockWork, hx, hwork, Bool.not_true, Bool.false_eq_true, if_false]

/-- The slice of an occupant ends where a paddock of equal priority waits for one of its blocks (R377). -/
theorem Device.sliceExpiry_shared (hrunning : x.state = .running)
    (hwaits : ∃ w ∈ d.ranking, w.2.priority = x.priority ∧ w.2.blocks &&& x.blocks ≠ 0)
    (hclear : Clear d (x.tookAt + x.slice)) : d.sliceExpiry p = (d.passTo (x.tookAt + x.slice)).schedule := by
  have hany : (d.ranking.any fun w => decide (w.2.priority = x.priority ∧ w.2.blocks &&& x.blocks ≠ 0)) = true := by
    simpa only [List.any_eq_true, decide_eq_true_eq] using hwaits
  simp only [Device.sliceExpiry, hx, hrunning, hany, and_self, if_true, Device.atInstant_clear _ hclear]

/-- A BOUNDARY preemption that has come to no boundary escalates (R380). -/
theorem Device.preemptionEscalation_at {q : Preemption} {t : Nat} (hq : x.preempt = some q) (ht : q.escalateAt = some t)
    (hstopping : x.state = .stopping) (hboundary : d.atBoundary p = false) (hdecided : Decided d t) :
    d.preemptionEscalation p = ((d.passTo t).escalate p).advanceTo (t + 1) := by
  simp only [Device.preemptionEscalation, hx, Option.bind_some, hq, ht, Device.atDeadline_clear _ hdecided, Device.passTo_paddock,
    Device.passTo_atBoundary, hstopping, hboundary, and_self, if_true]

theorem Device.preemptStopped_quiet {q : Preemption} (hstopping : x.state = .stopping) (hq : x.preempt = some q)
    (hready : (if q.mode = .immediate then d.allStopped x else d.atBoundary p) = true) (hquiet : d.blocksQuiet p x = true) :
    d.preemptStopped p =
      let d1 := d.stopThreads p
      let d2 := if q.mode = .immediate then x.blockList.foldl (fun d b => d.cutMmac p q.stopAt b) d1 else d1
      (x.blockList.foldl Device.rouse d2).setPaddockState p .saving (d.waiterTag q.waiter) := by
  simp only [Device.preemptStopped, hx, hstopping, hq, hready, hquiet, Bool.and_self, if_true]

section
variable (hrestoring : x.state = .restoring) (hrestored : x.restored = false)
  (hawake : ∀ b ∈ x.blockList, d.blockPower b ≠ .deep)
include hrestoring hrestored hawake

omit hx in
/-- A paddock that is being restored, with no block left in DEEP, restores every block (R388). -/
theorem Device.restoreDone_go : ¬ (x.state ≠ .restoring ∨ x.restored = true ∨
    (x.blockList.any fun b => decide (d.blockPower b = .deep)) = true) := by
  simpa [hrestoring, hrestored] using hawake

variable {r : Device × Option Report}
  (hr : Device.restoreBlocks p x x.blockList (x.blockList.foldl (fun d b => d.setBlockPower b .run) d) = r)
include hr

theorem Device.restoreDone_sound (hsound : r.2 = none) :
    d.restoreDone p = r.1.updPaddock p fun x => { x with restored := true } := by
  unfold Device.restoreDone
  rw [hx]
  refine (if_neg (Device.restoreDone_go hrestoring hrestored hawake)).trans ?_
  dsimp only
  rw [hr, hsound]

theorem Device.restoreDone_fails {e : Report} (hfail : r.2 = some e) : d.restoreDone p = r.1.strike p e := by
  unfold Device.restoreDone
  rw [hx]
  refine (if_neg (Device.restoreDone_go hrestoring hrestored hawake)).trans ?_
  dsimp only
  rw [hr, hfail]

end

/-- A restored paddock runs from the first frame boundary of its image on (R386). -/
theorem Device.paddockRunning_at {t : Nat} (ht : ceilDiv d.now (d.spanOf p) * d.spanOf p = t) (hrestoring : x.state = .restoring)
    (hrestored : x.restored = true) (hclear : Clear d t) : d.paddockRunning p =
    let d0 := d.passTo t
    let d1 := (d0.startThreads p x).setPaddockState p .running
    let d2 := x.blockList.foldl (fun d b => d.updBlock b fun k => { k with frameStart := d.frameBase p, busyAt := d.now }) d1
    ((d2.endSwitches x).updPaddock p fun x =>
      { x with suspended := false, fullRecord := false, restored := false, switchFrom := none }).schedule := by
  subst ht
  have hgo : ¬ (x.state ≠ .restoring ∨ x.restored = false) := by simp [hrestoring, hrestored]
  simp only [Device.paddockRunning, hx, if_neg hgo, Device.atInstant_clear _ hclear]

/-- The oldest load of a paddock has left those that wait. -/
def Device.loadTaken (d : Device) (p : Nat) (l : Loading) : Device :=
  d.mapService fun s => { s with loading := s.loading.filter fun e => decide (e ≠ (p, l)) }

theorem Device.imageSwitch_at {l : Loading} {im : Image} {span t : Nat}
    (hload : d.service.loading.find? (fun e => decide (e.1 = p)) = some (p, l)) (him : Table.find d.images l.handle = some im)
    (hholds : x.holds = true) (hstopping : x.stoppingNow = false) (hspan : max 1 (imageSpan im.bytes) = span)
    (ht : ceilDiv (max d.now (max l.start l.written)) span * span = t) (hclear : Clear d t) : d.imageSwitch p =
      if d.clocksCarry im.bytes then ((d.passTo t).loadTaken p l).switchTo p x l im
      else (((d.passTo t).loadTaken p l).updImage l.handle fun y => { y with state := .registered }).perform
        [.done l.ring l.index resConflict 0 0] := by
  subst hspan ht
  have hcarry : ((d.passTo (ceilDiv (max d.now (max l.start l.written)) (max 1 (imageSpan im.bytes)) *
      max 1 (imageSpan im.bytes))).loadTaken p l).clocksCarry im.bytes = d.clocksCarry im.bytes := Device.passTo_clocksCarry _ _
  simp only [Device.imageSwitch, hload, him, hx, hholds, hstopping, Bool.not_true, Bool.or_self, Bool.false_eq_true, if_false,
    Device.atInstant_clear _ hclear]
  rw [← hcarry]
  rfl

end

/-! ### The end of a save -/

/-- What a save leaves in its blocks and records (R389). -/
def Device.savedBy (d : Device) (p : Nat) (x : Paddock) (q : Preemption) : Device :=
  let whole := q.mode == .immediate
  let d1 := (x.blockList.foldl (fun d b => d.saveBlock p x whole b) d).saveRings p x whole
  let written := x.blockList.length * savedBytes whole + 64 * (d1.ringsOf p).length
  (d1.clearBlocksOf p).updPaddock p fun x =>
    { x with holds := false, preempt := none, suspended := whole && !d.atBoundary p, fullRecord := whole,
             generatorsSaved := x.blockList, restored := false, savedBytes := x.savedBytes + written }

/-- The state of a paddock whose save has ended. -/
def Device.afterSave (d2 : Device) (p : Nat) (q : Preemption) (suspended : Bool) : PaddockState :=
  if q.toHeld then .held else if suspended then .saved
  else if d2.workAtHead p || !d2.atBoundary p then .waiting else .vacant

theorem Device.saveDone_is {q : Preemption} (hx : d.paddock p = some x) (hsaving : x.state = .saving) (hq : x.preempt = some q) :
    d.saveDone p =
      let d2 := d.savedBy p x q
      let d3 := d2.setPaddockState p (d2.afterSave p q (q.mode == .immediate && !d.atBoundary p)) (d.waiterTag q.waiter)
      ((q.waiter.map fun w => d3.respond (pathOf w.1 w.2) {}).getD d3).schedule := by
  have hgo : ¬ x.state ≠ .saving := not_not_intro hsaving
  unfold Device.saveDone
  rw [hx]
  refine (if_neg hgo).trans ?_
  rw [hq]
  unfold Device.savedBy Device.afterSave
  dsimp only [Option.getD_some]
  cases q.waiter with
  | none => dsimp only [Option.map_none, Option.getD_none]
  | some w => dsimp only [Option.map_some, Option.getD_some]

end

/-- Settles O54. -/
theorem switchingEvents : Obligations.SwitchingEvents := by
  unfold Obligations.SwitchingEvents
  intro s p x hx
  refine ⟨fun hwork => ⟨fun hvacant => exec_on rfl ?_, fun hvacant => exec_on rfl ?_⟩,
    fun hrunning hwaits hclear => exec_due rfl (Device.sliceExpiry_shared hx hrunning hwaits hclear),
    fun q t hq ht hstopping hboundary hdecided =>
      exec_decided rfl (Device.preemptionEscalation_at hx hq ht hstopping hboundary hdecided),
    fun q hstopping hq hready hquiet => exec_acts rfl (Device.preemptStopped_quiet hx hstopping hq hready hquiet),
    ?_, ?_,
    fun hrestoring hrestored hclear => exec_due rfl (Device.paddockRunning_at hx rfl hrestoring hrestored hclear), ?_⟩
  · exact (Device.paddockWork_some hx hwork).trans (congrArg Device.schedule (if_pos hvacant))
  · exact (Device.paddockWork_some hx hwork).trans (congrArg Device.schedule (if_neg hvacant))
  · intro q hsaving hq whole suspended d1 written d2 next d3
    exact exec_on rfl (Device.saveDone_is hx hsaving hq)
  · intro hrestoring hrestored hawake r
    exact ⟨fun hok => exec_on rfl (Device.restoreDone_sound hx hrestoring hrestored hawake rfl hok),
      fun e hfail => exec_on rfl (Device.restoreDone_fails hx hrestoring hrestored hawake rfl hfail)⟩
  · intro l im hload him hholds hstopping span t left hclear
    have hswitch := Device.imageSwitch_at hx hload him hholds hstopping rfl rfl hclear
    exact ⟨fun hcarry => exec_due rfl (hswitch.trans (if_pos hcarry)),
      fun hlow => exec_due rfl (hswitch.trans (if_neg (Bool.eq_false_iff.1 hlow)))⟩

end Sys2Proof.Machine
end

section
/-! PROOF. Phases of a step, page selections, codebook builds and the deadline of a pull. -/

namespace Sys2Proof.Machine

section
variable {d : Device} {p : Nat}

/-! ### Phases of a step -/

/-- Work through the service share has its effect when the last of it has ended (R530). -/
theorem Device.throughShare_clear {loads : List (Nat × Nat)} {w : Device × Nat} (f : Device → Device)
    (hw : d.bookWork loads = w) (hclear : Clear w.1 w.2) : d.throughShare loads f = f (w.1.passTo w.2) := by
  unfold Device.throughShare
  rw [hw]
  exact Device.atInstant_clear f hclear

/-- The header of a step's area at START (R401). -/
def ServeStep.headerAt (y : ServeStep) (now : Nat) : List Byte :=
  leBytes 2 y.lanes.length ++ leBytes 1 1 ++ zeros 5 ++ leBytes 8 now ++ leBytes 8 y.entries ++ zeros 40

/-- The lanes of a phase are as the engines left them, the step enters the next phase, and its bell rings. -/
def Device.phaseDone (d : Device) (p : Nat) (y : ServeStep) (lanes : List Lane) (ph : StepPhase) (bell : Nat) : Device :=
  let d1 := (d.updStep p fun z => { z with lanes := lanes }).enterPhase p y ph
  d1.ringThrough p y.cfg.stepDie (64 * y.cfg.leadBlock + bell) 1 (d1.engineSource y.cfg 0)

section
variable {x : Paddock} {y : ServeStep} {more : List ServeStep} {w : Device × Nat} {r : Device × List Lane × Option Report}

theorem Device.stepStart_sound (hx : d.paddock p = some x) (hsteps : (d.serving p).steps = y :: more)
    (hphase : y.phase = .queued) (hlate : y.deadline ≠ 0 → d.now ≤ y.deadline)
    (hw : d.bookWork (y.loads fun i _ => startBytes i) = w) (hclear : Clear w.1 w.2)
    (hr : Device.eachLane p y (fun l _ => recordRange x l) (fun d i l => d.startLane p x y i l) 0 y.lanes
      (((w.1.passTo w.2).updStep p fun z => { z with phase := .start }).store y.cfg.area (y.headerAt d.now)) = r)
    (hsound : r.2.2 = none) : d.stepStart p = r.1.phaseDone p y r.2.1 .draft y.cfg.startBell := by
  have hqueued : ¬ y.phase ≠ .queued := not_not_intro hphase
  have htime : ¬ (y.deadline ≠ 0 ∧ y.deadline < d.now) := fun h => Nat.not_le.2 h.2 (hlate h.1)
  unfold Device.stepStart
  rw [hx, hsteps]
  refine (if_neg hqueued).trans ((if_neg htime).trans ((Device.throughShare_clear _ hw hclear).trans ?_))
  unfold ServeStep.headerAt at hr
  dsimp only
  rw [hr, hsound]
  rfl

theorem Device.stepMask_sound {d1 : Device} (hsteps : (d.serving p).steps = y :: more) (hphase : y.phase = .draft)
    (hbell : d.takeBell p (d.stepBell p y.cfg y.cfg.draftBell) = some d1) (hw : d1.bookWork (y.loads (d1.maskBytes y)) = w)
    (hclear : Clear w.1 w.2) {d0 : Device} (hd0 : (w.1.passTo w.2).enterPhase p y .mask = d0)
    (hr : Device.eachLane p y (d0.maskReads p y) (fun d i l => d.maskLane p y i l) 0 y.lanes d0 = r) (hsound : r.2.2 = none) :
    d.stepMask p = r.1.phaseDone p y r.2.1 .main y.cfg.maskBell := by
  have hdraft : ¬ y.phase ≠ .draft := not_not_intro hphase
  unfold Device.stepMask
  rw [hsteps]
  refine (if_neg hdraft).trans ?_
  rw [hbell]
  refine (Device.throughShare_clear _ hw hclear).trans ?_
  dsimp only
  rw [hd0, hr, hsound]
  rfl

theorem Device.stepSample_sound {d1 : Device} (hx : d.paddock p = some x) (hsteps : (d.serving p).steps = y :: more)
    (hphase : y.phase = .main) (hbell : d.takeBell p (d.stepBell p y.cfg y.cfg.sampleBell) = some d1)
    (hw : d1.bookWork (y.loads fun _ l => y.sampleBytes l) = w) (hclear : Clear w.1 w.2) {d0 : Device}
    (hd0 : (w.1.passTo w.2).enterPhase p y .sample = d0)
    (hr : Device.eachLane p y (d0.sampleReads p y) (fun d _ l => (d, l)) 0 y.lanes d0 = r) (hsound : r.2.2 = none) :
    d.stepSample p =
      let v := Device.sampleLanes p x y 0 y.lanes r.1
      v.1.endStep p y resOk (v.2.1 + 2 ^ 32 * v.2.2) := by
  have hmain : ¬ y.phase ≠ .main := not_not_intro hphase
  unfold Device.stepSample
  rw [hx, hsteps]
  refine (if_neg hmain).trans ?_
  rw [hbell]
  refine (Device.throughShare_clear _ hw hclear).trans ?_
  dsimp only
  rw [hd0, hr, hsound]

theorem Device.stepDeadline_at (hlate : d.lateStep p = some y) (hdecided : Decided d y.deadline) (hnow : d.now ≤ y.deadline) :
    d.stepDeadline p = ((d.passTo y.deadline).endStep p y resTimedOut y.deadline).advanceTo (y.deadline + 1) := by
  simp only [Device.stepDeadline, hlate, Device.atDeadline_clear _ hdecided, Device.passTo_now, Nat.max_eq_right hnow]

end

/-! ### Page selections -/

theorem Device.selectDone_at {n : Nat} {x : Selecting} {rest : List Selecting}
    (hselecting : d.service.selecting[n]? = some (x :: rest)) (hclear : Clear d x.ends) : d.selectDone n =
    (((d.passTo x.ends).mapService fun s => { s with selecting := s.selecting.setIfInBounds n rest }).startSelect n).endSelect n
      x := by
  simp only [Device.selectDone, hselecting, Option.getD_some, Device.atInstant_clear _ hclear]

theorem Device.endSelect_sound {n : Nat} {x : Selecting} {r : Ring} {c : ServeConfig} (hr : d.ring x.ring = some r)
    (hc : (d.serving r.paddock).cfg = some c) {read : Device × Option Report}
    (hread : d.checkedRead (fieldU64 x.bytes 24) (selQueryBytes x.bytes c) (d.src (srcRegion n 4)) r.paddock = read)
    (hsound : read.2 = none) : d.endSelect n x =
      let w := read.1.writeOutputs x.bytes c
      w.1.perform [.done x.ring x.index resOk 0 w.2] := by
  simp only [Device.endSelect, hr, hc, hread, hsound]

/-! ### Codebook builds -/

@[simp] theorem Device.passTo_book (t slot : Nat) : (d.passTo t).book p slot = d.book p slot := by
  simp [Device.book]

/-- Without an armed injection a read leaves the device as it was. -/
theorem Device.checkedRead_calm (h : d.faults.injection = none) (a n source q : Nat) : (d.checkedRead a n source q).1 = d := by
  unfold Device.checkedRead Device.injected
  rw [h]
  split <;> rfl

theorem Device.endBuild_sound {slot : Nat} {m : Master} {q : Nat} {b : List Byte}
    (hbuild : (d.book p slot).build = some (m, q, b)) : d.endBuild p slot none =
      let made := buildRecord (fieldU8 b 2) (fieldU8 b 3) (fieldU32 b 4) (d.load (fieldU64 b 8) (rawBlock * fieldU32 b 4))
      (d.putBook p slot { state := .ready, generation := fieldU8 b 3, record := made, since := d.now }).respond (pathOf m q)
        { payload := made } := by
  simp only [Device.endBuild, hbuild]

/-- A build whose sample reads without error is done when its last read has ended (R248). -/
theorem Device.codebookDone_sound {slot t : Nat} {m : Master} {q : Nat} {b : List Byte} (ht : (d.book p slot).ends = t)
    (hbuild : (d.book p slot).build = some (m, q, b)) (hclear : Clear d t) {r : Device × Option Report}
    (hr : (d.passTo t).checkedRead (fieldU64 b 8) (rawBlock * fieldU32 b 4) ((d.passTo t).bookBaler (fieldU64 b 8)) 0xFF = r)
    (hsound : r.2 = none) : d.codebookDone p slot = (r.1.endBuild p slot none).restRegions := by
  subst ht
  simp only [Device.codebookDone, hbuild, Device.atInstant_clear _ hclear, hr, hsound]

/-! ### The deadline of a pull -/

theorem Device.pullDeadline_at {r : Nat} {o : Offer} (ho : Table.find d.service.offers r = some o) (hopen : o.retags = none)
    (hdecided : Decided d o.deadline) :
    d.pullDeadline r = ((d.passTo o.deadline).revertOffer r o).advanceTo (o.deadline + 1) := by
  simp only [Device.pullDeadline, ho, hopen, Option.isSome_none, Bool.false_eq_true, if_false, Device.atDeadline_clear _ hdecided,
    Device.passTo_service_offers]

end

/-- Settles O55. -/
theorem serviceEvents : Obligations.ServiceEvents := by
  unfold Obligations.ServiceEvents
  intro s
  refine ⟨fun p x y more hx hsteps => ⟨?_, ?_, ?_⟩, fun p y hlate hdecided hnow =>
    exec_decided rfl (Device.stepDeadline_at hlate hdecided hnow), ?_, ?_,
    fun r o ho hopen hdecided => exec_decided rfl (Device.pullDeadline_at ho hopen hdecided)⟩
  · intro hphase hlate w d0 header r hclear hsound
    exact exec_on rfl (Device.stepStart_sound hx hsteps hphase hlate rfl hclear rfl hsound)
  · intro d1 hphase hbell w d0 r hclear hsound
    exact exec_on rfl (Device.stepMask_sound hsteps hphase hbell rfl hclear rfl rfl hsound)
  · intro d1 hphase hbell w d0 r hclear hsound
    exact exec_on rfl (Device.stepSample_sound hx hsteps hphase hbell rfl hclear rfl rfl hsound)
  · intro n x rest hselecting hclear d r c hr hc read hsound
    exact exec_on rfl ((Device.selectDone_at hselecting hclear).trans (Device.endSelect_sound hr hc rfl hsound))
  · intro p n m q b t d count a r made hbuild hclear hcalm hsound
    have hdone := Device.codebookDone_sound rfl hbuild hclear rfl hsound
    have hbook : (r.1.book p.val n.val).build = some (m, q, b) := by
      rw [Device.checkedRead_calm hcalm, Device.passTo_book, hbuild]
    have hnow : r.1.now = d.now := by rw [Device.checkedRead_calm hcalm]
    refine exec_on rfl (hdone.trans (congrArg Device.restRegions ((Device.endBuild_sound hbook).trans ?_)))
    rw [hnow]

end Sys2Proof.Machine
end

section
/-! PROOF. Messages of a drove that its source, its receivers and its holders accept. -/

namespace Sys2Proof.Machine

/-- The first byte of a typed payload is its type. -/
theorem fieldU8_typed {k : Nat} (hk : k < 256) (f : Frame) : fieldU8 (typed k f).payload 0 = k := by
  have hbyte : bytesAt (typed k f).payload 0 1 = [BitVec.ofNat 8 k] := rfl
  unfold fieldU8
  rw [hbyte]
  simp [leValue, BitVec.toNat_ofNat, Nat.mod_eq_of_lt hk]

/-- The type of a drove message of its row is the row's. -/
theorem droveMsgOf_typed {k : Nat} (hk : k < 256) (f : Frame) : (droveMsgOf (typed k f).payload).type = k := fieldU8_typed hk f

/-- A drove message of its row, from a member of the maps, has the effect of its type. -/
theorem exec_drove {i : Instr} {s : State} {link : Fin 64} {f : Frame} {c q : Conn} {k : Nat} {d' : Device} (hk : k < 256)
    (hrow : exec i s = .next (s.on (·.receive link 0x23 (typed k f)))) (h : Fresh s link 0x23 (typed k f) c)
    (hq : (s.seen link 0x23 (typed k f) c).conn f.conn.toNat = some q)
    (hmap : (s.seen link 0x23 (typed k f) c).pairInMap ((s.seen link 0x23 (typed k f) c).foldNumber q.paddock) q.peer
      q.peerPaddock = true)
    (heffect : (droveMsgOf (typed k f).payload).type = k →
      (s.seen link 0x23 (typed k f) c).droveEffect f.conn.toNat (droveMsgOf (typed k f).payload) s.dev.now = d') :
    exec i s = .next (s.streamed link 0x23 (typed k f) c d') := by
  refine exec_fresh hrow h rfl (by decide) (by decide) ?_
  have hquiet : accessOpcode 0x23 = false := by decide
  have hconn : (s.seen link 0x23 (typed k f) c).conn (typed k f).conn.toNat = some q := hq
  have hop : (s.arrived link 0x23 (typed k f)).opcode = 0x23 := rfl
  unfold Device.acceptPacket
  simp only [hop, hquiet, Bool.false_and, Bool.false_eq_true, if_false, Device.droveMessage, hconn, hmap, if_true]
  exact heffect (droveMsgOf_typed hk f)

section
variable {d : Device} {conn now : Nat} {m : DroveMsg} {q : Conn} {r : Nat} (hq : d.conn conn = some q)
  (hr : m.record % 2 ^ 46 = r)

/-! ### At the source -/

/-- An offer whose D has not passed stands. -/
theorem Device.settleDeadline_inTime {o : Offer} (ho : Table.find d.service.offers r = some o) (htime : now ≤ o.deadline) :
    d.settleDeadline r now = d := by
  have hlate : ¬ (o.retags.isNone ∧ o.deadline < now) := fun h => Nat.not_le.2 h.2 htime
  simp only [Device.settleDeadline, ho, if_neg hlate]

section
variable {o : Offer} (ho : Table.find d.service.offers r = some o) (hopen : o.retags = none) (htime : now ≤ o.deadline)
  (hepoch : o.epoch = m.epoch)

section
variable (hnamed : (o.entryFor q false).isSome = true ∨ (o.entryFor q true).isSome = true)
include hq hr ho hopen htime hepoch hnamed

/-- A message of a receiver in the plan of a live offer at its epoch is for that offer. -/
theorem Device.withOffer_named (g : Device → Nat → Offer → Conn → Device) : d.withOffer conn m now g = g d r o q := by
  subst hr
  have hlive : ¬ (o.epoch ≠ m.epoch ∨ o.retags.isSome = true) := by simp [hepoch, hopen]
  have hplan : ((o.entryFor q false).isSome || (o.entryFor q true).isSome) = true := Bool.or_eq_true_iff.2 hnamed
  simp only [Device.withOffer, Device.settleDeadline_inTime ho htime, ho, hq, if_neg hlive, hplan, if_true]

/-- PULL_PAGES has the range of its plan entry served (R277). -/
theorem Device.droveEffect_pullPages {e : PlanEntry} (hentry : o.pagesEntry q = some e) (hcount : m.count = 0)
    (hmatch : d.pullMismatch o.paddock r o.epoch q = 0) (hshadow : e.record = false ∨ bitOf m.flags 0 = false)
    (htype : m.type = 1) : d.droveEffect conn m now =
      d.serveSets o.paddock (d.recTable r) e.first e.count (d.ringClass o.ring) r (q.peer, q.peerPaddock) o.epoch
        (d.src (droveSource o.ring)) false := by
  have hplain : (e.record && bitOf m.flags 0) = false := Bool.and_eq_false_iff.2 hshadow
  simp only [Device.droveEffect, htype, Device.gotPullPages, hq, hcount, ne_eq, not_true_eq_false, if_false,
    Device.withOffer_named hq hr ho hopen htime hepoch hnamed, hmatch, hentry, hplain, Bool.false_eq_true]

end

/-- A plan whose receiver holds its pages. -/
def Offer.marked (o : Offer) (q : Conn) (table : Nat) : Offer :=
  { o with plan := o.plan.map fun e =>
      if e.device = q.peer ∧ e.paddock = q.peerPaddock ∧ e.record = false then { e with held := table } else e }

/-- An offer changed. -/
def Device.updOffer (d : Device) (r : Nat) (g : Offer → Offer) : Device :=
  d.mapService fun s => { s with offers := Table.update s.offers r g }

theorem Device.find_updOffer {g : Offer → Offer} (ho : Table.find d.service.offers r = some o) :
    Table.find (d.updOffer r g).service.offers r = some (g o) := by
  show Table.find (Table.update d.service.offers r g) r = _
  rw [Table.find_update_self, ho]
  rfl

theorem Device.answerPullRecord_waits (ho : Table.find d.service.offers r = some o)
    (hwait : o.pullHeld = none ∨ o.allHeld = false) : d.answerPullRecord r = d := by
  unfold Device.answerPullRecord
  rw [ho]
  dsimp only
  rcases hwait with hnone | hpart
  · rw [hnone]
  · rw [hpart]
    split <;> rfl

theorem Device.answerPullRecord_held {t : Nat} (ho : Table.find d.service.offers r = some o) (ht : o.pullHeld = some t)
    (hall : o.allHeld = true) : d.answerPullRecord r = d.sendRecord r o t := by
  simp only [Device.answerPullRecord, ho, ht, hall, if_true]

/-- RECORD goes to the record receiver of the plan (R274). -/
theorem Device.sendRecord_to {t : Nat} {e : PlanEntry} (hrecord : o.recordEntry = some e) : d.sendRecord r o t =
    let old := d.recContent r
    let remotes := remotesOf old ++ (o.plan.filter fun e => !e.record).map (d.remoteOf (d.recTable r))
    let content := withRemotes (overwrite old 8 (leBytes 8 (t % 2 ^ 46) ++ zeros 8)) remotes
    (d.updOffer r fun o => { o with recordSent := true, pullHeld := none }).sendDrove o.paddock e.device e.paddock
      (d.ringClass o.ring)
      { type := 4, epoch := o.epoch, record := d.globalOf r, table := d.globalOf r, deadline := o.deadline,
        rest := content ++ leBytes 4 (crc32c content) ++ zeros 4 } := by
  simp only [Device.sendRecord, hrecord]
  rfl

section
variable (hnamed : (o.entryFor q false).isSome = true ∨ (o.entryFor q true).isSome = true)
include hq hr ho hopen htime hepoch hnamed

/-- PAGES_HELD marks its entry; a held PULL_RECORD is then answered if it may be (R274). -/
theorem Device.droveEffect_pagesHeld (htype : m.type = 2) : d.droveEffect conn m now =
    (d.updOffer r fun o => o.marked q m.table).answerPullRecord r := by
  simp only [Device.droveEffect, htype, Device.gotPagesHeld, Device.withOffer_named hq hr ho hopen htime hepoch hnamed]
  rfl

end

/-- PULL_RECORD is held, and answered if it may be (R274). -/
theorem Device.droveEffect_pullRecord (hq : d.conn conn = some q) (hr : m.record % 2 ^ 46 = r)
    (ho : Table.find d.service.offers r = some o) (hopen : o.retags = none) (htime : now ≤ o.deadline)
    (hepoch : o.epoch = m.epoch) (hrecord : (o.entryFor q true).isSome = true) (htype : m.type = 3) :
    d.droveEffect conn m now = (d.updOffer r fun o => { o with pullHeld := some m.table }).answerPullRecord r := by
  obtain ⟨e, he⟩ := Option.isSome_iff_exists.1 hrecord
  simp only [Device.droveEffect, htype, Device.gotPullRecord,
    Device.withOffer_named hq hr ho hopen htime hepoch (.inr hrecord), he]
  rfl

/-- CONFIRM of the record receiver that was sent RECORD releases the source (R274, R275). -/
theorem Device.droveEffect_confirm (hq : d.conn conn = some q) (hr : m.record % 2 ^ 46 = r)
    (ho : Table.find d.service.offers r = some o) (hopen : o.retags = none) (htime : now ≤ o.deadline)
    (hepoch : o.epoch = m.epoch) (hsent : o.recordSent = true) (hrecord : (o.entryFor q true).isSome = true)
    (htype : m.type = 5) : d.droveEffect conn m now = d.releaseSource r o := by
  subst hr
  simp only [Device.droveEffect, htype, Device.gotConfirm, Device.settleDeadline_inTime ho htime, ho, hq, hepoch, hopen,
    Option.isNone_none, hsent, hrecord, and_self, if_true]

/-- RETAG_DONE takes the table of its holder off those waited for (R279). -/
theorem Device.droveEffect_retagDone (hq : d.conn conn = some q) (hr : m.record % 2 ^ 46 = r) (htype : m.type = 10) :
    d.droveEffect conn m now =
      (d.updOffer r fun o => { o with retags := o.retags.map fun l => withoutHolder l q m.table }).endOffer r := by
  subst hr
  simp only [Device.droveEffect, htype, Device.gotRetagDone, hq]
  rfl

theorem Device.endOffer_waits {l : List (Nat × Nat)} (ho : Table.find d.service.offers r = some o) (hl : o.retags = some l)
    (hleft : l ≠ []) : d.endOffer r = d := by
  have hno : ¬ o.retags = some [] := by simp [hl, hleft]
  simp only [Device.endOffer, ho, if_neg hno]

theorem Device.endOffer_done (ho : Table.find d.service.offers r = some o) (hl : o.retags = some []) :
    d.endOffer r = (((d.dropOffer r o true).tellReceivers r o 6).updMeter o.paddock fun y =>
      { y with drovesOut := y.drovesOut + 1 }).perform
        [.done o.ring o.index resOk 0 (2 ^ 32 * (o.epoch + 1) + (if o.lost then 256 else 0))] := by
  simp only [Device.endOffer, ho, hl, if_true]

end

section
variable {y : Release}

/-- A release whose holder's table has been freed. -/
def Device.updRelease (d : Device) (r : Nat) (g : Release → Release) : Device :=
  d.mapService fun s => { s with releases := Table.update s.releases r g }

theorem Device.find_updRelease {g : Release → Release} (hy : Table.find d.service.releases r = some y) :
    Table.find (d.updRelease r g).service.releases r = some (g y) := by
  show Table.find (Table.update d.service.releases r g) r = _
  rw [Table.find_update_self, hy]
  rfl

/-- RELEASE_DONE takes the table of its holder off those waited for (R286). -/
theorem Device.droveEffect_releaseDone (hq : d.conn conn = some q) (hr : m.record % 2 ^ 46 = r) (htype : m.type = 12) :
    d.droveEffect conn m now =
      (d.updRelease r fun y => { y with waiting := withoutHolder y.waiting q m.table }).endRelease r := by
  subst hr
  simp only [Device.droveEffect, htype, Device.gotReleaseDone, hq]
  rfl

theorem Device.endRelease_waits (hy : Table.find d.service.releases r = some y) (hleft : y.waiting ≠ []) :
    d.endRelease r = d := by
  have hno : ¬ y.waiting.isEmpty = true := by simpa using hleft
  simp only [Device.endRelease, hy, if_neg hno]

theorem Device.endRelease_done {e : Nat × Nat} (hy : Table.find d.service.releases r = some y) (hdone : y.waiting = [])
    (hring : y.ring = some e) : d.endRelease r =
      ((d.mapService fun s => { s with releases := Table.del s.releases r }).setRecState r 4 false).perform
        [.done e.1 e.2 resOk 0 (if y.lost then droveHolderLost else 0)] := by
  simp only [Device.endRelease, hy, hdone, List.isEmpty_nil, if_true, hring]

end

/-! ### At a receiver -/

section
variable {x : Pull}

/-- RECORD whose CRC fits is written as the copy, with the D it brings (R274). -/
theorem Device.droveEffect_record (hx : (d.pullsFor conn m).find? (fun x => decide (x.mode = 0)) = some x) (hopen : x.done = false)
    (hfirst : x.retryAt = none) (hcrc : fieldU32 m.rest 184 = crc32c (padTo 184 m.rest)) (htype : m.type = 4) :
    d.droveEffect conn m now = d.writeCopy { x with deadline := m.deadline } (padTo 184 m.rest) := by
  simp only [Device.droveEffect, htype, Device.gotRecord, hx, hopen, Bool.false_eq_true, if_false, hcrc, if_true, hfirst]

theorem Device.droveEffect_released (hx : (d.pullsFor conn m).filter (·.done) = [x]) (htype : m.type = 6) :
    d.droveEffect conn m now = d.releasePull x := by
  simp only [Device.droveEffect, htype, Device.gotReleased, hx, List.foldl_cons, List.foldl_nil]

theorem Device.releasePull_record (hmode : x.mode = 0) (howned : (d.dropPull x).recState x.record = 1)
    (hsettling : (d.dropPull x).settling x.record = true) : d.releasePull x =
      (((d.dropPull x).setRecState x.record 1 false).updDrove x.paddock fun y =>
        { y with unsettled := y.unsettled.filter fun z => decide (z ≠ x.record) }).resumeDroves := by
  have hpages : ¬ (x.mode = 1 ∧ (d.dropPull x).tableEpoch x.table = x.epoch) := fun h => by
    have := h.1
    omega
  unfold Device.releasePull
  exact (if_neg hpages).trans (if_pos ⟨hmode, howned, hsettling⟩)

theorem Device.releasePull_pages (hmode : x.mode = 1) (hepoch : (d.dropPull x).tableEpoch x.table = x.epoch) :
    d.releasePull x = (d.dropPull x).setTableEpoch x.table (x.epoch + 1) := by
  unfold Device.releasePull
  exact if_pos ⟨hmode, hepoch⟩

/-- ABORT discards what the pull received (R276). -/
theorem Device.droveEffect_abort (hx : d.pullsFor conn m = [x]) (htype : m.type = 7) :
    d.droveEffect conn m now = d.endPull x droveAborted := by
  simp only [Device.droveEffect, htype, Device.gotAbort, hx, List.foldl_cons, List.foldl_nil]

/-- REFUSE ends a pull in progress with its code (R278). -/
theorem Device.droveEffect_refuse (hx : (d.pullsFor conn m).filter (fun x => !x.done) = [x]) (htype : m.type = 8) :
    d.droveEffect conn m now = d.endPull x m.code := by
  simp only [Device.droveEffect, htype, Device.gotRefuse, hx, List.foldl_cons, List.foldl_nil]

theorem Device.endPull_open {code : Nat} (hopen : x.done = false) : d.endPull x code =
    (((d.freeTable x.paddock x.table (droveSource x.ring)).freeTable x.paddock x.shadow (droveSource x.ring)).dropPull
      x).resumeDroves.perform [.done x.ring x.index resConflict 0 code] := by
  simp only [Device.endPull, Device.discardPull, hopen, Bool.false_eq_true, and_false, if_false]

end

/-! ### At a holder -/

section
variable (hq : d.conn conn = some q) (hnew : d.answeredBefore q m = none)
include hq hnew

/-- RETAG takes a table at e to e + 1, and answers whether it did (R280). -/
theorem Device.droveEffect_retag (htype : m.type = 9) : d.droveEffect conn m now =
    let hit := d.tableCovered q.paddock (m.table % 2 ^ 46) && decide (d.tableEpoch (m.table % 2 ^ 46) = m.epoch)
    ((if hit then d.setTableEpoch (m.table % 2 ^ 46) (m.epoch + 1) else d).keepAnswer q m (b2n hit)).answerDrove conn
      { type := 0x0A, flags := b2n hit, epoch := m.epoch, record := m.record, table := m.table, deadline := m.deadline } := by
  simp only [Device.droveEffect, htype, Device.gotRetag, hq, hnew]

/-- RELEASE_PAGES frees a table at its epoch, and answers any other with WRONG_EPOCH (R286). -/
theorem Device.droveEffect_releasePages (htype : m.type = 11) : d.droveEffect conn m now =
    if d.tableCovered q.paddock (m.table % 2 ^ 46) && decide (d.tableEpoch (m.table % 2 ^ 46) = m.epoch ∧ m.epoch ≠ 0) then
      (((if bitOf m.flags 0 then d.unpinNode q.paddock m.first else d).freeTable q.paddock (m.table % 2 ^ 46)
        (srcTier 0 0)).keepAnswer q m 0).answerDrove conn
          { type := 0x0C, code := 0, epoch := m.epoch, record := m.record, table := m.table }
    else (d.keepAnswer q m droveWrongEpoch).answerDrove conn
      { type := 0x0C, code := droveWrongEpoch, epoch := m.epoch, record := m.record, table := m.table } := by
  simp only [Device.droveEffect, htype, Device.gotReleasePages, hq, hnew]

end

end

/-- Settles O40: `exec_drove` brings each message to the effect of its type. -/
theorem droveFrames : Obligations.DroveFrames := by
  unfold Obligations.DroveFrames
  intro s link f c q
  refine ⟨?_, ?_, ?_, ?_, ?_, ?_, ?_, ?_, ?_, ?_, ?_, ?_, ?_, ?_, ?_, ?_, ?_, ?_⟩
  · intro o e h d m r hq hmap ho hopen htime hepoch hnamed hentry hcount hmatch hshadow
    exact exec_drove (by decide) rfl h hq hmap
      (Device.droveEffect_pullPages hq rfl ho hopen htime hepoch hnamed hentry hcount hmatch hshadow)
  · intro o h d m r hq hmap o' ho hopen htime hepoch hnamed hwait
    exact exec_drove (by decide) rfl h hq hmap fun htype =>
      (Device.droveEffect_pagesHeld hq rfl ho hopen htime hepoch hnamed htype).trans
        (Device.answerPullRecord_waits (Device.find_updOffer ho) hwait)
  · intro o t h d m r hq hmap o' ho hopen htime hepoch hnamed ht hall
    exact exec_drove (by decide) rfl h hq hmap fun htype =>
      (Device.droveEffect_pagesHeld hq rfl ho hopen htime hepoch hnamed htype).trans
        (Device.answerPullRecord_held (Device.find_updOffer ho) ht hall)
  · intro o h d m r hq hmap ho hopen htime hepoch hrecord hpart
    exact exec_drove (by decide) rfl h hq hmap fun htype =>
      (Device.droveEffect_pullRecord hq rfl ho hopen htime hepoch hrecord htype).trans
        (Device.answerPullRecord_waits (Device.find_updOffer ho) (.inr hpart))
  · intro o e h d m r hq hmap ho hopen htime hepoch hentry hrecord hall
    refine exec_drove (by decide) rfl h hq hmap fun htype =>
      (Device.droveEffect_pullRecord hq rfl ho hopen htime hepoch (Option.isSome_of_eq_some hentry) htype).trans
        ((Device.answerPullRecord_held (o := { o with pullHeld := some m.table }) (Device.find_updOffer ho) rfl hall).trans
          (Device.sendRecord_to hrecord))
  · intro o h d m r hq hmap ho hopen htime hepoch hsent hrecord
    refine exec_drove (by decide) rfl h hq hmap fun htype =>
      (Device.droveEffect_confirm hq rfl ho hopen htime hepoch hsent hrecord htype).trans ?_
    unfold Device.releaseSource
    rfl
  · intro o l h d m r hq hmap ho hl hleft
    exact exec_drove (by decide) rfl h hq hmap fun htype =>
      (Device.droveEffect_retagDone hq rfl htype).trans (Device.endOffer_waits
        (o := { o with retags := o.retags.map fun l => withoutHolder l q m.table }) (Device.find_updOffer ho)
        (by rw [hl]; rfl) hleft)
  · intro o l h d m r hq hmap ho hl hdone
    exact exec_drove (by decide) rfl h hq hmap fun htype =>
      (Device.droveEffect_retagDone hq rfl htype).trans (Device.endOffer_done
        (o := { o with retags := o.retags.map fun l => withoutHolder l q m.table }) (Device.find_updOffer ho)
        (by rw [hl, ← hdone]; rfl))
  · intro y h d m r hq hmap hy hleft
    exact exec_drove (by decide) rfl h hq hmap fun htype =>
      (Device.droveEffect_releaseDone hq rfl htype).trans (Device.endRelease_waits
        (y := { y with waiting := withoutHolder y.waiting q m.table }) (Device.find_updRelease hy) hleft)
  · intro y e h d m r hq hmap hy hdone hring
    exact exec_drove (by decide) rfl h hq hmap fun htype =>
      (Device.droveEffect_releaseDone hq rfl htype).trans (Device.endRelease_done
        (y := { y with waiting := withoutHolder y.waiting q m.table }) (Device.find_updRelease hy) hdone hring)
  · intro x h d m hq hmap hx hopen hfirst hcrc
    exact exec_drove (by decide) rfl h hq hmap (Device.droveEffect_record hx hopen hfirst hcrc)
  · intro x h d m hq hmap hx hmode howned hsettling
    exact exec_drove (by decide) rfl h hq hmap fun htype =>
      (Device.droveEffect_released hx htype).trans (Device.releasePull_record hmode howned hsettling)
  · intro x h d m hq hmap hx hmode hepoch
    exact exec_drove (by decide) rfl h hq hmap fun htype =>
      (Device.droveEffect_released hx htype).trans (Device.releasePull_pages hmode hepoch)
  · intro x h d m hq hmap hx
    exact exec_drove (by decide) rfl h hq hmap (Device.droveEffect_abort hx)
  · intro x h d m hq hmap hx
    have hopen : x.done = false := by
      have hmem : x ∈ (d.pullsFor f.conn.toNat m).filter (fun x => !x.done) := hx ▸ List.mem_singleton_self x
      simpa using (List.mem_filter.1 hmem).2
    exact exec_drove (by decide) rfl h hq hmap fun htype =>
      (Device.droveEffect_refuse hx htype).trans (Device.endPull_open hopen)
  · intro h d m hq hmap hnew
    exact exec_drove (by decide) rfl h hq hmap (Device.droveEffect_retag hq hnew)
  · intro h d m hq hmap hnew hcovered hepoch hlive
    exact exec_drove (by decide) rfl h hq hmap fun htype => (Device.droveEffect_releasePages hq hnew htype).trans
      (if_pos (Bool.and_eq_true_iff.2 ⟨hcovered, decide_eq_true ⟨hepoch, hlive⟩⟩))
  · intro h d m hq hmap hnew hother
    refine exec_drove (by decide) rfl h hq hmap fun htype => (Device.droveEffect_releasePages hq hnew htype).trans (if_neg ?_)
    simp only [Bool.and_eq_true, decide_eq_true_eq, not_and, ne_eq, Decidable.not_not]
    intro hcovered hepoch
    rcases hother with hopen | hstale | hzero
    · rw [hopen] at hcovered
      cases hcovered
    · exact absurd hepoch hstale
    · exact hzero

end Sys2Proof.Machine
end
section
/-! PROOF. Acknowledging a connection's packets leaves the Tally as it is (R321): nothing that follows from it moves time. -/

namespace Sys2Proof.Machine

variable (d : Device)

/-- A fold whose steps leave the Tally leaves it. -/
theorem Device.foldl_tally {α : Type} {f : Device → α → Device} (h : ∀ d x, (f d x).tally = d.tally) (l : List α)
    (d : Device) :
    (l.foldl f d).tally = d.tally := by
  induction l generalizing d with
  | nil => rfl
  | cons x l ih => exact (ih _).trans (h d x)

/-! ### Faults, mailboxes and links -/

@[simp] theorem Device.recordBytes_tally (bs : List Byte) : (d.recordBytes bs).tally = d.tally := by
  unfold Device.recordBytes Device.mirrorRecord Device.storeLe
  dsimp only
  repeat' split
  all_goals simp

@[simp] theorem Device.runCredits_tally (l : Nat) : (d.runCredits l).tally = d.tally := rfl

@[simp] theorem Device.enqueue_tally (l : Nat) (out : OutFrame) (conn : Option Nat) (seqOf : Option (Nat × Nat)) (dei : Bool) :
    (d.enqueue l out conn seqOf dei).tally = d.tally := rfl

@[simp] theorem Device.sendOn_tally (id opcode cls psn : Nat) (ext payload : List Byte) (flags : BitVec 16) :
    (d.sendOn id opcode cls psn ext payload flags).tally = d.tally := by
  unfold Device.sendOn
  split
  · rfl
  · dsimp only
    split <;> simp

@[simp] theorem Device.signalDone_tally (m : Master) : (d.signalDone m).tally = d.tally := by
  unfold Device.signalDone
  dsimp only
  repeat' split
  all_goals rfl

@[simp] theorem Device.updBox_tally (p : Path) (f : Mailbox → Mailbox) : (d.updBox p f).tally = d.tally := rfl

@[simp] theorem Device.deliver_tally (p : Path) (resp rest : List Byte) : (d.deliver p resp rest).tally = d.tally := by
  unfold Device.deliver
  dsimp only
  repeat' split
  all_goals simp

@[simp] theorem Device.respond_tally (p : Path) (r : Reply) : (d.respond p r).tally = d.tally :=
  Device.deliver_tally _ _ _ _

/-! ### Paddocks and blocks -/

@[simp] theorem Device.setDevState_tally (s : DevState) : (d.setDevState s).tally = d.tally := by
  unfold Device.setDevState
  split <;> rfl

@[simp] theorem Device.settleState_tally : d.settleState.tally = d.tally := by
  unfold Device.settleState
  repeat' split
  all_goals simp

@[simp] theorem Device.setPaddockState_tally (p : Nat) (s : PaddockState) (tag : Nat) :
    (d.setPaddockState p s tag).tally = d.tally := by
  unfold Device.setPaddockState
  repeat' split
  all_goals simp

@[simp] theorem Device.startWake_tally (b : Nat) (from' : BlockPower) (ticks : Nat) :
    (d.startWake from' ticks b).tally = d.tally := by
  unfold Device.startWake
  split <;> rfl

@[simp] theorem Device.rouse_tally (b : Nat) : (d.rouse b).tally = d.tally := Device.startWake_tally _ _ _ _

@[simp] theorem Device.takeBlocks_tally (p : Nat) : (d.takeBlocks p).tally = d.tally := by
  unfold Device.takeBlocks
  exact (Device.foldl_tally Device.rouse_tally _ _).trans (Device.setPaddockState_tally _ _ _ _)

@[simp] theorem Device.takeInOrder_tally (reserved : BitVec 1024) (ws : List (Nat × Paddock)) (d : Device) :
    (d.takeInOrder reserved ws).tally = d.tally := by
  induction ws generalizing d reserved with
  | nil => rfl
  | cons w ws ih =>
    unfold Device.takeInOrder
    split
    · exact (ih _ _).trans (d.takeBlocks_tally _)
    · exact ih _ _

@[simp] theorem Device.mapThreadsOf_tally (p : Nat) (f : Thread → Thread) : (d.mapThreadsOf p f).tally = d.tally := by
  unfold Device.mapThreadsOf
  split
  · rfl
  · exact Device.foldl_tally (fun d b => d.updBlock_tally b _) _ _

@[simp] theorem Device.stopThreads_tally (p : Nat) : (d.stopThreads p).tally = d.tally := d.mapThreadsOf_tally _ _

@[simp] theorem Device.beginPreempt_tally (p : Nat) (mode : PreemptMode) (escalateAt : Option Nat) (toHeld : Bool)
    (waiter : Option (Master × Nat)) : (d.beginPreempt p mode escalateAt toHeld waiter).tally = d.tally := by
  unfold Device.beginPreempt
  dsimp only
  split <;> simp

@[simp] theorem Device.escalate_tally (p : Nat) : (d.escalate p).tally = d.tally := by
  unfold Device.escalate
  repeat' split
  all_goals simp

@[simp] theorem Device.clearBlock_tally (b : Nat) : (d.clearBlock b).tally = d.tally := rfl

@[simp] theorem Device.clearBlocksOf_tally (p : Nat) : (d.clearBlocksOf p).tally = d.tally := by
  unfold Device.clearBlocksOf
  split
  · rfl
  · exact Device.foldl_tally (fun d b => (Device.rouse_tally _ b).trans (d.clearBlock_tally b)) _ _

@[simp] theorem Device.considerPreempt_tally (w o : Nat × Paddock) : (d.considerPreempt w o).tally = d.tally := by
  unfold Device.considerPreempt
  dsimp only
  repeat' split
  all_goals simp

@[simp] theorem Device.askOccupants_tally (w : Nat × Paddock) : (d.askOccupants w).tally = d.tally :=
  Device.foldl_tally (fun d o => d.considerPreempt_tally w o) _ _

@[simp] theorem Device.schedule_tally : d.schedule.tally = d.tally :=
  (Device.takeInOrder_tally _ _ _).trans
    ((Device.foldl_tally Device.askOccupants_tally _ _).trans (Device.takeInOrder_tally _ _ _))

@[simp] theorem Device.settleDemand_tally (p : Nat) : (d.settleDemand p).tally = d.tally := by
  unfold Device.settleDemand
  dsimp only
  repeat' split
  all_goals simp

/-! ### Connections that end -/

@[simp] theorem Device.connEvent_tally (c : Nat) (x : Conn) (code : Nat) : (d.connEvent c x code).tally = d.tally := by
  unfold Device.connEvent
  dsimp only
  split <;> simp

@[simp] theorem Device.closeIfDrained_tally (c : Nat) : (d.closeIfDrained c).tally = d.tally := by
  unfold Device.closeIfDrained Device.connIdle
  repeat' split
  all_goals simp

/-! ### Bells, doorbells and the worklist -/

@[simp] theorem Device.traced_tally (kind object value aux paddock source : Nat) :
    (d.traced kind object value aux paddock source).tally = d.tally := by
  unfold Device.traced
  dsimp only
  repeat' split
  all_goals rfl

@[simp] theorem Device.setBell_tally (p bell : Nat) (v : Bell) : (d.setBell p bell v).tally = d.tally := by
  unfold Device.setBell Device.setBlockBell Device.setNetBell
  dsimp only
  repeat' split
  all_goals simp

@[simp] theorem Device.releaseWaiters_tally (p bell source : Nat) (ws : List (Nat × Nat)) (value : Nat) (d : Device) :
    (d.releaseWaiters p bell source ws value).1.tally = d.tally := by
  induction ws generalizing d value with
  | nil => rfl
  | cons w ws ih =>
    refine (ih _ _).trans ?_
    dsimp only
    repeat' split
    all_goals simp

@[simp] theorem Device.examine_tally (p bell source : Nat) : (d.examine p bell source).1.tally = d.tally := by
  unfold Device.examine
  dsimp only
  split
  · rfl
  · exact (Device.releaseWaiters_tally _ _ _ _ _ _).trans (d.setBell_tally _ _ _)

@[simp] theorem Device.postDoorbell_tally (q word source : Nat) : (d.postDoorbell q word source).tally = d.tally := by
  unfold Device.postDoorbell
  repeat' split
  all_goals simp

@[simp] theorem Device.kick_tally (netBell source : Nat) : (d.kick netBell source).tally = d.tally := by
  refine Device.foldl_tally (fun d e => ?_) _ _
  dsimp only
  split
  · exact Device.postDoorbell_tally _ _ _ _
  · rfl

@[simp] theorem Device.applyRing_tally (p bell inc source : Nat) : (d.applyRing p bell inc source).1.tally = d.tally := by
  unfold Device.applyRing
  dsimp only
  repeat' split
  all_goals simp

@[simp] theorem Device.applyDone_tally (q index result code detail : Nat) :
    (d.applyDone q index result code detail).1.tally = d.tally := by
  unfold Device.applyDone
  dsimp only
  repeat' split
  all_goals simp

@[simp] theorem Device.dropSteps_tally (p : Nat) : (d.dropSteps p).tally = d.tally := by
  unfold Device.dropSteps
  dsimp only
  split <;> simp

@[simp] theorem Device.endLoads_tally (p : Nat) : (d.endLoads p).tally = d.tally := rfl

@[simp] theorem Device.sendLoose_tally (links : List Nat) (opcode cls dst : Nat) (payload : List Byte) :
    (d.sendLoose links opcode cls dst payload).tally = d.tally := by
  unfold Device.sendLoose
  dsimp only
  split <;> simp

@[simp] theorem Device.notifyPeers_tally (p kind : Nat) (record : List Byte) : (d.notifyPeers p kind record).tally = d.tally := by
  refine Device.foldl_tally (fun d c => ?_) _ _
  dsimp only
  split
  · rfl
  · exact Device.sendLoose_tally _ _ _ _ _ _

@[simp] theorem Device.applyFault_tally (r : Report) (p stamp : Nat) : (d.applyFault r p stamp).1.tally = d.tally := by
  unfold Device.applyFault
  dsimp only
  repeat' split
  all_goals simp

theorem Device.doWork_tally (w : Work) : (d.doWork w).1.tally = d.tally := by
  cases w with
  | ring => exact Device.applyRing_tally _ _ _ _ _
  | done => exact Device.applyDone_tally _ _ _ _ _ _
  | fault => exact Device.applyFault_tally _ _ _ _

theorem Device.runWork_tally (fuel : Nat) (ws : List Work) (d : Device) : (Device.runWork fuel ws d).tally = d.tally := by
  induction fuel generalizing ws d with
  | zero => rfl
  | succ fuel ih =>
    cases ws with
    | nil => rfl
    | cons w ws => exact (ih _ _).trans (d.doWork_tally w)

@[simp] theorem Device.perform_tally (ws : List Work) : (d.perform ws).tally = d.tally := Device.runWork_tally _ _ _

/-! ### Packets that leave -/

@[simp] theorem Device.police_tally (l : Nat) (out : OutFrame) (conn psn : Nat) (ring : Option Nat) :
    (d.police l out conn psn ring).tally = d.tally := by
  unfold Device.police
  dsimp only
  repeat' split
  all_goals simp

@[simp] theorem Device.release_tally (id : Nat) (c : Conn) (t : TxPacket) : (d.release id c t).tally = d.tally := by
  unfold Device.release
  dsimp only
  split <;> simp

@[simp] theorem Device.pumpN_tally (fuel id : Nat) (d : Device) : (Device.pumpN fuel id d).tally = d.tally := by
  induction fuel generalizing d with
  | zero => rfl
  | succ fuel ih =>
    unfold Device.pumpN
    repeat' split
    all_goals simp [ih]

@[simp] theorem Device.fetchContext_tally (id : Nat) : (d.fetchContext id).tally = d.tally := by
  unfold Device.fetchContext
  repeat' split
  all_goals rfl

@[simp] theorem Device.pump_tally (id : Nat) : (d.pump id).tally = d.tally := by
  unfold Device.pump
  repeat' split
  all_goals simp

@[simp] theorem Device.pumpAll_tally : d.pumpAll.tally = d.tally := by
  unfold Device.pumpAll
  exact Device.foldl_tally (fun d e => d.pump_tally _) _ _

@[simp] theorem Device.repair_tally (id psn : Nat) : (d.repair id psn).tally = d.tally := Device.pump_tally _ _

theorem Device.streamMoved_tally (id : Nat) (ended : Bool) : (d.streamMoved id ended).tally = d.tally := by
  unfold Device.streamMoved
  dsimp only
  split <;> simp

/-! ### What an acknowledged packet ends -/

@[simp] theorem Device.partDone_tally (ring index n bytes code : Nat) : (d.partDone ring index n bytes code).tally = d.tally := by
  unfold Device.partDone Device.updInFlight
  dsimp only
  repeat' split
  all_goals simp

@[simp] theorem Device.unhold_tally (b : Nat) : (d.unhold b).tally = d.tally := by
  unfold Device.unhold
  split
  · rfl
  · refine Device.foldl_tally (fun d t => ?_) _ _
    split <;> simp

@[simp] theorem Device.mapRemote_tally (f : List RemoteAccess → List RemoteAccess) : (d.mapRemote f).tally = d.tally := rfl

@[simp] theorem Device.dropRemote_tally (id : Nat) : (d.dropRemote id).tally = d.tally := rfl

@[simp] theorem Device.resumeThread_tally (b t : Nat) (f : Thread → Thread) : (d.resumeThread b t f).tally = d.tally := by
  unfold Device.resumeThread
  simp

@[simp] theorem Device.requestLeft_tally (a : RemoteAccess) : (d.requestLeft a).tally = d.tally := by
  unfold Device.requestLeft
  dsimp only
  split <;> simp

@[simp] theorem Device.ringOwn_tally (a : RemoteAccess) : (d.ringOwn a).tally = d.tally := by
  unfold Device.ringOwn
  split <;> simp

@[simp] theorem Device.signals_tally (p bell a n : Nat) : (d.signals p bell a n).tally = d.tally := by
  unfold Device.signals
  dsimp only
  split <;> simp

@[simp] theorem Device.undefineBuffer_tally (a n : Nat) : (d.undefineBuffer a n).tally = d.tally := by
  unfold Device.undefineBuffer
  simp

@[simp] theorem Device.remoteEffect_tally (a : RemoteAccess) (e : RemoteEnd) : (d.remoteEffect a e).tally = d.tally := by
  unfold Device.remoteEffect
  dsimp only
  repeat' split
  all_goals simp

@[simp] theorem Device.stir_tally (b : Nat) : (d.stir b).tally = d.tally := rfl

@[simp] theorem Device.endRemote_tally (id : Nat) (e : RemoteEnd) : (d.endRemote id e).tally = d.tally := by
  unfold Device.endRemote
  dsimp only
  repeat' split
  all_goals simp

@[simp] theorem Device.packetDone_tally (t : TxPacket) : (d.packetDone t).tally = d.tally := by
  unfold Device.packetDone
  split <;> simp

/-- An acknowledgement takes no time. -/
theorem Device.applyAck_tally (id : Nat) (r : AckReport) : (d.applyAck id r).tally = d.tally := by
  unfold Device.applyAck
  split
  · rfl
  · refine (Device.streamMoved_tally _ _ _).trans ?_
    refine (Device.foldl_tally (fun d psn => d.repair_tally id psn) _ _).trans ?_
    exact Device.foldl_tally Device.packetDone_tally _ _

end Sys2Proof.Machine
end

section
/-! PROOF. Answers, acknowledgements, sync frames and notes of peers as they are taken (R51, R321 to R325, R436). -/

namespace Sys2Proof.Machine

/-! ### Frames of a connection outside its stream -/

/-- A frame outside the stream that comes on a connection is taken as its opcode says. -/
theorem exec_unsequenced {i : Instr} {s : State} {link : Fin 64} {op : Nat} {f : Frame} {c0 : Conn} {d : Device}
    (hrow : exec i s = .next (s.on (·.receive link op f))) (h : Comes s link op f c0) (hseq : sequenced op = false)
    (h20 : op ≠ 0x20) (h24 : op ≠ 0x24)
    (hd : (s.headed link op f).takeUnsequenced f.conn.toNat (s.arrived link op f) = d) :
    exec i s = .next (s.on fun _ => d) := by
  have hno : ¬ sequenced op = true := by rw [hseq]; decide
  exact exec_on hrow (((Device.receive_comes h h20 h24).trans (if_neg hno)).trans hd)

section
variable {d : Device} {id link arrived : Nat} {f : Frame} {q : Conn} {t : TxPacket} (hq : d.conn id = some q)

section
variable (ht : (q.tx.find? fun t =>
  decide (t.psn = wirePsn q.ackedTo (fieldBe f.ext 0 4) ∧ t.opcode = 3) && t.wantsAnswer) = some t)
include hq ht

/-- A READ_RESP with a status refuses its request. -/
theorem Device.takeReadResp_refused (hstatus : fieldBe f.ext 8 1 ≠ 0) : d.takeReadResp id link f arrived =
    ((d.answered id (wirePsn q.ackedTo (fieldBe f.ext 0 4)) f arrived).packetRefused id t (fieldBe f.ext 8 1)).streamMoved id
      true := by
  unfold Device.takeReadResp
  simp only [hq, ht, if_pos hstatus]

/-- The last part of a read that has not come before ends its request and goes where the request wants it. -/
theorem Device.takeReadResp_last (hstatus : fieldBe f.ext 8 1 = 0)
    (hnew : (t.answered.any fun e => decide (e.1 = fieldBe f.ext 4 4)) = false)
    (hlast : fieldBe t.ext 24 4 ≤ (t.answered.map (·.2)).sum + f.payload.length) : d.takeReadResp id link f arrived =
    ((d.answered id (wirePsn q.ackedTo (fieldBe f.ext 0 4)) f arrived).readData t (fieldBe f.ext 4 4)
      (f.payload.take (fieldBe t.ext 24 4 - fieldBe f.ext 4 4)) link f arrived).streamMoved id true := by
  unfold Device.takeReadResp
  simp only [hq, ht, hstatus, ne_eq, not_true_eq_false, if_false, hnew, Bool.false_eq_true, hlast, decide_true, if_true]

end

section
variable (ht : (q.tx.find? fun t =>
  decide (t.psn = wirePsn q.ackedTo (fieldBe f.ext 0 4) ∧ t.opcode = 5) && t.wantsAnswer) = some t)
include hq ht

/-- An ATOMIC_RESP with a status refuses its request. -/
theorem Device.takeAtomicResp_refused (hstatus : fieldBe f.ext 8 1 ≠ 0) : d.takeAtomicResp id link f arrived =
    ((d.answered id (wirePsn q.ackedTo (fieldBe f.ext 0 4)) f arrived).packetRefused id t (fieldBe f.ext 8 1)).streamMoved id
      true := by
  unfold Device.takeAtomicResp
  simp only [hq, ht, if_pos hstatus]

/-- The old value of an ATOMIC descriptor enters at its destination. -/
theorem Device.takeAtomicResp_descriptor {ring index : Nat} (hstatus : fieldBe f.ext 8 1 = 0)
    (horigin : t.origin = .descriptor ring index) : d.takeAtomicResp id link f arrived =
    ((d.answered id (wirePsn q.ackedTo (fieldBe f.ext 0 4)) f arrived).descData link ring index 0 f
      (f.payload.take 8)).streamMoved id true := by
  unfold Device.takeAtomicResp
  simp only [hq, ht, hstatus, ne_eq, not_true_eq_false, if_false, horigin]

/-- The old value of a remote atomic goes to its access. -/
theorem Device.takeAtomicResp_remote {n : Nat} (hstatus : fieldBe f.ext 8 1 = 0) (horigin : t.origin = .remote n) :
    d.takeAtomicResp id link f arrived =
    ((d.answered id (wirePsn q.ackedTo (fieldBe f.ext 0 4)) f arrived).remoteResult n (f.payload.take 8) arrived).streamMoved id
      true := by
  unfold Device.takeAtomicResp
  simp only [hq, ht, hstatus, ne_eq, not_true_eq_false, if_false, horigin]

end

/-! ### Refusals -/

/-- What a NAK acknowledges by the way (R323). -/
def Conn.nakReport (q : Conn) (f : Frame) : AckReport :=
  if f.flags.getLsbD 5 then q.ackReport f.ackPsn.toNat [] else { upTo := q.ackedTo }

/-- A device whose connection has heard a NAK: what came with it is acknowledged, and the congestion window is cut. -/
def Device.nakHeard (d : Device) (id : Nat) (q : Conn) (f : Frame) : Device :=
  ((d.countConn id 4).updConn id fun c =>
    { c.congestNak d.now (q.newlyAcked (q.nakReport f)) with progressAt := d.now, backoff := 0 }).applyAck id (q.nakReport f)

/-- What a change makes of a connection decides the change. -/
theorem Device.updConn_congr {g h : Conn → Conn} (hgh : ∀ c, d.conn id = some c → g c = h c) :
    d.updConn id g = d.updConn id h := by
  unfold Device.updConn Table.update
  unfold Device.conn at hgh
  cases hfind : Table.find d.net.conns id with
  | none => simp only [Device.mapNet, hfind]
  | some c => simp only [Device.mapNet, hfind, hgh c hfind]

include hq in
/-- The bytes that the count of a NAK finds acknowledged are the connection's. -/
theorem Device.nakHeard_is : ((d.countConn id 4).updConn id fun c =>
    { c.congestNak d.now (c.newlyAcked (q.nakReport f)) with progressAt := d.now, backoff := 0 }).applyAck id (q.nakReport f) =
      d.nakHeard id q f := by
  have hcounted : (d.countConn id 4).conn id = some { q with counters := bump q.counters 4 1 } := by
    unfold Device.conn at hq ⊢
    exact (Table.find_update_self _ _ _).trans (by rw [hq]; rfl)
  refine congrArg (Device.applyAck · id _) (Device.updConn_congr fun c hc => ?_)
  obtain rfl := Option.some.inj (hcounted.symm.trans hc)
  rfl

/-- Hearing a NAK takes no time. -/
theorem Device.nakHeard_now (id : Nat) (q : Conn) (f : Frame) : (d.nakHeard id q f).now = d.now :=
  congrArg Tally.now (Device.applyAck_tally _ id (q.nakReport f))

section
variable (ht : (q.tx.find? fun t => decide (t.psn = wirePsn q.ackedTo (fieldBe f.ext 0 4))) = some t)
include hq ht

/-- RX_FULL and PAGE_WAIT ask for a copy 8,000 ticks later (R332). -/
theorem Device.takeNak_again (hcode : fieldBe f.ext 4 1 = 7 ∨ fieldBe f.ext 4 1 = 9) : d.takeNak id f arrived =
    (d.nakHeard id q f).updConn id fun c =>
      { c with tx := c.tx.map fun t => if t.psn = wirePsn q.ackedTo (fieldBe f.ext 0 4) then
          { t with resendAt := some ((d.nakHeard id q f).now + 8000) } else t } := by
  have hconn : ¬ fieldBe f.ext 4 1 = 0x0A := by omega
  rw [Device.nakHeard_now, ← Device.nakHeard_is hq]
  unfold Device.takeNak
  rw [hq]
  refine (if_neg hconn).trans ?_
  rw [ht]
  show (if fieldBe f.ext 4 1 = 7 ∨ fieldBe f.ext 4 1 = 9 then _ else _) = _
  exact if_pos hcode

/-- A final refusal ends its packet. -/
theorem Device.takeNak_final (h7 : fieldBe f.ext 4 1 ≠ 7) (h8 : fieldBe f.ext 4 1 ≠ 8) (h9 : fieldBe f.ext 4 1 ≠ 9)
    (hconn : fieldBe f.ext 4 1 ≠ 0x0A) : d.takeNak id f arrived =
    ((((d.nakHeard id q f).updConn id fun c =>
      { c with tx := c.tx.filter fun t => decide (t.psn ≠ wirePsn q.ackedTo (fieldBe f.ext 0 4)) }).packetRefused id t
        (fieldBe f.ext 4 1)).streamMoved id true).respMoved id q.respPoint f arrived := by
  rw [← Device.nakHeard_is hq]
  unfold Device.takeNak
  rw [hq]
  refine (if_neg hconn).trans ?_
  rw [ht]
  show (if fieldBe f.ext 4 1 = 7 ∨ fieldBe f.ext 4 1 = 9 then _ else _) = _
  exact (if_neg (not_or.2 ⟨h7, h9⟩)).trans (if_neg (not_and.2 fun h => absurd h h8))

end
end

/-! ### Frames of no connection -/

section
variable {s : State} {link : Fin 64} {f : Frame}

/-- A sync frame that arrives is answered or taken by its type. -/
theorem Device.receive_sync (h : Arrives s link 0x20 f) : s.dev.receive link 0x20 f =
    if fieldU8 f.payload 0 = 1 then (s.received link 0x20 f).answerSync link.val f else (s.received link 0x20 f).takeSync f := by
  have hmine := h.mine
  unfold State.received at hmine
  unfold Device.receive
  dsimp only
  rw [if_neg (fun e => e h.up)]
  simp only [h.fits, hmine, Bool.not_true, Bool.false_eq_true, if_false, if_true]
  rfl

/-- A note that arrives is taken. -/
theorem Device.receive_note (h : Arrives s link 0x24 f) : s.dev.receive link 0x24 f = (s.received link 0x24 f).takeNote f := by
  have hmine := h.mine
  unfold State.received at hmine
  have hsync : ¬ 0x24 = 0x20 := by decide
  unfold Device.receive
  dsimp only
  rw [if_neg (fun e => e h.up)]
  simp only [h.fits, hmine, Bool.not_true, Bool.false_eq_true, if_false, hsync, if_true]
  rfl

/-- The root that a sync frame of a right form names is a device id. -/
theorem rootId_lt_of_fits (h : frameFits 0x20 f = true) : fieldU32 f.payload 40 < 2 ^ 18 := by
  unfold frameFits extensionFits at h
  simp only [Bool.and_eq_true, decide_eq_true_eq] at h
  obtain ⟨_, ⟨⟨_, _, hroot⟩, _⟩, _⟩ := h
  exact hroot

end

section
variable {d : Device} {f : Frame}

/-- A LOCKED device answers a member of its folds. -/
theorem Device.answerSync_locked {l : Nat} (hlocked : d.tally.state = .locked) (hmember : d.inSomeFold f.src.toNat = true) :
    d.answerSync l f = (d.mapTally fun t => { t with
      children := (f.src.toNat, t.now) :: t.children.filter fun k => decide (k.1 ≠ f.src.toNat) }).sendLoose [l] 0x20 0
        f.src.toNat ([2, 2, BitVec.ofNat 8 d.tally.level] ++ bytesAt f.payload 3 1 ++ bytesAt f.payload 4 4 ++
          bytesAt f.payload 8 8 ++ leBytes 8 d.tally.now ++ zeros 8 ++ bytesAt f.payload 32 2 ++
          leBytes 2 d.tally.frac.toNat ++ zeros 4 ++
          leBytes 4 d.tally.cfg.rootId ++ zeros 20) := by
  unfold Device.answerSync
  simp only [hlocked, hmember, true_or, decide_true, Bool.and_true, if_true]
  rfl

/-- A device whose open burst has an exchange answered by a usable parent. -/
def Device.exchanged (d : Device) (p : List Byte) (sent : Nat × Nat) : Device :=
  d.mapTally fun t =>
    let t2 : Int := 65536 * fieldU64 p 16 + fieldU16 p 34
    let t3 : Int := 65536 * fieldU64 p 24 + fieldU16 p 36
    { t with burstDone := t.burstDone ++ [{ roundTrip := ((d.fineNow : Int) - sent.2) - (t3 - t2),
                                            twiceOffset := ((sent.2 : Int) - t2) + ((d.fineNow : Int) - t3) }],
             burstAccepted := true, missedInRow := 0, useBackup := t.burstBackup, parentLevel := fieldU8 p 2 }

/-- The answer of a usable parent to an exchange of the open burst is kept; it starts ACQUIRE from FREE and HOLDOVER. -/
theorem Device.takeSync_usable {sent : Nat × Nat} (hroot : fieldU32 f.payload 40 < 2 ^ 18) (hsource : d.tally.isSource = false)
    (h0 : fieldU8 f.payload 1 ≠ 0) (h1 : fieldU8 f.payload 1 ≠ 1) (hlevel : fieldU8 f.payload 2 < 4)
    (hid : fieldU32 f.payload 40 = d.tally.cfg.rootId)
    (hsent : (d.tally.burstSent.find? fun e => decide (e.1 = fieldU32 f.payload 4)) = some sent) : d.takeSync f =
      if d.tally.state = .free ∨ d.tally.state = .holdover then
        ((d.exchanged f.payload sent).mapTally fun t => { t with goodBursts := 0 }).setTallyState .acquire
      else d.exchanged f.payload sent := by
  have hstate : ¬ (fieldU8 f.payload 1 = 0 ∨ fieldU8 f.payload 1 = 1) := not_or.2 ⟨h0, h1⟩
  have hid' : fieldU32 f.payload 40 % 2 ^ 18 = d.tally.cfg.rootId := (Nat.mod_eq_of_lt hroot).trans hid
  unfold Device.takeSync
  dsimp only
  rw [if_neg (by simp only [hsource, hstate, Nat.not_le.2 hlevel, hid', ne_eq, not_true_eq_false, decide_false, Bool.or_self,
    Bool.false_eq_true, not_false_eq_true])]
  simp only [hsent]
  rfl

end

/-- Settles O41. -/
theorem answerFrames : Obligations.AnswerFrames := by
  unfold Obligations.AnswerFrames
  intro s link f c id status now
  refine ⟨?_, ?_, ?_, ?_, ?_, ?_, ?_⟩
  · intro q t h d psn total hq ht
    exact ⟨fun hstatus => exec_unsequenced rfl h rfl (by decide) (by decide) (Device.takeReadResp_refused hq ht hstatus),
      fun hstatus hnew hlast =>
        exec_unsequenced rfl h rfl (by decide) (by decide) (Device.takeReadResp_last hq ht hstatus hnew hlast)⟩
  · intro q t h d psn hq ht
    exact ⟨fun hstatus => exec_unsequenced rfl h rfl (by decide) (by decide) (Device.takeAtomicResp_refused hq ht hstatus),
      fun ring index hstatus horigin =>
        exec_unsequenced rfl h rfl (by decide) (by decide) (Device.takeAtomicResp_descriptor hq ht hstatus horigin),
      fun n hstatus horigin =>
        exec_unsequenced rfl h rfl (by decide) (by decide) (Device.takeAtomicResp_remote hq ht hstatus horigin)⟩
  · intro q h hq
    refine exec_unsequenced rfl h rfl (by decide) (by decide) ?_
    show (s.headed link 0x10 f).takeAck id f = _
    unfold Device.takeAck
    rw [hq]
  · intro q t h hq d code psn report d1 ht
    exact ⟨fun hcode => exec_unsequenced rfl h rfl (by decide) (by decide) (Device.takeNak_again hq ht hcode),
      fun h7 h8 h9 hconn => exec_unsequenced rfl h rfl (by decide) (by decide) (Device.takeNak_final hq ht h7 h8 h9 hconn)⟩
  · intro g h hlocked hmember
    have htype : fieldU8 g.payload 0 = 1 := fieldU8_typed (by decide) f
    exact exec_on rfl (((Device.receive_sync h).trans (if_pos htype)).trans (Device.answerSync_locked hlocked hmember))
  · intro sent g d p h hsource h0 h1 hlevel hid hsent kept
    have htype : ¬ fieldU8 g.payload 0 = 1 := by
      rw [fieldU8_typed (by decide) f]
      decide
    have htake := ((Device.receive_sync h).trans (if_neg htype)).trans
      (Device.takeSync_usable (rootId_lt_of_fits h.fits) hsource h0 h1 hlevel hid hsent)
    refine ⟨fun hstate => exec_on rfl (htake.trans (if_neg ?_)), fun hstate => exec_on rfl (htake.trans (if_pos hstate))⟩
    rcases hstate with h | h <;> simp [d, h]
  · intro h d key known
    refine ⟨fun hknown hnew => exec_on rfl ((Device.receive_note h).trans (if_pos ?_)),
      fun hturned => exec_on rfl ((Device.receive_note h).trans (if_neg ?_))⟩
    · exact Bool.and_eq_true_iff.2 ⟨hknown, by rw [hnew]; rfl⟩
    · intro htaken
      obtain ⟨hknown, hnew⟩ := Bool.and_eq_true_iff.1 htaken
      rcases hturned with h | h
      · exact absurd (h.symm.trans hknown) (by decide)
      · rw [h] at hnew
        exact absurd hnew (by decide)

end Sys2Proof.Machine
end
